-- ==== Sys2Proof/Word.lean ====
section
/-!
DEFINITION. The word types of the machine (R3: every register is 32 bits wide; R21: memory is byte addressed).
-/
namespace Sys2Proof

/-- A 32-bit word: a system register, a strand register, an instruction. -/
abbrev Word := BitVec 32

/-- One byte of a memory. -/
abbrev Byte := BitVec 8

/-- An accumulator of a strand (R112). -/
abbrev Acc := BitVec 72

end Sys2Proof
end

