-- ==== Sys2Proof/Syntax.lean ====
section
/-!
DEFINITION. The commands of the module: one constructor of `Instr` per row of the opcode table, with the operands the
spec gives it. What the outside world decides (a measured quantity, a received frame, the answer of another unit, the
verdict of a signature check) is an operand of the command that brings it (assumption 3).
-/

namespace Sys2Proof


/-! ### What the configuration image holds beyond registers (R34, R113, R183, R375, R449) -/

/-- One stage of a pipeline with its parameters (R183). Coefficients are signed 32-bit words. -/
inductive Stage where
  | dec (d : Nat) (h : List Int)
  | fir (h : List Int)
  | iir (biquads : List (List Int))
  | scale (g e o : Int)
  | sqrt (u : Int)
  | table (pts : List (Int × Int))
  | rtd (pt1000 : Bool)
  | tc (kind : Nat)
  | limit (lo hi ll l h hh hyst : Int)
  | roc (span : Nat) (r : Int)
  | square
  deriving DecidableEq, Repr

/-- The settings of a strand that the configuration image gives and that lie in no register (R34, R113, R119, R133,
R141, R195). -/
structure StrandCfg where
  cls : Nat
  stackSize : Nat
  fxmInit : BitVec 4
  permRd : BitVec 19
  permWr : BitVec 19
  dramBase : Nat
  dramLen : Nat
  /-- result regions of SE jobs: base address and length -/
  regions : List (Nat × Nat)
  deriving DecidableEq, Repr

/-- The defaults of R34, R113, R119 and R145. -/
def StrandCfg.default : StrandCfg :=
  { cls := 0, stackSize := 16384, fxmInit := 0xE, permRd := 0x4FFFF, permWr := 0, dramBase := 0, dramLen := 0,
    regions := [] }

/-- A retentive range of the configuration's keep RAM map (R449, R465): its class, the strand for a range of DMEM or none
for a range of the image, the first byte in the image or DMEM, the length in bytes, the first keep RAM granule, and the bits of
its first and of its last byte that belong to it (0xFF for the whole byte). -/
structure RetRange where
  cls : Nat
  dmem : Option Nat
  off : Nat
  len : Nat
  granule : Nat
  head : Byte
  tail : Byte
  deriving DecidableEq, Repr

/-- What the stream table holds of a stream beside its registers: the source MAC address and VLAN ID of an input stream
(R375), and for a message stream the strand and the DMEM address of its delivery buffer (R380). -/
structure StreamCfg where
  mac : BitVec 48
  vlan : BitVec 12
  bufStrand : Nat
  bufAddr : Nat
  deriving DecidableEq, Repr

def StreamCfg.reset : StreamCfg := { mac := 0, vlan := 0, bufStrand := 0, bufAddr := 0x80000 }


/-! ### Operands of the cycle commands -/

/-- One image item that a session forces (R70, R71): its KIND, its bit or word index (R80) and the value, bit 0 for a bit
item. -/
structure ForceItem where
  kind : Fin 6
  idx : BitVec 24
  value : Word
  deriving DecidableEq, Repr


/-! ### Operands of the DX instructions (R170 to R176) -/

/-- A bit operand: the 2-bit mode and the 24-bit field (R120). -/
structure BitArg where
  mode : BitVec 2
  field : BitVec 24
  deriving DecidableEq, Repr

/-- A memory operand in one of the five addressing modes (R129, R173). -/
inductive AddrArg where
  | base (b : Fin 16) (imm : BitVec 15)
  | index (b i : Fin 16)
  | ptr (n : Fin 4)
  | ptrImm (n : Fin 4) (step : BitVec 14)
  | ptrReg (n : Fin 4) (i : Fin 16)
  deriving DecidableEq, Repr

/-- A shift amount: a register, of which bits 4 to 0 count, or an immediate (R126). -/
inductive ShiftArg where
  | reg (b : Fin 16)
  | imm (sh : BitVec 5)
  deriving DecidableEq, Repr

/-- The bit operand of TSB and CLB: X and the 21-bit field (R174). -/
structure SharedBitArg where
  indexed : Bool
  field : BitVec 21
  deriving DecidableEq, Repr


/-! ### Operands of the signal engine and channel commands -/

/-- What the time-redundancy comparison of an engine finds (R189, R190): the stage code, or 0x10 + KIND for a job; the
two results of the first try, and those of the repeat. -/
structure SeCheck where
  stage : Nat
  r1 : Word
  r2 : Word
  again1 : Word
  again2 : Word
  deriving DecidableEq, Repr

/-- What the latch of a class finds (R43): the readback conversions that output channels make at t0, in µV or nA (R224), and the
comparisons of results computed for the latch by engine and pipeline (R189). -/
structure LatchFacts where
  rdbk : List (Fin 16 × Int) := []
  checks : List (Fin 8 × Nat × SeCheck) := []
  deriving DecidableEq, Repr

/-- One sample of the loop diagnostics of a front end: terminal voltage in mV, current in nA (R223). -/
structure LoopSample where
  vt : Int
  cur : Int
  deriving DecidableEq, Repr


/-! ### Operands of the online edit commands (R285) -/

/-- What an image or a package is bound to: family code, hardware type, minimum hardware revision (R2). -/
structure Binding where
  family : BitVec 16
  hwType : BitVec 16
  minRev : BitVec 8
  deriving DecidableEq, Repr

/-- A place of program data: a byte offset in the DMEM of a strand, or in the image. -/
structure DataPlace where
  dmem : Option (Fin 16)
  off : Nat
  deriving DecidableEq, Repr

/-- A move of the relocation map. -/
structure EditMove where
  old : DataPlace
  new : DataPlace
  len : Nat
  deriving DecidableEq, Repr

/-- An initial value of new data. -/
structure EditInit where
  place : DataPlace
  bytes : List (BitVec 8)
  deriving DecidableEq, Repr

/-- An edit package: sequence number, the configuration it applies to, affected classes, E_est per class in µs, the
declared change set, the new code banks, heddle entries as they shall stand (an entry with VALID = 0 is deleted), producer
masks by class and beat, settings as register address and value, initial values, the relocation map, new stages of the pipelines of universal channels (R207), the retentive layout
where it changes, its size in bytes, and
whether it carries a change of an item that no register holds. `vendorOk` and `ownerOk` are the verdicts on its signatures. -/
structure EditPkg where
  seq : BitVec 16
  base : List (BitVec 8)
  classes : BitVec 4
  eest : List Nat
  declared : List Nat
  code : List (Fin 16 × List (BitVec 8))
  entries : List (Nat × BitVec 256)
  prods : List (Fin 4 × Fin 64 × BitVec 16)
  settings : List (Nat × Word)
  inits : List EditInit
  moves : List EditMove
  stages : List (Fin 16 × List Stage)
  retMap : Option (List RetRange)
  size : Nat
  other : Bool
  vendorOk : Bool
  ownerOk : Bool
  bind : Binding
  deriving DecidableEq, Repr

/-- How the partner answers the forwarded package: with a refusal, its status, reason, heddle entry and reason of R86 (R287, R288). -/
structure EditVerdict where
  status : Fin 12
  reason : Nat
  entry : Nat
  r86 : Nat
  deriving DecidableEq, Repr

/-- How a package comes: from the session or forwarded by the primary; whether more of its messages follow; the answer of the partner
that refuses it; or, of a package that was staged, that the partner has ended its edit, with the cause of R307 (R287, R297). -/
structure PackageVia where
  forwarded : Bool := false
  more : Bool := false
  verdict : Option EditVerdict := none
  ended : Option (Fin 6) := none
  deriving DecidableEq, Repr

/-- The proof report of the standby as its acknowledgements carry it (R296): EDT_PROOF, EDT_REP_ERR, EDT_REP_DIFF and
EDT_REP_TIME, and whether the proof run has ended. -/
structure EditReport where
  proof : Word
  err : Word
  diff : Word
  time : Word
  ended : Bool
  deriving DecidableEq, Repr



/-! ### Operands of the redundancy commands -/

/-- A region of DMEM that the image declares for mirroring (R316, R318): the instance data of a timer or counter, sent
whole, or a region with its base, nominal and maximum length in bytes. -/
structure MirrorRegion where
  strand : Fin 16
  inst : Bool
  base : Nat
  nom : Nat
  max : Nat
  deriving DecidableEq, Repr

/-- The proof extension of a mirror set (R293): the shed of the cycle with its status words, as image bytes and words, and
the committed bytes of the output entries. -/
structure ProofExt where
  shed : List (Nat × BitVec 8)
  sw : List (Nat × BitVec 16)
  outputs : List (Nat × BitVec 8)
  deriving DecidableEq, Repr

/-- A mirror set (R316, R317): class, cycle number and t0, flags, edit marker, and the sections as granules or words with
their places: image granules, status words, keep RAM granules, DMEM bytes by strand and offset (timer and counter instances,
then regions). -/
structure MirrorSet where
  cls : Fin 4
  cycle : BitVec 64
  t0 : BitVec 64
  final : Bool
  align : Bool
  marker : BitVec 16
  values : List (Nat × List (BitVec 8))
  sw : List (Nat × BitVec 16)
  retentive : List (Nat × List (BitVec 8))
  insts : List (Fin 16 × Nat × List (BitVec 8))
  regions : List (Fin 16 × Nat × List (BitVec 8))
  ext : Option ProofExt
  deriving DecidableEq, Repr

/-- The trailer of a set as it is received (R317). -/
structure SetTrailer where
  crc : Word
  granules : Nat
  complete : Bool
  deriving DecidableEq, Repr

/-- What a unit tells its partner in a heartbeat (R315, R325, R326, R339): its role, whether it is ready, its degradation
weight, and whether it needs an alignment. -/
structure Beacon where
  role : Fin 3
  ready : Bool
  weight : Nat
  align : Bool
  deriving DecidableEq, Repr

/-- What a unit shows its partner when a link of the pair comes up (R308, R309). -/
structure PartnerInfo where
  uid : BitVec 128
  cfgHash : List (BitVec 8)
  mlid : Word
  hwtype : BitVec 16
  paired : Bool
  hedge : Bool
  nmod : Nat
  primary : Bool
  deriving DecidableEq, Repr



/-! ### Operands of the hedge commands -/

/-- How the modules of the structure stand, as the top master learns it (R351): which are present, which are in STOP or have
completed step 7 without a configuration fault, whether all links are up and all configuration hashes equal. -/
structure HedgeView where
  present : BitVec 16
  ready : BitVec 16
  linksUp : Bool
  hashesEqual : Bool
  deriving DecidableEq, Repr

/-- What the top master announces (R351, R352): that the hedge is formed, or a mode with the C0 cycle number of its first
t0 (POWER-UP for a RESTART, `cold` or warm), or that a STOP request is forwarded. -/
inductive Announce where
  | formed
  | mode (m : Fin 16) (cycle : BitVec 64) (cold : Bool)
  | stopRequest
  deriving DecidableEq, Repr

/-- A time message (R353): the port ML0 to ML5 on which it arrives, the TB of the top master in ns as the neighbour has sent it, and
the four stamps of the last exchange over the link, in units of 8 ns of the clocks of the two ends: this module's message sent (`t1`)
and received (`t2`), the answer sent (`t3`) and received (`t4`). -/
structure TimeMsg where
  port : Fin 6
  topNs : Nat
  t1 : Nat
  t2 : Nat
  t3 : Nat
  t4 : Nat
  deriving DecidableEq, Repr

/-- A beat message (R356): the class, the beat, the values of the gated entries of the owner as image bytes of this module's
space with their masks, and whether the beat was force-signalled. -/
structure BeatMsg where
  cls : Fin 4
  beat : Fin 64
  owner : BitVec 8
  view : List (Nat × BitVec 8 × BitVec 8)
  forced : Bool
  deriving DecidableEq, Repr

/-- Exports of a module at a hedge beam (R359): the class, the cycle number, the sending module, image bytes of this
module's space with their masks, status words, and the transfer records by channel with the quality of each field by byte
offset. `granules` is the number of granules. -/
structure ExportMsg where
  cls : Fin 4
  cycle : BitVec 64
  sender : Fin 16
  bytes : List (Nat × BitVec 8 × BitVec 8)
  sw : List (Nat × BitVec 16)
  transfers : List (Fin 64 × List (BitVec 8) × List (Nat × Nat))
  deriving DecidableEq, Repr

/-- An access of a strand of another module to this module's memory (R156, R157, R362). -/
inductive MemberReq where
  | load (region : Fin 2) (off size : Nat)
  | store (off size : Nat) (value : Word)
  | lr (off : Nat)
  | sc (off : Nat) (value : Word)
  deriving DecidableEq, Repr

/-- The answer to a banked access (R362): a value, that the module is absent or its path down, or that it refuses the access: as an
address that no strand may access, or as a granule that reads INTEG. -/
inductive BankAnswer where
  | value (v : Word)
  | absent
  | refused (integ : Bool)
  deriving DecidableEq, Repr



/-! ### Operands of the Ethernet commands -/

/-- What an IP frame asks of the steward (R383): ARP, ICMP echo, TCP to a port, anything else. -/
inductive IpKind where
  | arp
  | icmpEcho
  | tcp (port : BitVec 16)
  | other
  deriving DecidableEq, Repr

/-- A received Ethernet frame: addresses and tags, the EtherType, the bytes after it, whether its FCS is correct, its
receive stamp in 8 ns units of TB, and for an IP frame what it asks. VLAN 0 stands for no C-tag. -/
structure EthFrame where
  src : BitVec 48
  vlan : BitVec 12
  rtag : Option (BitVec 16)
  etype : BitVec 16
  payload : List (BitVec 8)
  fcsOk : Bool
  stamp : Nat
  ip : Option IpKind
  deriving DecidableEq, Repr

/-- An IEEE 802.1AS message (R64, R370, R479): the reference time in ns of TB at this instant; an announce with the
system identity of a grandmaster; the offset of TAI from UTC. -/
inductive GptpMsg where
  | sync (refNs : Nat)
  | announce (gm : BitVec 112)
  | utcOffset (seconds : Int)
  deriving DecidableEq, Repr


/-! ### Operands of the CAN commands -/

/-- A CAN frame (R393): identifier, format bits, DLC and data. -/
structure CanFrame where
  id : BitVec 29
  ide : Bool
  rtr : Bool
  fdf : Bool
  brs : Bool
  esi : Bool
  dlc : BitVec 4
  data : List (BitVec 8)
  deriving DecidableEq, Repr

/-- What a bus error adds to the counters of ISO 11898-1 (R411): 1 or 8 to the receive counter, 8 to the transmit counter
of a frame that the port is sending. -/
inductive CanErrorKind where
  | receive
  | receiveDominant
  | transmit
  deriving DecidableEq, Repr


/-! ### Operands of the integrity commands -/

/-- A granule that a scrubber reads: its index within its memory, the bits of the 280 that are in error, and the fold
that the corrected bits hold exclusive-or F(A) (R422, R423). Bits 0 to 17 are the code bits, 18 to 273 the data bits,
274 to 278 the fold bits, 279 the parity bit. -/
structure GranuleRead where
  granule : Nat
  errors : List Nat
  foldXor : BitVec 5
  deriving DecidableEq, Repr

/-- What firmware and the configuration keep in a granule of the general region that a scrub finds INTEG: nothing that
R428 names, a mirror buffer, or steward code or data (R425). -/
inductive GranuleUse where
  | plain
  | mirror
  | steward
  deriving DecidableEq, Repr


/-! ### Operands of the update commands -/

/-- Where a chunk comes from (R497): a session, the partner over ML4 or ML5, the top master over the hedge links. -/
inductive UpdSource where
  | session
  | partner
  | topMaster
  | member
  deriving DecidableEq, Repr

/-- The verdicts on the two signatures of a manifest (R490). -/
structure SigVerdict where
  vendor : Bool
  owner : Bool
  deriving DecidableEq, Repr



/-! ### Operands of START_UP (R274) -/

/-- An import record (R354): the local entry, the owning module and the owner's entry index; the owner entry as the hedge
image holds it. -/
structure ImportRec where
  entry : Nat
  owner : Fin 16
  index : Nat
  remote : BitVec 256
  deriving DecidableEq, Repr

/-- A link of the link map (R348): both ends as module and port. -/
structure HedgeLink where
  mod1 : Fin 16
  port1 : Fin 4
  mod2 : Fin 16
  port2 : Fin 4
  deriving DecidableEq, Repr

/-- A retentive timer of the program (R66, R280): its class and strand, and the DMEM offsets of its start stamp and its PT,
both 8 bytes in µs, and of the byte that is not 0 while it runs. The spec leaves the layout to the DX runtime. -/
structure RetTimer where
  cls : Nat
  strand : Fin 16
  start : Nat
  pt : Nat
  running : Nat
  deriving DecidableEq, Repr

/-- The hedge part of a configuration image (R345 to R360): the path of each module (its member index at each level), the
link map, the bound UIDs by index, the import records, the own entries that each other module imports, for each class the largest hop count P,
the largest link load Gx and the length of its longest transfer record, whether every transfer channel has both ends, and the tables of the other
modules. -/
structure HedgeImage where
  paths : List (List Nat)
  links : List HedgeLink
  uids : List (Fin 16 × BitVec 128)
  imports : List ImportRec
  exports : List (Nat × Fin 16)
  hops : List (Nat × Nat)
  transferMax : Nat
  transferEnds : Bool
  others : List (List (Nat × BitVec 256))
  deriving DecidableEq, Repr

/-- The configuration image as the steward reads it at step 7: settings as register address and value, the classes that each
strand is assigned to with its settings, the heddle table, the initial values of the image and of DMEM, code banks, pipelines
and the places of remote pipelines, the stream table, keep RAM map, mirror regions, the settings format of each channel, the
hedge part, its hash, and its data layout identifiers. -/
structure ConfigImage where
  regs : List (Nat × Word)
  strands : List (BitVec 4 × StrandCfg)
  heddle : List (Nat × BitVec 256)
  initImg : List (Nat × BitVec 8)
  initDmem : List (Fin 16 × Nat × BitVec 8)
  code : List (Fin 16 × List (BitVec 8))
  pipes : List (Nat × List Stage)
  pipeSrc : List (Nat × BitVec 64)
  streams : List (Nat × StreamCfg)
  retMap : List RetRange
  timers : List RetTimer
  mirror : List MirrorRegion
  sfmt : List Nat
  hedge : HedgeImage
  hash : List (BitVec 8)
  deriving DecidableEq, Repr

/-- What the steward reads from a front end at boot (R227 to R229): whether it boots, the verdict on the CRC of its factory
calibration, versions, and the retained settings. -/
structure FrontBoot where
  boots : Bool
  calOk : Bool
  calDay : BitVec 16
  ucode : BitVec 16
  sfmt : Nat
  bootVer : BitVec 8
  deriving DecidableEq, Repr

/-- What the anchor finds in a slot (R494): the verdicts on its signatures, whether every segment hashes as the manifest says, its
binding, and the UIDs that it names, if any (R2, R496). -/
structure SlotCheck where
  sig : SigVerdict
  segments : Bool
  bind : Binding
  uids : List (BitVec 128)
  deriving DecidableEq, Repr

/-- What START_UP finds outside the model: whether the supply has just returned and, then, whether it failed abruptly while
operations of the retain store ran; the results of steps 2 to 6; what each slot holds; the verdicts and the binding of the image of
the selected slot and that image; its microcode version and settings format; the front ends; SLOT_ID; contacts of the key
switch and how long a fault has lasted; BATON_IN; the partner and the hedge; the reference time, if acquired; the cell
voltage in mV (0 when missing); the watchdog slots that firmware registers: CFG, P and SEED of slots 24 to 31; the times from the start of
step 1 to step 7 and to step 8, in ms. -/
structure StartIn where
  supply : Option Bool
  romOk : Bool
  initOk : Bool
  cmpFail : Word
  anchorOk : Bool
  verify0 : SlotCheck
  verify1 : SlotCheck
  sig : SigVerdict
  bind : Binding
  image : ConfigImage
  ucode : BitVec 16
  fronts : List FrontBoot
  slotId : BitVec 4
  contacts : BitVec 4
  keyFault : Bool
  batonIn : Bool
  partner : Option PartnerInfo
  hedge : HedgeView
  refTime : Option (BitVec 64)
  cellMv : Nat
  stewardSlots : List (Fin 8 × Word × Word × Word)
  loadMs : Nat
  bootMs : Nat
  deriving DecidableEq, Repr



/-- A command to the module: one constructor per row of the opcode table. -/
inductive Instr where
  /-- CLOCK_FAULT (R20): The clock monitor finds the root oscillator outside ±500 ppm or the system PLL out of lock; it asserts FAULT_n, drops the baton, de-energises the outputs and holds the die in reset. -/
  | clockFault (cause : Fin 3) (ppm : Int)
  /-- FABRIC_ADMISSION (R28): When a slot of the 128 fabric transactions frees, a request waiting at its agent is admitted in the fixed round order. -/
  | fabricAdmission
  /-- REGISTER_WRITE (R3): A write to a register field that has no row of its own acts according to the field's access code, including W1C clears and LK fields ignored after the lock. -/
  | registerWrite (addr v hw : BitVec 32)
  /-- READ_CLEAR (R4): A read of an RC field returns its value and clears it in one indivisible access, keeping any hardware update of the same clock. -/
  | readClear (addr hw : BitVec 32)
  /-- HIGH_WORD_LATCH (R76): A read of a LO register of a 64-bit value returns its low word and latches the high word for the next read of the HI register. -/
  | highWordLatch (addr : BitVec 32)
  /-- CYCLE_START (R42): At a t0 of a class, the cycle number advances and the cycle begins with the latch, or the t0 is skipped or executes nothing. -/
  | cycleStart (k : Fin 4) (rb above9 : BitVec 32) (found : LatchFacts)
  /-- SHED (R47): At t0 + Dshed the input entries, their values and status words are frozen into the shed in one step. -/
  | shed (k : Fin 4)
  /-- BEAM_START (R50): The beam of a class starts once every strand has executed ENDC and any wait behind another beam or the mirror copy has ended. -/
  | beamStart (k : Fin 4)
  /-- COMMIT_COMPLETE (R52): The beam finishes committing the class; the shuttle starts and remote output frames are built. -/
  | commitComplete (k : Fin 4)
  /-- COMMIT_DEADLINE (R55): At t0 + Δout − Eprep the module tests whether the class's beam has completed. -/
  | commitDeadline (k : Fin 4)
  /-- EMIT (R53): At t0 + Δout the class's local outputs take effect and remote output frames are launched. -/
  | emit (k : Fin 4)
  /-- GATE_CLOSE (R378): At launch minus GUARD, the gates of every traffic class other than RIO_TC close. -/
  | gateClose (p : Fin 4) (k : Fin 4)
  /-- RIO_WINDOW_END (R379): When a RIO window ends, frames not yet started are withdrawn, counted and reported, and the gates reopen. -/
  | rioWindowEnd (p : Fin 4)
  /-- BEAT_TIMEOUT (R99): At the beat timeout instant every strand stalled on a beat raises the BEATTO trap. -/
  | beatTimeout (k : Fin 4)
  /-- GPTP_MESSAGE (R64): An IEEE 802.1AS message is received and TB follows its reference. -/
  | gptpMessage (p : Fin 4) (m : GptpMsg)
  /-- FORCE_SET (R70): A session sets a force on an image bit or word in PROGRAM, refused otherwise or beyond 1,024 items. -/
  | forceSet (items : List ForceItem) (forwarded : Option (BitVec 64))
  /-- FORCE_RELEASE (R70): A session releases a force in PROGRAM. -/
  | forceRelease (items : List ForceItem) (forwarded : Option (BitVec 64))
  /-- ILLEGAL_INSTRUCTION (R169): A word with an unassigned opcode or function code or non-zero reserved bits raises the ILLEGAL trap. -/
  | illegalInstruction (st : Fin 16) (word : Word)
  /-- LDB (R122): BA := the addressed image bit. -/
  | ldb (st : Fin 16) (x : BitArg)
  /-- LDBN (R122): BA := NOT the addressed image bit. -/
  | ldbn (st : Fin 16) (x : BitArg)
  /-- ANDB (R122): BA := BA AND the addressed bit. -/
  | andb (st : Fin 16) (x : BitArg)
  /-- ANDBN (R122): BA := BA AND NOT the addressed bit. -/
  | andbn (st : Fin 16) (x : BitArg)
  /-- ORB (R122): BA := BA OR the addressed bit. -/
  | orb (st : Fin 16) (x : BitArg)
  /-- ORBN (R122): BA := BA OR NOT the addressed bit. -/
  | orbn (st : Fin 16) (x : BitArg)
  /-- XORB (R122): BA := BA XOR the addressed bit. -/
  | xorb (st : Fin 16) (x : BitArg)
  /-- LDBC (R122): BA := the constant v. -/
  | ldbc (st : Fin 16) (v : Bool)
  /-- NOTB (R122): BA := NOT BA. -/
  | notb (st : Fin 16)
  /-- PSHB (R123): Pushes BA onto the bit stack, trapping at depth 16. -/
  | pshb (st : Fin 16)
  /-- ANDPB (R122): BA := top of BS AND BA, then pop. -/
  | andpb (st : Fin 16)
  /-- ORPB (R122): BA := top of BS OR BA, then pop. -/
  | orpb (st : Fin 16)
  /-- XORPB (R122): BA := top of BS XOR BA, then pop. -/
  | xorpb (st : Fin 16)
  /-- POPB (R122): BA := top of BS, then pop. -/
  | popb (st : Fin 16)
  /-- DUPB (R122): BA := top of BS without pop. -/
  | dupb (st : Fin 16)
  /-- OUTB (R124): Stores BA into the addressed bit. -/
  | outb (st : Fin 16) (x : BitArg)
  /-- SETB (R124): Sets the addressed bit when BA = 1. -/
  | setb (st : Fin 16) (x : BitArg)
  /-- RSTB (R124): Clears the addressed bit when BA = 1. -/
  | rstb (st : Fin 16) (x : BitArg)
  /-- EDGR (R125): Detects a rising edge of BA against the memory bit and updates it. -/
  | edgr (st : Fin 16) (indexed : Bool) (field : BitVec 24)
  /-- EDGF (R125): Detects a falling edge of BA against the memory bit and updates it. -/
  | edgf (st : Fin 16) (indexed : Bool) (field : BitVec 24)
  /-- ADD (R126): Wd := a + b. -/
  | add (st : Fin 16) (d a b : Fin 16)
  /-- ADDI (R126): Wd := a + immediate. -/
  | addi (st : Fin 16) (d a : Fin 16) (imm : BitVec 18)
  /-- ADC (R126): Wd := a + b + C. -/
  | adc (st : Fin 16) (d a b : Fin 16)
  /-- SUB (R126): Wd := a − b. -/
  | sub (st : Fin 16) (d a b : Fin 16)
  /-- SUBI (R126): Wd := a − immediate. -/
  | subi (st : Fin 16) (d a : Fin 16) (imm : BitVec 18)
  /-- SBC (R126): Wd := a − b − (1 − C). -/
  | sbc (st : Fin 16) (d a b : Fin 16)
  /-- CMP (R126): Sets the flags from a − b. -/
  | cmp (st : Fin 16) (a b : Fin 16)
  /-- CMPI (R126): Sets the flags from a − immediate. -/
  | cmpi (st : Fin 16) (a : Fin 16) (imm : BitVec 18)
  /-- NEG (R126): Wd := 0 − a. -/
  | neg (st : Fin 16) (d a : Fin 16)
  /-- AND (R126): Bitwise AND of two registers. -/
  | and (st : Fin 16) (d a b : Fin 16)
  /-- ANDI (R126): Bitwise AND with a zero-extended immediate. -/
  | andi (st : Fin 16) (d a : Fin 16) (imm : BitVec 18)
  /-- OR (R126): Bitwise OR of two registers. -/
  | or (st : Fin 16) (d a b : Fin 16)
  /-- ORI (R126): Bitwise OR with a zero-extended immediate. -/
  | ori (st : Fin 16) (d a : Fin 16) (imm : BitVec 18)
  /-- XOR (R126): Bitwise XOR of two registers. -/
  | xor (st : Fin 16) (d a b : Fin 16)
  /-- XORI (R126): Bitwise XOR with a zero-extended immediate. -/
  | xori (st : Fin 16) (d a : Fin 16) (imm : BitVec 18)
  /-- NOT (R126): Wd := bitwise complement of a. -/
  | not (st : Fin 16) (d a : Fin 16)
  /-- TST (R126): Sets the flags from a AND b. -/
  | tst (st : Fin 16) (a b : Fin 16)
  /-- SHL (R126): Shift left by a register or an immediate amount. -/
  | shl (st : Fin 16) (d a : Fin 16) (amt : ShiftArg)
  /-- SHR (R126): Logical shift right by a register or an immediate amount. -/
  | shr (st : Fin 16) (d a : Fin 16) (amt : ShiftArg)
  /-- SAR (R126): Arithmetic shift right by a register or an immediate amount. -/
  | sar (st : Fin 16) (d a : Fin 16) (amt : ShiftArg)
  /-- ROR (R126): Rotate right by a register or an immediate amount. -/
  | ror (st : Fin 16) (d a : Fin 16) (amt : ShiftArg)
  /-- MUL (R126): Low 32 bits of the signed product. -/
  | mul (st : Fin 16) (d a b : Fin 16)
  /-- MULU (R126): Low 32 bits of the unsigned product. -/
  | mulu (st : Fin 16) (d a b : Fin 16)
  /-- DIV (R127): Signed quotient toward zero, trapping on a zero divisor. -/
  | div (st : Fin 16) (d a b : Fin 16)
  /-- DIVU (R127): Unsigned quotient, trapping on a zero divisor. -/
  | divu (st : Fin 16) (d a b : Fin 16)
  /-- REM (R127): Signed remainder, trapping on a zero divisor. -/
  | rem (st : Fin 16) (d a b : Fin 16)
  /-- REMU (R127): Unsigned remainder, trapping on a zero divisor. -/
  | remu (st : Fin 16) (d a b : Fin 16)
  /-- MIN (R126): Signed minimum. -/
  | min (st : Fin 16) (d a b : Fin 16)
  /-- MAX (R126): Signed maximum. -/
  | max (st : Fin 16) (d a b : Fin 16)
  /-- MINU (R126): Unsigned minimum. -/
  | minu (st : Fin 16) (d a b : Fin 16)
  /-- MAXU (R126): Unsigned maximum. -/
  | maxu (st : Fin 16) (d a b : Fin 16)
  /-- CLZ (R126): Counts the leading zero bits of a. -/
  | clz (st : Fin 16) (d a : Fin 16)
  /-- MOV (R126): Wd := a. -/
  | mov (st : Fin 16) (d a : Fin 16)
  /-- MOVL (R126): Wd := zero-extended 16-bit immediate. -/
  | movl (st : Fin 16) (d : Fin 16) (imm : BitVec 16)
  /-- MOVH (R126): Wd[31:16] := 16-bit immediate. -/
  | movh (st : Fin 16) (d : Fin 16) (imm : BitVec 16)
  /-- SXTB (R126): Sign extension from bit 7. -/
  | sxtb (st : Fin 16) (d a : Fin 16)
  /-- SXTH (R126): Sign extension from bit 15. -/
  | sxth (st : Fin 16) (d a : Fin 16)
  /-- ZXTB (R126): Zero extension from bit 7. -/
  | zxtb (st : Fin 16) (d a : Fin 16)
  /-- ZXTH (R126): Zero extension from bit 15. -/
  | zxth (st : Fin 16) (d a : Fin 16)
  /-- MPY (R148): An := P(a, b). -/
  | mpy (st : Fin 16) (n : Fin 2) (a b : Fin 16)
  /-- MAC (R148): An := limit(An + P(a, b), 72). -/
  | mac (st : Fin 16) (n : Fin 2) (a b : Fin 16)
  /-- MSU (R148): An := limit(An − P(a, b), 72). -/
  | msu (st : Fin 16) (n : Fin 2) (a b : Fin 16)
  /-- MACP (R149): Loads operands through two pointers, accumulates their product and post-modifies the pointers. -/
  | macp (st : Fin 16) (n : Fin 2) (pa pb : Fin 4)
  /-- MSUP (R149): As MACP, subtracting the product. -/
  | msup (st : Fin 16) (n : Fin 2) (pa pb : Fin 4)
  /-- CLRA (R148): An := 0. -/
  | clra (st : Fin 16) (n : Fin 2)
  /-- ADDA (R148): An := limit(An + Am, 72). -/
  | adda (st : Fin 16) (n m : Fin 2)
  /-- SUBA (R148): An := limit(An − Am, 72). -/
  | suba (st : Fin 16) (n m : Fin 2)
  /-- ASHA (R148): Shifts an accumulator left with limiting or right with rounding. -/
  | asha (st : Fin 16) (n : Fin 2) (sh : BitVec 6)
  /-- ACCR (R148): Wd := the accumulator rounded and limited to the result width. -/
  | accr (st : Fin 16) (d : Fin 16) (n : Fin 2)
  /-- RDAL (R148): Wd := An[31:0]. -/
  | rdal (st : Fin 16) (d : Fin 16) (n : Fin 2)
  /-- RDAH (R148): Wd := An[63:32]. -/
  | rdah (st : Fin 16) (d : Fin 16) (n : Fin 2)
  /-- RDAG (R148): Wd := An[71:64] sign-extended. -/
  | rdag (st : Fin 16) (d : Fin 16) (n : Fin 2)
  /-- WRAL (R148): An[31:0] := Ws. -/
  | wral (st : Fin 16) (n : Fin 2) (a : Fin 16)
  /-- WRAH (R148): An[63:32] := Ws. -/
  | wrah (st : Fin 16) (n : Fin 2) (a : Fin 16)
  /-- WRAG (R148): An[71:64] := Ws[7:0]. -/
  | wrag (st : Fin 16) (n : Fin 2) (a : Fin 16)
  /-- FMUL (R148): Wd := rounded and limited fixed-point product. -/
  | fmul (st : Fin 16) (d a b : Fin 16)
  /-- QADD (R148): Wd := limit(a + b, w). -/
  | qadd (st : Fin 16) (d a b : Fin 16)
  /-- QSUB (R148): Wd := limit(a − b, w). -/
  | qsub (st : Fin 16) (d a b : Fin 16)
  /-- QNEG (R148): Wd := limit(0 − a, w). -/
  | qneg (st : Fin 16) (d a : Fin 16)
  /-- QABS (R148): Wd := limit(|a|, w). -/
  | qabs (st : Fin 16) (d a : Fin 16)
  /-- LW (R128): Loads a 32-bit word under the addressing modes and image read rules. -/
  | lw (st : Fin 16) (r : Fin 16) (x : AddrArg)
  /-- LH (R128): Loads a sign-extended halfword. -/
  | lh (st : Fin 16) (r : Fin 16) (x : AddrArg)
  /-- LHU (R128): Loads a zero-extended halfword. -/
  | lhu (st : Fin 16) (r : Fin 16) (x : AddrArg)
  /-- LBY (R128): Loads a sign-extended byte. -/
  | lby (st : Fin 16) (r : Fin 16) (x : AddrArg)
  /-- LBYU (R128): Loads a zero-extended byte. -/
  | lbyu (st : Fin 16) (r : Fin 16) (x : AddrArg)
  /-- SW (R128): Stores a 32-bit word, bit by bit into owned image entries. -/
  | sw (st : Fin 16) (r : Fin 16) (x : AddrArg)
  /-- SH (R128): Stores a halfword. -/
  | sh (st : Fin 16) (r : Fin 16) (x : AddrArg)
  /-- SBY (R128): Stores a byte. -/
  | sby (st : Fin 16) (r : Fin 16) (x : AddrArg)
  /-- MOVP (R130): Pn := Ws. -/
  | movp (st : Fin 16) (n : Fin 4) (a : Fin 16)
  /-- RDP (R130): Wd := Pn. -/
  | rdp (st : Fin 16) (d : Fin 16) (n : Fin 4)
  /-- WRL (R130): Loads Ln, trapping on an invalid mode or length. -/
  | wrl (st : Fin 16) (n : Fin 4) (a : Fin 16)
  /-- RDL (R130): Wd := Ln. -/
  | rdl (st : Fin 16) (d : Fin 16) (n : Fin 4)
  /-- LR (R152): Loads a word and places a reservation on its granule. -/
  | lr (st : Fin 16) (d b : Fin 16)
  /-- SC (R152): Stores only with a valid reservation and reports success in Wd. -/
  | sc (st : Fin 16) (d a b : Fin 16)
  /-- TSB (R159): Returns the old value of a shared bit and sets it atomically. -/
  | tsb (st : Fin 16) (d : Fin 16) (x : SharedBitArg)
  /-- CLB (R159): Returns the old value of a shared bit and clears it atomically. -/
  | clb (st : Fin 16) (d : Fin 16) (x : SharedBitArg)
  /-- B (R136): Branches by disp when the condition holds. -/
  | b (st : Fin 16) (cond : BitVec 4) (disp : BitVec 22)
  /-- DBNZ (R136): Decrements Wn and branches when the result is not zero. -/
  | dbnz (st : Fin 16) (n : Fin 16) (disp : BitVec 22)
  /-- JR (R136): PC := Ws. -/
  | jr (st : Fin 16) (a : Fin 16)
  /-- CALL (R135): Pushes PC + 4 onto the return stack and branches by disp. -/
  | call (st : Fin 16) (disp : BitVec 26)
  /-- CALLR (R135): Pushes PC + 4 and jumps to Ws. -/
  | callr (st : Fin 16) (a : Fin 16)
  /-- RET (R135): Pops the return stack into PC. -/
  | ret (st : Fin 16)
  /-- PUSH (R134): Pushes Ws onto the data stack. -/
  | push (st : Fin 16) (a : Fin 16)
  /-- POP (R134): Pops the data stack into Wd. -/
  | pop (st : Fin 16) (d : Fin 16)
  /-- ADJSP (R134): Adds a signed multiple of 4 to DSP. -/
  | adjsp (st : Fin 16) (imm : BitVec 18)
  /-- RDDSP (R134): Wd := DSP. -/
  | rddsp (st : Fin 16) (d : Fin 16)
  /-- RDRSP (R135): Wd := RSP. -/
  | rdrsp (st : Fin 16) (d : Fin 16)
  /-- NOP (R137): No operation. -/
  | nop (st : Fin 16)
  /-- BEAT (R96): A producer signals beat k, taking its beat view. -/
  | beat (st : Fin 16) (k : BitVec 6)
  /-- ENDC (R137): Ends the strand's cycle after its accesses complete. -/
  | endc (st : Fin 16)
  /-- FENCE (R137): Waits until every earlier access of the strand has completed. -/
  | fence (st : Fin 16)
  /-- CHKIN (R139): Checks in to a watchdog slot with a token, judged by the watchdog. -/
  | chkin (st : Fin 16) (a : Fin 16)
  /-- SEJ (R140): Submits a signal-engine job and returns a status and ticket. -/
  | sej (st : Fin 16) (d a : Fin 16)
  /-- RDSYS (R26): Reads a system register subject to the permission mask. -/
  | rdsys (st : Fin 16) (d b : Fin 16) (imm : BitVec 17)
  /-- WRSYS (R26): Writes a system register subject to the permission mask. -/
  | wrsys (st : Fin 16) (a b : Fin 16) (imm : BitVec 17)
  /-- SETBK (R24): Loads BK from a register, trapping on an invalid member or region. -/
  | setbk (st : Fin 16) (a : Fin 16)
  /-- SETBKI (R132): Loads BK from an immediate. -/
  | setbki (st : Fin 16) (imm : BitVec 16)
  /-- RDBK (R132): Wd := BK. -/
  | rdbk (st : Fin 16) (d : Fin 16)
  /-- RDCTX (R137): Wd := strand, member and class indices. -/
  | rdctx (st : Fin 16) (d : Fin 16)
  /-- TRAP (R161): Raises software trap n. -/
  | trap (st : Fin 16) (n : BitVec 6)
  /-- RDFL (R116): Wd := FL. -/
  | rdfl (st : Fin 16) (d : Fin 16)
  /-- WRFL (R116): Sets Z, N, C, V and Q from Ws. -/
  | wrfl (st : Fin 16) (a : Fin 16)
  /-- CLRQ (R116): Clears the sticky Q flag. -/
  | clrq (st : Fin 16)
  /-- RDFXM (R119): Wd := FXM. -/
  | rdfxm (st : Fin 16) (d : Fin 16)
  /-- WRFXM (R119): Loads FXM, trapping on RND = 3. -/
  | wrfxm (st : Fin 16) (a : Fin 16)
  /-- PIPELINE_SAMPLE (R183): A channel pipeline produces an output sample through its stages and writes its result record. -/
  | pipelineSample (p : Fin 256) (bits : List Bool) (feQuality : BitVec 2) (cj sec : Option Int) (copies : Option (BitVec 32 × BitVec 32)) (checks : List SeCheck)
  /-- JOB_COMPLETE (R196): An SE job completes and the engine starts the next accepted job. -/
  | jobComplete (k : Fin 8) (checks : List SeCheck)
  /-- UC_LINK_LOSS (R202): A lost front-end link is detected within 100 µs: ONLINE cleared, records BAD, event 0x0601. -/
  | ucLinkLoss (n : Fin 16)
  /-- BROWNOUT (R220): A passive output whose terminal voltage falls below 6.5 V browns out. -/
  | brownout (n : Fin 16) (vt : Int)
  /-- FRONT_END_RESTART (R221): A browned-out front end restarts when V_T reaches 7.0 V and applies its held command or 3.6 mA. -/
  | frontEndRestart (n : Fin 16) (vt : Int) (intact : Bool)
  /-- COMMAND_LOSS (R217): No command for TMO_MS makes the front end apply LOSS_SEL and set CMDLOSS. -/
  | commandLoss (n : Fin 16)
  /-- DIAG_CHANGE (R223): LOW_COMPLIANCE, COMPLIANCE or OPEN sets or clears after 3 consecutive samples. -/
  | diagChange (n : Fin 16) (a b c : LoopSample)
  /-- ADC_OVERRANGE (R212): An ADC at ±RFS for more than 1 ms makes the record BAD with OVR. -/
  | adcOverrange (n : Fin 16) (x : BitVec 32) (us : Nat)
  /-- LOOP_SHORT (R211): An active loop supply at its limit with V_T below 1.0 V for 1 ms sets SHORT. -/
  | loopShort (n : Fin 16) (vt : Int) (atLimit : Bool) (us : Nat)
  /-- VOLTAGE_OUTPUT_SHORT (R222): A voltage output holding its 25 mA limit for 1 ms sets SHORT with BAD readback. -/
  | voltageOutputShort (n : Fin 16) (atLimit : Bool) (us : Nat)
  /-- COLD_JUNCTION_RESTORE (R213): The sensor value is restored after 10 s back in range. -/
  | coldJunctionRestore (n : Fin 16) (temp : Int) (us : Nat)
  /-- GROUP_SUPPLY_MEASURE (R237): Every 1 ms L+ of each group is measured and its state OK, LOW or OFF decided. -/
  | groupSupplyMeasure (g : Fin 4) (mv : BitVec 16)
  /-- GROUP_CURRENT_TRIP (R238): A group current above 4.4 A for 5 ms switches its outputs off and latches FUSE. -/
  | groupCurrentTrip (g : Fin 4) (ma : BitVec 16)
  /-- OVERLOAD (R243): An output at its current limit for 100 µs switches off and latches OVERLOAD. -/
  | overload (n : Fin 32)
  /-- THERMAL_SHUTDOWN (R243): Thermal shutdown of an output switch acts as OVERLOAD. -/
  | thermalShutdown (n : Fin 32)
  /-- INPUT_FILTER (R239): The filtered input state changes after the terminal holds its new level for the filter time. -/
  | inputFilter (n : Fin 32) (level : Bool)
  /-- COUNTER_EDGE (R248): A selected edge at a counter input, after the glitch filter, counts by the counter mode. -/
  | counterEdge (k : Fin 8) (a b : Bool)
  /-- NO_SIGNAL (R249): No complete period within 12 s gives frequency 0 and sets NOSIG. -/
  | noSignal (k : Fin 8)
  /-- KEY_POSITION_CHANGE (R261): A new valid key position held for 20 ms changes POS and acts on the mode. -/
  | keyPositionChange (pos : Fin 4)
  /-- KEY_FAULT (R259): No contact or several contacts closed for 100 ms set KEYFAULT. -/
  | keyFault (raw : BitVec 4)
  /-- STOP_REQUEST (R265): A remote request to enter STOP, judged against the key and mode tables. -/
  | stopRequest
  /-- PROGRAM_REQUEST (R265): A remote request to enter PROGRAM. -/
  | programRequest
  /-- RUN_REQUEST (R265): A remote request to enter RUN. -/
  | runRequest
  /-- SERVICE_REQUEST (R265): A remote request to enter SERVICE. -/
  | serviceRequest
  /-- DORMANT_REQUEST (R271): A remote request to enter DORMANT. -/
  | dormantRequest
  /-- RESTART_REQUEST (R263): A remote request to reset with cause SERVICE, warm or cold. -/
  | restartRequest (cold : Bool)
  /-- START_UP (R274): After a rise of the logic supply or a reset, the module runs the start-up steps to its first cycle. -/
  | startUp (x : StartIn)
  /-- ROLE_WAIT_EXPIRY (R311): A non-preferred unit that sees no baton within 3 s takes the primary role. -/
  | roleWaitExpiry
  /-- EXTERNAL_RESET (R531): RESET_n released after at least 10 ms resets the module with cause EXT. -/
  | externalReset
  /-- PFAIL (R454): The supply below 18.0 V for 200 µs stops new cycles and starts the power-down flush. -/
  | pfail
  /-- FLUSH_COMPLETE (R454): When the flush pages are complete the flush-end page is written, the open event record sealed and the module reset with cause POR. -/
  | flushComplete
  /-- EDIT_PACKAGE (R288): An edit package arrives and is checked and, when accepted, staged as a STAGED journal record. -/
  | editPackage (pkg : EditPkg) (via : PackageVia)
  /-- EDIT_CONFIRM (R298): The operator confirms an edit and its commit begins. -/
  | editConfirm
  /-- PREPARED_ACK (R299): The standby's acknowledgement of its PREPARED mark arrives and the edit is ARMED. -/
  | preparedAck (seq : BitVec 16)
  /-- PROPOSAL_LAPSE (R299): Without acknowledgement by t0(N) − T0 the proposal lapses and the edit returns to PROVED. -/
  | proposalLapse
  /-- EDIT_ABORT (R297): An ABORT from the session aborts a staged edit and writes VOID. -/
  | editAbort
  /-- DRY_PASS_ABANDON (R291): A dry pass not finished by t0(c+1) − 10 µs is abandoned and counted. -/
  | dryPassAbandon (k : Fin 4)
  /-- PROOF_CYCLE_ABANDON (R294): A proof cycle running longer than Tk is abandoned and counted as over budget. -/
  | proofCycleAbandon (k : Fin 4)
  /-- MELBER_LINK_UP (R349): A Melber port completes training and comes up. -/
  | melberLinkUp (n : Fin 6) (partner : Option PartnerInfo) (hedge : HedgeView)
  /-- MELBER_LINK_DOWN (R349): A port goes down after a third failed check or 4 µs without a valid block. -/
  | melberLinkDown (n : Fin 6)
  /-- FRAME_RESEND (R349): A Melber frame that fails its check is requested again and resent. -/
  | frameResend (n : Fin 6)
  /-- MIRROR_COPY_COMPLETE (R320): The mirror set is copied into the buffer; transmission starts and the waiting weave or beam may start. -/
  | mirrorCopyComplete (k : Fin 4)
  /-- MIRROR_WINDOW_EXPIRY (R321): A set not sent by its commit instant plus W is closed incomplete. -/
  | mirrorWindowExpiry (k : Fin 4)
  /-- MIRROR_SET_RECEIVED (R322): The standby receives a mirror set, keeps it as held set when complete and acknowledges it. -/
  | mirrorSetReceived (m : MirrorSet) (t : SetTrailer)
  /-- SET_ACKNOWLEDGED (R322): The primary receives the standby's acknowledgement of a mirror set. -/
  | setAcknowledged (k : Fin 4) (cycle : BitVec 64) (report : Option EditReport)
  /-- HEARTBEAT (R326): Every 50 µs a unit sends its heartbeat on ML4 and ML5. -/
  | heartbeat
  /-- HEARTBEAT_RECEIVED (R327): A heartbeat of the partner arrives. -/
  | heartbeatReceived (ml5 : Bool) (b : Beacon)
  /-- HEARTBEAT_TIMEOUT (R327): No heartbeat on either link and no witness for 150 µs detects primary failure. -/
  | heartbeatTimeout
  /-- BATON_IN_FALL (R327): A falling BATON_IN detects primary failure. -/
  | batonInFall
  /-- DUAL_PRIMARY_YIELD (R314): A primary whose BATON_IN stays high for 100 µs or 200 µs yields into TRACK. -/
  | dualPrimaryYield
  /-- BATON_FAULT (R315): BATON_IN disagreeing with the partner's role for 10 ms sets BATONFLT. -/
  | batonFault
  /-- BATON_FAULT_CLEAR (R315): BATONFLT clears after 10 s of agreement. -/
  | batonFaultClear
  /-- HANDOVER (R333): RED_CMD HANDOVER starts a planned handover. -/
  | handover
  /-- RESYNC (R325): RED_CMD RESYNC starts alignment of the standby. -/
  | resync
  /-- ALIGNMENT_SEGMENT (R325): An alignment segment is received and acknowledged. -/
  | alignmentSegment (m : MirrorSet) (t : SetTrailer) (ml5 : Bool)
  /-- HANDOVER_PROPOSAL (R334): The standby receives the proposal H = m + 3 and acknowledges. -/
  | handoverProposal (h : BitVec 64) (trigger : Fin 4)
  /-- HANDOVER_ACK (R334): The primary receives the standby's acknowledgement and arms the handover. -/
  | handoverAck (h : BitVec 64)
  /-- HANDOVER_LAPSE (R334): A proposal not acknowledged by t0(H − 1) lapses. -/
  | handoverLapse
  /-- TAKEBACK (R337): After DWELL_S of READY, the preferred unit proposes a handover to itself. -/
  | takeback
  /-- TAKEBACK_DEFERRED (R338): A suppressed takeback runs when the oldest takeback leaves the hour. -/
  | takebackDeferred
  /-- WITNESS_HEARTBEAT (R381): Every 50 µs a witness heartbeat frame is sent over the witness ports. -/
  | witnessHeartbeat (p : Fin 4)
  /-- FORMATION_TIMEOUT (R351): Formation not achieved FORM_S after step 7 raises event 0x0A02. -/
  | formationTimeout (hedge : HedgeView)
  /-- MODE_ANNOUNCE (R352): A module receives the top master's mode change with the cycle number of its first t0. -/
  | modeAnnounce (a : Announce)
  /-- TIME_MESSAGE (R353): Every 125 µs the top master sends a time message down the tree. -/
  | timeMessage
  /-- TIME_MESSAGE_RECEIVED (R353): A module receives, corrects and relays a time message. -/
  | timeMessageReceived (m : TimeMsg)
  /-- BEAT_MESSAGE (R356): A beat view from another module arrives and releases stalled import reads. -/
  | beatMessage (m : BeatMsg)
  /-- EXPORTS (R359): Exported granules and transfer records of a class arrive. -/
  | exports (m : ExportMsg)
  /-- DONE (R359): A master receives DONE from a member and passes DONE up when all are in. -/
  | done (k : Fin 4) (member : Fin 16)
  /-- RELEASE (R359): RELEASE arrives and the hedge beam of the class completes on the module. -/
  | release (k : Fin 4) (cycle : BitVec 64) (late : Bool)
  /-- CUT_INSTANT (R361): At the cut instant without RELEASE the top master sends LATE. -/
  | cutInstant (k : Fin 4)
  /-- LATE (R361): A LATE message makes the module count the cycle as overrun. -/
  | late (k : Fin 4) (cycle : BitVec 64)
  /-- FAIL (R364): A FAIL message puts the module into SAFE. -/
  | fail (member : Option (Fin 16)) (cause : Fin 4)
  /-- HEDGE_HEARTBEAT (R364): Every 250 µs each steward sends its hedge heartbeat. -/
  | hedgeHeartbeat
  /-- HEDGE_HEARTBEAT_TIMEOUT (R364): No hedge heartbeat for 1 ms detects member failure. -/
  | hedgeHeartbeatTimeout (member : Fin 16)
  /-- TB_OFFSET_FAULT (R364): A TB offset from the top master above 2 µs for 1 ms detects failure. -/
  | tbOffsetFault
  /-- TAKEOVER_DISTRIBUTION (R366): A member of a standby hedge receives T_d from its top master. -/
  | takeoverDistribution (td : BitVec 64)
  /-- BANKED_ACCESS_COMPLETE (R362): A banked-window access to another module completes or traps. -/
  | bankedAccessComplete (st : Fin 16) (answer : BankAnswer)
  /-- SC_ANSWER (R157): The owning member's answer to a remote SC arrives. -/
  | scAnswer (st : Fin 16) (failed : Bool)
  /-- ETH_FRAME_RECEIVED (R376): A received Ethernet frame is judged once its last byte has arrived. -/
  | ethFrameReceived (p : Fin 4) (f : EthFrame)
  /-- ETH_LINK_CHANGE (R371): An Ethernet link comes up or goes down, or is held down below SPEED_MIN. -/
  | ethLinkChange (p : Fin 4) (up fullDuplex : Bool) (speed : Fin 3)
  /-- SESSION_CONNECT (R383): A TLS connection is accepted or refused. -/
  | sessionConnect (p : Fin 4) (client : BitVec 32) (certOk : Bool)
  /-- SESSION_IDLE_TIMEOUT (R383): A session without traffic for 600 s is closed. -/
  | sessionIdleTimeout (j : Fin 4)
  /-- QUE_POST (R387): A producer hands N descriptors to the consumer. -/
  | quePost (q : Fin 32) (n : BitVec 11)
  /-- QUE_RETIRE (R387): The consumer returns N FULL descriptors. -/
  | queRetire (q : Fin 32) (n : BitVec 11)
  /-- CAN_FRAME_RECEIVED (R397): A CAN frame received without error is filtered into a mailbox, the queue or discard. -/
  | canFrameReceived (p : Fin 4) (f : CanFrame) (stampNs : Nat)
  /-- TXREQ (R406): A transmit request to a TX_SOFT mailbox is judged and pending. -/
  | txreq (p : Fin 4) (m : Fin 64) (launchAt fdf brs rtr ide : Bool) (dlc : BitVec 4)
  /-- ABORT_PENDING_FRAME (R406): ABORT withdraws a pending frame that has not started arbitration. -/
  | abortPendingFrame (p : Fin 4) (m : Fin 64)
  /-- LAUNCH_TIME (R408): A pending frame becomes ready at its launch time. -/
  | launchTime (p : Fin 4) (m : Fin 64)
  /-- TRANSMIT_DEADLINE (R408): A frame not started by its deadline is withdrawn with TIMEOUT. -/
  | transmitDeadline (p : Fin 4) (m : Fin 64)
  /-- ARBITRATION_START (R407): The port offers the ready frame that would win arbitration. -/
  | arbitrationStart (p : Fin 4) (wins : Bool)
  /-- TRANSMISSION_COMPLETE (R408): A frame completes with status OK and a transmit stamp. -/
  | transmissionComplete (p : Fin 4) (stampNs : Nat)
  /-- CAN_ERROR (R411): A bus error changes the error counters and may change the error state. -/
  | canError (p : Fin 4) (kind : CanErrorKind)
  /-- BUS_OFF_RECOVERY (R411): After 128 occurrences of 11 recessive bits the port leaves bus-off. -/
  | busOffRecovery (p : Fin 4)
  /-- MAILBOX_HEADER_READ (R400): Reading CAN_MB_HDR of an unlocked RX_SOFT mailbox takes the read lock. -/
  | mailboxHeaderRead (p : Fin 4) (m : Fin 64) (agent : Fin 17)
  /-- LAST_DATA_WORD_READ (R400): Reading the last data word releases the lock and moves the shadow in. -/
  | lastDataWordRead (p : Fin 4) (m : Fin 64) (agent : Fin 17)
  /-- LOCK_TIMEOUT (R400): A lock held for 20 µs is released and LOCKTO set. -/
  | lockTimeout (p : Fin 4) (m : Fin 64)
  /-- LOCKSTEP_MISMATCH (R417): A strand pair mismatch stops the pair, sets LSFAIL and enters SAFE in executing modes. -/
  | lockstepMismatch (st : Fin 16) (lane : Fin 7)
  /-- STEWARD_MISMATCH (R419): A steward pair mismatch stops all cores, forces safe outputs and drops the baton. -/
  | stewardMismatch (lane : Fin 8)
  /-- STEWARD_FAULT_RESET (R419): 10 ms after a steward mismatch, the die is reset with cause LOCKSTEP. -/
  | stewardFaultReset
  /-- CORRECTION_WRITE_BACK (R424): A corrected granule is written back in the next idle port clock. -/
  | correctionWriteBack
  /-- SCRUB (R428): The scrubber reads the next granule of the die memories. -/
  | scrub (errors : List Nat) (foldXor : BitVec 5) (use : GranuleUse)
  /-- DRAM_SCRUB (R428): DRAM is scrubbed every 600 s. -/
  | dramScrub (granules : List GranuleRead)
  /-- KEEP_RAM_SCRUB (R428): The companion scrubs keep RAM every 10 s. -/
  | keepRamScrub (granules : List GranuleRead)
  /-- WATCHDOG_PERIOD_END (R431): A slot period closes and a slot without a check-in is judged MISSING. -/
  | watchdogPeriodEnd (slot : Fin 32)
  /-- STEWARD_CHECK_IN (R431): A steward thread's check-in write is judged by the watchdog. -/
  | stewardCheckIn (slot : Fin 32) (token : BitVec 16)
  /-- THREAD_RESTART_TIMEOUT (R434): A level-1 thread restart not confirmed within 10 ms escalates to level 2. -/
  | threadRestartTimeout (slot : Fin 32)
  /-- TRICKLE (R451): The trickle writes a journal page of dirty retentive granules. -/
  | trickle
  /-- CHECKPOINT_PAGE (R452): One checkpoint page is written into the ring. -/
  | checkpointPage
  /-- STORE_OPERATION_END (R444): A retain store operation ends and its place is granted to a waiting request. -/
  | storeOperationEnd (bank : Fin 16)
  /-- READ_COMMAND (R445): RET_CMD read of rows, blocking or non-blocking. -/
  | readCommand
  /-- WRITE_COMMAND (R446): RET_CMD write of rows, judged before any byte is written. -/
  | writeCommand
  /-- PAGE_ERASE (R443): RET_CMD page erase. -/
  | pageErase
  /-- ROW_PROGRAM (R443): RET_CMD row program of a BLANK row. -/
  | rowProgram
  /-- BIT_PROGRAM (R443): RET_CMD bit program of a raw row. -/
  | bitProgram
  /-- QS_INCREMENT (R459): A quickset counter increment programs the next tally bit or is refused with WEAR. -/
  | qsIncrement (i : BitVec 8) (n : BitVec 16)
  /-- EVENT_INTAKE (R462): An event arrives through Q30 and is recorded, opened or repeat-counted. -/
  | eventIntake
  /-- SEAL_TIMEOUT (R462): An open record open for 60 s is sealed. -/
  | sealTimeout
  /-- CONSOLIDATION_REQUEST (R457): In SERVICE the steward consolidates the ring into keep RAM on request. -/
  | consolidationRequest
  /-- RTC_SET (R473): GO stages an RTC set, or is ignored while one is pending. -/
  | rtcSet
  /-- RTC_SET_APPLY (R473): At the next tick edge the counter takes the staged value and the step is added to kept ticks. -/
  | rtcSetApply
  /-- CLOCK_SET_REQUEST (R474): A session requests an RTC set, refused in RUN-LOCKED. -/
  | clockSetRequest (value : BitVec 48)
  /-- ARM (R481): ARM arms the alarm and clears FIRED and LATE. -/
  | arm
  /-- DISARM (R481): DISARM clears ARMED. -/
  | disarm
  /-- WAKE_CONFIG (R483): Writing WAKE_EN or K sets NW := counter + 2^K. -/
  | wakeConfig (enable : Bool) (k : BitVec 5)
  /-- ALARM_FIRE (R481): The counter reaches ALARM and the alarm fires, waking DORMANT. -/
  | alarmFire
  /-- PERIODIC_WAKE (R483): The counter reaches NW, WAKE is set and NW advances, waking DORMANT. -/
  | periodicWake
  /-- MAINS_WINDOW (R478): A mains window ends and TRIM is computed or the window discarded. -/
  | mainsWindow (ticks : Nat) (inRange : Bool)
  /-- TB_LATCH (R478): Every 16 s the counter and TB are latched to update TRIM or AUTOSET the RTC. -/
  | tbLatch (rho : Int)
  /-- DELIVERY_START (R498): Chunk 0 is checked and opens a delivery into the inactive slot. -/
  | deliveryStart (src : UpdSource) (header : List (BitVec 8)) (sig : SigVerdict)
  /-- CHUNK (R500): A later chunk is written, read back and marked received. -/
  | chunk (src : UpdSource) (n : BitVec 12) (bytes : List (BitVec 8)) (readBack : Bool)
  /-- ABORT (R501): UPD_CMD ABORT closes the open delivery. -/
  | abort
  /-- ACTIVATE (R502): UPD_CMD ACTIVATE is judged and, when accepted, writes the fallback copy. -/
  | activate (sig : SigVerdict)
  /-- FALLBACK_COPY_WRITTEN (R502): The fallback copy is written and the inactive slot marked TRIAL. -/
  | fallbackCopyWritten
  /-- REJECT (R504): UPD_CMD REJECT fails the trial. -/
  | reject
  /-- TRIAL_WINDOW_END (R504): The trial window ends without confirmation and the trial fails. -/
  | trialWindowEnd
  /-- PRIV_UPDATE (R507): UPD_CMD PRIV_UPDATE replaces the anchor or front-end boot loaders. -/
  | privUpdate (holdOk : Bool)
  /-- PRIV_UPDATE_END (R507): The privileged write ends and event 0x1109 reports it. -/
  | privUpdateEnd (status : Fin 12) (front : BitVec 4)
  /-- ENROL (R491): UPD_CMD ENROL burns an owner key entry. -/
  | enrol (key : List (BitVec 8)) (sigOk : Bool)
  /-- REVOKE (R491): UPD_CMD REVOKE burns an owner key's revoke bit. -/
  | revoke (entry : Fin 4) (sigOk : Bool)
  /-- RECOVERY_IMAGE (R506): In recovery the anchor accepts a slot image and marks it CONFIRMED. -/
  | recoveryImage (image : List (BitVec 8)) (sig : SigVerdict)
  /-- ATTESTATION_REQUEST (R508): A session's nonce request returns a signed attestation report. -/
  | attestationRequest (nonce : BitVec 256)
  /-- OBS_LINK_CHANGE (R512): OBS link training completes or the link drops. -/
  | obsLinkChange (up : Bool)
  /-- TRACE_START (R517): OBS_RT_CFG START requests a retirement trace. -/
  | traceStart
  /-- TRACE_STOP (R518): OBS_RT_CFG STOP ends capture. -/
  | traceStop
  /-- TRACE_DRAIN_END (R518): The trace buffer finishes draining over OBS. -/
  | traceDrainEnd
  /-- SNAP (R520): Copies every counter into the snapshot registers with a TB stamp. -/
  | snap
  /-- CLEAR (R520): Sets every counter and OVF bit to 0. -/
  | clear
  /-- FREEZE (R520): Stops or resumes every counter increment. -/
  | freeze (on : Bool)
  /-- RTC_TICK (R477): At each crystal tick the phase accumulator adds TRIM and the RTC counter advances by one, two or zero, wrapping to 0 with WRAP after 0xFFFF_FFFF_FFFF. -/
  | rtcTick
  /-- CELL_SWITCH_OVER (R527): Without the logic supply the always-on companion switches from the supercap to the cell when the supercap falls below 2.8 V. -/
  | cellSwitchOver
  /-- ALWAYS_ON_SUPPLY_LOSS (R470): The always-on domain loses every supply, and the RTC count and keep RAM are lost. -/
  | alwaysOnSupplyLoss
  /-- RESET_N_ASSERTED (R531): RESET_n goes below 0.8 V and the module holds its outputs as in POWER-UP while the line stays asserted. -/
  | resetNAsserted
  /-- BATON_IN_RISE (R311): BATON_IN rises; a waiting non-preferred unit enters TRACK, and a primary starts timing its yield. -/
  | batonInRise
  /-- KEY_FAULT_CLEAR (R259): A valid key position read for 20 ms without interruption clears KEYFAULT and raises event 0x0103 as cleared. -/
  | keyFaultClear (pos : Fin 4)
  /-- MAINS_REF_ABSENT (R478): With REFSRC 1, a MAINS_REF input absent for 1 s discards the window and clears REFOK. -/
  | mainsRefAbsent
  /-- SEQUENCE_RECOVERY_RESET (R370): The 802.1CB vector recovery of a replicated stream resets its history after 100 ms without a frame. -/
  | sequenceRecoveryReset (i : Fin 1024)
  /-- GPTP_SYNC_INTERVAL (R370): At each configured sync interval a port in the master role sends its IEEE 802.1AS sync messages. -/
  | gptpSyncInterval (p : Fin 4)
  /-- ETH_FRAME_TRANSMITTED (R385): An Ethernet port finishes sending a frame from Q4–Q7, stamps it and returns its descriptors to the producer. -/
  | ethFrameTransmitted (p : Fin 4) (stamp : Nat)
  /-- COMMIT_PROPOSAL_RECEIVED (R299): The standby receives the commit proposal N, writes its PREPARED mark and acknowledges. -/
  | commitProposalReceived (seq : BitVec 16) (n : BitVec 64)
  /-- SWAP_ACKNOWLEDGEMENT (R302): A unit receives the partner's swap acknowledgement for an affected class, which may make the edit final. -/
  | swapAcknowledgement (k : Fin 4)
  /-- CROSS_FADE_STEP (R331): Every 10 µs during a current output cross-fade, both front ends recompute k and drive their shares of the loop current. -/
  | crossFadeStep (n : Fin 16)
  /-- MEMBER_ACCESS_REQUEST (R362): A banked-window access or remote LR/SC from another module arrives and is served on the owning module's memory. -/
  | memberAccessRequest (member st : Fin 16) (req : MemberReq)
  deriving DecidableEq, Repr

end Sys2Proof
end

