-- ==== Sys2Proof/Decode.lean ====
section
/-!
DEFINITION. Reading a command from bits. The table gives no row any bits: the commands of a block are not words, so no word spells one
(assumption 1). The words of the strands' instruction memories have the encoding of R169 to R176, and `dxDecode` reads it: which
instruction a word is, and that a word of no instruction raises ILLEGAL.
-/
namespace Sys2Proof

/-- The command that a word spells by the table's bits: none, since no row of the table has bits.
DEDUCED: assumption 1. -/
def decodeTableWord (_nbits _w : Nat) : Option Instr := none

/-! ## The encoding of the strands' instructions (R169 to R176) -/

/-- `n` bits of a word from bit `lo` on. -/
def dxField (w lo n : Nat) : Nat := w / 2 ^ lo % 2 ^ n

/-- The register number in a 4-bit field. -/
def dxReg4 (w lo : Nat) : Fin 16 := Fin.ofNat 16 (dxField w lo 4)

/-- The pointer or length register number in a 2-bit field. -/
def dxReg2 (w lo : Nat) : Fin 4 := Fin.ofNat 4 (dxField w lo 2)

/-- The accumulator in a 1-bit field. -/
def dxAcc (w lo : Nat) : Fin 2 := Fin.ofNat 2 (dxField w lo 1)

/-- An immediate of `n` bits in bits [n-1:0]. -/
def dxImm (w n : Nat) : BitVec n := BitVec.ofNat n w

/-- An instruction whose other bits must be 0 (R169). -/
def dxIf (ok : Bool) (i : Instr) : Option Instr := if ok then some i else none

/-- The bit groups (R170). -/
def dxBit (st : Fin 16) (w major : Nat) : Option Instr :=
  let x : BitArg := { mode := BitVec.ofNat 2 (dxField w 24 2), field := dxImm w 24 }
  let indexed := dxField w 24 1 == 1
  match major with
  | 0x00 => some (.ldb st x)
  | 0x01 => some (.ldbn st x)
  | 0x02 => some (.andb st x)
  | 0x03 => some (.andbn st x)
  | 0x04 => some (.orb st x)
  | 0x05 => some (.orbn st x)
  | 0x06 => some (.xorb st x)
  | 0x08 => some (.outb st x)
  | 0x09 => some (.setb st x)
  | 0x0A => some (.rstb st x)
  | 0x0B => some (if dxField w 25 1 = 1 then .edgf st indexed (dxImm w 24) else .edgr st indexed (dxImm w 24))
  | _ => none

/-- The bit-stack operations of major opcode 0x07 (R170). -/
def dxStack (st : Fin 16) (w : Nat) : Option Instr :=
  let v := dxField w 4 1
  if dxField w 5 21 ≠ 0 then none
  else match dxField w 0 4 with
    | 0x0 => some (.ldbc st (v == 1))
    | 0x1 => dxIf (v == 0) (.notb st)
    | 0x2 => dxIf (v == 0) (.pshb st)
    | 0x3 => dxIf (v == 0) (.andpb st)
    | 0x4 => dxIf (v == 0) (.orpb st)
    | 0x5 => dxIf (v == 0) (.xorpb st)
    | 0x6 => dxIf (v == 0) (.popb st)
    | 0x7 => dxIf (v == 0) (.dupb st)
    | _ => none

/-- Function codes of major opcode 0x10 in which Wb is not used. -/
def aluOneSource (func : Nat) : Bool :=
  func == 0x05 || func == 0x0B || (0x14 ≤ func && func ≤ 0x17) || func == 0x24 || (0x28 ≤ func && func ≤ 0x2C)

/-- The word ALU in the R format: Wd, Wa, Wb, [13:11] reserved, sh, func (R171). -/
def dxAlu (st : Fin 16) (w : Nat) : Option Instr :=
  let d := dxReg4 w 22
  let a := dxReg4 w 18
  let b := dxReg4 w 14
  let func := dxField w 0 6
  let sh : BitVec 5 := BitVec.ofNat 5 (dxField w 6 5)
  let ok := dxField w 11 3 == 0 && (sh == 0 || (0x14 ≤ func && func ≤ 0x17)) && (b == 0 || !aluOneSource func) &&
    (d == 0 || !(func == 0x04 || func == 0x0C))
  match func with
  | 0x00 => dxIf ok (.add st d a b)
  | 0x01 => dxIf ok (.adc st d a b)
  | 0x02 => dxIf ok (.sub st d a b)
  | 0x03 => dxIf ok (.sbc st d a b)
  | 0x04 => dxIf ok (.cmp st a b)
  | 0x05 => dxIf ok (.neg st d a)
  | 0x08 => dxIf ok (.and st d a b)
  | 0x09 => dxIf ok (.or st d a b)
  | 0x0A => dxIf ok (.xor st d a b)
  | 0x0B => dxIf ok (.not st d a)
  | 0x0C => dxIf ok (.tst st a b)
  | 0x10 => dxIf ok (.shl st d a (.reg b))
  | 0x11 => dxIf ok (.shr st d a (.reg b))
  | 0x12 => dxIf ok (.sar st d a (.reg b))
  | 0x13 => dxIf ok (.ror st d a (.reg b))
  | 0x14 => dxIf ok (.shl st d a (.imm sh))
  | 0x15 => dxIf ok (.shr st d a (.imm sh))
  | 0x16 => dxIf ok (.sar st d a (.imm sh))
  | 0x17 => dxIf ok (.ror st d a (.imm sh))
  | 0x18 => dxIf ok (.mul st d a b)
  | 0x19 => dxIf ok (.mulu st d a b)
  | 0x1A => dxIf ok (.div st d a b)
  | 0x1B => dxIf ok (.divu st d a b)
  | 0x1C => dxIf ok (.rem st d a b)
  | 0x1D => dxIf ok (.remu st d a b)
  | 0x20 => dxIf ok (.min st d a b)
  | 0x21 => dxIf ok (.max st d a b)
  | 0x22 => dxIf ok (.minu st d a b)
  | 0x23 => dxIf ok (.maxu st d a b)
  | 0x24 => dxIf ok (.clz st d a)
  | 0x28 => dxIf ok (.mov st d a)
  | 0x29 => dxIf ok (.sxtb st d a)
  | 0x2A => dxIf ok (.sxth st d a)
  | 0x2B => dxIf ok (.zxtb st d a)
  | 0x2C => dxIf ok (.zxth st d a)
  | _ => none

/-- The word ALU with an immediate (R171). -/
def dxAluImm (st : Fin 16) (w major : Nat) : Option Instr :=
  let d := dxReg4 w 22
  let a := dxReg4 w 18
  match major with
  | 0x11 => some (.addi st d a (dxImm w 18))
  | 0x12 => some (.subi st d a (dxImm w 18))
  | 0x13 => dxIf (d == 0) (.cmpi st a (dxImm w 18))
  | 0x14 => some (.andi st d a (dxImm w 18))
  | 0x15 => some (.ori st d a (dxImm w 18))
  | 0x16 => some (.xori st d a (dxImm w 18))
  | 0x17 => dxIf (dxField w 17 5 == 0) (if dxField w 16 1 = 1 then .movh st d (dxImm w 16) else .movl st d (dxImm w 16))
  | _ => none

/-- The accumulator forms of major opcode 0x1A: Am is used by ADDA and SUBA, s by ASHA, W by ACCR and the RDA and WRA forms (R172). -/
def dxAccOp (st : Fin 16) (w : Nat) : Option Instr :=
  let n := dxAcc w 25
  let m := dxAcc w 24
  let r := dxReg4 w 20
  let s := dxField w 14 6
  let func := dxField w 0 6
  let ok := dxField w 6 8 == 0 && (m == 0 || func == 0x01 || func == 0x02) && (s == 0 || func == 0x03) &&
    (r == 0 || 0x04 ≤ func)
  match func with
  | 0x00 => dxIf ok (.clra st n)
  | 0x01 => dxIf ok (.adda st n m)
  | 0x02 => dxIf ok (.suba st n m)
  | 0x03 => dxIf ok (.asha st n (BitVec.ofNat 6 s))
  | 0x04 => dxIf ok (.accr st r n)
  | 0x05 => dxIf ok (.rdal st r n)
  | 0x06 => dxIf ok (.rdah st r n)
  | 0x07 => dxIf ok (.rdag st r n)
  | 0x08 => dxIf ok (.wral st n r)
  | 0x09 => dxIf ok (.wrah st n r)
  | 0x0A => dxIf ok (.wrag st n r)
  | _ => none

/-- The fixed-point group (R172). -/
def dxFixed (st : Fin 16) (w major : Nat) : Option Instr :=
  let n := dxAcc w 25
  match major with
  | 0x18 =>
    let ok := dxField w 6 11 == 0
    let a := dxReg4 w 21
    let b := dxReg4 w 17
    match dxField w 0 6 with
    | 0x00 => dxIf ok (.mpy st n a b)
    | 0x01 => dxIf ok (.mac st n a b)
    | 0x02 => dxIf ok (.msu st n a b)
    | _ => none
  | 0x19 =>
    let ok := dxField w 2 19 == 0
    match dxField w 0 2 with
    | 0 => dxIf ok (.macp st n (dxReg2 w 23) (dxReg2 w 21))
    | 1 => dxIf ok (.msup st n (dxReg2 w 23) (dxReg2 w 21))
    | _ => none
  | 0x1A => dxAccOp st w
  | 0x1B =>
    let ok := dxField w 6 8 == 0
    let d := dxReg4 w 22
    let a := dxReg4 w 18
    let b := dxReg4 w 14
    match dxField w 0 6 with
    | 0x00 => dxIf ok (.fmul st d a b)
    | 0x01 => dxIf ok (.qadd st d a b)
    | 0x02 => dxIf ok (.qsub st d a b)
    | 0x03 => dxIf (ok && b == 0) (.qneg st d a)
    | 0x04 => dxIf (ok && b == 0) (.qabs st d a)
    | _ => none
  | _ => none

/-- The load with a size code (R173). -/
def dxLoad (st r : Fin 16) (x : AddrArg) (size : Nat) : Option Instr :=
  match size with
  | 0 => some (.lw st r x)
  | 1 => some (.lh st r x)
  | 2 => some (.lhu st r x)
  | 3 => some (.lby st r x)
  | 4 => some (.lbyu st r x)
  | _ => none

/-- The store with a size code (R173). -/
def dxStore (st r : Fin 16) (x : AddrArg) (size : Nat) : Option Instr :=
  match size with
  | 0 => some (.sw st r x)
  | 1 => some (.sh st r x)
  | 3 => some (.sby st r x)
  | _ => none

/-- The pointer operand of major opcode 0x23 (R173). -/
def dxPointer (w : Nat) : Option AddrArg :=
  let n := dxReg2 w 20
  match dxField w 18 2 with
  | 0 => if dxField w 0 14 = 0 then some (.ptr n) else none
  | 1 => some (.ptrImm n (dxImm w 14))
  | 2 => if dxField w 0 10 = 0 then some (.ptrReg n (dxReg4 w 10)) else none
  | _ => none

/-- Loads, stores and pointers (R173). -/
def dxMemory (st : Fin 16) (w major : Nat) : Option Instr :=
  let r := dxReg4 w 22
  match major with
  | 0x20 => dxLoad st r (.base (dxReg4 w 18) (dxImm w 15)) (dxField w 15 3)
  | 0x21 => dxStore st r (.base (dxReg4 w 18) (dxImm w 15)) (dxField w 15 3)
  | 0x22 =>
    let x : AddrArg := .index (dxReg4 w 18) (dxReg4 w 14)
    if dxField w 0 10 ≠ 0 then none
    else if dxField w 13 1 = 1 then dxStore st r x (dxField w 10 3) else dxLoad st r x (dxField w 10 3)
  | 0x23 =>
    match dxPointer w with
    | some x => if dxField w 17 1 = 1 then dxStore st r x (dxField w 14 3) else dxLoad st r x (dxField w 14 3)
    | none => none
  | 0x24 =>
    if dxField w 4 16 ≠ 0 then none
    else match dxField w 0 4 with
      | 0 => some (.movp st (dxReg2 w 20) r)
      | 1 => some (.rdp st r (dxReg2 w 20))
      | 2 => some (.wrl st (dxReg2 w 20) r)
      | 3 => some (.rdl st r (dxReg2 w 20))
      | _ => none
  | _ => none

/-- The atomics (R174). -/
def dxAtomic (st : Fin 16) (w major : Nat) : Option Instr :=
  let d := dxReg4 w 22
  let b := dxReg4 w 18
  let x : SharedBitArg := { indexed := dxField w 21 1 == 1, field := dxImm w 21 }
  match major with
  | 0x28 => dxIf (dxField w 0 18 == 0) (.lr st d b)
  | 0x29 => dxIf (dxField w 0 14 == 0) (.sc st d (dxReg4 w 14) b)
  | 0x2A => some (.tsb st d x)
  | 0x2B => some (.clb st d x)
  | _ => none

/-- Branches, calls and stacks (R175). -/
def dxBranch (st : Fin 16) (w major : Nat) : Option Instr :=
  let r := dxReg4 w 22
  match major with
  | 0x30 => some (.b st (BitVec.ofNat 4 (dxField w 22 4)) (dxImm w 22))
  | 0x31 => some (.dbnz st r (dxImm w 22))
  | 0x32 => some (.call st (dxImm w 26))
  | 0x33 =>
    if dxField w 4 18 ≠ 0 then none
    else match dxField w 0 4 with
      | 0 => some (.jr st r)
      | 1 => some (.callr st r)
      | 2 => dxIf (r == 0) (.ret st)
      | _ => none
  | 0x38 => dxIf (dxField w 0 22 == 0) (.push st r)
  | 0x39 => dxIf (dxField w 0 22 == 0) (.pop st r)
  | 0x3A => dxIf (dxField w 18 8 == 0) (.adjsp st (dxImm w 18))
  | 0x3B =>
    if dxField w 4 18 ≠ 0 then none
    else match dxField w 0 4 with
      | 0 => some (.rddsp st r)
      | 1 => some (.rdrsp st r)
      | _ => none
  | _ => none

/-- The system group (R176). -/
def dxSys (st : Fin 16) (w major : Nat) : Option Instr :=
  let r := dxReg4 w 22
  let a := dxReg4 w 18
  let k : BitVec 6 := BitVec.ofNat 6 (dxField w 12 6)
  let func := dxField w 0 6
  let none1 := r == 0
  let ok := dxField w 6 6 == 0 && (a == 0 || func == 0x05) && (k == 0 || func == 0x01 || func == 0x06)
  match major with
  | 0x3C =>
    match func with
    | 0x00 => dxIf (ok && none1) (.nop st)
    | 0x01 => dxIf (ok && none1) (.beat st k)
    | 0x02 => dxIf (ok && none1) (.endc st)
    | 0x03 => dxIf (ok && none1) (.fence st)
    | 0x04 => dxIf ok (.chkin st r)
    | 0x05 => dxIf ok (.sej st r a)
    | 0x06 => dxIf (ok && none1) (.trap st k)
    | 0x07 => dxIf ok (.rdctx st r)
    | 0x08 => dxIf ok (.rdfl st r)
    | 0x09 => dxIf ok (.wrfl st r)
    | 0x0A => dxIf (ok && none1) (.clrq st)
    | 0x0B => dxIf ok (.rdfxm st r)
    | 0x0C => dxIf ok (.wrfxm st r)
    | 0x0D => dxIf ok (.setbk st r)
    | 0x0E => dxIf ok (.rdbk st r)
    | _ => none
  | 0x3D => dxIf (dxField w 16 10 == 0) (.setbki st (dxImm w 16))
  | 0x3E => some (if dxField w 17 1 = 1 then .wrsys st r a (dxImm w 17) else .rdsys st r a (dxImm w 17))
  | _ => none

/-- The instruction that a word of strand `st` is; none raises ILLEGAL (R169). Reserved bit modes, conditions and trap numbers stand in
their fields, and the instructions that carry them raise ILLEGAL themselves (R118, R120, R176). -/
def dxDecode (st : Fin 16) (word : Word) : Option Instr :=
  let w := word.toNat
  let major := w / 2 ^ 26
  if major = 0x07 then dxStack st w
  else if major < 0x0C then dxBit st w major
  else if major = 0x10 then dxAlu st w
  else if major < 0x18 then dxAluImm st w major
  else if major < 0x1C then dxFixed st w major
  else if major < 0x25 then dxMemory st w major
  else if major < 0x2C then dxAtomic st w major
  else if major < 0x3C then dxBranch st w major
  else dxSys st w major

end Sys2Proof
end

