-- ==== Sys2Proof/Config.lean ====
section
/-!
DEFINITION. What one unit fixes at manufacture, and the free values: constants without a body, of which nothing can be
proved but that they have a value. A free value that is drawn afresh each time is applied to the counter `State.free`.
-/
namespace Sys2Proof

/-- The hardware revision letter of this unit (R1). -/
opaque Config.hwRev : BitVec 8

/-- The unit identifier, unique per module (R1). -/
opaque Config.uid : BitVec 128

/-- A word that the spec leaves open, drawn at count `n` (assumption 4). -/
opaque Config.freeWord : Nat → Word

/-- An integer that the spec bounds but does not fix, drawn at count `n`; the user limits it to its bounds
(assumption 4). -/
opaque Config.freeInt : Nat → Int

/-- A number that the spec bounds but does not fix, drawn at count `n`. -/
opaque Config.freeNat : Nat → Nat

/-- Voltage in nV of a thermocouple of a type at a temperature in m°C: the reference functions of IEC 60584-1 are not in the
spec (R183, assumption 4). -/
opaque Config.tcRef : Nat → Int → Int

/-- Deviation in m°C of an RTD stage from the inverse of the standard's function at a resistance ratio; the user limits it to its
bounds (R183, assumption 4). -/
opaque Config.rtdDev : Int → Int

/-- Deviation in m°C of a TC stage from the inverse of the reference function of a type, at a voltage in nV; the user limits it to
its bounds (R183, assumption 4). -/
opaque Config.tcDev : Nat → Int → Int

/-- The Q31 twiddle factor, real and imaginary part, with which an FFT of a number of points multiplies point `k` of its odd half:
the spec does not give its rounding (R194, assumption 4). -/
opaque Config.twiddle : Nat → Nat → Int × Int

/-- Thermocouple type and cold-junction temperature in m°C of a TC block job, from the ORDER and PARAM of its descriptor: the spec
does not say how a job names them (R193, R194, assumption 4). -/
opaque Config.tcJob : Nat → Nat → Nat × Int

/-- Deviation, in 32-bit units, of a butterfly of an FFT from the exact sum that it rounds; the user limits it to one unit: the spec
does not say where a stage rounds (R194, assumption 4). -/
opaque Config.fftDev : Int → Int

/-- Factory gain in Q2.30 and offset in raw Q31 units of a universal channel in the range of a mode, and the offset in m°C of its
cold-junction sensor: the calibration area is written at manufacture alone (R203, R227). -/
opaque Config.calGain : Nat → Nat → Int
opaque Config.calOffset : Nat → Nat → Int
opaque Config.calJunction : Nat → Int

/-- Loop current in nA of a passive output that only draws its housekeeping current or cannot regulate, by channel and TB in µs; the
user limits it to its bounds (R215, R219, assumption 4). -/
opaque Config.loopDraw : Nat → Nat → Nat

/-- Clock class, accuracy and variance (32 bits) over the clock identity (64 bits) that this unit announces as a
grandmaster: the spec gives neither (R370, assumption 4). -/
opaque Config.gmIdentity : BitVec 96

/-- The signature of an attestation report over its bytes, made with the unit's identity key (R508). -/
opaque Config.sign : List Byte → List Byte

/-- The configuration hash with the packages of the journal records applied to it, over the hash of the image: the
spec does not say how records enter it (R304, assumption 4). -/
opaque Config.cfgHash : List Byte → List EditPkg → List Byte

/-- A binding is this unit's: its family, its hardware type, and a hardware revision that is not below the least (R1, R2). -/
def Binding.ok (b : Binding) : Bool :=
  b.family == 0x4B52 && b.hwType == 0x3216 && !decide (Config.hwRev.toNat < b.minRev.toNat)

end Sys2Proof
end

