-- ==== Sys2Proof/Machine/Fields.lean ====
section
/-!
DEFINITION. The names of the registers and fields of the system register space, as the register maps of the
spec give them (R25 and the rule of each block). An argument is the index that the map names.
-/
namespace Sys2Proof.Machine

/-- A field of a system register: the register, its lowest bit and its width. -/
structure Fld where
  addr : Nat
  lo : Nat
  width : Nat
  deriving DecidableEq, Repr

/-! Block SYSCTL (R167 and R283). -/

def TRAP_POL : Nat := 0x40000800
abbrev TRAP_POL_POL : Fld := ⟨TRAP_POL, 0, 4⟩
def TRAP_SUM : Nat := 0x40000804
abbrev TRAP_SUM_TRAPPED : Fld := ⟨TRAP_SUM, 0, 16⟩
def TRAP_INFO (s : Nat) : Nat := 0x40000840 + s * 0x8
abbrev TRAP_INFO_COUNT (s : Nat) : Fld := ⟨(TRAP_INFO s), 16, 16⟩
abbrev TRAP_INFO_HANDLING (s : Nat) : Fld := ⟨(TRAP_INFO s), 8, 2⟩
abbrev TRAP_INFO_CODE (s : Nat) : Fld := ⟨(TRAP_INFO s), 0, 6⟩
def TRAP_PC (s : Nat) : Nat := 0x40000844 + s * 0x8
abbrev TRAP_PC_PC (s : Nat) : Fld := ⟨(TRAP_PC s), 0, 32⟩
def SYS_ID : Nat := 0x40000000
abbrev SYS_ID_HWTYPE : Fld := ⟨SYS_ID, 16, 16⟩
abbrev SYS_ID_FAMILY : Fld := ⟨SYS_ID, 0, 16⟩
def SYS_REV : Nat := 0x40000004
abbrev SYS_REV_REV : Fld := ⟨SYS_REV, 0, 8⟩
def SYS_UID (n : Nat) : Nat := 0x40000010 + n * 0x4
abbrev SYS_UID_UID (n : Nat) : Fld := ⟨(SYS_UID n), 0, 32⟩
def SYS_MODE : Nat := 0x40000020
abbrev SYS_MODE_LOCKBLK : Fld := ⟨SYS_MODE, 11, 1⟩
abbrev SYS_MODE_CFGFAULT : Fld := ⟨SYS_MODE, 10, 1⟩
abbrev SYS_MODE_PROOF : Fld := ⟨SYS_MODE, 9, 1⟩
abbrev SYS_MODE_PREV : Fld := ⟨SYS_MODE, 4, 4⟩
abbrev SYS_MODE_MODE : Fld := ⟨SYS_MODE, 0, 4⟩
def SYS_KEY : Nat := 0x40000024
abbrev SYS_KEY_RAW : Fld := ⟨SYS_KEY, 4, 4⟩
abbrev SYS_KEY_KEYFAULT : Fld := ⟨SYS_KEY, 2, 1⟩
abbrev SYS_KEY_POS : Fld := ⟨SYS_KEY, 0, 2⟩
def SYS_MODEREQ : Nat := 0x40000028
abbrev SYS_MODEREQ_COLD : Fld := ⟨SYS_MODEREQ, 4, 1⟩
abbrev SYS_MODEREQ_REQ : Fld := ⟨SYS_MODEREQ, 0, 4⟩
def SYS_REQSTAT : Nat := 0x4000002C
abbrev SYS_REQSTAT_SEQ : Fld := ⟨SYS_REQSTAT, 16, 16⟩
abbrev SYS_REQSTAT_REQ : Fld := ⟨SYS_REQSTAT, 8, 4⟩
abbrev SYS_REQSTAT_STATUS : Fld := ⟨SYS_REQSTAT, 0, 8⟩
def SYS_RSTCAUSE : Nat := 0x40000030
abbrev SYS_RSTCAUSE_RETSRC : Fld := ⟨SYS_RSTCAUSE, 9, 2⟩
abbrev SYS_RSTCAUSE_COLD : Fld := ⟨SYS_RSTCAUSE, 8, 1⟩
abbrev SYS_RSTCAUSE_WAKE : Fld := ⟨SYS_RSTCAUSE, 4, 1⟩
abbrev SYS_RSTCAUSE_CAUSE : Fld := ⟨SYS_RSTCAUSE, 0, 4⟩
def SYS_RSTCNT : Nat := 0x40000034
abbrev SYS_RSTCNT_COUNT : Fld := ⟨SYS_RSTCNT, 0, 32⟩
def SYS_CFGLOCK : Nat := 0x40000040
abbrev SYS_CFGLOCK_LOCK : Fld := ⟨SYS_CFGLOCK, 0, 1⟩
def SYS_RESTART : Nat := 0x40000044
abbrev SYS_RESTART_AUTOSTART : Fld := ⟨SYS_RESTART, 3, 1⟩
abbrev SYS_RESTART_RETTMR : Fld := ⟨SYS_RESTART, 2, 1⟩
abbrev SYS_RESTART_STOPRUN : Fld := ⟨SYS_RESTART, 1, 1⟩
abbrev SYS_RESTART_PWRRET : Fld := ⟨SYS_RESTART, 0, 1⟩
def SYS_BOOT : Nat := 0x40000050
abbrev SYS_BOOT_BOOT_MS : Fld := ⟨SYS_BOOT, 16, 16⟩
abbrev SYS_BOOT_REASON : Fld := ⟨SYS_BOOT, 8, 8⟩
abbrev SYS_BOOT_FAIL : Fld := ⟨SYS_BOOT, 4, 1⟩
abbrev SYS_BOOT_STEP : Fld := ⟨SYS_BOOT, 0, 4⟩
def SYS_CMPFAIL : Nat := 0x40000054
abbrev SYS_CMPFAIL_PREDEC : Fld := ⟨SYS_CMPFAIL, 25, 1⟩
abbrev SYS_CMPFAIL_STEWARD : Fld := ⟨SYS_CMPFAIL, 24, 1⟩
abbrev SYS_CMPFAIL_SE : Fld := ⟨SYS_CMPFAIL, 16, 8⟩
abbrev SYS_CMPFAIL_STRAND : Fld := ⟨SYS_CMPFAIL, 0, 16⟩
def SYS_FAULT : Nat := 0x40000060
abbrev SYS_FAULT_EVCODE : Fld := ⟨SYS_FAULT, 0, 16⟩
def SYS_EVT : Nat := 0x40000064
abbrev SYS_EVT_REQREJ : Fld := ⟨SYS_EVT, 3, 1⟩
abbrev SYS_EVT_KEYFLT : Fld := ⟨SYS_EVT, 2, 1⟩
abbrev SYS_EVT_KEYCHG : Fld := ⟨SYS_EVT, 1, 1⟩
abbrev SYS_EVT_MODECHG : Fld := ⟨SYS_EVT, 0, 1⟩
def SYS_LOCKOUT : Nat := 0x40000070
abbrev SYS_LOCKOUT_FLAG : Fld := ⟨SYS_LOCKOUT, 0, 1⟩

/-! Block CYC (R76). -/

def CYC_T0 : Nat := 0x40010000
abbrev CYC_T0_T0_US : Fld := ⟨CYC_T0, 0, 20⟩
def CYC_EPOCH_LO : Nat := 0x40010004
abbrev CYC_EPOCH_LO_EPOCH_LO : Fld := ⟨CYC_EPOCH_LO, 0, 32⟩
def CYC_EPOCH_HI : Nat := 0x40010008
abbrev CYC_EPOCH_HI_EPOCH_HI : Fld := ⟨CYC_EPOCH_HI, 0, 32⟩
def CYC_TB_LO : Nat := 0x40010010
abbrev CYC_TB_LO_TB_LO : Fld := ⟨CYC_TB_LO, 0, 32⟩
def CYC_TB_HI : Nat := 0x40010014
abbrev CYC_TB_HI_TB_HI : Fld := ⟨CYC_TB_HI, 0, 32⟩
def CYC_SYNC : Nat := 0x40010018
abbrev CYC_SYNC_SLEW : Fld := ⟨CYC_SYNC, 16, 16⟩
abbrev CYC_SYNC_SOURCE : Fld := ⟨CYC_SYNC, 3, 2⟩
abbrev CYC_SYNC_STEPOPEN : Fld := ⟨CYC_SYNC, 2, 1⟩
abbrev CYC_SYNC_SLEWING : Fld := ⟨CYC_SYNC, 1, 1⟩
abbrev CYC_SYNC_SYNC : Fld := ⟨CYC_SYNC, 0, 1⟩
def CYC_OFFSET : Nat := 0x4001001C
abbrev CYC_OFFSET_OFFSET_NS : Fld := ⟨CYC_OFFSET, 0, 32⟩
def CYC_EVT : Nat := 0x40010020
abbrev CYC_EVT_TB_STEPPED : Fld := ⟨CYC_EVT, 2, 1⟩
abbrev CYC_EVT_SYNC_GAINED : Fld := ⟨CYC_EVT, 1, 1⟩
abbrev CYC_EVT_SYNC_LOST : Fld := ⟨CYC_EVT, 0, 1⟩
def CLS_CFG (k : Nat) : Nat := 0x40010100 + k * 0x40
abbrev CLS_CFG_EN (k : Nat) : Fld := ⟨(CLS_CFG k), 31, 1⟩
abbrev CLS_CFG_ACTION (k : Nat) : Fld := ⟨(CLS_CFG k), 28, 1⟩
abbrev CLS_CFG_PHASE (k : Nat) : Fld := ⟨(CLS_CFG k), 16, 10⟩
abbrev CLS_CFG_N (k : Nat) : Fld := ⟨(CLS_CFG k), 0, 10⟩
def CLS_DOUT (k : Nat) : Nat := 0x40010104 + k * 0x40
abbrev CLS_DOUT_DOUT_US (k : Nat) : Fld := ⟨(CLS_DOUT k), 0, 30⟩
def CLS_DSHED (k : Nat) : Nat := 0x40010108 + k * 0x40
abbrev CLS_DSHED_DSHED_US (k : Nat) : Fld := ⟨(CLS_DSHED k), 0, 30⟩
def CLS_GUARD (k : Nat) : Nat := 0x4001010C + k * 0x40
abbrev CLS_GUARD_GUARD_US (k : Nat) : Fld := ⟨(CLS_GUARD k), 0, 30⟩
def CLS_OVRLIM (k : Nat) : Nat := 0x40010110 + k * 0x40
abbrev CLS_OVRLIM_K_WINDOW (k : Nat) : Fld := ⟨(CLS_OVRLIM k), 8, 8⟩
abbrev CLS_OVRLIM_K_CONSEC (k : Nat) : Fld := ⟨(CLS_OVRLIM k), 0, 4⟩
def CLS_CYC_LO (k : Nat) : Nat := 0x40010114 + k * 0x40
abbrev CLS_CYC_LO_CYC_LO (k : Nat) : Fld := ⟨(CLS_CYC_LO k), 0, 32⟩
def CLS_CYC_HI (k : Nat) : Nat := 0x40010118 + k * 0x40
abbrev CLS_CYC_HI_CYC_HI (k : Nat) : Fld := ⟨(CLS_CYC_HI k), 0, 32⟩
def CLS_T0_LO (k : Nat) : Nat := 0x4001011C + k * 0x40
abbrev CLS_T0_LO_T0_LO (k : Nat) : Fld := ⟨(CLS_T0_LO k), 0, 32⟩
def CLS_T0_HI (k : Nat) : Nat := 0x40010120 + k * 0x40
abbrev CLS_T0_HI_T0_HI (k : Nat) : Fld := ⟨(CLS_T0_HI k), 0, 32⟩
def CLS_STAT (k : Nat) : Nat := 0x40010124 + k * 0x40
abbrev CLS_STAT_FAULTED (k : Nat) : Fld := ⟨(CLS_STAT k), 31, 1⟩
abbrev CLS_STAT_WINCNT (k : Nat) : Fld := ⟨(CLS_STAT k), 8, 11⟩
abbrev CLS_STAT_CONSEC (k : Nat) : Fld := ⟨(CLS_STAT k), 4, 4⟩
abbrev CLS_STAT_PHASE_NOW (k : Nat) : Fld := ⟨(CLS_STAT k), 0, 3⟩
def CLS_COMMIT (k : Nat) : Nat := 0x40010128 + k * 0x40
abbrev CLS_COMMIT_LAST_US (k : Nat) : Fld := ⟨(CLS_COMMIT k), 0, 30⟩
def CLS_COMMIT_MAX (k : Nat) : Nat := 0x4001012C + k * 0x40
abbrev CLS_COMMIT_MAX_MAX_US (k : Nat) : Fld := ⟨(CLS_COMMIT_MAX k), 0, 30⟩
def CLS_OVRTOT (k : Nat) : Nat := 0x40010130 + k * 0x40
abbrev CLS_OVRTOT_OVRTOT (k : Nat) : Fld := ⟨(CLS_OVRTOT k), 0, 32⟩
def CLS_EVT (k : Nat) : Nat := 0x40010134 + k * 0x40
abbrev CLS_EVT_FAULT (k : Nat) : Fld := ⟨(CLS_EVT k), 2, 1⟩
abbrev CLS_EVT_SKIP (k : Nat) : Fld := ⟨(CLS_EVT k), 1, 1⟩
abbrev CLS_EVT_OVR (k : Nat) : Fld := ⟨(CLS_EVT k), 0, 1⟩

/-! Block HDL (R109). -/

def HDL_STAT : Nat := 0x40020000
abbrev HDL_STAT_LOADED : Fld := ⟨HDL_STAT, 31, 1⟩
abbrev HDL_STAT_NVALID : Fld := ⟨HDL_STAT, 0, 15⟩
def HDL_LDERR : Nat := 0x40020004
abbrev HDL_LDERR_REASON : Fld := ⟨HDL_LDERR, 16, 8⟩
abbrev HDL_LDERR_ENTRY : Fld := ⟨HDL_LDERR, 0, 14⟩
def HDL_LDERR2 : Nat := 0x40020008
abbrev HDL_LDERR2_OTHER : Fld := ⟨HDL_LDERR2, 0, 14⟩
def HDL_WIN_IDX : Nat := 0x40020010
abbrev HDL_WIN_IDX_IDX : Fld := ⟨HDL_WIN_IDX, 0, 14⟩
def HDL_WIN_D (n : Nat) : Nat := 0x40020020 + n * 0x4
abbrev HDL_WIN_D_DATA (n : Nat) : Fld := ⟨(HDL_WIN_D n), 0, 32⟩
def HDL_OWNCFG : Nat := 0x40020040
abbrev HDL_OWNCFG_OWNV_TRAP : Fld := ⟨HDL_OWNCFG, 0, 4⟩
def HDL_OWNV : Nat := 0x40020044
abbrev HDL_OWNV_OWNV : Fld := ⟨HDL_OWNV, 0, 16⟩
def HDL_OWNV_TOT : Nat := 0x40020048
abbrev HDL_OWNV_TOT_TOTAL : Fld := ⟨HDL_OWNV_TOT, 0, 32⟩
def HDL_OWNV_ADDR (s : Nat) : Nat := 0x40020080 + s * 0x4
abbrev HDL_OWNV_ADDR_ADDR (s : Nat) : Fld := ⟨(HDL_OWNV_ADDR s), 0, 32⟩
def HDL_GMAX (k : Nat) : Nat := 0x40020100 + k * 0x10
abbrev HDL_GMAX_GMAX (k : Nat) : Fld := ⟨(HDL_GMAX k), 0, 20⟩
def HDL_BEAMWC (k : Nat) : Nat := 0x40020104 + k * 0x10
abbrev HDL_BEAMWC_WC_NS (k : Nat) : Fld := ⟨(HDL_BEAMWC k), 0, 32⟩
def HDL_GLAST (k : Nat) : Nat := 0x40020108 + k * 0x10
abbrev HDL_GLAST_GLAST (k : Nat) : Fld := ⟨(HDL_GLAST k), 0, 20⟩
def HDL_BEAMLAST (k : Nat) : Nat := 0x4002010C + k * 0x10
abbrev HDL_BEAMLAST_LAST_NS (k : Nat) : Fld := ⟨(HDL_BEAMLAST k), 0, 32⟩

/-! Block BEAT (R110). -/

def BEAT_TO (k : Nat) : Nat := 0x40030000 + k * 0x4
abbrev BEAT_TO_TO_PCT (k : Nat) : Fld := ⟨(BEAT_TO k), 0, 7⟩
def BEAT_SIG_LO (k : Nat) : Nat := 0x40030010 + k * 0x8
abbrev BEAT_SIG_LO_SIG (k : Nat) : Fld := ⟨(BEAT_SIG_LO k), 0, 32⟩
def BEAT_SIG_HI (k : Nat) : Nat := 0x40030014 + k * 0x8
abbrev BEAT_SIG_HI_SIG (k : Nat) : Fld := ⟨(BEAT_SIG_HI k), 0, 32⟩
def BEAT_FRC_LO (k : Nat) : Nat := 0x40030030 + k * 0x8
abbrev BEAT_FRC_LO_FRC (k : Nat) : Fld := ⟨(BEAT_FRC_LO k), 0, 32⟩
def BEAT_FRC_HI (k : Nat) : Nat := 0x40030034 + k * 0x8
abbrev BEAT_FRC_HI_FRC (k : Nat) : Fld := ⟨(BEAT_FRC_HI k), 0, 32⟩
def BEAT_WAIT : Nat := 0x40030050
abbrev BEAT_WAIT_WAITING : Fld := ⟨BEAT_WAIT, 0, 16⟩
def BEAT_EVT : Nat := 0x40030054
abbrev BEAT_EVT_MISSED : Fld := ⟨BEAT_EVT, 12, 4⟩
abbrev BEAT_EVT_STRAY : Fld := ⟨BEAT_EVT, 8, 4⟩
abbrev BEAT_EVT_FORCED : Fld := ⟨BEAT_EVT, 4, 4⟩
abbrev BEAT_EVT_TIMEOUT : Fld := ⟨BEAT_EVT, 0, 4⟩
def BEAT_TOCNT : Nat := 0x40030058
abbrev BEAT_TOCNT_TOCNT : Fld := ⟨BEAT_TOCNT, 0, 32⟩
def BEAT_PROD (k : Nat) (b : Nat) : Nat := 0x40030100 + k * 0x100 + b * 0x4
abbrev BEAT_PROD_PROD (k : Nat) (b : Nat) : Fld := ⟨(BEAT_PROD k b), 0, 16⟩

/-! Block SE (R199). -/

def SE_STAT : Nat := 0x40040000
abbrev SE_STAT_CONFIGURED : Fld := ⟨SE_STAT, 8, 8⟩
abbrev SE_STAT_FAILED : Fld := ⟨SE_STAT, 0, 8⟩
def SE_EVT : Nat := 0x40040004
abbrev SE_EVT_UNASSIGNED : Fld := ⟨SE_EVT, 17, 1⟩
abbrev SE_EVT_JOBTO : Fld := ⟨SE_EVT, 16, 1⟩
abbrev SE_EVT_RETRY : Fld := ⟨SE_EVT, 8, 8⟩
abbrev SE_EVT_FAIL : Fld := ⟨SE_EVT, 0, 8⟩
def SE_LOAD (k : Nat) : Nat := 0x40040100 + k * 0x20
abbrev SE_LOAD_LOAD_M (k : Nat) : Fld := ⟨(SE_LOAD k), 0, 11⟩
def SE_JOBPERM (k : Nat) : Nat := 0x40040104 + k * 0x20
abbrev SE_JOBPERM_PERM (k : Nat) : Fld := ⟨(SE_JOBPERM k), 0, 16⟩
def SE_JOBSTAT (k : Nat) : Nat := 0x40040108 + k * 0x20
abbrev SE_JOBSTAT_NEXTSEQ (k : Nat) : Fld := ⟨(SE_JOBSTAT k), 16, 13⟩
abbrev SE_JOBSTAT_PENDING (k : Nat) : Fld := ⟨(SE_JOBSTAT k), 0, 4⟩
def SE_RETRYCNT (k : Nat) : Nat := 0x4004010C + k * 0x20
abbrev SE_RETRYCNT_RETRIES (k : Nat) : Fld := ⟨(SE_RETRYCNT k), 0, 32⟩
def SE_JOBAREA (k : Nat) : Nat := 0x40040110 + k * 0x20
abbrev SE_JOBAREA_PIPE_END (k : Nat) : Fld := ⟨(SE_JOBAREA k), 0, 18⟩
def SE_PIPE_CFG (p : Nat) : Nat := 0x40041000 + p * 0x10
abbrev SE_PIPE_CFG_EN (p : Nat) : Fld := ⟨(SE_PIPE_CFG p), 31, 1⟩
abbrev SE_PIPE_CFG_ENGINE (p : Nat) : Fld := ⟨(SE_PIPE_CFG p), 28, 3⟩
abbrev SE_PIPE_CFG_NSTAGE (p : Nat) : Fld := ⟨(SE_PIPE_CFG p), 24, 4⟩
abbrev SE_PIPE_CFG_RATE (p : Nat) : Fld := ⟨(SE_PIPE_CFG p), 0, 18⟩
def SE_PIPE_TAU (p : Nat) : Nat := 0x40041004 + p * 0x10
abbrev SE_PIPE_TAU_TAU (p : Nat) : Fld := ⟨(SE_PIPE_TAU p), 0, 24⟩
def SE_PIPE_DLY (p : Nat) : Nat := 0x40041008 + p * 0x10
abbrev SE_PIPE_DLY_DLY_US (p : Nat) : Fld := ⟨(SE_PIPE_DLY p), 0, 20⟩
def SE_PIPE_STAT (p : Nat) : Nat := 0x4004100C + p * 0x10
abbrev SE_PIPE_STAT_SUBST_HOLD (p : Nat) : Fld := ⟨(SE_PIPE_STAT p), 31, 1⟩
abbrev SE_PIPE_STAT_HOST (p : Nat) : Fld := ⟨(SE_PIPE_STAT p), 28, 3⟩
abbrev SE_PIPE_STAT_ALARMS (p : Nat) : Fld := ⟨(SE_PIPE_STAT p), 8, 8⟩
abbrev SE_PIPE_STAT_QUALITY (p : Nat) : Fld := ⟨(SE_PIPE_STAT p), 0, 8⟩

/-! Block UC (R234). -/

def UC_MODE (n : Nat) : Nat := 0x40050000 + n * 0x1000
abbrev UC_MODE_SHARED (n : Nat) : Fld := ⟨(UC_MODE n), 20, 1⟩
abbrev UC_MODE_WIRES (n : Nat) : Fld := ⟨(UC_MODE n), 16, 2⟩
abbrev UC_MODE_PRESET (n : Nat) : Fld := ⟨(UC_MODE n), 8, 4⟩
abbrev UC_MODE_MODE (n : Nat) : Fld := ⟨(UC_MODE n), 0, 8⟩
def UC_CJC (n : Nat) : Nat := 0x40050004 + n * 0x1000
abbrev UC_CJC_FIXED (n : Nat) : Fld := ⟨(UC_CJC n), 31, 1⟩
abbrev UC_CJC_CJ_FIX (n : Nat) : Fld := ⟨(UC_CJC n), 0, 16⟩
def UC_CMDTMO (n : Nat) : Nat := 0x40050008 + n * 0x1000
abbrev UC_CMDTMO_TMO_MS (n : Nat) : Fld := ⟨(UC_CMDTMO n), 0, 14⟩
def UC_FAILSEL (n : Nat) : Nat := 0x4005000C + n * 0x1000
abbrev UC_FAILSEL_SAFE_SEL (n : Nat) : Fld := ⟨(UC_FAILSEL n), 12, 3⟩
abbrev UC_FAILSEL_STOP_SEL (n : Nat) : Fld := ⟨(UC_FAILSEL n), 8, 3⟩
abbrev UC_FAILSEL_BADQ_SEL (n : Nat) : Fld := ⟨(UC_FAILSEL n), 4, 3⟩
abbrev UC_FAILSEL_LOSS_SEL (n : Nat) : Fld := ⟨(UC_FAILSEL n), 0, 3⟩
def UC_STOPVAL (n : Nat) : Nat := 0x40050010 + n * 0x1000
abbrev UC_STOPVAL_STOPVAL (n : Nat) : Fld := ⟨(UC_STOPVAL n), 0, 32⟩
def UC_SAFEVAL (n : Nat) : Nat := 0x40050014 + n * 0x1000
abbrev UC_SAFEVAL_SAFEVAL (n : Nat) : Fld := ⟨(UC_SAFEVAL n), 0, 32⟩
def UC_TRIM_OFS (n : Nat) : Nat := 0x40050018 + n * 0x1000
abbrev UC_TRIM_OFS_TRIM_OFS (n : Nat) : Fld := ⟨(UC_TRIM_OFS n), 0, 32⟩
def UC_TRIM_GAIN (n : Nat) : Nat := 0x4005001C + n * 0x1000
abbrev UC_TRIM_GAIN_TRIM_GAIN (n : Nat) : Fld := ⟨(UC_TRIM_GAIN n), 0, 32⟩
def UC_STAT (n : Nat) : Nat := 0x40050020 + n * 0x1000
abbrev UC_STAT_ONLINE (n : Nat) : Fld := ⟨(UC_STAT n), 31, 1⟩
abbrev UC_STAT_CAL_OK (n : Nat) : Fld := ⟨(UC_STAT n), 30, 1⟩
abbrev UC_STAT_FMT_OK (n : Nat) : Fld := ⟨(UC_STAT n), 29, 1⟩
abbrev UC_STAT_RETAINED (n : Nat) : Fld := ⟨(UC_STAT n), 28, 1⟩
abbrev UC_STAT_DIAG (n : Nat) : Fld := ⟨(UC_STAT n), 16, 8⟩
abbrev UC_STAT_RBQ (n : Nat) : Fld := ⟨(UC_STAT n), 8, 2⟩
def UC_RDBK (n : Nat) : Nat := 0x40050024 + n * 0x1000
abbrev UC_RDBK_VALUE (n : Nat) : Fld := ⟨(UC_RDBK n), 0, 32⟩
def UC_VT (n : Nat) : Nat := 0x40050028 + n * 0x1000
abbrev UC_VT_VT_MV (n : Nat) : Fld := ⟨(UC_VT n), 0, 16⟩
def UC_CMDLAST (n : Nat) : Nat := 0x4005002C + n * 0x1000
abbrev UC_CMDLAST_CMD (n : Nat) : Fld := ⟨(UC_CMDLAST n), 0, 32⟩
def UC_EVT (n : Nat) : Nat := 0x40050030 + n * 0x1000
abbrev UC_EVT_FMTDEF (n : Nat) : Fld := ⟨(UC_EVT n), 4, 1⟩
abbrev UC_EVT_CALBAD (n : Nat) : Fld := ⟨(UC_EVT n), 3, 1⟩
abbrev UC_EVT_DIAGCHG (n : Nat) : Fld := ⟨(UC_EVT n), 2, 1⟩
abbrev UC_EVT_LINKUP (n : Nat) : Fld := ⟨(UC_EVT n), 1, 1⟩
abbrev UC_EVT_LINKDOWN (n : Nat) : Fld := ⟨(UC_EVT n), 0, 1⟩
def UC_FWVER (n : Nat) : Nat := 0x40050034 + n * 0x1000
abbrev UC_FWVER_UCODE (n : Nat) : Fld := ⟨(UC_FWVER n), 16, 16⟩
abbrev UC_FWVER_SFMT (n : Nat) : Fld := ⟨(UC_FWVER n), 8, 8⟩
abbrev UC_FWVER_BOOT (n : Nat) : Fld := ⟨(UC_FWVER n), 0, 8⟩
def UC_CALINFO (n : Nat) : Nat := 0x40050038 + n * 0x1000
abbrev UC_CALINFO_VALID (n : Nat) : Fld := ⟨(UC_CALINFO n), 31, 1⟩
abbrev UC_CALINFO_CALDAY (n : Nat) : Fld := ⟨(UC_CALINFO n), 0, 16⟩
def UC_RESTARTS (n : Nat) : Nat := 0x4005003C + n * 0x1000
abbrev UC_RESTARTS_COUNT (n : Nat) : Fld := ⟨(UC_RESTARTS n), 0, 32⟩

/-! Block DIO (R255). -/

def DIO_DISC : Nat := 0x40060000
abbrev DIO_DISC_DISC_CNT : Fld := ⟨DIO_DISC, 16, 4⟩
abbrev DIO_DISC_DISC_DLY : Fld := ⟨DIO_DISC, 0, 10⟩
def DIO_GRP_STAT (g : Nat) : Nat := 0x40060010 + g * 0x4
abbrev DIO_GRP_STAT_FUSE (g : Nat) : Fld := ⟨(DIO_GRP_STAT g), 31, 1⟩
abbrev DIO_GRP_STAT_STATE (g : Nat) : Fld := ⟨(DIO_GRP_STAT g), 16, 2⟩
abbrev DIO_GRP_STAT_LPLUS_MV (g : Nat) : Fld := ⟨(DIO_GRP_STAT g), 0, 16⟩
def DIO_EVT_DISC : Nat := 0x40060024
abbrev DIO_EVT_DISC_DISC : Fld := ⟨DIO_EVT_DISC, 0, 32⟩
def DIO_EVT_OVL : Nat := 0x40060028
abbrev DIO_EVT_OVL_OVL : Fld := ⟨DIO_EVT_OVL, 0, 32⟩
def DIO_EVT_OLD : Nat := 0x4006002C
abbrev DIO_EVT_OLD_OLD : Fld := ⟨DIO_EVT_OLD, 0, 32⟩
def DIO_CH_CFG (n : Nat) : Nat := 0x40060100 + n * 0x8
abbrev DIO_CH_CFG_GANG (n : Nat) : Fld := ⟨(DIO_CH_CFG n), 28, 2⟩
abbrev DIO_CH_CFG_SHARED (n : Nat) : Fld := ⟨(DIO_CH_CFG n), 27, 1⟩
abbrev DIO_CH_CFG_OLD_EN (n : Nat) : Fld := ⟨(DIO_CH_CFG n), 26, 1⟩
abbrev DIO_CH_CFG_FILT (n : Nat) : Fld := ⟨(DIO_CH_CFG n), 16, 9⟩
abbrev DIO_CH_CFG_BADQ_SEL (n : Nat) : Fld := ⟨(DIO_CH_CFG n), 12, 3⟩
abbrev DIO_CH_CFG_SAFE_SEL (n : Nat) : Fld := ⟨(DIO_CH_CFG n), 8, 3⟩
abbrev DIO_CH_CFG_STOP_SEL (n : Nat) : Fld := ⟨(DIO_CH_CFG n), 4, 3⟩
abbrev DIO_CH_CFG_ITYPE (n : Nat) : Fld := ⟨(DIO_CH_CFG n), 2, 1⟩
abbrev DIO_CH_CFG_DIR (n : Nat) : Fld := ⟨(DIO_CH_CFG n), 0, 2⟩
def DIO_CH_STAT (n : Nat) : Nat := 0x40060104 + n * 0x8
abbrev DIO_CH_STAT_MISCNT (n : Nat) : Fld := ⟨(DIO_CH_STAT n), 16, 4⟩
abbrev DIO_CH_STAT_QUALITY (n : Nat) : Fld := ⟨(DIO_CH_STAT n), 8, 2⟩
abbrev DIO_CH_STAT_REC (n : Nat) : Fld := ⟨(DIO_CH_STAT n), 0, 8⟩
def CT_CFG (k : Nat) : Nat := 0x40060400 + k * 0x20
abbrev CT_CFG_SRC (k : Nat) : Fld := ⟨(CT_CFG k), 8, 1⟩
abbrev CT_CFG_GLITCH (k : Nat) : Fld := ⟨(CT_CFG k), 6, 2⟩
abbrev CT_CFG_EDGE (k : Nat) : Fld := ⟨(CT_CFG k), 4, 2⟩
abbrev CT_CFG_MODE (k : Nat) : Fld := ⟨(CT_CFG k), 0, 4⟩
def CT_PRESET (k : Nat) : Nat := 0x40060404 + k * 0x20
abbrev CT_PRESET_PRESET (k : Nat) : Fld := ⟨(CT_PRESET k), 0, 32⟩
def CT_GATE (k : Nat) : Nat := 0x40060408 + k * 0x20
abbrev CT_GATE_GATE_MS (k : Nat) : Fld := ⟨(CT_GATE k), 0, 14⟩
def CT_LIVE (k : Nat) : Nat := 0x4006040C + k * 0x20
abbrev CT_LIVE_LIVE (k : Nat) : Fld := ⟨(CT_LIVE k), 0, 32⟩
def CT_VAL (k : Nat) : Nat := 0x40060410 + k * 0x20
abbrev CT_VAL_VAL (k : Nat) : Fld := ⟨(CT_VAL k), 0, 32⟩
def CT_STAT (k : Nat) : Nat := 0x40060414 + k * 0x20
abbrev CT_STAT_NOSIG (k : Nat) : Fld := ⟨(CT_STAT k), 3, 1⟩
abbrev CT_STAT_QERR (k : Nat) : Fld := ⟨(CT_STAT k), 2, 1⟩
abbrev CT_STAT_WRAP (k : Nat) : Fld := ⟨(CT_STAT k), 1, 1⟩
abbrev CT_STAT_DIR (k : Nat) : Fld := ⟨(CT_STAT k), 0, 1⟩
def CT_QERRCNT (k : Nat) : Nat := 0x40060418 + k * 0x20
abbrev CT_QERRCNT_QERRCNT (k : Nat) : Fld := ⟨(CT_QERRCNT k), 0, 32⟩

/-! Block ETH (R390). -/

def ETH_CFG : Nat := 0x40070000
abbrev ETH_CFG_GM_CAP : Fld := ⟨ETH_CFG, 25, 1⟩
abbrev ETH_CFG_AS_EN : Fld := ⟨ETH_CFG, 24, 1⟩
abbrev ETH_CFG_AS_DOMAIN : Fld := ⟨ETH_CFG, 16, 8⟩
abbrev ETH_CFG_ETYPE : Fld := ⟨ETH_CFG, 0, 16⟩
def ETH_GM : Nat := 0x40070004
abbrev ETH_GM_PRIO2 : Fld := ⟨ETH_GM, 8, 8⟩
abbrev ETH_GM_PRIO1 : Fld := ⟨ETH_GM, 0, 8⟩
def ETH_SESS : Nat := 0x40070008
abbrev ETH_SESS_ACTIVE : Fld := ⟨ETH_SESS, 28, 4⟩
abbrev ETH_SESS_MAXSESS : Fld := ⟨ETH_SESS, 16, 4⟩
abbrev ETH_SESS_TLS_PORT : Fld := ⟨ETH_SESS, 0, 16⟩
def ETH_PCFG (p : Nat) : Nat := 0x40070100 + p * 0x100
abbrev ETH_PCFG_EN (p : Nat) : Fld := ⟨(ETH_PCFG p), 31, 1⟩
abbrev ETH_PCFG_SPEED_MIN (p : Nat) : Fld := ⟨(ETH_PCFG p), 24, 2⟩
abbrev ETH_PCFG_IP_VLAN (p : Nat) : Fld := ⟨(ETH_PCFG p), 8, 12⟩
abbrev ETH_PCFG_RIO_TC (p : Nat) : Fld := ⟨(ETH_PCFG p), 4, 3⟩
abbrev ETH_PCFG_SESS (p : Nat) : Fld := ⟨(ETH_PCFG p), 2, 1⟩
abbrev ETH_PCFG_AS (p : Nat) : Fld := ⟨(ETH_PCFG p), 1, 1⟩
def ETH_PSTAT (p : Nat) : Nat := 0x40070104 + p * 0x100
abbrev ETH_PSTAT_LINK (p : Nat) : Fld := ⟨(ETH_PSTAT p), 31, 1⟩
abbrev ETH_PSTAT_SPEED (p : Nat) : Fld := ⟨(ETH_PSTAT p), 29, 2⟩
abbrev ETH_PSTAT_SLOW (p : Nat) : Fld := ⟨(ETH_PSTAT p), 28, 1⟩
abbrev ETH_PSTAT_AS_ROLE (p : Nat) : Fld := ⟨(ETH_PSTAT p), 26, 2⟩
def ETH_PWIN (p : Nat) : Nat := 0x40070108 + p * 0x100
abbrev ETH_PWIN_WIN_NS (p : Nat) : Fld := ⟨(ETH_PWIN p), 0, 24⟩
def ETH_PCNT_DROP (p : Nat) : Nat := 0x4007010C + p * 0x100
abbrev ETH_PCNT_DROP_DROP (p : Nat) : Fld := ⟨(ETH_PCNT_DROP p), 0, 32⟩
def ETH_PCNT_LATE (p : Nat) : Nat := 0x40070110 + p * 0x100
abbrev ETH_PCNT_LATE_LATE (p : Nat) : Fld := ⟨(ETH_PCNT_LATE p), 0, 32⟩
def ETH_PCNT_ELIM (p : Nat) : Nat := 0x40070114 + p * 0x100
abbrev ETH_PCNT_ELIM_ELIM (p : Nat) : Fld := ⟨(ETH_PCNT_ELIM p), 0, 32⟩
def ETH_IPADDR (p : Nat) : Nat := 0x40070118 + p * 0x100
abbrev ETH_IPADDR_ADDR (p : Nat) : Fld := ⟨(ETH_IPADDR p), 0, 32⟩
def ETH_IPMASK (p : Nat) : Nat := 0x4007011C + p * 0x100
abbrev ETH_IPMASK_MASK (p : Nat) : Fld := ⟨(ETH_IPMASK p), 0, 32⟩
def ETH_STR_CFG (i : Nat) : Nat := 0x40071000 + i * 0x10
abbrev ETH_STR_CFG_EN (i : Nat) : Fld := ⟨(ETH_STR_CFG i), 31, 1⟩
abbrev ETH_STR_CFG_DIR (i : Nat) : Fld := ⟨(ETH_STR_CFG i), 30, 1⟩
abbrev ETH_STR_CFG_MSG (i : Nat) : Fld := ⟨(ETH_STR_CFG i), 29, 1⟩
abbrev ETH_STR_CFG_CB (i : Nat) : Fld := ⟨(ETH_STR_CFG i), 28, 1⟩
abbrev ETH_STR_CFG_CLASS (i : Nat) : Fld := ⟨(ETH_STR_CFG i), 26, 2⟩
abbrev ETH_STR_CFG_PORT (i : Nat) : Fld := ⟨(ETH_STR_CFG i), 24, 2⟩
abbrev ETH_STR_CFG_STREAM (i : Nat) : Fld := ⟨(ETH_STR_CFG i), 0, 16⟩
def ETH_STR_LEN (i : Nat) : Nat := 0x40071004 + i * 0x10
abbrev ETH_STR_LEN_APPLY_US (i : Nat) : Fld := ⟨(ETH_STR_LEN i), 16, 16⟩
abbrev ETH_STR_LEN_LEN (i : Nat) : Fld := ⟨(ETH_STR_LEN i), 0, 11⟩
def ETH_STR_STAT (i : Nat) : Nat := 0x40071008 + i * 0x10
abbrev ETH_STR_STAT_OLDCNT (i : Nat) : Fld := ⟨(ETH_STR_STAT i), 16, 16⟩
abbrev ETH_STR_STAT_RXCNT (i : Nat) : Fld := ⟨(ETH_STR_STAT i), 0, 16⟩

/-! Block CAN (R414). -/

def CAN_PCFG (p : Nat) : Nat := 0x40080000 + p * 0x4000
abbrev CAN_PCFG_EN (p : Nat) : Fld := ⟨(CAN_PCFG p), 31, 1⟩
abbrev CAN_PCFG_LISTEN (p : Nat) : Fld := ⟨(CAN_PCFG p), 1, 1⟩
abbrev CAN_PCFG_FD (p : Nat) : Fld := ⟨(CAN_PCFG p), 0, 1⟩
def CAN_NBT (p : Nat) : Nat := 0x40080004 + p * 0x4000
abbrev CAN_NBT_NSJW (p : Nat) : Fld := ⟨(CAN_NBT p), 25, 7⟩
abbrev CAN_NBT_NTSEG2 (p : Nat) : Fld := ⟨(CAN_NBT p), 18, 7⟩
abbrev CAN_NBT_NTSEG1 (p : Nat) : Fld := ⟨(CAN_NBT p), 10, 8⟩
abbrev CAN_NBT_NBRP (p : Nat) : Fld := ⟨(CAN_NBT p), 0, 8⟩
def CAN_DBT (p : Nat) : Nat := 0x40080008 + p * 0x4000
abbrev CAN_DBT_DSJW (p : Nat) : Fld := ⟨(CAN_DBT p), 24, 4⟩
abbrev CAN_DBT_DTSEG2 (p : Nat) : Fld := ⟨(CAN_DBT p), 16, 4⟩
abbrev CAN_DBT_DTSEG1 (p : Nat) : Fld := ⟨(CAN_DBT p), 8, 5⟩
abbrev CAN_DBT_DBRP (p : Nat) : Fld := ⟨(CAN_DBT p), 0, 5⟩
def CAN_TDC (p : Nat) : Nat := 0x4008000C + p * 0x4000
abbrev CAN_TDC_TDCEN (p : Nat) : Fld := ⟨(CAN_TDC p), 15, 1⟩
abbrev CAN_TDC_TDCO (p : Nat) : Fld := ⟨(CAN_TDC p), 0, 7⟩
def CAN_PSTAT (p : Nat) : Nat := 0x40080010 + p * 0x4000
abbrev CAN_PSTAT_STATE (p : Nat) : Fld := ⟨(CAN_PSTAT p), 30, 2⟩
abbrev CAN_PSTAT_REC (p : Nat) : Fld := ⟨(CAN_PSTAT p), 8, 8⟩
abbrev CAN_PSTAT_TEC (p : Nat) : Fld := ⟨(CAN_PSTAT p), 0, 8⟩
def CAN_BOCNT (p : Nat) : Nat := 0x40080014 + p * 0x4000
abbrev CAN_BOCNT_BUSOFF (p : Nat) : Fld := ⟨(CAN_BOCNT p), 0, 32⟩
def CAN_ERRCNT (p : Nat) : Nat := 0x40080018 + p * 0x4000
abbrev CAN_ERRCNT_NOMATCH (p : Nat) : Fld := ⟨(CAN_ERRCNT p), 16, 16⟩
abbrev CAN_ERRCNT_SHORT (p : Nat) : Fld := ⟨(CAN_ERRCNT p), 0, 16⟩
def CAN_EVT (p : Nat) : Nat := 0x4008001C + p * 0x4000
abbrev CAN_EVT_WITHDRAWN (p : Nat) : Fld := ⟨(CAN_EVT p), 4, 1⟩
abbrev CAN_EVT_OVERWRITE (p : Nat) : Fld := ⟨(CAN_EVT p), 3, 1⟩
abbrev CAN_EVT_ERRSTATE (p : Nat) : Fld := ⟨(CAN_EVT p), 2, 1⟩
abbrev CAN_EVT_RECOVERED (p : Nat) : Fld := ⟨(CAN_EVT p), 1, 1⟩
abbrev CAN_EVT_BUSOFF (p : Nat) : Fld := ⟨(CAN_EVT p), 0, 1⟩
def CAN_FLT_ID (p : Nat) (f : Nat) : Nat := 0x40080400 + p * 0x4000 + f * 0x10
abbrev CAN_FLT_ID_EN (p : Nat) (f : Nat) : Fld := ⟨(CAN_FLT_ID p f), 31, 1⟩
abbrev CAN_FLT_ID_IDE (p : Nat) (f : Nat) : Fld := ⟨(CAN_FLT_ID p f), 30, 1⟩
abbrev CAN_FLT_ID_RTR (p : Nat) (f : Nat) : Fld := ⟨(CAN_FLT_ID p f), 29, 1⟩
abbrev CAN_FLT_ID_ID (p : Nat) (f : Nat) : Fld := ⟨(CAN_FLT_ID p f), 0, 29⟩
def CAN_FLT_MASK (p : Nat) (f : Nat) : Nat := 0x40080404 + p * 0x4000 + f * 0x10
abbrev CAN_FLT_MASK_MASK (p : Nat) (f : Nat) : Fld := ⟨(CAN_FLT_MASK p f), 0, 29⟩
def CAN_FLT_TGT (p : Nat) (f : Nat) : Nat := 0x40080408 + p * 0x4000 + f * 0x10
abbrev CAN_FLT_TGT_FMT (p : Nat) (f : Nat) : Fld := ⟨(CAN_FLT_TGT p f), 8, 2⟩
abbrev CAN_FLT_TGT_TARGET (p : Nat) (f : Nat) : Fld := ⟨(CAN_FLT_TGT p f), 0, 7⟩
def CAN_MB_CFG (p : Nat) (m : Nat) : Nat := 0x40081000 + p * 0x4000 + m * 0x80
abbrev CAN_MB_CFG_KIND (p : Nat) (m : Nat) : Fld := ⟨(CAN_MB_CFG p m), 29, 3⟩
abbrev CAN_MB_CFG_SIZE (p : Nat) (m : Nat) : Fld := ⟨(CAN_MB_CFG p m), 26, 3⟩
abbrev CAN_MB_CFG_CLASS (p : Nat) (m : Nat) : Fld := ⟨(CAN_MB_CFG p m), 24, 2⟩
abbrev CAN_MB_CFG_IDE (p : Nat) (m : Nat) : Fld := ⟨(CAN_MB_CFG p m), 23, 1⟩
abbrev CAN_MB_CFG_FDF (p : Nat) (m : Nat) : Fld := ⟨(CAN_MB_CFG p m), 22, 1⟩
abbrev CAN_MB_CFG_BRS (p : Nat) (m : Nat) : Fld := ⟨(CAN_MB_CFG p m), 21, 1⟩
abbrev CAN_MB_CFG_DLC (p : Nat) (m : Nat) : Fld := ⟨(CAN_MB_CFG p m), 17, 4⟩
def CAN_MB_TXID (p : Nat) (m : Nat) : Nat := 0x40081004 + p * 0x4000 + m * 0x80
abbrev CAN_MB_TXID_ID (p : Nat) (m : Nat) : Fld := ⟨(CAN_MB_TXID p m), 0, 29⟩
def CAN_MB_DL (p : Nat) (m : Nat) : Nat := 0x40081008 + p * 0x4000 + m * 0x80
abbrev CAN_MB_DL_DL_US (p : Nat) (m : Nat) : Fld := ⟨(CAN_MB_DL p m), 0, 20⟩
def CAN_MB_HDR (p : Nat) (m : Nat) : Nat := 0x4008100C + p * 0x4000 + m * 0x80
abbrev CAN_MB_HDR_NEW (p : Nat) (m : Nat) : Fld := ⟨(CAN_MB_HDR p m), 31, 1⟩
abbrev CAN_MB_HDR_LOCKED (p : Nat) (m : Nat) : Fld := ⟨(CAN_MB_HDR p m), 30, 1⟩
abbrev CAN_MB_HDR_OVERWRITE (p : Nat) (m : Nat) : Fld := ⟨(CAN_MB_HDR p m), 29, 1⟩
abbrev CAN_MB_HDR_TRUNC (p : Nat) (m : Nat) : Fld := ⟨(CAN_MB_HDR p m), 28, 1⟩
abbrev CAN_MB_HDR_SHADOW (p : Nat) (m : Nat) : Fld := ⟨(CAN_MB_HDR p m), 27, 1⟩
abbrev CAN_MB_HDR_LOCKTO (p : Nat) (m : Nat) : Fld := ⟨(CAN_MB_HDR p m), 26, 1⟩
abbrev CAN_MB_HDR_PENDING (p : Nat) (m : Nat) : Fld := ⟨(CAN_MB_HDR p m), 25, 1⟩
abbrev CAN_MB_HDR_TXST (p : Nat) (m : Nat) : Fld := ⟨(CAN_MB_HDR p m), 16, 8⟩
abbrev CAN_MB_HDR_FDF (p : Nat) (m : Nat) : Fld := ⟨(CAN_MB_HDR p m), 15, 1⟩
abbrev CAN_MB_HDR_BRS (p : Nat) (m : Nat) : Fld := ⟨(CAN_MB_HDR p m), 14, 1⟩
abbrev CAN_MB_HDR_ESI (p : Nat) (m : Nat) : Fld := ⟨(CAN_MB_HDR p m), 13, 1⟩
abbrev CAN_MB_HDR_RTR (p : Nat) (m : Nat) : Fld := ⟨(CAN_MB_HDR p m), 12, 1⟩
abbrev CAN_MB_HDR_IDE (p : Nat) (m : Nat) : Fld := ⟨(CAN_MB_HDR p m), 11, 1⟩
abbrev CAN_MB_HDR_DLC (p : Nat) (m : Nat) : Fld := ⟨(CAN_MB_HDR p m), 0, 4⟩
def CAN_MB_ID (p : Nat) (m : Nat) : Nat := 0x40081010 + p * 0x4000 + m * 0x80
abbrev CAN_MB_ID_ID (p : Nat) (m : Nat) : Fld := ⟨(CAN_MB_ID p m), 0, 29⟩
def CAN_MB_STAMP_LO (p : Nat) (m : Nat) : Nat := 0x40081014 + p * 0x4000 + m * 0x80
abbrev CAN_MB_STAMP_LO_STAMP (p : Nat) (m : Nat) : Fld := ⟨(CAN_MB_STAMP_LO p m), 0, 32⟩
def CAN_MB_STAMP_HI (p : Nat) (m : Nat) : Nat := 0x40081018 + p * 0x4000 + m * 0x80
abbrev CAN_MB_STAMP_HI_STAMP (p : Nat) (m : Nat) : Fld := ⟨(CAN_MB_STAMP_HI p m), 0, 32⟩
def CAN_MB_LAUNCH_LO (p : Nat) (m : Nat) : Nat := 0x4008101C + p * 0x4000 + m * 0x80
abbrev CAN_MB_LAUNCH_LO_LAUNCH (p : Nat) (m : Nat) : Fld := ⟨(CAN_MB_LAUNCH_LO p m), 0, 32⟩
def CAN_MB_LAUNCH_HI (p : Nat) (m : Nat) : Nat := 0x40081020 + p * 0x4000 + m * 0x80
abbrev CAN_MB_LAUNCH_HI_LAUNCH (p : Nat) (m : Nat) : Fld := ⟨(CAN_MB_LAUNCH_HI p m), 0, 32⟩
def CAN_MB_CMD (p : Nat) (m : Nat) : Nat := 0x40081024 + p * 0x4000 + m * 0x80
abbrev CAN_MB_CMD_TXREQ (p : Nat) (m : Nat) : Fld := ⟨(CAN_MB_CMD p m), 31, 1⟩
abbrev CAN_MB_CMD_ABORT (p : Nat) (m : Nat) : Fld := ⟨(CAN_MB_CMD p m), 30, 1⟩
abbrev CAN_MB_CMD_AT (p : Nat) (m : Nat) : Fld := ⟨(CAN_MB_CMD p m), 29, 1⟩
abbrev CAN_MB_CMD_FDF (p : Nat) (m : Nat) : Fld := ⟨(CAN_MB_CMD p m), 19, 1⟩
abbrev CAN_MB_CMD_BRS (p : Nat) (m : Nat) : Fld := ⟨(CAN_MB_CMD p m), 18, 1⟩
abbrev CAN_MB_CMD_RTR (p : Nat) (m : Nat) : Fld := ⟨(CAN_MB_CMD p m), 17, 1⟩
abbrev CAN_MB_CMD_IDE (p : Nat) (m : Nat) : Fld := ⟨(CAN_MB_CMD p m), 16, 1⟩
abbrev CAN_MB_CMD_DLC (p : Nat) (m : Nat) : Fld := ⟨(CAN_MB_CMD p m), 0, 4⟩
def CAN_MB_DATA (p : Nat) (m : Nat) (w : Nat) : Nat := 0x40081040 + p * 0x4000 + m * 0x80 + w * 0x4
abbrev CAN_MB_DATA_DATA (p : Nat) (m : Nat) (w : Nat) : Fld := ⟨(CAN_MB_DATA p m w), 0, 32⟩

/-! Block MEL (R368). -/

def MEL_CFG : Nat := 0x40090000
abbrev MEL_CFG_HEDGE : Fld := ⟨MEL_CFG, 31, 1⟩
abbrev MEL_CFG_DEPTH : Fld := ⟨MEL_CFG, 24, 3⟩
abbrev MEL_CFG_NMOD : Fld := ⟨MEL_CFG, 16, 5⟩
abbrev MEL_CFG_INDEX : Fld := ⟨MEL_CFG, 0, 4⟩
def MEL_PATH : Nat := 0x40090004
abbrev MEL_PATH_PM : Fld := ⟨MEL_PATH, 16, 8⟩
abbrev MEL_PATH_HMAX : Fld := ⟨MEL_PATH, 8, 8⟩
abbrev MEL_PATH_PATH : Fld := ⟨MEL_PATH, 0, 8⟩
def MEL_FORM : Nat := 0x40090008
abbrev MEL_FORM_FORM_S : Fld := ⟨MEL_FORM, 0, 10⟩
def MEL_STAT : Nat := 0x40090010
abbrev MEL_STAT_FORMED : Fld := ⟨MEL_STAT, 31, 1⟩
abbrev MEL_STAT_SYNC : Fld := ⟨MEL_STAT, 30, 1⟩
abbrev MEL_STAT_FAILUNK : Fld := ⟨MEL_STAT, 28, 1⟩
abbrev MEL_STAT_FAILMOD : Fld := ⟨MEL_STAT, 24, 4⟩
abbrev MEL_STAT_REASON : Fld := ⟨MEL_STAT, 16, 8⟩
abbrev MEL_STAT_LINKUP : Fld := ⟨MEL_STAT, 4, 4⟩
abbrev MEL_STAT_STATE : Fld := ⟨MEL_STAT, 0, 4⟩
def MEL_LINK (n : Nat) : Nat := 0x40090020 + n * 0x4
abbrev MEL_LINK_EN (n : Nat) : Fld := ⟨(MEL_LINK n), 31, 1⟩
abbrev MEL_LINK_PEER_MOD (n : Nat) : Fld := ⟨(MEL_LINK n), 24, 4⟩
abbrev MEL_LINK_PEER_PORT (n : Nat) : Fld := ⟨(MEL_LINK n), 16, 2⟩
abbrev MEL_LINK_STATE (n : Nat) : Fld := ⟨(MEL_LINK n), 0, 2⟩
def MEL_ERR (n : Nat) : Nat := 0x40090030 + n * 0x4
abbrev MEL_ERR_RESENDS (n : Nat) : Fld := ⟨(MEL_ERR n), 16, 16⟩
abbrev MEL_ERR_DOWNS (n : Nat) : Fld := ⟨(MEL_ERR n), 0, 16⟩
def MEL_TOFS : Nat := 0x40090040
abbrev MEL_TOFS_OFS_NS : Fld := ⟨MEL_TOFS, 0, 32⟩
def MEL_IMPORT : Nat := 0x40090044
abbrev MEL_IMPORT_NIMPORT : Fld := ⟨MEL_IMPORT, 0, 13⟩
def MEL_EVT : Nat := 0x40090048
abbrev MEL_EVT_LATE : Fld := ⟨MEL_EVT, 4, 1⟩
abbrev MEL_EVT_RESEND : Fld := ⟨MEL_EVT, 3, 1⟩
abbrev MEL_EVT_LINKCHG : Fld := ⟨MEL_EVT, 2, 1⟩
abbrev MEL_EVT_FAIL : Fld := ⟨MEL_EVT, 1, 1⟩
abbrev MEL_EVT_FORMCHG : Fld := ⟨MEL_EVT, 0, 1⟩
def MEL_XPARM (k : Nat) : Nat := 0x40090100 + k * 0x10
abbrev MEL_XPARM_GX (k : Nat) : Fld := ⟨(MEL_XPARM k), 16, 16⟩
abbrev MEL_XPARM_P (k : Nat) : Fld := ⟨(MEL_XPARM k), 8, 8⟩
def MEL_XBOUND (k : Nat) : Nat := 0x40090104 + k * 0x10
abbrev MEL_XBOUND_X_NS (k : Nat) : Fld := ⟨(MEL_XBOUND k), 0, 32⟩
def MEL_XLAST (k : Nat) : Nat := 0x40090108 + k * 0x10
abbrev MEL_XLAST_LAST_NS (k : Nat) : Fld := ⟨(MEL_XLAST k), 0, 32⟩
def MEL_LATECNT (k : Nat) : Nat := 0x4009010C + k * 0x10
abbrev MEL_LATECNT_LATE (k : Nat) : Fld := ⟨(MEL_LATECNT k), 0, 32⟩

/-! Block RED (R343). -/

def RED_CFG : Nat := 0x400A0000
abbrev RED_CFG_MIRWIN_PCT : Fld := ⟨RED_CFG, 24, 5⟩
abbrev RED_CFG_DEGRADE_HO : Fld := ⟨RED_CFG, 3, 1⟩
abbrev RED_CFG_AUTOTB : Fld := ⟨RED_CFG, 2, 1⟩
abbrev RED_CFG_PAIRED : Fld := ⟨RED_CFG, 0, 1⟩
def RED_PREF_UID (n : Nat) : Nat := 0x400A0010 + n * 0x4
abbrev RED_PREF_UID_UID (n : Nat) : Fld := ⟨(RED_PREF_UID n), 0, 32⟩
def RED_MLID : Nat := 0x400A0020
abbrev RED_MLID_MLID : Fld := ⟨RED_MLID, 0, 32⟩
def RED_DWELL : Nat := 0x400A0024
abbrev RED_DWELL_DWELL_S : Fld := ⟨RED_DWELL, 0, 12⟩
def RED_RAMP : Nat := 0x400A0028
abbrev RED_RAMP_RAMP_MS : Fld := ⟨RED_RAMP, 0, 6⟩
def RED_RETNOM : Nat := 0x400A002C
abbrev RED_RETNOM_RETNOM : Fld := ⟨RED_RETNOM, 0, 15⟩
def RED_WITNESS : Nat := 0x400A0030
abbrev RED_WITNESS_PORTS : Fld := ⟨RED_WITNESS, 0, 4⟩
def RED_STAT : Nat := 0x400A0040
abbrev RED_STAT_BATONFLT : Fld := ⟨RED_STAT, 27, 1⟩
abbrev RED_STAT_SPLIT : Fld := ⟨RED_STAT, 26, 1⟩
abbrev RED_STAT_PARTNER_DEG : Fld := ⟨RED_STAT, 25, 1⟩
abbrev RED_STAT_DEGRADED : Fld := ⟨RED_STAT, 24, 1⟩
abbrev RED_STAT_WITNESS_OK : Fld := ⟨RED_STAT, 23, 1⟩
abbrev RED_STAT_BATON_IN : Fld := ⟨RED_STAT, 22, 1⟩
abbrev RED_STAT_BATON_OUT : Fld := ⟨RED_STAT, 21, 1⟩
abbrev RED_STAT_ML5_UP : Fld := ⟨RED_STAT, 20, 1⟩
abbrev RED_STAT_ML4_UP : Fld := ⟨RED_STAT, 19, 1⟩
abbrev RED_STAT_PREFERRED : Fld := ⟨RED_STAT, 18, 1⟩
abbrev RED_STAT_STATE : Fld := ⟨RED_STAT, 4, 4⟩
abbrev RED_STAT_ROLE : Fld := ⟨RED_STAT, 0, 2⟩
def RED_SETAGE : Nat := 0x400A0044
abbrev RED_SETAGE_AGE : Fld := ⟨RED_SETAGE, 0, 32⟩
def RED_MIRWC : Nat := 0x400A0050
abbrev RED_MIRWC_WC_G : Fld := ⟨RED_MIRWC, 0, 24⟩
def RED_MIRTIME : Nat := 0x400A0054
abbrev RED_MIRTIME_MAX_US : Fld := ⟨RED_MIRTIME, 16, 16⟩
abbrev RED_MIRTIME_LAST_US : Fld := ⟨RED_MIRTIME, 0, 16⟩
def RED_INCCNT : Nat := 0x400A0058
abbrev RED_INCCNT_INCOMPLETE : Fld := ⟨RED_INCCNT, 0, 32⟩
def RED_TKOCNT : Nat := 0x400A0060
abbrev RED_TKOCNT_TAKEOVERS : Fld := ⟨RED_TKOCNT, 16, 16⟩
abbrev RED_TKOCNT_HANDOVERS : Fld := ⟨RED_TKOCNT, 8, 8⟩
abbrev RED_TKOCNT_SUPPRESSED : Fld := ⟨RED_TKOCNT, 4, 4⟩
abbrev RED_TKOCNT_TB_HOUR : Fld := ⟨RED_TKOCNT, 0, 4⟩
def RED_TKOLAST : Nat := 0x400A0064
abbrev RED_TKOLAST_FIRST_US : Fld := ⟨RED_TKOLAST, 0, 20⟩
def RED_DWELLREM : Nat := 0x400A0068
abbrev RED_DWELLREM_REM_S : Fld := ⟨RED_DWELLREM, 0, 12⟩
def RED_CMD : Nat := 0x400A0080
abbrev RED_CMD_CMD : Fld := ⟨RED_CMD, 0, 2⟩
def RED_EVT : Nat := 0x400A0084
abbrev RED_EVT_DUALPRI : Fld := ⟨RED_EVT, 5, 1⟩
abbrev RED_EVT_SPLIT : Fld := ⟨RED_EVT, 4, 1⟩
abbrev RED_EVT_INCOMPLETE : Fld := ⟨RED_EVT, 3, 1⟩
abbrev RED_EVT_HANDOVER : Fld := ⟨RED_EVT, 2, 1⟩
abbrev RED_EVT_TAKEOVER : Fld := ⟨RED_EVT, 1, 1⟩
abbrev RED_EVT_PAIRCHG : Fld := ⟨RED_EVT, 0, 1⟩

/-! Block INT (R438). -/

def INT_LS : Nat := 0x400B0000
abbrev INT_LS_LSFAIL : Fld := ⟨INT_LS, 0, 16⟩
def INT_LSINFO : Nat := 0x400B0004
abbrev INT_LSINFO_VALID : Fld := ⟨INT_LSINFO, 31, 1⟩
abbrev INT_LSINFO_STRAND : Fld := ⟨INT_LSINFO, 16, 4⟩
abbrev INT_LSINFO_LANE : Fld := ⟨INT_LSINFO, 8, 3⟩
def INT_LOG_IDX : Nat := 0x400B0040
abbrev INT_LOG_IDX_IDX : Fld := ⟨INT_LOG_IDX, 0, 4⟩
def INT_LOG_A : Nat := 0x400B0044
abbrev INT_LOG_A_VALID : Fld := ⟨INT_LOG_A, 31, 1⟩
abbrev INT_LOG_A_MEM : Fld := ⟨INT_LOG_A, 28, 3⟩
abbrev INT_LOG_A_KIND : Fld := ⟨INT_LOG_A, 26, 2⟩
abbrev INT_LOG_A_GRANULE : Fld := ⟨INT_LOG_A, 0, 26⟩
def INT_LOG_B : Nat := 0x400B0048
abbrev INT_LOG_B_SCRUB : Fld := ⟨INT_LOG_B, 31, 1⟩
abbrev INT_LOG_B_SYN : Fld := ⟨INT_LOG_B, 0, 19⟩
def INT_LOG_T : Nat := 0x400B004C
abbrev INT_LOG_T_TICK : Fld := ⟨INT_LOG_T, 0, 32⟩
def INT_SCRUB : Nat := 0x400B0060
abbrev INT_SCRUB_PASS_MS : Fld := ⟨INT_SCRUB, 16, 16⟩
abbrev INT_SCRUB_PASSES : Fld := ⟨INT_SCRUB, 0, 16⟩
def INT_SERED : Nat := 0x400B0070
abbrev INT_SERED_RETRIES : Fld := ⟨INT_SERED, 16, 16⟩
abbrev INT_SERED_FAILED : Fld := ⟨INT_SERED, 0, 8⟩
def INT_EVT : Nat := 0x400B0080
abbrev INT_EVT_SCRUBLATE : Fld := ⟨INT_EVT, 4, 1⟩
abbrev INT_EVT_MISDIR : Fld := ⟨INT_EVT, 3, 1⟩
abbrev INT_EVT_INTEG : Fld := ⟨INT_EVT, 2, 1⟩
abbrev INT_EVT_CORR : Fld := ⟨INT_EVT, 1, 1⟩
abbrev INT_EVT_LSMIS : Fld := ⟨INT_EVT, 0, 1⟩
def INT_SELCOR (m : Nat) : Nat := 0x400B0100 + m * 0x8
abbrev INT_SELCOR_CORR (m : Nat) : Fld := ⟨(INT_SELCOR m), 0, 32⟩
def INT_SELUNC (m : Nat) : Nat := 0x400B0104 + m * 0x8
abbrev INT_SELUNC_UNC (m : Nat) : Fld := ⟨(INT_SELUNC m), 0, 32⟩

/-! Block WDG (R439). -/

def WDG_CFG : Nat := 0x400C0000
abbrev WDG_CFG_ESC_WIN : Fld := ⟨WDG_CFG, 8, 4⟩
abbrev WDG_CFG_ESC_N : Fld := ⟨WDG_CFG, 0, 3⟩
def WDG_STAT : Nat := 0x400C0004
abbrev WDG_STAT_RST24 : Fld := ⟨WDG_STAT, 16, 4⟩
abbrev WDG_STAT_PAUSE : Fld := ⟨WDG_STAT, 8, 2⟩
def WDG_RSTTOT : Nat := 0x400C0008
abbrev WDG_RSTTOT_TOTAL : Fld := ⟨WDG_RSTTOT, 0, 32⟩
def WDG_OUTST : Nat := 0x400C000C
abbrev WDG_OUTST_MASK : Fld := ⟨WDG_OUTST, 0, 32⟩
def WDG_FAULTSUM : Nat := 0x400C0010
abbrev WDG_FAULTSUM_FAULT : Fld := ⟨WDG_FAULTSUM, 0, 32⟩
def WDG_SLOT_CFG (s : Nat) : Nat := 0x400C0100 + s * 0x10
abbrev WDG_SLOT_CFG_EN (s : Nat) : Fld := ⟨(WDG_SLOT_CFG s), 31, 1⟩
abbrev WDG_SLOT_CFG_CLASS (s : Nat) : Fld := ⟨(WDG_SLOT_CFG s), 24, 2⟩
abbrev WDG_SLOT_CFG_OPEN_PCT (s : Nat) : Fld := ⟨(WDG_SLOT_CFG s), 16, 7⟩
def WDG_SLOT_P (s : Nat) : Nat := 0x400C0104 + s * 0x10
abbrev WDG_SLOT_P_PER (s : Nat) : Fld := ⟨(WDG_SLOT_P s), 0, 24⟩
def WDG_SLOT_SEED (s : Nat) : Nat := 0x400C0108 + s * 0x10
abbrev WDG_SLOT_SEED_SEED (s : Nat) : Fld := ⟨(WDG_SLOT_SEED s), 0, 16⟩
def WDG_SLOT_STAT (s : Nat) : Nat := 0x400C010C + s * 0x10
abbrev WDG_SLOT_STAT_ARMED (s : Nat) : Fld := ⟨(WDG_SLOT_STAT s), 31, 1⟩
abbrev WDG_SLOT_STAT_REARM (s : Nat) : Fld := ⟨(WDG_SLOT_STAT s), 30, 1⟩
abbrev WDG_SLOT_STAT_LASTFAULT (s : Nat) : Fld := ⟨(WDG_SLOT_STAT s), 28, 2⟩
abbrev WDG_SLOT_STAT_INRUN (s : Nat) : Fld := ⟨(WDG_SLOT_STAT s), 27, 1⟩
abbrev WDG_SLOT_STAT_CLEAN (s : Nat) : Fld := ⟨(WDG_SLOT_STAT s), 0, 16⟩

/-! Block RET (R466). -/

def RET_STAT : Nat := 0x400D0000
abbrev RET_STAT_FLUSHED : Fld := ⟨RET_STAT, 5, 1⟩
abbrev RET_STAT_RINGOK : Fld := ⟨RET_STAT, 4, 1⟩
abbrev RET_STAT_OVERCAP : Fld := ⟨RET_STAT, 3, 1⟩
abbrev RET_STAT_ACCEL : Fld := ⟨RET_STAT, 2, 1⟩
abbrev RET_STAT_CKPT : Fld := ⟨RET_STAT, 1, 1⟩
abbrev RET_STAT_WEAR : Fld := ⟨RET_STAT, 0, 1⟩
def RET_BUSY : Nat := 0x400D0004
abbrev RET_BUSY_BUSY : Fld := ⟨RET_BUSY, 0, 16⟩
def RET_CMD_ADDR : Nat := 0x400D0010
abbrev RET_CMD_ADDR_PART : Fld := ⟨RET_CMD_ADDR, 28, 4⟩
abbrev RET_CMD_ADDR_ROW : Fld := ⟨RET_CMD_ADDR, 0, 19⟩
def RET_CMD_LEN : Nat := 0x400D0014
abbrev RET_CMD_LEN_NB : Fld := ⟨RET_CMD_LEN, 31, 1⟩
abbrev RET_CMD_LEN_OP : Fld := ⟨RET_CMD_LEN, 16, 3⟩
abbrev RET_CMD_LEN_LEN : Fld := ⟨RET_CMD_LEN, 0, 16⟩
def RET_CMD_BUF : Nat := 0x400D0018
abbrev RET_CMD_BUF_BUF : Fld := ⟨RET_CMD_BUF, 5, 27⟩
def RET_CMD_GO : Nat := 0x400D001C
abbrev RET_CMD_GO_GO : Fld := ⟨RET_CMD_GO, 0, 1⟩
def RET_CMD_STAT : Nat := 0x400D0020
abbrev RET_CMD_STAT_DONE : Fld := ⟨RET_CMD_STAT, 16, 16⟩
abbrev RET_CMD_STAT_ACTIVE : Fld := ⟨RET_CMD_STAT, 8, 1⟩
abbrev RET_CMD_STAT_STATUS : Fld := ⟨RET_CMD_STAT, 0, 8⟩
def RET_SEQ_LO : Nat := 0x400D0030
abbrev RET_SEQ_LO_SEQ : Fld := ⟨RET_SEQ_LO, 0, 32⟩
def RET_SEQ_HI : Nat := 0x400D0034
abbrev RET_SEQ_HI_SEQ : Fld := ⟨RET_SEQ_HI, 0, 32⟩
def RET_RING_PTR : Nat := 0x400D0038
abbrev RET_RING_PTR_SLOT : Fld := ⟨RET_RING_PTR, 0, 15⟩
def RET_RING_CKPT : Nat := 0x400D003C
abbrev RET_RING_CKPT_SLOT : Fld := ⟨RET_RING_CKPT, 0, 15⟩
def RET_DIRTY : Nat := 0x400D0040
abbrev RET_DIRTY_DIRTY : Fld := ⟨RET_DIRTY, 0, 14⟩
def RET_WEARACC : Nat := 0x400D0044
abbrev RET_WEARACC_MIB : Fld := ⟨RET_WEARACC, 0, 32⟩
def RET_LAPS : Nat := 0x400D0048
abbrev RET_LAPS_LAPS : Fld := ⟨RET_LAPS, 0, 18⟩
def RET_QS_IDX : Nat := 0x400D0050
abbrev RET_QS_IDX_IDX : Fld := ⟨RET_QS_IDX, 0, 8⟩
def RET_QS_VAL : Nat := 0x400D0054
abbrev RET_QS_VAL_VALUE : Fld := ⟨RET_QS_VAL, 0, 32⟩
def RET_QS_INFO : Nat := 0x400D0058
abbrev RET_QS_INFO_WORN : Fld := ⟨RET_QS_INFO, 31, 1⟩
abbrev RET_QS_INFO_ACTIVE : Fld := ⟨RET_QS_INFO, 18, 1⟩
abbrev RET_QS_INFO_ERASES : Fld := ⟨RET_QS_INFO, 0, 18⟩
def RET_QS_INC : Nat := 0x400D005C
abbrev RET_QS_INC_N : Fld := ⟨RET_QS_INC, 0, 16⟩
def RET_EVT : Nat := 0x400D0060
abbrev RET_EVT_INTEGROW : Fld := ⟨RET_EVT, 4, 1⟩
abbrev RET_EVT_QSWORN : Fld := ⟨RET_EVT, 3, 1⟩
abbrev RET_EVT_OVERCAP : Fld := ⟨RET_EVT, 2, 1⟩
abbrev RET_EVT_TWIN : Fld := ⟨RET_EVT, 1, 1⟩
abbrev RET_EVT_WEAR : Fld := ⟨RET_EVT, 0, 1⟩

/-! Block EVR (R467). -/

def EVR_STAT : Nat := 0x400E0000
abbrev EVR_STAT_FFFULL : Fld := ⟨EVR_STAT, 31, 1⟩
abbrev EVR_STAT_OPEN : Fld := ⟨EVR_STAT, 30, 1⟩
abbrev EVR_STAT_FFCOUNT : Fld := ⟨EVR_STAT, 0, 11⟩
def EVR_SEQ : Nat := 0x400E0004
abbrev EVR_SEQ_NEXT : Fld := ⟨EVR_SEQ, 0, 32⟩
def EVR_ROLL : Nat := 0x400E0008
abbrev EVR_ROLL_COUNT : Fld := ⟨EVR_ROLL, 0, 15⟩
def EVR_LOST : Nat := 0x400E000C
abbrev EVR_LOST_LOST : Fld := ⟨EVR_LOST, 0, 32⟩
def EVR_TORN : Nat := 0x400E0010
abbrev EVR_TORN_TORN : Fld := ⟨EVR_TORN, 0, 16⟩
def EVR_RD_SEL : Nat := 0x400E0020
abbrev EVR_RD_SEL_REGION : Fld := ⟨EVR_RD_SEL, 31, 1⟩
abbrev EVR_RD_SEL_INDEX : Fld := ⟨EVR_RD_SEL, 0, 15⟩
def EVR_RD_D (n : Nat) : Nat := 0x400E0040 + n * 0x4
abbrev EVR_RD_D_DATA (n : Nat) : Fld := ⟨(EVR_RD_D n), 0, 32⟩
def EVR_EVT : Nat := 0x400E0060
abbrev EVR_EVT_FFFULL : Fld := ⟨EVR_EVT, 2, 1⟩
abbrev EVR_EVT_TORN : Fld := ⟨EVR_EVT, 1, 1⟩
abbrev EVR_EVT_LOST : Fld := ⟨EVR_EVT, 0, 1⟩

/-! Block RTC (R487). -/

def RTC_TICK_LO : Nat := 0x400F0000
abbrev RTC_TICK_LO_TICK_LO : Fld := ⟨RTC_TICK_LO, 0, 32⟩
def RTC_TICK_HI : Nat := 0x400F0004
abbrev RTC_TICK_HI_TICK_HI : Fld := ⟨RTC_TICK_HI, 0, 16⟩
def RTC_SET_LO : Nat := 0x400F0008
abbrev RTC_SET_LO_SET : Fld := ⟨RTC_SET_LO, 0, 32⟩
def RTC_SET_HI : Nat := 0x400F000C
abbrev RTC_SET_HI_SET : Fld := ⟨RTC_SET_HI, 0, 16⟩
def RTC_SET_CTRL : Nat := 0x400F0010
abbrev RTC_SET_CTRL_GO : Fld := ⟨RTC_SET_CTRL, 0, 1⟩
def RTC_CFG : Nat := 0x400F0014
abbrev RTC_CFG_PARK : Fld := ⟨RTC_CFG, 11, 1⟩
abbrev RTC_CFG_OFSSRC : Fld := ⟨RTC_CFG, 10, 1⟩
abbrev RTC_CFG_AUTOSET : Fld := ⟨RTC_CFG, 9, 1⟩
abbrev RTC_CFG_MAINSHZ : Fld := ⟨RTC_CFG, 8, 1⟩
abbrev RTC_CFG_REFSRC : Fld := ⟨RTC_CFG, 0, 2⟩
def RTC_TRIM : Nat := 0x400F0018
abbrev RTC_TRIM_TRIM : Fld := ⟨RTC_TRIM, 0, 32⟩
def RTC_TAIOFS : Nat := 0x400F001C
abbrev RTC_TAIOFS_TAIOFS : Fld := ⟨RTC_TAIOFS, 0, 16⟩
def RTC_ALARM_LO : Nat := 0x400F0020
abbrev RTC_ALARM_LO_ALARM : Fld := ⟨RTC_ALARM_LO, 0, 32⟩
def RTC_ALARM_HI : Nat := 0x400F0024
abbrev RTC_ALARM_HI_ALARM : Fld := ⟨RTC_ALARM_HI, 0, 16⟩
def RTC_ALM_CTRL : Nat := 0x400F0028
abbrev RTC_ALM_CTRL_K : Fld := ⟨RTC_ALM_CTRL, 8, 5⟩
abbrev RTC_ALM_CTRL_WAKE_EN : Fld := ⟨RTC_ALM_CTRL, 2, 1⟩
abbrev RTC_ALM_CTRL_DISARM : Fld := ⟨RTC_ALM_CTRL, 1, 1⟩
abbrev RTC_ALM_CTRL_ARM : Fld := ⟨RTC_ALM_CTRL, 0, 1⟩
def RTC_STAT : Nat := 0x400F002C
abbrev RTC_STAT_VALID : Fld := ⟨RTC_STAT, 31, 1⟩
abbrev RTC_STAT_PEND : Fld := ⟨RTC_STAT, 30, 1⟩
abbrev RTC_STAT_REFOK : Fld := ⟨RTC_STAT, 29, 1⟩
abbrev RTC_STAT_ARMED : Fld := ⟨RTC_STAT, 28, 1⟩
abbrev RTC_STAT_FIRED : Fld := ⟨RTC_STAT, 27, 1⟩
abbrev RTC_STAT_LATE : Fld := ⟨RTC_STAT, 26, 1⟩
abbrev RTC_STAT_WRAP : Fld := ⟨RTC_STAT, 25, 1⟩
def RTC_EVT : Nat := 0x400F0030
abbrev RTC_EVT_SETREJ : Fld := ⟨RTC_EVT, 3, 1⟩
abbrev RTC_EVT_SET : Fld := ⟨RTC_EVT, 2, 1⟩
abbrev RTC_EVT_WAKE : Fld := ⟨RTC_EVT, 1, 1⟩
abbrev RTC_EVT_ALARM : Fld := ⟨RTC_EVT, 0, 1⟩

/-! Block UPD (R306 and R510). -/

def EDT_STAT : Nat := 0x40100400
abbrev EDT_STAT_JCOUNT : Fld := ⟨EDT_STAT, 16, 9⟩
abbrev EDT_STAT_LASTSTAT : Fld := ⟨EDT_STAT, 8, 8⟩
abbrev EDT_STAT_STATE : Fld := ⟨EDT_STAT, 0, 4⟩
def EDT_SEQ : Nat := 0x40100404
abbrev EDT_SEQ_SEQ : Fld := ⟨EDT_SEQ, 0, 16⟩
def EDT_NCYC_LO : Nat := 0x40100408
abbrev EDT_NCYC_LO_N_LO : Fld := ⟨EDT_NCYC_LO, 0, 32⟩
def EDT_NCYC_HI : Nat := 0x4010040C
abbrev EDT_NCYC_HI_N_HI : Fld := ⟨EDT_NCYC_HI, 0, 32⟩
def EDT_PROOF : Nat := 0x40100410
abbrev EDT_PROOF_DONE : Fld := ⟨EDT_PROOF, 16, 16⟩
abbrev EDT_PROOF_SKIPPED : Fld := ⟨EDT_PROOF, 0, 16⟩
def EDT_REP_ERR : Nat := 0x40100414
abbrev EDT_REP_ERR_TRAPS : Fld := ⟨EDT_REP_ERR, 24, 8⟩
abbrev EDT_REP_ERR_OWNV : Fld := ⟨EDT_REP_ERR, 16, 8⟩
abbrev EDT_REP_ERR_BEATTO : Fld := ⟨EDT_REP_ERR, 8, 8⟩
abbrev EDT_REP_ERR_OVERBUDGET : Fld := ⟨EDT_REP_ERR, 0, 8⟩
def EDT_REP_DIFF : Nat := 0x40100418
abbrev EDT_REP_DIFF_DIFFCYC : Fld := ⟨EDT_REP_DIFF, 16, 16⟩
abbrev EDT_REP_DIFF_FIRSTENT : Fld := ⟨EDT_REP_DIFF, 0, 14⟩
def EDT_REP_TIME : Nat := 0x4010041C
abbrev EDT_REP_TIME_EMAX_US : Fld := ⟨EDT_REP_TIME, 0, 20⟩
def EDT_CFG : Nat := 0x40100420
abbrev EDT_CFG_P : Fld := ⟨EDT_CFG, 16, 16⟩
abbrev EDT_CFG_DRYCYC : Fld := ⟨EDT_CFG, 6, 10⟩
abbrev EDT_CFG_DRYPROOF : Fld := ⟨EDT_CFG, 2, 1⟩
abbrev EDT_CFG_AUTOCOMMIT : Fld := ⟨EDT_CFG, 1, 1⟩
abbrev EDT_CFG_REMOTE_EDIT : Fld := ⟨EDT_CFG, 0, 1⟩
def EDT_WARM : Nat := 0x40100424
abbrev EDT_WARM_WARMUP : Fld := ⟨EDT_WARM, 0, 8⟩
def UPD_SLOT : Nat := 0x40100000
abbrev UPD_SLOT_TRIAL : Fld := ⟨UPD_SLOT, 16, 1⟩
abbrev UPD_SLOT_STATE1 : Fld := ⟨UPD_SLOT, 12, 4⟩
abbrev UPD_SLOT_STATE0 : Fld := ⟨UPD_SLOT, 8, 4⟩
abbrev UPD_SLOT_ACTIVE : Fld := ⟨UPD_SLOT, 0, 1⟩
def UPD_DLV : Nat := 0x40100004
abbrev UPD_DLV_RECEIVED : Fld := ⟨UPD_DLV, 16, 12⟩
abbrev UPD_DLV_TOTAL : Fld := ⟨UPD_DLV, 0, 12⟩
def UPD_SEG : Nat := 0x40100008
abbrev UPD_SEG_BADSEG : Fld := ⟨UPD_SEG, 16, 15⟩
abbrev UPD_SEG_VERIFIED : Fld := ⟨UPD_SEG, 0, 15⟩
def UPD_STAT : Nat := 0x4010000C
abbrev UPD_STAT_LASTST : Fld := ⟨UPD_STAT, 8, 8⟩
abbrev UPD_STAT_HOLDOK : Fld := ⟨UPD_STAT, 3, 1⟩
abbrev UPD_STAT_RECOVERY : Fld := ⟨UPD_STAT, 2, 1⟩
abbrev UPD_STAT_ACTPEND : Fld := ⟨UPD_STAT, 1, 1⟩
abbrev UPD_STAT_DLVOPEN : Fld := ⟨UPD_STAT, 0, 1⟩
def UPD_TRIAL : Nat := 0x40100010
abbrev UPD_TRIAL_REM_S : Fld := ⟨UPD_TRIAL, 20, 12⟩
abbrev UPD_TRIAL_PORTS_OK : Fld := ⟨UPD_TRIAL, 19, 1⟩
abbrev UPD_TRIAL_WDG_OK : Fld := ⟨UPD_TRIAL, 18, 1⟩
abbrev UPD_TRIAL_CYC_OK : Fld := ⟨UPD_TRIAL, 17, 1⟩
abbrev UPD_TRIAL_GOOD : Fld := ⟨UPD_TRIAL, 0, 10⟩
def UPD_VER_ACT : Nat := 0x40100014
abbrev UPD_VER_ACT_FWVER : Fld := ⟨UPD_VER_ACT, 0, 32⟩
def UPD_VER_ALT : Nat := 0x40100018
abbrev UPD_VER_ALT_FWVER : Fld := ⟨UPD_VER_ALT, 0, 32⟩
def UPD_SVN : Nat := 0x4010001C
abbrev UPD_SVN_IMG_SVN : Fld := ⟨UPD_SVN, 16, 16⟩
abbrev UPD_SVN_MIN_SVN : Fld := ⟨UPD_SVN, 0, 16⟩
def UPD_OWNER : Nat := 0x40100020
abbrev UPD_OWNER_REVOKED : Fld := ⟨UPD_OWNER, 8, 4⟩
abbrev UPD_OWNER_ENROLLED : Fld := ⟨UPD_OWNER, 4, 4⟩
abbrev UPD_OWNER_INFORCE : Fld := ⟨UPD_OWNER, 0, 4⟩
def UPD_CFG : Nat := 0x40100024
abbrev UPD_CFG_MEL_DLV : Fld := ⟨UPD_CFG, 0, 1⟩
def UPD_SVNSTEPS : Nat := 0x40100028
abbrev UPD_SVNSTEPS_STEPS : Fld := ⟨UPD_SVNSTEPS, 0, 7⟩
def UPD_CMD : Nat := 0x40100030
abbrev UPD_CMD_CMD : Fld := ⟨UPD_CMD, 0, 4⟩
def UPD_EVT : Nat := 0x40100034
abbrev UPD_EVT_PRIV : Fld := ⟨UPD_EVT, 4, 1⟩
abbrev UPD_EVT_FALLBACK : Fld := ⟨UPD_EVT, 3, 1⟩
abbrev UPD_EVT_CONFIRM : Fld := ⟨UPD_EVT, 2, 1⟩
abbrev UPD_EVT_SEGBAD : Fld := ⟨UPD_EVT, 1, 1⟩
abbrev UPD_EVT_COMPLETE : Fld := ⟨UPD_EVT, 0, 1⟩

/-! Block PMC (R516 and R522). -/

def PMC_CTRL : Nat := 0x40110000
abbrev PMC_CTRL_CLEAR : Fld := ⟨PMC_CTRL, 4, 1⟩
abbrev PMC_CTRL_SNAP : Fld := ⟨PMC_CTRL, 3, 1⟩
abbrev PMC_CTRL_VIEW : Fld := ⟨PMC_CTRL, 2, 1⟩
abbrev PMC_CTRL_AUTOSNAP : Fld := ⟨PMC_CTRL, 1, 1⟩
abbrev PMC_CTRL_FREEZE : Fld := ⟨PMC_CTRL, 0, 1⟩
def PMC_SNAPT_LO : Nat := 0x40110004
abbrev PMC_SNAPT_LO_TB : Fld := ⟨PMC_SNAPT_LO, 0, 32⟩
def PMC_SNAPT_HI : Nat := 0x40110008
abbrev PMC_SNAPT_HI_TB : Fld := ⟨PMC_SNAPT_HI, 0, 32⟩
def PMC_GCFG (i : Nat) : Nat := 0x40110100 + i * 0x10
abbrev PMC_GCFG_OVF (i : Nat) : Fld := ⟨(PMC_GCFG i), 31, 1⟩
abbrev PMC_GCFG_EVENT (i : Nat) : Fld := ⟨(PMC_GCFG i), 0, 8⟩
def PMC_SCFG (s : Nat) (j : Nat) : Nat := 0x40111000 + s * 0x100 + j * 0x10
abbrev PMC_SCFG_OVF (s : Nat) (j : Nat) : Fld := ⟨(PMC_SCFG s j), 31, 1⟩
abbrev PMC_SCFG_EVENT (s : Nat) (j : Nat) : Fld := ⟨(PMC_SCFG s j), 0, 8⟩
def PMC_GLO (i : Nat) : Nat := 0x40110104 + i * 0x10
abbrev PMC_GLO_COUNT (i : Nat) : Fld := ⟨(PMC_GLO i), 0, 32⟩
def PMC_GHI (i : Nat) : Nat := 0x40110108 + i * 0x10
abbrev PMC_GHI_COUNT (i : Nat) : Fld := ⟨(PMC_GHI i), 0, 16⟩
def PMC_SLO (s : Nat) (j : Nat) : Nat := 0x40111004 + s * 0x100 + j * 0x10
abbrev PMC_SLO_COUNT (s : Nat) (j : Nat) : Fld := ⟨(PMC_SLO s j), 0, 32⟩
def PMC_SHI (s : Nat) (j : Nat) : Nat := 0x40111008 + s * 0x100 + j * 0x10
abbrev PMC_SHI_COUNT (s : Nat) (j : Nat) : Fld := ⟨(PMC_SHI s j), 0, 16⟩
def OBS_CFG : Nat := 0x40110800
abbrev OBS_CFG_LINK : Fld := ⟨OBS_CFG, 31, 1⟩
abbrev OBS_CFG_EN : Fld := ⟨OBS_CFG, 3, 6⟩
def OBS_MASK : Nat := 0x40110804
abbrev OBS_MASK_ENG : Fld := ⟨OBS_MASK, 24, 8⟩
abbrev OBS_MASK_CLS : Fld := ⟨OBS_MASK, 20, 4⟩
abbrev OBS_MASK_PORT : Fld := ⟨OBS_MASK, 16, 4⟩
abbrev OBS_MASK_STRAND : Fld := ⟨OBS_MASK, 0, 16⟩
def OBS_WRR_BASE (n : Nat) : Nat := 0x40110840 + n * 0x8
abbrev OBS_WRR_BASE_VALUE (n : Nat) : Fld := ⟨(OBS_WRR_BASE n), 0, 32⟩
def OBS_WRR_LEN (n : Nat) : Nat := 0x40110844 + n * 0x8
abbrev OBS_WRR_LEN_VALUE (n : Nat) : Fld := ⟨(OBS_WRR_LEN n), 0, 32⟩
def OBS_LOST : Nat := 0x40110810
abbrev OBS_LOST_LOST : Fld := ⟨OBS_LOST, 0, 32⟩
def OBS_RT_CFG : Nat := 0x40110820
abbrev OBS_RT_CFG_START : Fld := ⟨OBS_RT_CFG, 31, 1⟩
abbrev OBS_RT_CFG_STOP : Fld := ⟨OBS_RT_CFG, 30, 1⟩
abbrev OBS_RT_CFG_STRAND : Fld := ⟨OBS_RT_CFG, 16, 4⟩
abbrev OBS_RT_CFG_NCYC : Fld := ⟨OBS_RT_CFG, 0, 16⟩
def OBS_RT_CYC_LO : Nat := 0x40110824
abbrev OBS_RT_CYC_LO_C : Fld := ⟨OBS_RT_CYC_LO, 0, 32⟩
def OBS_RT_CYC_HI : Nat := 0x40110828
abbrev OBS_RT_CYC_HI_C : Fld := ⟨OBS_RT_CYC_HI, 0, 32⟩
def OBS_RT_STAT : Nat := 0x4011082C
abbrev OBS_RT_STAT_CAPTURING : Fld := ⟨OBS_RT_STAT, 31, 1⟩
abbrev OBS_RT_STAT_FULL : Fld := ⟨OBS_RT_STAT, 30, 1⟩
abbrev OBS_RT_STAT_DRAINING : Fld := ⟨OBS_RT_STAT, 29, 1⟩
abbrev OBS_RT_STAT_UNCHECKED : Fld := ⟨OBS_RT_STAT, 0, 16⟩
def OBS_RT_BUF : Nat := 0x40110830
abbrev OBS_RT_BUF_BASE_MIB : Fld := ⟨OBS_RT_BUF, 16, 11⟩
abbrev OBS_RT_BUF_SIZE16 : Fld := ⟨OBS_RT_BUF, 0, 6⟩

/-! Block QUE (R391). -/

def QUE_CFG (q : Nat) : Nat := 0x40120000 + q * 0x20
abbrev QUE_CFG_MAXFRAME (q : Nat) : Fld := ⟨(QUE_CFG q), 16, 16⟩
abbrev QUE_CFG_BUFSZ (q : Nat) : Fld := ⟨(QUE_CFG q), 14, 2⟩
abbrev QUE_CFG_DEPTH (q : Nat) : Fld := ⟨(QUE_CFG q), 0, 11⟩
def QUE_BASE (q : Nat) : Nat := 0x40120004 + q * 0x20
abbrev QUE_BASE_BASE (q : Nat) : Fld := ⟨(QUE_BASE q), 5, 27⟩
abbrev QUE_BASE_DRAM (q : Nat) : Fld := ⟨(QUE_BASE q), 0, 1⟩
def QUE_STAT (q : Nat) : Nat := 0x40120008 + q * 0x20
abbrev QUE_STAT_FULLCNT (q : Nat) : Fld := ⟨(QUE_STAT q), 21, 11⟩
abbrev QUE_STAT_PIDX (q : Nat) : Fld := ⟨(QUE_STAT q), 10, 10⟩
abbrev QUE_STAT_LASTST (q : Nat) : Fld := ⟨(QUE_STAT q), 2, 8⟩
def QUE_CIDX (q : Nat) : Nat := 0x4012000C + q * 0x20
abbrev QUE_CIDX_CIDX (q : Nat) : Fld := ⟨(QUE_CIDX q), 0, 10⟩
def QUE_POST (q : Nat) : Nat := 0x40120010 + q * 0x20
abbrev QUE_POST_N (q : Nat) : Fld := ⟨(QUE_POST q), 0, 11⟩
def QUE_RETIRE (q : Nat) : Nat := 0x40120014 + q * 0x20
abbrev QUE_RETIRE_N (q : Nat) : Fld := ⟨(QUE_RETIRE q), 0, 11⟩
def QUE_DROP (q : Nat) : Nat := 0x40120018 + q * 0x20
abbrev QUE_DROP_NOROOM (q : Nat) : Fld := ⟨(QUE_DROP q), 16, 16⟩
abbrev QUE_DROP_OVERSIZE (q : Nat) : Fld := ⟨(QUE_DROP q), 0, 16⟩
def QUE_EVT (q : Nat) : Nat := 0x4012001C + q * 0x20
abbrev QUE_EVT_POSTREJ (q : Nat) : Fld := ⟨(QUE_EVT q), 2, 1⟩
abbrev QUE_EVT_OVERSIZE (q : Nat) : Fld := ⟨(QUE_EVT q), 1, 1⟩
abbrev QUE_EVT_NOROOM (q : Nat) : Fld := ⟨(QUE_EVT q), 0, 1⟩
def QUE_DESC0 (d : Nat) : Nat := 0x40128000 + d * 0x8
abbrev QUE_DESC0_WORD0 (d : Nat) : Fld := ⟨(QUE_DESC0 d), 0, 32⟩
def QUE_DESC1 (d : Nat) : Nat := 0x40128004 + d * 0x8
abbrev QUE_DESC1_STAMP (d : Nat) : Fld := ⟨(QUE_DESC1 d), 0, 32⟩

end Sys2Proof.Machine
end

