-- ==== Sys2Proof/Machine/RegMap.lean ====
section
/-!
DEFINITION. The register map of the system register space (R25): one row per register table of the spec,
with its address, its indices (stride and count, widest first), its value at reset and the masks of its
RW, W1C, RC and LK bits (R3). WO fields hold nothing, RO fields are in no mask.
-/
namespace Sys2Proof.Machine

/-- One register, or one family of registers that differ by index (R3, R25). -/
structure RegRow where
  base : Nat
  dims : List (Nat × Nat)
  reset : Nat
  rw : Nat
  w1c : Nat
  rc : Nat
  lk : Nat
  deriving DecidableEq, Repr

/-- Block SYSCTL (R167 and R283). -/
def sysctlRows : List RegRow := [
  ⟨0x40000800, [], 0x0, 0x0, 0x0, 0x0, 0xF⟩,
  ⟨0x40000804, [], 0x0, 0x0, 0xFFFF, 0x0, 0x0⟩,
  ⟨0x40000840, [(0x8, 16)], 0x0, 0x0, 0x0, 0x0, 0x0⟩,
  ⟨0x40000844, [(0x8, 16)], 0x0, 0x0, 0x0, 0x0, 0x0⟩,
  ⟨0x40000000, [], 0x32164B52, 0x0, 0x0, 0x0, 0x0⟩,
  ⟨0x40000004, [], 0x0, 0x0, 0x0, 0x0, 0x0⟩,
  ⟨0x40000010, [(0x4, 4)], 0x0, 0x0, 0x0, 0x0, 0x0⟩,
  ⟨0x40000020, [], 0x0, 0x0, 0x0, 0x0, 0x0⟩,
  ⟨0x40000024, [], 0x0, 0x0, 0x0, 0x0, 0x0⟩,
  ⟨0x40000028, [], 0x0, 0x0, 0x0, 0x0, 0x0⟩,
  ⟨0x4000002C, [], 0x0, 0x0, 0x0, 0x0, 0x0⟩,
  ⟨0x40000030, [], 0x0, 0x0, 0x0, 0x0, 0x0⟩,
  ⟨0x40000034, [], 0x0, 0x0, 0x0, 0x0, 0x0⟩,
  ⟨0x40000040, [], 0x0, 0x0, 0x0, 0x0, 0x0⟩,
  ⟨0x40000044, [], 0x8, 0x0, 0x0, 0x0, 0xF⟩,
  ⟨0x40000050, [], 0x1, 0x0, 0x0, 0x0, 0x0⟩,
  ⟨0x40000054, [], 0x0, 0x0, 0x0, 0x0, 0x0⟩,
  ⟨0x40000060, [], 0x0, 0x0, 0x0, 0x0, 0x0⟩,
  ⟨0x40000064, [], 0x0, 0x0, 0xF, 0x0, 0x0⟩,
  ⟨0x40000070, [], 0x0, 0x0, 0x0, 0x0, 0x0⟩]

/-- Block CYC (R76). -/
def cycRows : List RegRow := [
  ⟨0x40010000, [], 0x3E8, 0x0, 0x0, 0x0, 0xFFFFF⟩,
  ⟨0x40010004, [], 0x0, 0x0, 0x0, 0x0, 0xFFFFFFFF⟩,
  ⟨0x40010008, [], 0x0, 0x0, 0x0, 0x0, 0xFFFFFFFF⟩,
  ⟨0x40010010, [], 0x0, 0x0, 0x0, 0x0, 0x0⟩,
  ⟨0x40010014, [], 0x0, 0x0, 0x0, 0x0, 0x0⟩,
  ⟨0x40010018, [], 0x4, 0x0, 0x0, 0x0, 0x0⟩,
  ⟨0x4001001C, [], 0x0, 0x0, 0x0, 0x0, 0x0⟩,
  ⟨0x40010020, [], 0x0, 0x0, 0x7, 0x0, 0x0⟩,
  ⟨0x40010100, [], 0x90000001, 0x0, 0x0, 0x0, 0x93FF03FF⟩,
  ⟨0x40010100, [(0x40, 4)], 0x10000001, 0x0, 0x0, 0x0, 0x93FF03FF⟩,
  ⟨0x40010104, [(0x40, 4)], 0x320, 0x0, 0x0, 0x0, 0x3FFFFFFF⟩,
  ⟨0x40010108, [(0x40, 4)], 0x5, 0x0, 0x0, 0x0, 0x3FFFFFFF⟩,
  ⟨0x4001010C, [(0x40, 4)], 0xA, 0x0, 0x0, 0x0, 0x3FFFFFFF⟩,
  ⟨0x40010110, [(0x40, 4)], 0x802, 0x0, 0x0, 0x0, 0xFF0F⟩,
  ⟨0x40010114, [(0x40, 4)], 0x0, 0x0, 0x0, 0x0, 0x0⟩,
  ⟨0x40010118, [(0x40, 4)], 0x0, 0x0, 0x0, 0x0, 0x0⟩,
  ⟨0x4001011C, [(0x40, 4)], 0x0, 0x0, 0x0, 0x0, 0x0⟩,
  ⟨0x40010120, [(0x40, 4)], 0x0, 0x0, 0x0, 0x0, 0x0⟩,
  ⟨0x40010124, [(0x40, 4)], 0x0, 0x0, 0x0, 0x0, 0x0⟩,
  ⟨0x40010128, [(0x40, 4)], 0x0, 0x0, 0x0, 0x0, 0x0⟩,
  ⟨0x4001012C, [(0x40, 4)], 0x0, 0x0, 0x0, 0x3FFFFFFF, 0x0⟩,
  ⟨0x40010130, [(0x40, 4)], 0x0, 0x0, 0x0, 0x0, 0x0⟩,
  ⟨0x40010134, [(0x40, 4)], 0x0, 0x0, 0x7, 0x0, 0x0⟩]

/-- Block HDL (R109). -/
def hdlRows : List RegRow := [
  ⟨0x40020000, [], 0x0, 0x0, 0x0, 0x0, 0x0⟩,
  ⟨0x40020004, [], 0x0, 0x0, 0x0, 0x0, 0x0⟩,
  ⟨0x40020008, [], 0x0, 0x0, 0x0, 0x0, 0x0⟩,
  ⟨0x40020010, [], 0x0, 0x3FFF, 0x0, 0x0, 0x0⟩,
  ⟨0x40020020, [(0x4, 8)], 0x0, 0x0, 0x0, 0x0, 0x0⟩,
  ⟨0x40020040, [], 0xF, 0x0, 0x0, 0x0, 0xF⟩,
  ⟨0x40020044, [], 0x0, 0x0, 0xFFFF, 0x0, 0x0⟩,
  ⟨0x40020048, [], 0x0, 0x0, 0x0, 0x0, 0x0⟩,
  ⟨0x40020080, [(0x4, 16)], 0x0, 0x0, 0x0, 0x0, 0x0⟩,
  ⟨0x40020100, [(0x10, 4)], 0x0, 0x0, 0x0, 0x0, 0x0⟩,
  ⟨0x40020104, [(0x10, 4)], 0x0, 0x0, 0x0, 0x0, 0x0⟩,
  ⟨0x40020108, [(0x10, 4)], 0x0, 0x0, 0x0, 0x0, 0x0⟩,
  ⟨0x4002010C, [(0x10, 4)], 0x0, 0x0, 0x0, 0x0, 0x0⟩]

/-- Block BEAT (R110). -/
def beatRows : List RegRow := [
  ⟨0x40030000, [(0x4, 4)], 0x32, 0x0, 0x0, 0x0, 0x7F⟩,
  ⟨0x40030010, [(0x8, 4)], 0x0, 0x0, 0x0, 0x0, 0x0⟩,
  ⟨0x40030014, [(0x8, 4)], 0x0, 0x0, 0x0, 0x0, 0x0⟩,
  ⟨0x40030030, [(0x8, 4)], 0x0, 0x0, 0x0, 0x0, 0x0⟩,
  ⟨0x40030034, [(0x8, 4)], 0x0, 0x0, 0x0, 0x0, 0x0⟩,
  ⟨0x40030050, [], 0x0, 0x0, 0x0, 0x0, 0x0⟩,
  ⟨0x40030054, [], 0x0, 0x0, 0xFFFF, 0x0, 0x0⟩,
  ⟨0x40030058, [], 0x0, 0x0, 0x0, 0x0, 0x0⟩,
  ⟨0x40030100, [(0x100, 4), (0x4, 64)], 0x0, 0x0, 0x0, 0x0, 0xFFFF⟩]

/-- Block SE (R199). -/
def seRows : List RegRow := [
  ⟨0x40040000, [], 0x0, 0x0, 0x0, 0x0, 0x0⟩,
  ⟨0x40040004, [], 0x0, 0x0, 0x3FFFF, 0x0, 0x0⟩,
  ⟨0x40040100, [(0x20, 8)], 0x0, 0x0, 0x0, 0x0, 0x0⟩,
  ⟨0x40040104, [(0x20, 8)], 0xFFFF, 0x0, 0x0, 0x0, 0xFFFF⟩,
  ⟨0x40040108, [(0x20, 8)], 0x0, 0x0, 0x0, 0x0, 0x0⟩,
  ⟨0x4004010C, [(0x20, 8)], 0x0, 0x0, 0x0, 0x0, 0x0⟩,
  ⟨0x40040110, [(0x20, 8)], 0x0, 0x0, 0x0, 0x0, 0x3FFFF⟩,
  ⟨0x40041000, [(0x10, 256)], 0x0, 0x0, 0x0, 0x0, 0xFF03FFFF⟩,
  ⟨0x40041004, [(0x10, 256)], 0x0, 0x0, 0x0, 0x0, 0xFFFFFF⟩,
  ⟨0x40041008, [(0x10, 256)], 0x0, 0x0, 0x0, 0x0, 0x0⟩,
  ⟨0x4004100C, [(0x10, 256)], 0x0, 0x0, 0x0, 0x0, 0x0⟩]

/-- Block UC (R234). -/
def ucRows : List RegRow := [
  ⟨0x40050000, [(0x1000, 16)], 0x0, 0x0, 0x0, 0x0, 0x130FFF⟩,
  ⟨0x40050004, [(0x1000, 16)], 0x9C4, 0x0, 0x0, 0x0, 0x8000FFFF⟩,
  ⟨0x40050008, [(0x1000, 16)], 0x64, 0x0, 0x0, 0x0, 0x3FFF⟩,
  ⟨0x4005000C, [(0x1000, 16)], 0x10, 0x0, 0x0, 0x0, 0x7777⟩,
  ⟨0x40050010, [(0x1000, 16)], 0x0, 0x0, 0x0, 0x0, 0xFFFFFFFF⟩,
  ⟨0x40050014, [(0x1000, 16)], 0x0, 0x0, 0x0, 0x0, 0xFFFFFFFF⟩,
  ⟨0x40050018, [(0x1000, 16)], 0x0, 0x0, 0x0, 0x0, 0xFFFFFFFF⟩,
  ⟨0x4005001C, [(0x1000, 16)], 0x40000000, 0x0, 0x0, 0x0, 0xFFFFFFFF⟩,
  ⟨0x40050020, [(0x1000, 16)], 0x0, 0x0, 0x0, 0x0, 0x0⟩,
  ⟨0x40050024, [(0x1000, 16)], 0x0, 0x0, 0x0, 0x0, 0x0⟩,
  ⟨0x40050028, [(0x1000, 16)], 0x0, 0x0, 0x0, 0x0, 0x0⟩,
  ⟨0x4005002C, [(0x1000, 16)], 0x0, 0x0, 0x0, 0x0, 0x0⟩,
  ⟨0x40050030, [(0x1000, 16)], 0x0, 0x0, 0x1F, 0x0, 0x0⟩,
  ⟨0x40050034, [(0x1000, 16)], 0x0, 0x0, 0x0, 0x0, 0x0⟩,
  ⟨0x40050038, [(0x1000, 16)], 0x0, 0x0, 0x0, 0x0, 0x0⟩,
  ⟨0x4005003C, [(0x1000, 16)], 0x0, 0x0, 0x0, 0x0, 0x0⟩]

/-- Block DIO (R255). -/
def dioRows : List RegRow := [
  ⟨0x40060000, [], 0x2000A, 0x0, 0x0, 0x0, 0xF03FF⟩,
  ⟨0x40060010, [(0x4, 4)], 0x20000, 0x0, 0x0, 0x0, 0x0⟩,
  ⟨0x40060024, [], 0x0, 0x0, 0xFFFFFFFF, 0x0, 0x0⟩,
  ⟨0x40060028, [], 0x0, 0x0, 0xFFFFFFFF, 0x0, 0x0⟩,
  ⟨0x4006002C, [], 0x0, 0x0, 0xFFFFFFFF, 0x0, 0x0⟩,
  ⟨0x40060100, [(0x8, 32)], 0x3C1000, 0x0, 0x0, 0x0, 0x3DFF7777⟩,
  ⟨0x40060104, [(0x8, 32)], 0x0, 0x0, 0x0, 0x0, 0x0⟩,
  ⟨0x40060400, [(0x20, 8)], 0x0, 0x0, 0x0, 0x0, 0x1FF⟩,
  ⟨0x40060404, [(0x20, 8)], 0x0, 0x0, 0x0, 0x0, 0xFFFFFFFF⟩,
  ⟨0x40060408, [(0x20, 8)], 0x3E8, 0x0, 0x0, 0x0, 0x3FFF⟩,
  ⟨0x4006040C, [(0x20, 8)], 0x0, 0x0, 0x0, 0x0, 0x0⟩,
  ⟨0x40060410, [(0x20, 8)], 0x0, 0x0, 0x0, 0x0, 0x0⟩,
  ⟨0x40060414, [(0x20, 8)], 0x0, 0x0, 0x6, 0x0, 0x0⟩,
  ⟨0x40060418, [(0x20, 8)], 0x0, 0x0, 0x0, 0x0, 0x0⟩]

/-- Block ETH (R390). -/
def ethRows : List RegRow := [
  ⟨0x40070000, [], 0x30088B5, 0x0, 0x0, 0x0, 0x3FFFFFF⟩,
  ⟨0x40070004, [], 0xF8F8, 0x0, 0x0, 0x0, 0xFFFF⟩,
  ⟨0x40070008, [], 0x41984, 0x0, 0x0, 0x0, 0xFFFFF⟩,
  ⟨0x40070100, [(0x100, 4)], 0x80000066, 0x0, 0x0, 0x0, 0x830FFF76⟩,
  ⟨0x40070104, [(0x100, 4)], 0x0, 0x0, 0x0, 0x0, 0x0⟩,
  ⟨0x40070108, [(0x100, 4)], 0x0, 0x0, 0x0, 0x0, 0x0⟩,
  ⟨0x4007010C, [(0x100, 4)], 0x0, 0x0, 0x0, 0x0, 0x0⟩,
  ⟨0x40070110, [(0x100, 4)], 0x0, 0x0, 0x0, 0x0, 0x0⟩,
  ⟨0x40070114, [(0x100, 4)], 0x0, 0x0, 0x0, 0x0, 0x0⟩,
  ⟨0x40070118, [(0x100, 4)], 0x0, 0x0, 0x0, 0x0, 0xFFFFFFFF⟩,
  ⟨0x4007011C, [(0x100, 4)], 0x0, 0x0, 0x0, 0x0, 0xFFFFFFFF⟩,
  ⟨0x40071000, [(0x10, 1024)], 0x0, 0x0, 0x0, 0x0, 0xFF00FFFF⟩,
  ⟨0x40071004, [(0x10, 1024)], 0x0, 0x0, 0x0, 0x0, 0xFFFF07FF⟩,
  ⟨0x40071008, [(0x10, 1024)], 0x0, 0x0, 0x0, 0x0, 0x0⟩]

/-- Block CAN (R414). -/
def canRows : List RegRow := [
  ⟨0x40080000, [(0x4000, 4)], 0x0, 0x0, 0x0, 0x0, 0x80000003⟩,
  ⟨0x40080004, [(0x4000, 4)], 0x12251001, 0x0, 0x0, 0x0, 0xFFFFFCFF⟩,
  ⟨0x40080008, [(0x4000, 4)], 0x9091C00, 0x0, 0x0, 0x0, 0xF0F1F1F⟩,
  ⟨0x4008000C, [(0x4000, 4)], 0x801E, 0x0, 0x0, 0x0, 0x807F⟩,
  ⟨0x40080010, [(0x4000, 4)], 0x0, 0x0, 0x0, 0x0, 0x0⟩,
  ⟨0x40080014, [(0x4000, 4)], 0x0, 0x0, 0x0, 0x0, 0x0⟩,
  ⟨0x40080018, [(0x4000, 4)], 0x0, 0x0, 0x0, 0x0, 0x0⟩,
  ⟨0x4008001C, [(0x4000, 4)], 0x0, 0x0, 0x1F, 0x0, 0x0⟩,
  ⟨0x40080400, [(0x4000, 4), (0x10, 128)], 0x0, 0x0, 0x0, 0x0, 0xFFFFFFFF⟩,
  ⟨0x40080404, [(0x4000, 4), (0x10, 128)], 0x0, 0x0, 0x0, 0x0, 0x1FFFFFFF⟩,
  ⟨0x40080408, [(0x4000, 4), (0x10, 128)], 0x41, 0x0, 0x0, 0x0, 0x37F⟩,
  ⟨0x40081000, [(0x4000, 4), (0x80, 64)], 0x0, 0x0, 0x0, 0x0, 0xFFFE0000⟩,
  ⟨0x40081004, [(0x4000, 4), (0x80, 64)], 0x0, 0x0, 0x0, 0x0, 0x1FFFFFFF⟩,
  ⟨0x40081008, [(0x4000, 4), (0x80, 64)], 0xFA, 0x0, 0x0, 0x0, 0xFFFFF⟩,
  ⟨0x4008100C, [(0x4000, 4), (0x80, 64)], 0x0, 0x0, 0x24000000, 0x0, 0x0⟩,
  ⟨0x40081010, [(0x4000, 4), (0x80, 64)], 0x0, 0x1FFFFFFF, 0x0, 0x0, 0x0⟩,
  ⟨0x40081014, [(0x4000, 4), (0x80, 64)], 0x0, 0x0, 0x0, 0x0, 0x0⟩,
  ⟨0x40081018, [(0x4000, 4), (0x80, 64)], 0x0, 0x0, 0x0, 0x0, 0x0⟩,
  ⟨0x4008101C, [(0x4000, 4), (0x80, 64)], 0x0, 0xFFFFFFFF, 0x0, 0x0, 0x0⟩,
  ⟨0x40081020, [(0x4000, 4), (0x80, 64)], 0x0, 0xFFFFFFFF, 0x0, 0x0, 0x0⟩,
  ⟨0x40081024, [(0x4000, 4), (0x80, 64)], 0x0, 0x0, 0x0, 0x0, 0x0⟩,
  ⟨0x40081040, [(0x4000, 4), (0x80, 64), (0x4, 16)], 0x0, 0xFFFFFFFF, 0x0, 0x0, 0x0⟩]

/-- Block MEL (R368). -/
def melRows : List RegRow := [
  ⟨0x40090000, [], 0x10000, 0x0, 0x0, 0x0, 0x871F0000⟩,
  ⟨0x40090004, [], 0x0, 0x0, 0x0, 0x0, 0x0⟩,
  ⟨0x40090008, [], 0x3C, 0x0, 0x0, 0x0, 0x3FF⟩,
  ⟨0x40090010, [], 0x0, 0x0, 0x0, 0x0, 0x0⟩,
  ⟨0x40090020, [(0x4, 4)], 0x0, 0x0, 0x0, 0x0, 0x8F030000⟩,
  ⟨0x40090030, [(0x4, 4)], 0x0, 0x0, 0x0, 0x0, 0x0⟩,
  ⟨0x40090040, [], 0x0, 0x0, 0x0, 0x0, 0x0⟩,
  ⟨0x40090044, [], 0x0, 0x0, 0x0, 0x0, 0x0⟩,
  ⟨0x40090048, [], 0x0, 0x0, 0x1F, 0x0, 0x0⟩,
  ⟨0x40090100, [(0x10, 4)], 0x0, 0x0, 0x0, 0x0, 0x0⟩,
  ⟨0x40090104, [(0x10, 4)], 0x0, 0x0, 0x0, 0x0, 0x0⟩,
  ⟨0x40090108, [(0x10, 4)], 0x0, 0x0, 0x0, 0x0, 0x0⟩,
  ⟨0x4009010C, [(0x10, 4)], 0x0, 0x0, 0x0, 0x0, 0x0⟩]

/-- Block RED (R343). -/
def redRows : List RegRow := [
  ⟨0x400A0000, [], 0x1900000C, 0x0, 0x0, 0x0, 0x1F00000D⟩,
  ⟨0x400A0010, [(0x4, 4)], 0x0, 0x0, 0x0, 0x0, 0xFFFFFFFF⟩,
  ⟨0x400A0020, [], 0x0, 0x0, 0x0, 0x0, 0xFFFFFFFF⟩,
  ⟨0x400A0024, [], 0x78, 0x0, 0x0, 0x0, 0xFFF⟩,
  ⟨0x400A0028, [], 0xA, 0x0, 0x0, 0x0, 0x3F⟩,
  ⟨0x400A002C, [], 0x600, 0x0, 0x0, 0x0, 0x7FFF⟩,
  ⟨0x400A0030, [], 0x3, 0x0, 0x0, 0x0, 0xF⟩,
  ⟨0x400A0040, [], 0x0, 0x0, 0x0, 0x0, 0x0⟩,
  ⟨0x400A0044, [], 0xFFFFFFFF, 0x0, 0x0, 0x0, 0x0⟩,
  ⟨0x400A0050, [], 0x0, 0x0, 0x0, 0x0, 0x0⟩,
  ⟨0x400A0054, [], 0x0, 0x0, 0x0, 0xFFFF0000, 0x0⟩,
  ⟨0x400A0058, [], 0x0, 0x0, 0x0, 0x0, 0x0⟩,
  ⟨0x400A0060, [], 0x0, 0x0, 0x0, 0x0, 0x0⟩,
  ⟨0x400A0064, [], 0x0, 0x0, 0x0, 0x0, 0x0⟩,
  ⟨0x400A0068, [], 0x0, 0x0, 0x0, 0x0, 0x0⟩,
  ⟨0x400A0080, [], 0x0, 0x0, 0x0, 0x0, 0x0⟩,
  ⟨0x400A0084, [], 0x0, 0x0, 0x3F, 0x0, 0x0⟩]

/-- Block INT (R438). -/
def intRows : List RegRow := [
  ⟨0x400B0000, [], 0x0, 0x0, 0x0, 0x0, 0x0⟩,
  ⟨0x400B0004, [], 0x0, 0x0, 0x0, 0x0, 0x0⟩,
  ⟨0x400B0040, [], 0x0, 0xF, 0x0, 0x0, 0x0⟩,
  ⟨0x400B0044, [], 0x0, 0x0, 0x0, 0x0, 0x0⟩,
  ⟨0x400B0048, [], 0x0, 0x0, 0x0, 0x0, 0x0⟩,
  ⟨0x400B004C, [], 0x0, 0x0, 0x0, 0x0, 0x0⟩,
  ⟨0x400B0060, [], 0x0, 0x0, 0x0, 0x0, 0x0⟩,
  ⟨0x400B0070, [], 0x0, 0x0, 0x0, 0x0, 0x0⟩,
  ⟨0x400B0080, [], 0x0, 0x0, 0x1F, 0x0, 0x0⟩,
  ⟨0x400B0100, [(0x8, 6)], 0x0, 0x0, 0x0, 0x0, 0x0⟩,
  ⟨0x400B0104, [(0x8, 6)], 0x0, 0x0, 0x0, 0x0, 0x0⟩]

/-- Block WDG (R439). -/
def wdgRows : List RegRow := [
  ⟨0x400C0000, [], 0x403, 0x0, 0x0, 0x0, 0xF07⟩,
  ⟨0x400C0004, [], 0x0, 0x0, 0x0, 0x0, 0x0⟩,
  ⟨0x400C0008, [], 0x0, 0x0, 0x0, 0x0, 0x0⟩,
  ⟨0x400C000C, [], 0x0, 0x0, 0x0, 0x0, 0x0⟩,
  ⟨0x400C0010, [], 0x0, 0x0, 0xFFFFFFFF, 0x0, 0x0⟩,
  ⟨0x400C0100, [(0x10, 32)], 0x320000, 0x0, 0x0, 0x0, 0x837F0000⟩,
  ⟨0x400C0104, [(0x10, 32)], 0xA, 0x0, 0x0, 0x0, 0xFFFFFF⟩,
  ⟨0x400C0108, [(0x10, 32)], 0x1, 0x0, 0x0, 0x0, 0xFFFF⟩,
  ⟨0x400C010C, [(0x10, 32)], 0x0, 0x0, 0x0, 0x0, 0x0⟩]

/-- Block RET (R466). -/
def retRows : List RegRow := [
  ⟨0x400D0000, [], 0x0, 0x0, 0x0, 0x0, 0x0⟩,
  ⟨0x400D0004, [], 0x0, 0x0, 0x0, 0x0, 0x0⟩,
  ⟨0x400D0010, [], 0x0, 0xF007FFFF, 0x0, 0x0, 0x0⟩,
  ⟨0x400D0014, [], 0x0, 0x8007FFFF, 0x0, 0x0, 0x0⟩,
  ⟨0x400D0018, [], 0x0, 0xFFFFFFE0, 0x0, 0x0, 0x0⟩,
  ⟨0x400D001C, [], 0x0, 0x0, 0x0, 0x0, 0x0⟩,
  ⟨0x400D0020, [], 0x0, 0x0, 0x0, 0x0, 0x0⟩,
  ⟨0x400D0030, [], 0x0, 0x0, 0x0, 0x0, 0x0⟩,
  ⟨0x400D0034, [], 0x0, 0x0, 0x0, 0x0, 0x0⟩,
  ⟨0x400D0038, [], 0x0, 0x0, 0x0, 0x0, 0x0⟩,
  ⟨0x400D003C, [], 0x0, 0x0, 0x0, 0x0, 0x0⟩,
  ⟨0x400D0040, [], 0x0, 0x0, 0x0, 0x0, 0x0⟩,
  ⟨0x400D0044, [], 0x0, 0x0, 0x0, 0x0, 0x0⟩,
  ⟨0x400D0048, [], 0x0, 0x0, 0x0, 0x0, 0x0⟩,
  ⟨0x400D0050, [], 0x0, 0xFF, 0x0, 0x0, 0x0⟩,
  ⟨0x400D0054, [], 0x0, 0x0, 0x0, 0x0, 0x0⟩,
  ⟨0x400D0058, [], 0x0, 0x0, 0x0, 0x0, 0x0⟩,
  ⟨0x400D005C, [], 0x0, 0x0, 0x0, 0x0, 0x0⟩,
  ⟨0x400D0060, [], 0x0, 0x0, 0x1F, 0x0, 0x0⟩]

/-- Block EVR (R467). -/
def evrRows : List RegRow := [
  ⟨0x400E0000, [], 0x0, 0x0, 0x0, 0x0, 0x0⟩,
  ⟨0x400E0004, [], 0x0, 0x0, 0x0, 0x0, 0x0⟩,
  ⟨0x400E0008, [], 0x0, 0x0, 0x0, 0x0, 0x0⟩,
  ⟨0x400E000C, [], 0x0, 0x0, 0x0, 0x0, 0x0⟩,
  ⟨0x400E0010, [], 0x0, 0x0, 0x0, 0x0, 0x0⟩,
  ⟨0x400E0020, [], 0x0, 0x80007FFF, 0x0, 0x0, 0x0⟩,
  ⟨0x400E0040, [(0x4, 8)], 0x0, 0x0, 0x0, 0x0, 0x0⟩,
  ⟨0x400E0060, [], 0x0, 0x0, 0x7, 0x0, 0x0⟩]

/-- Block RTC (R487). -/
def rtcRows : List RegRow := [
  ⟨0x400F0000, [], 0x0, 0x0, 0x0, 0x0, 0x0⟩,
  ⟨0x400F0004, [], 0x0, 0x0, 0x0, 0x0, 0x0⟩,
  ⟨0x400F0008, [], 0x0, 0xFFFFFFFF, 0x0, 0x0, 0x0⟩,
  ⟨0x400F000C, [], 0x0, 0xFFFF, 0x0, 0x0, 0x0⟩,
  ⟨0x400F0010, [], 0x0, 0x0, 0x0, 0x0, 0x0⟩,
  ⟨0x400F0014, [], 0x202, 0x0, 0x0, 0x0, 0xF03⟩,
  ⟨0x400F0018, [], 0x0, 0xFFFFFFFF, 0x0, 0x0, 0x0⟩,
  ⟨0x400F001C, [], 0x25, 0x0, 0x0, 0x0, 0xFFFF⟩,
  ⟨0x400F0020, [], 0x0, 0xFFFFFFFF, 0x0, 0x0, 0x0⟩,
  ⟨0x400F0024, [], 0x0, 0xFFFF, 0x0, 0x0, 0x0⟩,
  ⟨0x400F0028, [], 0x0, 0x1F04, 0x0, 0x0, 0x0⟩,
  ⟨0x400F002C, [], 0x0, 0x0, 0x0, 0x0, 0x0⟩,
  ⟨0x400F0030, [], 0x0, 0x0, 0xF, 0x0, 0x0⟩]

/-- Block UPD (R306 and R510). -/
def updRows : List RegRow := [
  ⟨0x40100400, [], 0x0, 0x0, 0x0, 0x0, 0x0⟩,
  ⟨0x40100404, [], 0x0, 0x0, 0x0, 0x0, 0x0⟩,
  ⟨0x40100408, [], 0x0, 0x0, 0x0, 0x0, 0x0⟩,
  ⟨0x4010040C, [], 0x0, 0x0, 0x0, 0x0, 0x0⟩,
  ⟨0x40100410, [], 0x0, 0x0, 0x0, 0x0, 0x0⟩,
  ⟨0x40100414, [], 0x0, 0x0, 0x0, 0x0, 0x0⟩,
  ⟨0x40100418, [], 0x0, 0x0, 0x0, 0x0, 0x0⟩,
  ⟨0x4010041C, [], 0x0, 0x0, 0x0, 0x0, 0x0⟩,
  ⟨0x40100420, [], 0x3E81900, 0x0, 0x0, 0x0, 0xFFFFFFC7⟩,
  ⟨0x40100424, [], 0xA, 0x0, 0x0, 0x0, 0xFF⟩,
  ⟨0x40100000, [], 0x0, 0x0, 0x0, 0x0, 0x0⟩,
  ⟨0x40100004, [], 0x0, 0x0, 0x0, 0x0, 0x0⟩,
  ⟨0x40100008, [], 0x0, 0x0, 0x0, 0x0, 0x0⟩,
  ⟨0x4010000C, [], 0x0, 0x0, 0x0, 0x0, 0x0⟩,
  ⟨0x40100010, [], 0x0, 0x0, 0x0, 0x0, 0x0⟩,
  ⟨0x40100014, [], 0x0, 0x0, 0x0, 0x0, 0x0⟩,
  ⟨0x40100018, [], 0x0, 0x0, 0x0, 0x0, 0x0⟩,
  ⟨0x4010001C, [], 0x0, 0x0, 0x0, 0x0, 0x0⟩,
  ⟨0x40100020, [], 0xF, 0x0, 0x0, 0x0, 0x0⟩,
  ⟨0x40100024, [], 0x1, 0x0, 0x0, 0x0, 0x1⟩,
  ⟨0x40100028, [], 0x0, 0x0, 0x0, 0x0, 0x0⟩,
  ⟨0x40100030, [], 0x0, 0x0, 0x0, 0x0, 0x0⟩,
  ⟨0x40100034, [], 0x0, 0x0, 0x1F, 0x0, 0x0⟩]

/-- Block PMC (R516 and R522). -/
def pmcRows : List RegRow := [
  ⟨0x40110000, [], 0x0, 0x7, 0x0, 0x0, 0x0⟩,
  ⟨0x40110004, [], 0x0, 0x0, 0x0, 0x0, 0x0⟩,
  ⟨0x40110008, [], 0x0, 0x0, 0x0, 0x0, 0x0⟩,
  ⟨0x40110100, [(0x10, 32)], 0x0, 0xFF, 0x80000000, 0x0, 0x0⟩,
  ⟨0x40111000, [(0x100, 16), (0x10, 8)], 0x0, 0xFF, 0x80000000, 0x0, 0x0⟩,
  ⟨0x40110104, [(0x10, 32)], 0x0, 0x0, 0x0, 0x0, 0x0⟩,
  ⟨0x40110108, [(0x10, 32)], 0x0, 0x0, 0x0, 0x0, 0x0⟩,
  ⟨0x40111004, [(0x100, 16), (0x10, 8)], 0x0, 0x0, 0x0, 0x0, 0x0⟩,
  ⟨0x40111008, [(0x100, 16), (0x10, 8)], 0x0, 0x0, 0x0, 0x0, 0x0⟩,
  ⟨0x40110800, [], 0x0, 0x1F8, 0x0, 0x0, 0x0⟩,
  ⟨0x40110804, [], 0xFFFFFFFF, 0xFFFFFFFF, 0x0, 0x0, 0x0⟩,
  ⟨0x40110840, [(0x8, 8)], 0x0, 0xFFFFFFFF, 0x0, 0x0, 0x0⟩,
  ⟨0x40110844, [(0x8, 8)], 0x0, 0xFFFFFFFF, 0x0, 0x0, 0x0⟩,
  ⟨0x40110810, [], 0x0, 0x0, 0x0, 0x0, 0x0⟩,
  ⟨0x40110820, [], 0x1, 0xFFFFF, 0x0, 0x0, 0x0⟩,
  ⟨0x40110824, [], 0x0, 0xFFFFFFFF, 0x0, 0x0, 0x0⟩,
  ⟨0x40110828, [], 0x0, 0xFFFFFFFF, 0x0, 0x0, 0x0⟩,
  ⟨0x4011082C, [], 0x0, 0x0, 0x0, 0x0, 0x0⟩,
  ⟨0x40110830, [], 0x0, 0x0, 0x0, 0x0, 0x7FF003F⟩]

/-- Block QUE (R391). -/
def queRows : List RegRow := [
  ⟨0x40120000, [(0x20, 32)], 0x5F28080, 0x0, 0x0, 0x0, 0xFFFFC7FF⟩,
  ⟨0x40120004, [(0x20, 32)], 0x0, 0x0, 0x0, 0x0, 0xFFFFFFE1⟩,
  ⟨0x40120008, [(0x20, 32)], 0x0, 0x0, 0x0, 0x0, 0x0⟩,
  ⟨0x4012000C, [(0x20, 32)], 0x0, 0x0, 0x0, 0x0, 0x0⟩,
  ⟨0x40120010, [(0x20, 32)], 0x0, 0x0, 0x0, 0x0, 0x0⟩,
  ⟨0x40120014, [(0x20, 32)], 0x0, 0x0, 0x0, 0x0, 0x0⟩,
  ⟨0x40120018, [(0x20, 32)], 0x0, 0x0, 0x0, 0x0, 0x0⟩,
  ⟨0x4012001C, [(0x20, 32)], 0x0, 0x0, 0x7, 0x0, 0x0⟩,
  ⟨0x40128000, [(0x8, 4096)], 0x0, 0xFFFFFFFF, 0x0, 0x0, 0x0⟩,
  ⟨0x40128004, [(0x8, 4096)], 0x0, 0x0, 0x0, 0x0, 0x0⟩]

/-- Every register of the 19 blocks (R25). -/
def regRows : List RegRow :=
  sysctlRows ++
  cycRows ++
  hdlRows ++
  beatRows ++
  seRows ++
  ucRows ++
  dioRows ++
  ethRows ++
  canRows ++
  melRows ++
  redRows ++
  intRows ++
  wdgRows ++
  retRows ++
  evrRows ++
  rtcRows ++
  updRows ++
  pmcRows ++
  queRows

end Sys2Proof.Machine
end

