-- ==== Sys2Proof/Machine/State.lean ====
section
/-!
DEFINITION. The state of the module as plain data, the closed lists of reasons a step can stop, and the state after
reset. A table is a list of (key, entry) pairs with strictly rising keys; a key that is not listed holds the table's
default entry, and no listed entry equals the default of its key (the operations are in Machine/Tab.lean).
-/
namespace Sys2Proof.Machine

/-- A sparse table: keys strictly rising, an absent key holds the default the reader names. -/
abbrev Tab (α : Type) := List (Nat × α)

/-- A byte of which only the bits of `mask` are present (R88: staging views, R96: beat views). -/
structure MByte where
  mask : Byte
  val : Byte
  deriving DecidableEq, Repr

/-! ## Cycle classes (R32 to R61) -/

/-- Which beam of a class is outstanding: none, one whose strands still weave, one that is ready and waits since a
CK_FAB clock, or one that runs since a CK_FAB clock (R50). -/
inductive Beam where
  | none
  | weaving
  | ready (endc : Nat)
  | running (endc start : Nat)
  deriving DecidableEq, Repr

/-- Whether an affected class runs trial code in a scratch context (R290, R294). -/
inductive Shadow where
  | none
  | dry
  | proof
  deriving DecidableEq, Repr

/-- One cycle class: its cycle number and t0, and what the phases of the cycle have done so far. -/
structure ClassSt where
  /-- current cycle number (R37) and its t0 -/
  cyc : BitVec 64
  t0 : BitVec 64
  /-- a t0 of this class has occurred since the cycle timer started -/
  started : Bool
  /-- the cycle in progress latches and sheds (R551), and it weaves (an executed cycle) -/
  latched : Bool
  executed : Bool
  shedDone : Bool
  deadlineDone : Bool
  emitDone : Bool
  beatToDone : Bool
  /-- the cycle number whose results the outstanding or last beam carries -/
  beam : Beam
  beamCyc : BitVec 64
  /-- the next t0 is skipped (R57); the present cycle number is a skipped one -/
  skipNext : Bool
  skipped : Bool
  /-- no cycle of the class has been executed since the entry into the executing mode (R40) -/
  firstPend : Bool
  /-- outputs are emitted with OVERRUN (R56) -/
  ovrEmit : Bool
  /-- CONSEC as a full count, and the cycle numbers of the overruns of the last 1,024 (R59) -/
  consec : Nat
  ovrs : List (BitVec 64)
  /-- start of the receive window of the next shed: t0 of the last executed cycle's window end (R44) -/
  winFrom : BitVec 64
  /-- image and status words as other classes' entries are seen through the weave (R49) -/
  snapImg : Tab Byte
  snapSw : Tab (BitVec 16)
  /-- TB of the shed instant for which the two above were taken -/
  snapAt : Option Nat
  /-- committed image and status words as of the last commit deadline, which the emit applies (R55, R56) -/
  outImg : Tab Byte
  outSw : Tab (BitVec 16)
  /-- local records as of the last latch, by SRCTYPE × 256 + instance (R43) -/
  latch : Tab (List Byte)
  /-- strands that have executed a beat in this cycle, keyed by beat (R96); a mark for a beat message that has come from another
  module (R356) -/
  beatDone : Tab (BitVec 16)
  /-- staging bytes of a producer when it executed a beat, keyed by beat × 16 + strand (R96) -/
  beatView : Tab (Tab MByte)
  shadow : Shadow
  /-- CK_FAB clock at which the weave started -/
  weaveAt : Nat
  deriving DecidableEq, Repr

/-- A class before the cycle timer starts. The first receive window after LOAD has no earlier cycle at which it could begin; that it
begins at TB 0 is the model's choice: DESIGN CHOICE, assumption 38. -/
def ClassSt.reset : ClassSt :=
  { cyc := 0, t0 := 0, started := false, latched := false, executed := false, shedDone := false,
    deadlineDone := false, emitDone := false, beatToDone := false, beam := .none, beamCyc := 0, skipNext := false,
    skipped := false, firstPend := false, ovrEmit := false, consec := 0, ovrs := [], winFrom := 0, snapImg := [], latch := [],
    snapSw := [], snapAt := none, outImg := [], outSw := [], beatDone := [], beatView := [], shadow := .none, weaveAt := 0 }

/-! ## Entries of the heddle table beyond the table itself (R45, R46, R548) -/

/-- The delivery state of an input entry: the value that its source last delivered, the quality and OVR it reported,
the last valid value, and the cycle number of the window of the latest delivery. Values are one word per item. -/
structure EntrySt where
  value : List Word
  quality : BitVec 2
  ovr : Bool
  valid : List Word
  window : BitVec 64
  delivered : Bool
  deriving DecidableEq, Repr

/-- A source that has delivered nothing since LOAD (R552). -/
def EntrySt.reset : EntrySt :=
  { value := [], quality := 0, ovr := false, valid := [], window := 0, delivered := false }

/-- A force change that waits for the first t0 of its entry's class from a C0 cycle number on (R72, R74): the kind and index of
its item, and the value to set, or none for a release. -/
structure ForceChange where
  kind : Nat
  idx : Nat
  value : Option Word
  start : BitVec 64
  deriving DecidableEq, Repr

/-! ## Strands (R112) -/

/-- The reservation of a strand (R154): none, valid on the granule of a member's memory, or lost. -/
inductive Resv where
  | none
  | valid (member granule : Nat)
  | lost
  deriving DecidableEq, Repr

/-- Where a strand stands in its cycle (R48, R101, R137). -/
inductive RunState where
  /-- no cycle of the strand is in progress -/
  | idle
  /-- it executes its partition -/
  | weaving
  /-- it executed ENDC -/
  | ended
  /-- it was halted by a trap or restarted by the watchdog, and counts as having executed ENDC -/
  | halted
  deriving DecidableEq, Repr

/-- What a strand waits for: a beat of its class (R98), a free fabric slot (R28), another member (R157, R362). -/
inductive WaitFor where
  | beat (k : Nat)
  | fabric
  | member
  deriving DecidableEq, Repr

/-- A strand that waits: for what, with which instruction, and whether it is released at the next CK_FAB clock. -/
structure Stall where
  on : WaitFor
  instr : Instr
  released : Bool
  deriving DecidableEq, Repr

/-- The answer of another member to a banked access or an SC (R157, R362): the value and, for an SC, its failure. -/
structure MemberAnswer where
  value : Word
  failed : Bool
  deriving DecidableEq, Repr

/-- One strand (R112), with its staging view of the cycle (R88). -/
structure Strand where
  w : Vector Word 16
  a : Vector Acc 2
  ba : Bool
  bs : List Bool
  z : Bool
  n : Bool
  c : Bool
  v : Bool
  q : Bool
  fxm : BitVec 4
  pc : Word
  dsp : Word
  dsl : Word
  rs : List Word
  p : Vector Word 4
  l : Vector Word 4
  bk : BitVec 16
  resv : Resv
  /-- instructions issued since the LR that set the reservation (R154) -/
  resvAge : Nat
  run : RunState
  stg : Tab MByte
  stall : Option Stall
  answer : Option MemberAnswer
  /-- the IMEM bank of this cycle, active at its shed (R114) -/
  bank : Nat
  /-- how the last cycle ended, as START of a branch trace codes it: 0 by ENDC, 1 by a trap, 2 by the watchdog (R515) -/
  why : Nat
  deriving DecidableEq, Repr

/-- The values that the registers of a strand hold at reset: those of R112 with the defaults of R113 and R119. -/
def Strand.reset : Strand :=
  { w := Vector.replicate 16 0, a := Vector.replicate 2 0, ba := false, bs := [], z := false, n := false,
    c := false, v := false, q := false, fxm := 0xE, pc := 0, dsp := 0xC0000, dsl := 0xBC000, rs := [],
    p := Vector.replicate 4 0, l := Vector.replicate 4 0, bk := 0, resv := .none, resvAge := 0, run := .idle,
    stg := [], stall := Option.none, answer := Option.none, bank := 0, why := 0 }


/-! ## Signal engines (R177 to R200) -/


/-- The state of a stage: past inputs, newest first, past outputs of each biquad, and the input count of a DEC. -/
structure StageSt where
  xs : List Int
  bq : List (List Int)
  cnt : Nat
  deriving DecidableEq, Repr

/-- One output sample of a pipeline: its stamp in units of 62.5 ns, the value, alarm bits, quality and OVR (R184). -/
structure Sample where
  stamp : Nat
  value : Int
  alarms : BitVec 8
  quality : BitVec 2
  ovr : Bool
  deriving DecidableEq, Repr

/-- One pipeline: its stages, their state, and its samples, newest first (R183, R187). -/
structure Pipe where
  stages : List Stage
  st : List StageSt
  samples : List Sample
  /-- the alarm bits that the hysteresis of LIMIT and ROC keep -/
  alarms : BitVec 8
  /-- values as of the latest t0 of a class: class, t0 in TB µs, record (R43, R187) -/
  t0s : List (Nat × Nat × Sample)
  deriving DecidableEq, Repr

def Pipe.reset : Pipe := { stages := [], st := [], samples := [], alarms := 0, t0s := [] }

/-- What an accepted job has come to (R196, R197). -/
inductive JobState where
  | waiting
  | done (at_ : Nat) (result : List Byte)
  | integ
  | absent
  deriving DecidableEq, Repr

/-- One accepted job (R193, R195): the descriptor, the copied DMEM source, its ticket and its state. -/
structure Job where
  strand : Nat
  kind : Nat
  ticket : BitVec 16
  src : Nat
  srcLen : Nat
  srcCopy : Option (List Byte)
  dst : Nat
  dstLen : Nat
  param : Nat
  paramLen : Nat
  count : Nat
  order : Nat
  status : Nat
  /-- cycles of its class that must be executed after the present one before it is delivered: 0 or 1 -/
  defer : Nat
  state : JobState
  /-- the job was delivered with TIMEOUT; its slot is held until the engine completes it -/
  late : Bool
  deriving DecidableEq, Repr

/-- One engine: its jobs in the order of acceptance (R196). -/
structure Engine where
  jobs : List Job
  deriving DecidableEq, Repr

def Engine.reset : Engine := { jobs := [] }

/-! ## Universal channels (R201 to R235) -/

/-- Row of R216 that decides an output. -/
abbrev UcRow := Nat

/-- A cross-fade or ramp of a shared current output (R330, R331): TB at its begin, its duration in µs, whether it rises, and
the command that it scales. -/
structure Fade where
  from_ : Nat
  dur : Nat
  up : Bool
  cmd : Int
  deriving DecidableEq, Repr

/-- One universal channel: calibration of its range, whether its front end runs, its output, command and diagnostics. -/
structure Uc where
  gf : Int
  ofs : Int
  calOk : Bool
  /-- the front end runs with its settings (row 2 of R216 does not apply) -/
  running : Bool
  /-- the output at the terminals, the value before the row that holds now began, and that row -/
  out : Int
  hold : Int
  row : UcRow
  /-- a stopped front end applies its held command until the next command -/
  retained : Option Int
  /-- the command in the front end with its quality; the one that the next emit applies -/
  cmd : Option Int
  cmdBad : Bool
  cmdNext : Option (Int × Bool)
  /-- TB of the last command, and of the last command change of more than 20 µA -/
  cmdAt : Nat
  stepAt : Nat
  /-- input conditions reported by the front end: ADC at full scale with its flags, loop short -/
  adcOver : Bool
  short : Bool
  /-- band of a current input judged at the last t0 (R211): 0 OPEN, 1 FAIL_LOW, 2 below nominal, 3 GOOD, 4 above
  nominal, 5 FAIL_HIGH -/
  band : Nat
  /-- cold-junction temperature of the sensor in m°C, and whether it is usable -/
  cj : Int
  cjBad : Bool
  /-- factory offset of the cold-junction sensor (R227) -/
  cjOfs : Int
  fade : Option Fade
  /-- the last modulator bits, newest first, and bits since the last pre-decimated sample (R181) -/
  mod : List Bool
  modCnt : Nat
  /-- the code that the front end gives its DAC (R203) -/
  dac : Int
  /-- the last mode word that came over the link, once the link is lost (R202, R216) -/
  word : Nat
  deriving DecidableEq, Repr

def Uc.reset : Uc :=
  { gf := 2 ^ 30, ofs := 0, calOk := true, running := false, out := 0, hold := 0, row := 2, retained := none,
    cmd := none, cmdBad := false, cmdNext := none, cmdAt := 0, stepAt := 0,
    adcOver := false, short := false, band := 3, cj := 25000, cjBad := false, cjOfs := 0, fade := none,
    mod := [], modCnt := 0, dac := 0, word := 0 }

/-! ## Digital channels and counters (R236 to R253) -/

/-- One digital channel beyond its registers: the filtered input, the output that R242 applies and the TB instant since
which it has been in force, the row among rows 4 to 8 of the last emit with the output as applied before that row began,
and the open-load count (R239, R242, R244, R245). -/
structure Dio where
  filt : Bool
  out : Bool
  /-- the output before its last change -/
  prev : Bool
  outAt : Nat
  row : Nat
  hold : Bool
  oldCnt : Nat
  deriving DecidableEq, Repr

def Dio.reset : Dio := { filt := false, out := false, prev := false, outAt := 0, row := 0, hold := false, oldCnt := 0 }

/-- One counter beyond its registers (R248 to R250): the glitch-filtered levels of its inputs at the last sample, the
8 ns sample of the last rising edge, the TB instants of the rising edges of the gate, the classes for which a wrap or a
quadrature error has occurred since their previous t0, and whether edges are held. -/
structure Ct where
  a : Bool
  b : Bool
  lastRise : Option Nat
  /-- 8 ns sample at which the last period was complete, or the measurement began (R249) -/
  doneAt : Nat
  rises : List Nat
  wrapped : BitVec 4
  qerr : BitVec 4
  hold : Bool
  deriving DecidableEq, Repr

def Ct.reset : Ct :=
  { a := false, b := false, lastRise := none, doneAt := 0, rises := [], wrapped := 0, qerr := 0, hold := false }

/-! ## Watchdog, keep RAM and companion (R419, R429 to R436, R449) -/

/-- A task slot beyond its registers: the tick at which the current period started and, for a class slot, the cycle
number; the expected token; whether a check-in has been judged in the period and whether it was clean; clean periods since
the fault; the tick at which the supervisor restarted the thread (R430 to R434). -/
structure WdgSlot where
  start : Nat
  startCyc : BitVec 64
  expected : BitVec 16
  seen : Bool
  clean : Bool
  since : Nat
  await : Bool
  thread : Option Nat
  deriving DecidableEq, Repr

def WdgSlot.reset : WdgSlot :=
  { start := 0, startCyc := 0, expected := 0, seen := false, clean := false, since := 0, await := false, thread := none }

/-- A fault of the steward pair or of its code: the lane, the reset cause and the CK_FAB clock (R419, R425). -/
structure StewardFault where
  lane : Nat
  cause : Nat
  at_ : Nat
  deriving DecidableEq, Repr

/-- What keep RAM and the companion hold outside the retentive area: the RTC ticks of the last module restarts (R435), the
edit marker (R300), t0 and RTC tick of each class's last executed cycle (R280), the seal as written by beams (R449), the
lane of a steward mismatch for the next start (R419), whether a loss of every supply has emptied it, and whether a failed
trial has marked the coppice ring as no source of a restore (R504). -/
structure Keep where
  restarts : List Nat
  editMarker : BitVec 16
  classT0 : Tab Nat
  classTick : Tab Nat
  sealOpen : Bool
  stewardLane : Option Nat
  lost : Bool
  ringVoid : Bool
  deriving DecidableEq, Repr

def Keep.reset : Keep :=
  { restarts := [], editMarker := 0, classT0 := [], classTick := [], sealOpen := false, stewardLane := none,
    lost := true, ringVoid := false }

/-- The selvedge log and the scrubber (R427, R428): the records newest first, as the words A, B and T; the next granule;
the CK_FAB clock at which the pass began; corrected granules that wait for their write-back (R424). -/
structure Integrity where
  log : List (Word × Word × Word)
  scrubAt : Nat
  passAt : Nat
  corrected : List Nat
  deriving DecidableEq, Repr

def Integrity.reset : Integrity := { log := [], scrubAt := 0, passAt := 0, corrected := [] }

/-! ## Retain store, coppice ring, counters and recorder (R441 to R464) -/

/-- An operation of the store in one page (R443): a page write with the rows it programs in order, an erase, a row
program, a bit program, and a record: a row program followed by the bit program of its mark (R462). -/
inductive StoreOp where
  | write (rows : List (Nat × List Byte))
  | erase
  | row (r : Nat) (bytes : List Byte)
  | bits (r : Nat) (bytes : List Byte)
  | record (r : Nat) (bytes : List Byte)
  deriving DecidableEq, Repr

/-- What an operation belongs to, beyond its effect: a RET command, a journal page of the trickle, a page of the power-down
flush, a checkpoint page (these three take their slot and content when they start), a quickset counter's tally, erase or
base record, or nothing that waits for it. -/
inductive StoreTag where
  | none
  | command
  | ring
  | flush
  | ckpt
  | tally (i : Nat)
  | tallyErase (i : Nat)
  | base (i : Nat)
  deriving DecidableEq, Repr

/-- A request of the store: its rank (R444), its page of the store, its operation and its tag. -/
structure StoreReq where
  rank : Nat
  page : Nat
  op : StoreOp
  tag : StoreTag
  deriving DecidableEq, Repr

/-- A RET command that runs (R445, R446): its operation code, the next row of the store, the rows left, the buffer. -/
structure StoreCmd where
  op : Nat
  row : Nat
  left : Nat
  buf : Nat
  deriving DecidableEq, Repr

/-- A checkpoint that is being written (R452): its S, the copied granules by index, and the next of its 2,304 pages. -/
structure Checkpoint where
  s : Nat
  copy : Tab (List Byte)
  next : Nat
  deriving DecidableEq, Repr

/-- The retain store beyond its contents: operations that run and that wait, in order of arrival; the running RET command;
the coppice ring: sequence number of the next page, erase pointer, dirty granules with the CK_FAB clock since which they
are dirty, the clocks of the last journal and checkpoint page, journal pages since the last checkpoint, S of the newest
checkpoint started, the running checkpoint and one that is due; the wear account and the laps of the system area. -/
structure Store where
  running : List StoreReq
  waiting : List StoreReq
  cmd : Option StoreCmd
  seq : Nat
  slot : Nat
  dirty : Tab Nat
  journalAt : Option Nat
  ckptAt : Option Nat
  journals : Nat
  ckptS : Nat
  ckpt : Option Checkpoint
  ckptDue : Bool
  wacc : Nat
  laps : Nat
  deriving DecidableEq, Repr

def Store.reset : Store :=
  { running := [], waiting := [], cmd := none, seq := 0, slot := 0, dirty := [], journalAt := none, ckptAt := none,
    journals := 0, ckptS := 0, ckpt := none, ckptDue := false, wacc := 0, laps := 0 }

/-- A quickset counter (R458, R459): base value, active tally page, its tally, the erase counts of both pages, the
sequence number of its base record, the pending increments in keep RAM, whether a page switch is in progress. -/
structure Qs where
  base : Nat
  active : Nat
  tally : Nat
  erases : Nat × Nat
  seq : Nat
  pending : Nat
  switching : Bool
  busy : Bool
  deriving DecidableEq, Repr

def Qs.reset : Qs :=
  { base := 0, active := 0, tally := 0, erases := (0, 0), seq := 0, pending := 0, switching := false, busy := false }

/-- The open record in keep RAM (R462): its number, the event, its repeat count and the CK_FAB clock of its opening. -/
structure OpenRecord where
  seq : Nat
  code : BitVec 16
  elem : Nat
  payload : List Byte
  tick : BitVec 48
  count : Nat
  openedAt : Nat
  deriving DecidableEq, Repr

/-- The event recorder (R460): the number of the next record, rows used in the first-fault region, the next row of the
rolling region, whether that region has wrapped, and the open record. -/
structure Recorder where
  next : Nat
  ff : Nat
  roll : Nat
  wrapped : Bool
  openRec : Option OpenRecord
  /-- events lost that the next record reports (R463) -/
  lost : Nat
  deriving DecidableEq, Repr

def Recorder.reset : Recorder := { next := 1, ff := 0, roll := 0, wrapped := false, openRec := none, lost := 0 }


/-! ## Modes and the key switch (R257 to R284) -/

/-- An accepted mode change that has not taken effect (R266, R267). -/
structure ModeChange where
  target : Nat
  /-- request code, or 0x10 + POS for a key change; cause byte of event 0x0101 -/
  req : Nat
  cause : Nat
  /-- TB at acceptance; the change takes effect at the first C0 t0 at least 100 µs later -/
  accepted : Nat
  cold : Bool
  deriving DecidableEq, Repr

/-- What the module drives and keeps outside its registers: FAULT_n asserted, the CK_FAB clock of the last entry into
SAFE, the accepted mode change, the C0 t0 instant at which STOP or SAFE values apply from, the restart that is due,
and the key samples. -/
structure Control where
  faultN : Bool
  safeAt : Nat
  /-- TB at the last change of mode -/
  modeAt : Nat
  /-- CK_FAB clock and cause of the last reset of the die (R13) -/
  resetAt : Option (Nat × Nat)
  change : Option ModeChange
  /-- kind of the first restart after a reset: none once it has taken place (R278) -/
  resetKind : Option Bool
  /-- the next entry into an executing mode performs a restart (R277) -/
  restartDue : Bool
  /-- TB at the last change of POS, for the CONFLICT rule of R266 -/
  keyAt : Option Nat
  /-- a key change read during HANDOVER, to be acted on when it ends (R261) -/
  keyHeld : Option Nat
  /-- copies of the LOCKOUT flag in keep RAM and in the retain store (R269) -/
  lockKeep : Bool
  lockStore : Bool
  /-- the die is held in reset: clock fault (R20), or powered down: DORMANT, or no supply -/
  held : Bool
  /-- event payload of a clock fault in the companion's record, for the next start (R20) -/
  clockFault : Option (List Byte)
  /-- the steward has stopped (R419, R425) -/
  stewardFault : Option StewardFault
  /-- PFAIL has been taken (R454) -/
  pfail : Bool
  /-- classes whose retentive timers continue at their first executed t0 (R280) -/
  timersDue : List Nat
  /-- step 8 of the start-up waits for the first executed C0 cycle (R276) -/
  booting : Bool
  /-- the CK_FAB clock of step 8 and the time from step 1 until then in ms (R276) -/
  bootAt : Nat
  bootMs : Nat
  deriving DecidableEq, Repr

def Control.reset : Control :=
  { faultN := false, safeAt := 0, modeAt := 0, resetAt := none, change := none, resetKind := none, restartDue := false, keyAt := none, keyHeld := none,
    lockKeep := false, lockStore := false, held := false, clockFault := none, stewardFault := none, pfail := false, timersDue := [], booting := false,
    bootAt := 0, bootMs := 0 }

/-! ## Online edits (R285 to R304) -/

/-- The last mark of a journal record (R303). -/
inductive JournalMark where
  | staged
  | prepared
  | committed
  | void
  deriving DecidableEq, Repr

/-- A record of the edit journal of a slot. -/
structure JournalRec where
  slot : Nat
  pkg : EditPkg
  mark : JournalMark
  deriving DecidableEq, Repr

/-- What a unit keeps of a swapped class until the edit is final (R301): the old heddle entries, the old values of registers,
the old bytes of memory and image, the old active banks, stages and retentive ranges, and the delivery state of replaced entries. -/
structure EditKept where
  heddle : List (Nat × BitVec 256)
  regs : List (Nat × Word)
  mem : List (Nat × Byte)
  img : List (Nat × Byte)
  banks : List (Nat × Nat)
  stages : List (Nat × List Stage)
  ranges : List RetRange
  entries : List (Nat × EntrySt)
  deriving DecidableEq, Repr

def EditKept.reset : EditKept := { heddle := [], regs := [], mem := [], img := [], banks := [], stages := [], ranges := [], entries := [] }

/-- The world in which a class runs trial code (R290, R294), or the live one while trial code runs: heddle table, image, status
words, beats signalled and force-signalled, producer masks that the edit changes by register, executions and views of beats, image
seen of other classes. -/
structure World where
  heddle : Tab (BitVec 256)
  img : List Host.Cell
  sw : Tab (BitVec 16)
  sig : Nat
  frc : Nat
  prods : List (Nat × Word)
  beatDone : Tab (BitVec 16)
  beatView : Tab (Tab MByte)
  snapImg : Tab Byte
  snapSw : Tab (BitVec 16)
  deriving DecidableEq, Repr

def World.reset : World :=
  { heddle := [], img := [], sw := [], sig := 0, frc := 0, prods := [], beatDone := [], beatView := [], snapImg := [], snapSw := [] }

/-- The proof of one affected class (R291, R294, R295): cycles begun, passes or compared cycles done, the CK_FAB clock at
which the pass or cycle that runs began, with its limit, the primary's committed output bytes that it is compared with, and
the cycle number it proves. -/
structure Proof where
  cycles : Nat
  done : Nat
  began : Nat
  expect : List (Nat × Byte)
  cyc : BitVec 64
  deriving DecidableEq, Repr

def Proof.reset : Proof := { cycles := 0, done := 0, began := 0, expect := [], cyc := 0 }

/-- The staged edit: its package, whether its proof has ended, the marks and acknowledgements of the commit, the classes
that have swapped, have completed their first new cycle, have been acknowledged by the partner, and are to revert; what is
kept; the active IMEM bank of each strand; per class the slack in µs of the last executed cycles, the proof and the trial
world. -/
structure EditSt where
  pkg : Option EditPkg
  ownMark : Bool
  acked : Bool
  swapped : List Nat
  first : List Nat
  acks : List Nat
  revert : List Nat
  kept : Tab EditKept
  banks : Tab Nat
  slack : Tab (List Nat)
  proofs : Tab Proof
  worlds : Tab World
  deriving DecidableEq, Repr

def EditSt.reset : EditSt :=
  { pkg := none, ownMark := false, acked := false, swapped := [], first := [], acks := [], revert := [], kept := [],
    banks := [], slack := [], proofs := [], worlds := [] }

/-! ## Redundancy (R308 to R344) -/

/-- A mirror set in the mirror buffer (R320, R321): the set, TB at its commit, the CK_FAB clock at which its copy ends,
whether it has ended, its transmission, and whether that has ended or been cut. -/
structure MirrorTx where
  set : MirrorSet
  commitAt : Nat
  copyEnd : Nat
  copied : Bool
  /-- the clocks at which its transmission begins and ends -/
  sendAt : Nat
  sendEnd : Nat
  ended : Bool
  deriving DecidableEq, Repr

/-- A planned handover (R333 to R336): H, the trigger, whether it is armed, whether this unit is the incoming one. -/
structure Handover where
  h : BitVec 64
  trigger : Nat
  armed : Bool
  incoming : Bool
  deriving DecidableEq, Repr

/-- The pair beyond the RED registers. Instants are CK_FAB clocks unless said otherwise. -/
structure Red where
  /-- UID of the partner while paired, and whether its configuration hash differs (R340) -/
  partner : Option (BitVec 128)
  rolling : Bool
  /-- the last heartbeat on either link, the last witness heartbeat, what the partner last told -/
  beatAt : Nat
  witnessAt : Option Nat
  beacon : Option Beacon
  /-- the last heartbeat sent on the links, and on each witness port -/
  sentAt : Nat
  sentWitness : Tab Nat
  /-- the present witness heartbeat: its IEEE 802.1CB sequence number and the CK_FAB clock of its first frame (R381) -/
  witnessSeq : BitVec 16
  witnessFrom : Nat
  /-- the last change of BATON_IN; since when BATON_IN and the partner's role have agreed or disagreed -/
  batonAt : Nat
  agrees : Bool
  agreeAt : Nat
  /-- the unit waits for its role since (R311) -/
  waitRole : Option Nat
  /-- held sets by class (R322); complete sets that the outgoing unit of a handover has received beside them (R335) -/
  held : Tab (Option MirrorSet)
  aside : Tab (Option MirrorSet)
  /-- the standby has acknowledged the C0 set with the handover-final flag (R336) -/
  finalAcked : Bool
  /-- sets in the mirror buffer by class; retentive granules of each class that the standby has not acknowledged -/
  tx : Tab (Option MirrorTx)
  unacked : Tab (List Nat)
  /-- alignment (R325): class and cycle number of the segments that are not acknowledged (primary), or have not come whole
  (standby), and the CK_FAB clock at which they were sent; classes of which an ordinary set must follow (standby) -/
  alignSegs : List (Nat × BitVec 64)
  alignAt : Nat
  alignSets : List Nat
  aligning : Bool
  /-- the handover that is proposed or armed; the baton of a planned handover does not gate outputs (R313) -/
  handover : Option Handover
  ungated : Bool
  /-- TB at which the shared digital outputs of a class go off on the outgoing unit; classes whose outputs have not changed
  over since a takeover or t0(H) (R330) -/
  downAt : Tab Nat
  tkoEmit : List Nat
  /-- TB of T_d until every class has executed a cycle and has changed over; classes that have not yet executed a cycle since -/
  tko : Option Nat
  tkoLeft : List Nat
  /-- since when the unit has held the primary role (R314) -/
  roleAt : Nat
  /-- takebacks of the last hour, one deferred, and since when the unit has been READY without interruption (R337) -/
  takebacks : List Nat
  deferred : Bool
  dwell : Option Nat
  /-- the planned handover to come enters STOP at its end (R333) -/
  stopAfter : Bool
  deriving DecidableEq, Repr

def Red.reset : Red :=
  { partner := none, rolling := false, beatAt := 0, witnessAt := none, beacon := none, sentAt := 0, sentWitness := [], witnessSeq := 0, witnessFrom := 0,
    batonAt := 0, agrees := true, agreeAt := 0, waitRole := none, held := [], aside := [], finalAcked := false, tx := [], unacked := [],
    alignSegs := [], alignAt := 0, alignSets := [], aligning := false, handover := none, ungated := false, downAt := [], tkoEmit := [], tko := none, roleAt := 0,
    tkoLeft := [], takebacks := [], deferred := false, dwell := none, stopAfter := false }

/-! ## Hedges (R345 to R366) -/

/-- The entries of a class as its last completed beam left them, kept until RELEASE (R359). -/
structure OldCommit where
  img : List (Nat × Byte × Byte)
  sw : List (Nat × BitVec 16)
  deriving DecidableEq, Repr

/-- A transfer record as the last RELEASE of its class left it (R358): its bytes, the qualities by byte offset, and TB at that
RELEASE. -/
structure Transfer where
  bytes : List Byte
  quality : List (Nat × Nat)
  at_ : Nat
  deriving DecidableEq, Repr

/-- The hedge beam of one class (R359, R361): the CK_FAB clock of the local commit, the exports received for this cycle, the
members of the hedges this module is master of that have sent DONE, whether the own DONE is out, whether LATE came. -/
structure HedgeBeam where
  commitAt : Option Nat
  exports : List ExportMsg
  done : List Nat
  sent : Bool
  late : Bool
  lateCyc : BitVec 64
  deriving DecidableEq, Repr

def HedgeBeam.reset : HedgeBeam :=
  { commitAt := none, exports := [], done := [], sent := false, late := false, lateCyc := 0 }

/-- The hedge beyond the MEL registers. Instants are CK_FAB clocks. -/
structure Hedge where
  /-- the end of step 7, while formation has neither succeeded nor been reported as pending -/
  step7At : Option Nat
  /-- the last hedge heartbeat and the last time message sent -/
  sentAt : Nat
  timeAt : Nat
  /-- since when the offset from the top master has been above 2 µs -/
  offAt : Option Nat
  /-- the delay of each link in ns, and the port of the last time message (R353) -/
  delay : Tab Nat
  timePort : Nat
  beams : Tab HedgeBeam
  old : Tab (Option OldCommit)
  transfers : Tab (Option Transfer)
  /-- the mode that the top master has announced, with its first C0 cycle, and whether a RESTART is cold -/
  announced : Option (Nat × BitVec 64 × Bool)
  failed : Bool
  deriving DecidableEq, Repr

def Hedge.reset : Hedge :=
  { step7At := none, sentAt := 0, timeAt := 0, offAt := none, delay := [], timePort := 0, beams := [], old := [], transfers := [],
    announced := none, failed := false }

/-! ## Ethernet (R370 to R383) -/


/-- A judged frame that waits for its shed or beam: receive stamp in ns of TB, CYCLE, quality, and DATA. -/
structure RxFrame where
  stamp : Nat
  cycle : Nat
  quality : Nat
  data : List Byte
  deriving DecidableEq, Repr

/-- One stream: the frames judged and not yet taken, the CYCLE of the last valid frame, and the 802.1CB recovery: the
sequence number, the history of 32 and the TB instant of the last frame; `seqOut` numbers the frames sent. -/
structure StreamSt where
  frames : List RxFrame
  last : Option Nat
  takeAny : Bool
  seq : Nat
  history : BitVec 32
  lastAt : Nat
  seqOut : Nat
  deriving DecidableEq, Repr

def StreamSt.reset : StreamSt :=
  { frames := [], last := none, takeAny := true, seq := 0, history := 0, lastAt := 0, seqOut := 0 }

/-- An output frame built from the committed image (R377): STREAM, cycle number and launch time, STATUS, APPLY, DATA. -/
structure OutFrame where
  stream : Nat
  cycle : Nat
  time : Nat
  status : Nat
  apply : Nat
  data : List Byte
  rtag : Option Nat
  deriving DecidableEq, Repr

/-- A RIO window on a port: its class, the emit instant, the instant at which it starts, in ns, once it has started, and
the stream indices of the frames that have not been sent (R378, R379). -/
structure RioWindow where
  cls : Nat
  launch : Nat
  start : Option Nat
  left : List Nat
  deriving DecidableEq, Repr

/-- An engineering session: its port and the client's address (R383). -/
structure Session where
  port : Nat
  client : BitVec 32
  deriving DecidableEq, Repr

/-- Ethernet beyond its registers: stream states and output frames by stream index, RIO windows by port, oldest first,
ports whose gates other than RIO_TC are closed, the grandmaster (its system identity, and the port it is received on)
and the open sessions. -/
structure Eth where
  streams : Tab StreamSt
  outs : Tab OutFrame
  windows : Tab (List RioWindow)
  closed : List Nat
  gm : Option (BitVec 112 × Nat)
  sessions : List Session
  deriving DecidableEq, Repr

def Eth.reset : Eth := { streams := [], outs := [], windows := [], closed := [], gm := none, sessions := [] }

/-! ## CAN ports (R393 to R415) -/

/-- A pending transmit frame: launch time and deadline in TB µs, whether its launch time has passed, whether it has
started arbitration, and whether it is on the bus now (R406 to R408). -/
structure CanTx where
  frame : CanFrame
  launch : Nat
  deadline : Nat
  ready : Bool
  started : Bool
  onBus : Bool
  deriving DecidableEq, Repr

/-- A mailbox beyond its registers (R400 to R409): the frames behind the buffer with their stamps in ns of TB (at most one
for RX_SOFT, the open frames of RX_IMAGE), the agent that holds the read lock with the TB instant (16 is the steward), the
pending frame, and the frame that the commit built. -/
structure Mb where
  shadow : List (CanFrame × Nat)
  lock : Option (Nat × Nat)
  pend : Option CanTx
  image : Option CanFrame
  deriving DecidableEq, Repr

def Mb.reset : Mb := { shadow := [], lock := none, pend := none, image := none }

/-- A port beyond its registers: whether the head of its transmit queue is on the bus, and the TB instant of bus-off. -/
structure CanPort where
  queueOnBus : Bool
  busOffAt : Nat
  deriving DecidableEq, Repr

def CanPort.reset : CanPort := { queueOnBus := false, busOffAt := 0 }

/-! ## The always-on companion: RTC (R469 to R488) -/

/-- The RTC in the companion: the counter, the phase accumulator of the trim, the next-wake value; whether the armed alarm
was at or below the counter when it was armed or set; the step of a set that is staged as a difference; whether a latch
has taken place and AUTOSET has acted since the start of the die (R469 to R483). -/
structure Rtc where
  count : Nat
  acc : Int
  nw : Nat
  late : Bool
  rel : Option Int
  latched : Bool
  autoset : Bool
  deriving DecidableEq, Repr

def Rtc.reset : Rtc :=
  { count := 0, acc := 0, nw := 0, late := false, rel := none, latched := false, autoset := false }

/-- The supplies and RESET_n (R527, R531): whether the companion runs from the cell, whether the cell was missing or low
at the last start, and the CK_FAB clock since which RESET_n is asserted. -/
structure Supply where
  onCell : Bool
  cellBad : Bool
  resetN : Option Nat
  deriving DecidableEq, Repr

def Supply.reset : Supply := { onCell := false, cellBad := false, resetN := none }

/-! ## Secure boot and update (R489 to R508) -/

/-- The open delivery (R498, R499): the first page of its record, its record sequence, LENGTH and the chunk count. -/
structure Delivery where
  page : Nat
  seq : Nat
  length : Nat
  count : Nat
  deriving DecidableEq, Repr

/-- An accepted activation (R502): cold or warm, the copy of the retentive area once it is taken, the page of the fallback
copy that is written next, TB at the TRIAL mark, and whether it waits for a planned handover. -/
structure Activation where
  cold : Bool
  copy : Option (List (Nat × List Byte))
  trialAt : Option Nat
  handover : Bool
  deriving DecidableEq, Repr

/-- A trial that runs (R503): the CK_FAB clock of its begin and its window in s; a slot fault has occurred; the cause of
R511 with which it has failed, until the next clock resets the module (R504); the present C0 cycle does not count. -/
structure Trial where
  begun : Nat
  window : Nat
  slotFault : Bool
  failed : Option Nat
  spoilt : Bool
  deriving DecidableEq, Repr

/-- OTP that the module burns (R491, R496): the owner keys as hashes with their revoke bits, and the burnt SVN steps. -/
structure Otp where
  keys : List (List Byte)
  revoked : BitVec 4
  steps : List Nat
  deriving DecidableEq, Repr

/-- Update beyond the UPD registers; `privKind` is the KIND of a privileged update that runs, and `recIp` the IPv4 address of ETH0
that the system area recorded at the last successful LOAD (R506). -/
structure Upd where
  dlv : Option Delivery
  act : Option Activation
  trial : Option Trial
  otp : Otp
  privKind : Option Nat
  recIp : Word
  deriving DecidableEq, Repr

def Upd.reset : Upd := { dlv := none, act := none, trial := none, otp := { keys := [], revoked := 0, steps := [] }, privKind := none, recIp := 0 }

/-! ## Observation (R512 to R523) -/

/-- The branch trace of a strand that is being built: outcomes not yet in a word, oldest first, finished words, and
instructions since the last TARGET or START (R515). -/
structure BranchTrace where
  tnt : List Bool
  words : List (BitVec 64)
  since : Nat
  deriving DecidableEq, Repr

def BranchTrace.reset : BranchTrace := { tnt := [], words := [], since := 0 }

/-- The filter settings in effect, taken over at a C0 t0 (R516): EN, MASK and the eight ranges. -/
structure ObsFilter where
  en : Nat
  mask : Nat
  ranges : List (Nat × Nat)
  deriving DecidableEq, Repr

/-- The observation port: records in Q31, records dropped since the last loss marker and their types, branch traces,
filters in effect, and the CK_FAB clock of the most recent C0 cycle marker (R513 to R516). -/
structure Obs where
  queue : List (List (BitVec 64))
  lost : Nat
  lostTypes : Nat
  branches : Tab BranchTrace
  filter : ObsFilter
  markerAt : Nat
  /-- descriptors that OBS has returned, and the CK_FAB clock at which the link is free again (R512) -/
  sent : Nat
  freeAt : Nat
  deriving DecidableEq, Repr

def Obs.reset : Obs :=
  { queue := [], lost := 0, lostTypes := 0, branches := [],
    filter := { en := 0, mask := 0xFFFFFFFF, ranges := [] }, markerAt := 0, sent := 0, freeAt := 0 }

/-- The retirement trace (R517, R518): bytes in the buffer, cycles still to capture, an accepted start (the TB instant
of acceptance), and the strand whose UNCHECKED flag clears at the next t0 of its class. -/
structure Trace where
  used : Nat
  left : Nat
  start : Option Nat
  clear : Option Nat
  cause : Nat
  deriving DecidableEq, Repr

def Trace.reset : Trace := { used := 0, left := 0, start := none, clear := none, cause := 0 }

/-! ## Events and messages (R460 to R463) -/

/-- An event on its way to the recorder: its code, what tells the occurrences of a repeat-counted event apart, its payload and its
RTC tick. -/
structure Event where
  code : BitVec 16
  elem : Nat
  payload : List Byte
  tick : BitVec 48
  deriving DecidableEq, Repr

/-- What the module sends: to another member of its hedge, to its partner, to the network, to a session (`Sent`
constructors are grouped by the chapter that describes them). DESIGN CHOICE: assumption 53. -/
inductive Sent where
  /-- a banked access of a strand to another member: load or store of `size` bytes (R362) -/
  | memberAccess (member strand : Nat) (store : Bool) (region off size : Nat) (value : Word)
  /-- an LR or SC of a strand at another member (R157) -/
  | memberLr (member strand off : Nat)
  | memberSc (member strand off : Nat) (value : Word)
  /-- an Ethernet remote I/O frame on a port, as R373 lays it out (R377) -/
  | rioFrame (port : Nat) (frame : OutFrame)
  /-- a frame of a transmit queue on a port -/
  | ethFrame (port : Nat) (frame : List Byte)
  /-- a frame of the transmit queue of a port ML0 to ML5 (R29) -/
  | melberFrame (port : Nat) (data : List Byte)
  /-- an answer to an ARP, ICMP echo or TCP frame; `accept` is false for a reset connection (R383) -/
  | ipAnswer (port : Nat) (kind : IpKind) (accept : Bool)
  /-- IEEE 802.1AS sync messages on a port (R370) -/
  | gptpSync (port : Nat)
  /-- a CAN frame on a port (R408) -/
  | canFrame (port : Nat) (frame : CanFrame)
  /-- a mirror set with the trailer that follows it (R316, R317), its acknowledgement (R322), an alignment segment (R325) -/
  | mirrorSet (set : MirrorSet) (trailer : SetTrailer)
  | setAck (cls : Nat) (cycle : BitVec 64) (report : Option EditReport)
  | alignSegment (set : MirrorSet)
  /-- a heartbeat on ML4 and ML5, a witness heartbeat on an Ethernet port (R326, R381) -/
  | heartbeat (b : Beacon)
  | witness (port : Nat) (data : List Byte) (seq : BitVec 16)
  /-- a handover proposal and its acknowledgement (R334) -/
  | handoverProposal (h : BitVec 64) (trigger : Nat)
  | handoverAck (h : BitVec 64)
  /-- a planned handover of the hedge, to the members (R341) -/
  | hedgeHandover (h : BitVec 64) (trigger : Nat)
  /-- what a unit forwards to its partner about an edit (R287, R297, R299, R302) -/
  | editPackage (pkg : EditPkg)
  | editVerdict (seq : BitVec 16) (refusal : Option EditVerdict)
  | commitProposal (seq : BitVec 16) (n : BitVec 64)
  | preparedAck (seq : BitVec 16)
  | swapAck (cls : Nat)
  | editAbort (seq : BitVec 16) (cause : Nat)
  | editLapse (seq : BitVec 16)
  /-- a force change for the partner (R74) -/
  | force (items : List ForceItem) (release : Bool) (cycle : BitVec 64)
  /-- hedge messages (R351 to R364); to every member unless a module is named -/
  | announce (a : Announce)
  | stopRequest
  | timeMessage (topNs : Nat)
  | beatMessage (member cls beat : Nat) (forced : Bool) (view : List (Nat × Byte × Byte))
  | exports (member cls : Nat) (cycle : BitVec 64) (entries : List (Nat × Byte × Byte)) (sw : List (Nat × BitVec 16))
      (records : List (Nat × List Byte × List (Nat × Nat)))
  | done (master cls : Nat)
  | release (cls : Nat) (cycle : BitVec 64) (late : Bool)
  | late (cls : Nat) (cycle : BitVec 64)
  | fail (member : Option Nat) (cause : Nat)
  | hedgeHeartbeat
  | takeover (td : Nat)
  | memberAnswer (member strand : Nat) (value : Word) (failed : Bool) (refused : Option Nat)
  /-- an event for the top master's recorder (R363) -/
  | event (record : List Byte)
  /-- a frame sent again on a Melber port (R349) -/
  | resend (port : Nat)
  /-- UPD_CMD that the top master distributes (R502, R504) -/
  | updateCommand (cmd : Nat)
  /-- an attestation report with its signature (R508) -/
  | attestation (report signature : List Byte)
  /-- a record over the OBS link (R513) -/
  | obsRecord (words : List (BitVec 64))
  /-- the answer to a request of a session: what was asked and the status (R70, R71, R264, R474) -/
  | sessionAnswer (what status : Nat)
  deriving DecidableEq, Repr

/-! ## The whole state -/

/-- The state of the module: the queue of waiting commands and everything the spec gives the machine. -/
structure State where
  /-- commands that wait, first in first out (the model's own field) -/
  pending : List Instr
  /-- CK_FAB clocks since the start (R19) -/
  fab : Nat
  /-- the time base TB in µs (R62) -/
  tb : BitVec 64
  /-- progress of the next TB count, in 10 ppb of a CK_FAB clock (R63) -/
  tbPhase : Nat
  /-- how many free values have been drawn (the model's own field) -/
  free : Nat
  /-- the system registers (R25) -/
  regs : Tab Word
  /-- every byte-addressed memory but the image store, by memory key -/
  mem : List Host.Cell
  /-- granules that read INTEG, by memory key / 32 (R425) -/
  integ : List Nat
  /-- the image store: the shed of I and IW, the committed Q, M, QW and MW (R21, R47, R102) -/
  img : List Host.Cell
  /-- signal status words (R8) -/
  sw : Tab (BitVec 16)
  /-- the heddle table, eight words an entry (R78, R79) -/
  heddle : Tab (BitVec 256)
  /-- delivery state of the input entries (R45, R46) -/
  entries : Tab EntrySt
  /-- forced items by item key (R70) -/
  forces : Tab Word
  /-- force changes that wait for a t0 (R72) -/
  forceReq : List ForceChange
  /-- mode changes, key, pins -/
  ctl : Control
  strands : Tab Strand
  scfg : Tab StrandCfg
  /-- fabric transactions in flight (R28) -/
  inflight : Nat
  /-- agents whose request waits for a fabric slot (R28) -/
  fabWait : List Nat
  /-- agents admitted in the present round (R28) -/
  fabServed : List Nat
  /-- reservations of other members' strands on this module's granules, by member × 16 + strand (R157) -/
  remoteResv : Tab Nat
  classes : Tab ClassSt
  pipes : Tab Pipe
  engines : Tab Engine
  ucs : Tab Uc
  dios : Tab Dio
  cts : Tab Ct
  /-- FAILED marks of the engines, held in keep RAM (R191) -/
  seFailedKeep : Nat
  /-- stream table beside the registers (R375, R380) -/
  streamCfg : Tab StreamCfg
  /-- frame field of a remote pipeline, as heddle words 3 and 4 (R185) -/
  pipeSrc : Tab (BitVec 64)
  /-- the configuration image that LOAD has loaded (R274) -/
  config : Option ConfigImage
  /-- the edit journals of both slots (R303) -/
  journal : List JournalRec
  /-- the staged edit -/
  edit : EditSt
  /-- the pair -/
  red : Red
  /-- the hedge -/
  hedge : Hedge
  /-- delivery, activation, trial, OTP -/
  upd : Upd
  /-- streams, windows, sessions -/
  eth : Eth
  /-- mailboxes, by port × 64 + index -/
  mbs : Tab Mb
  canPorts : Tab CanPort
  /-- task slots -/
  wdg : Tab WdgSlot
  /-- the retain store -/
  store : Store
  /-- quickset counters -/
  qs : Tab Qs
  /-- the event recorder -/
  recorder : Recorder
  /-- keep RAM map of the configuration -/
  retMap : List RetRange
  /-- next row of the quickset base table -/
  qsBaseRow : Nat
  /-- keep RAM and companion -/
  keep : Keep
  int : Integrity
  /-- the RTC in the always-on companion -/
  rtc : Rtc
  /-- supplies of the companion and RESET_n -/
  supply : Supply
  /-- the events in Q30 (R462) -/
  evq : List Event
  /-- events taken from Q30 since the start (R385) -/
  evOut : Nat
  /-- the observation port -/
  obs : Obs
  /-- the retirement trace -/
  trace : Trace
  /-- the snapshot of the counter registers, by register address (R520) -/
  pmcSnap : Tab Word
  /-- what the module has sent, oldest first (the outside reads it; the model only appends) -/
  tx : List Sent
  /-- high words as latched by reads of LO registers, by HI register (R76, R472, R522) -/
  hiLatch : Tab Word
  /-- the value that the last steward register read returned -/
  readback : Word
  deriving DecidableEq, Repr

/-- The module right after reset: every table empty (so every entry is at its default, every register of the system
register space at the reset value of its row), nothing pending, mode POWER-UP. DESIGN CHOICE: assumption 7. -/
def State.reset : State :=
  { pending := [],
    fab := 0,
    tb := 0,
    tbPhase := 0,
    free := 0,
    regs := [],
    mem := [],
    integ := [],
    img := [],
    sw := [],
    heddle := [],
    entries := [],
    forces := [],
    forceReq := [],
    ctl := Control.reset,
    strands := [],
    scfg := [],
    inflight := 0,
    fabWait := [],
    fabServed := [],
    remoteResv := [],
    classes := [],
    pipes := [],
    engines := [],
    ucs := [],
    dios := [],
    cts := [],
    seFailedKeep := 0,
    streamCfg := [],
    pipeSrc := [],
    config := none,
    journal := [],
    edit := EditSt.reset,
    red := Red.reset,
    hedge := Hedge.reset,
    upd := Upd.reset,
    eth := Eth.reset,
    mbs := [],
    canPorts := [],
    wdg := [],
    store := Store.reset,
    qs := [],
    recorder := Recorder.reset,
    retMap := [],
    qsBaseRow := 0,
    keep := Keep.reset,
    int := Integrity.reset,
    rtc := Rtc.reset,
    supply := Supply.reset,
    evq := [],
    evOut := 0,
    obs := Obs.reset,
    trace := Trace.reset,
    pmcSnap := [],
    tx := [],
    hiLatch := [],
    readback := 0 }

/-- Why a step can stop with a fault: never. Every command of this model has a next state (DESIGN CHOICE, assumption 2). -/
inductive Fault where
  deriving DecidableEq, Repr

/-- Why a command is refused. DESIGN CHOICE: assumption 2. -/
inductive Refusal where
  /-- Raised by `exec` for a command that has no meaning in this model yet; safe, since no state follows. -/
  | notModelled (mnemonic : String)
  deriving DecidableEq, Repr

end Sys2Proof.Machine
end

