-- ==== Sys2Proof/Machine/Tab.lean ====
section
/-!
DEFINITION. The operations on sparse tables and on the bits and bytes of numbers.
-/
namespace Sys2Proof.Machine

/-- The entry of key `k`, or the default `d` when `k` is not listed. -/
def tget {α : Type} (d : α) : Tab α → Nat → α
  | [], _ => d
  | (a, x) :: t, k => if a = k then x else tget d t k

/-- The table without key `k`. -/
def tdel {α : Type} : Tab α → Nat → Tab α
  | [], _ => []
  | (a, x) :: t, k => if a = k then tdel t k else (a, x) :: tdel t k

/-- The table with `x` at key `k`, in its place among the rising keys. -/
def tput {α : Type} : Tab α → Nat → α → Tab α
  | [], k, x => [(k, x)]
  | (a, y) :: t, k, x => if a = k then (k, x) :: t else if k < a then (k, x) :: (a, y) :: t else (a, y) :: tput t k x

/-- The table with `x` at key `k`; storing the default `d` of the key removes it from the list. -/
def tset {α : Type} [DecidableEq α] (d : α) (t : Tab α) (k : Nat) (x : α) : Tab α :=
  if x = d then tdel t k else tput t k x

/-- Keys strictly rising and no entry equal to the default of its key. -/
def tabWf {α : Type} [DecidableEq α] (d : Nat → α) : Tab α → Bool
  | [] => true
  | [(a, x)] => decide (x ≠ d a)
  | (a, x) :: (b, y) :: t => decide (x ≠ d a) && decide (a < b) && tabWf d ((b, y) :: t)

/-! ### Numbers, bytes and bits -/

/-- The `w` bits of `v` from bit `lo` up. -/
def bitsAt (v lo w : Nat) : Nat := v / 2 ^ lo % 2 ^ w

/-- `v` with its `w` bits from bit `lo` up replaced by the low bits of `x`. -/
def bitsPut (v lo w x : Nat) : Nat := v - bitsAt v lo w * 2 ^ lo + x % 2 ^ w * 2 ^ lo

def bitAt (v i : Nat) : Bool := v / 2 ^ i % 2 == 1

/-- The `n` bytes of `v`, the least significant first (the conventions of the spec: all values are little-endian). -/
def leBytes : Nat → Nat → List Byte
  | 0, _ => []
  | n + 1, v => BitVec.ofNat 8 v :: leBytes n (v / 256)

/-- The number that a list of bytes holds, the least significant first. -/
def leNat : List Byte → Nat
  | [] => 0
  | b :: bs => b.toNat + 256 * leNat bs

/-- The bytes of `l` from `i` on, `n` of them, with 0 past the end. -/
def slice (l : List Byte) (i n : Nat) : List Byte := (List.range n).map (fun j => (l[i + j]?).getD 0)

/-- A little-endian field of a byte list. -/
def fieldAt (l : List Byte) (i n : Nat) : Nat := leNat (slice l i n)

def satAdd (v n hi : Nat) : Nat := if v + n > hi then hi else v + n

/-- The low `w` bits of an integer, as a number (two's complement). -/
def intBits (w : Nat) (v : Int) : Nat := (v % (2 ^ w : Nat)).toNat

/-- The integer that `w` bits stand for in two's complement. -/
def sgn (w v : Nat) : Int := if v % 2 ^ w < 2 ^ (w - 1) then (v % 2 ^ w : Nat) else (v % 2 ^ w : Nat) - (2 ^ w : Nat)

/-- `v` limited to a signed number of `w` bits. -/
def satInt (w : Nat) (v : Int) : Int :=
  if v < -(2 ^ (w - 1) : Nat) then -(2 ^ (w - 1) : Nat)
  else if v > (2 ^ (w - 1) : Nat) - 1 then (2 ^ (w - 1) : Nat) - 1 else v

/-- The smallest `i < n` for which `p` holds. -/
def findIdx (n : Nat) (p : Nat → Bool) : Option Nat := (List.range n).find? p

def popcount (n v : Nat) : Nat := ((List.range n).filter (fun i => bitAt v i)).length

def maskOf (l : List Nat) : Nat := l.foldl (fun a i => if bitAt a i then a else a + 2 ^ i) 0

/-- Apply an operation for every element of a list, first to last. -/
def each {σ α : Type} (l : List α) (s : σ) (f : σ → α → σ) : σ := l.foldl f s

end Sys2Proof.Machine
end

