-- ==== Sys2Proof/Machine/Regs.lean ====
section
/-!
DEFINITION. The system register file as stored (R3, R25): the value of a register, the value of a field, and their
updates. What a read or a write does beyond the stored bits is in Machine/SysRegs.lean.
-/
namespace Sys2Proof.Machine

/-- Whether `off` is a sum of an index times a stride for each dimension, widest first. -/
def dimsHit : List (Nat × Nat) → Nat → Bool
  | [], off => off == 0
  | (stride, count) :: ds, off =>
    if off / stride < count then dimsHit ds (off % stride) else false

/-- The rows of the block that holds address `a`, in the order of the bases (R25). -/
def blockRows (a : Nat) : List RegRow :=
  match a / 0x10000 with
  | 0x4000 => sysctlRows
  | 0x4001 => cycRows
  | 0x4002 => hdlRows
  | 0x4003 => beatRows
  | 0x4004 => seRows
  | 0x4005 => ucRows
  | 0x4006 => dioRows
  | 0x4007 => ethRows
  | 0x4008 => canRows
  | 0x4009 => melRows
  | 0x400A => redRows
  | 0x400B => intRows
  | 0x400C => wdgRows
  | 0x400D => retRows
  | 0x400E => evrRows
  | 0x400F => rtcRows
  | 0x4010 => updRows
  | 0x4011 => pmcRows
  | 0x4012 => queRows
  | _ => []

/-- The row whose registers include address `a`. -/
def regRow (a : Nat) : Option RegRow :=
  (blockRows a).find? (fun r => decide (r.base ≤ a) && dimsHit r.dims (a - r.base))

/-- The value of a register at reset (the register maps); 0 where no register lies. DESIGN CHOICE: assumption 7. -/
def regReset (a : Nat) : Word :=
  if a = SYS_REV then Config.hwRev.setWidth 32
  else if SYS_UID 0 ≤ a ∧ a ≤ SYS_UID 3 ∧ a % 4 = 0 then Config.uid.extractLsb' (8 * (a - SYS_UID 0)) 32
  else match regRow a with
    | some r => BitVec.ofNat 32 r.reset
    | none => 0

/-- The stored value of the register at `a`. -/
def State.rget (s : State) (a : Nat) : Word := tget (regReset a) s.regs a

/-- The state with register `a` holding `v`. -/
def State.rset (s : State) (a : Nat) (v : Word) : State := { s with regs := tset (regReset a) s.regs a v }

/-- The value of a field. -/
def State.fget (s : State) (f : Fld) : Nat := bitsAt (s.rget f.addr).toNat f.lo f.width

/-- The state with field `f` holding the low bits of `v`, and the other bits of its register unchanged. -/
def State.fput (s : State) (f : Fld) (v : Nat) : State :=
  s.rset f.addr (BitVec.ofNat 32 (bitsPut (s.rget f.addr).toNat f.lo f.width v))

def State.flag (s : State) (f : Fld) : Bool := s.fget f != 0

def State.setFlag (s : State) (f : Fld) (b : Bool) : State := s.fput f (if b then 1 else 0)

/-- Set bit `i` of a field, as hardware sets an event bit (R3, W1C). -/
def State.setBit (s : State) (f : Fld) (i : Nat) (b : Bool) : State :=
  s.fput f (bitsPut (s.fget f) i 1 (if b then 1 else 0))

/-- Add to a counter field that saturates at its largest value. -/
def State.satBump (s : State) (f : Fld) (n : Nat) : State := s.fput f (satAdd (s.fget f) n (2 ^ f.width - 1))

/-- Add to a counter field that wraps. -/
def State.wrapBump (s : State) (f : Fld) (n : Nat) : State := s.fput f (s.fget f + n)

/-- A 64-bit value held in a LO and a HI register. -/
def State.rget64 (s : State) (lo hi : Nat) : Nat := (s.rget lo).toNat + 2 ^ 32 * (s.rget hi).toNat

def State.rset64 (s : State) (lo hi : Nat) (v : Nat) : State :=
  (s.rset lo (BitVec.ofNat 32 v)).rset hi (BitVec.ofNat 32 (v / 2 ^ 32))

/-- Draw a free value: the counter advances, so that the next draw is independent of this one.
DESIGN CHOICE: assumption 4. -/
def State.draw (s : State) : State := { s with free := s.free + 1 }

end Sys2Proof.Machine
end

