-- ==== Sys2Proof/Machine/Ops.lean ====
section
/-!
DEFINITION. The shared operations: access to the parts of the state, memories, events, counters, the heddle table and
the image store.
-/
namespace Sys2Proof.Machine

/-! ## Parts of the state -/

def State.strand (s : State) (st : Nat) : Strand := tget Strand.reset s.strands st

def State.setStrand (s : State) (st : Nat) (x : Strand) : State :=
  { s with strands := tset Strand.reset s.strands st x }

def State.modStrand (s : State) (st : Nat) (f : Strand → Strand) : State := s.setStrand st (f (s.strand st))

def State.cfg (s : State) (st : Nat) : StrandCfg := tget StrandCfg.default s.scfg st

def State.cls (s : State) (k : Nat) : ClassSt := tget ClassSt.reset s.classes k

def State.setCls (s : State) (k : Nat) (x : ClassSt) : State :=
  { s with classes := tset ClassSt.reset s.classes k x }

def State.modCls (s : State) (k : Nat) (f : ClassSt → ClassSt) : State := s.setCls k (f (s.cls k))

def State.pipe (s : State) (p : Nat) : Pipe := tget Pipe.reset s.pipes p

def State.setPipe (s : State) (p : Nat) (x : Pipe) : State := { s with pipes := tset Pipe.reset s.pipes p x }

def State.engine (s : State) (k : Nat) : Engine := tget Engine.reset s.engines k

def State.setEngine (s : State) (k : Nat) (x : Engine) : State := { s with engines := tset Engine.reset s.engines k x }

def State.uc (s : State) (n : Nat) : Uc := tget Uc.reset s.ucs n

def State.setUc (s : State) (n : Nat) (x : Uc) : State := { s with ucs := tset Uc.reset s.ucs n x }

def State.modUc (s : State) (n : Nat) (f : Uc → Uc) : State := s.setUc n (f (s.uc n))

/-- The current that a front end which does not run leaves at the terminals: 0, or in a loop-powered output the draw that it cannot
regulate, at most 3.2 mA and open (R216, R219). -/
def State.ucIdle (s : State) (n : Nat) : Int :=
  if s.fget (UC_MODE_MODE n) = 0x3A then ((min 3200000 (Config.loopDraw n s.tb.toNat) : Nat) : Int) else 0

def State.dio (s : State) (n : Nat) : Dio := tget Dio.reset s.dios n

def State.setDio (s : State) (n : Nat) (x : Dio) : State := { s with dios := tset Dio.reset s.dios n x }

/-- The strands of class `k` (R34), in index order. -/
def State.strandsOf (s : State) (k : Nat) : List Nat := (List.range 16).filter (fun st => (s.cfg st).cls == k)

/-- The classes that the configuration enables; C0 always is (R32). -/
def State.classOn (s : State) (k : Nat) : Bool := k == 0 || (k < 4 && s.flag (CLS_CFG_EN k))

def State.classesOn (s : State) : List Nat := (List.range 4).filter s.classOn

/-! ## Modes (R257) -/

abbrev mPowerUp : Nat := 0x0
abbrev mLoad : Nat := 0x1
abbrev mStop : Nat := 0x2
abbrev mProgram : Nat := 0x3
abbrev mRun : Nat := 0x4
abbrev mRunLocked : Nat := 0x5
abbrev mTrack : Nat := 0x6
abbrev mHandover : Nat := 0x7
abbrev mSafe : Nat := 0x8
abbrev mLockout : Nat := 0x9
abbrev mService : Nat := 0xA
abbrev mDormant : Nat := 0xB

def State.mode (s : State) : Nat := s.fget SYS_MODE_MODE

/-- The modes in which strands weave as the program (R257). -/
def modeExecutes (m : Nat) : Bool := m == mProgram || m == mRun || m == mRunLocked || m == mHandover

/-- The modes of a die that runs and has left LOAD: latch and shed take place in them (R551). -/
def modeSheds (m : Nat) : Bool := decide (mStop ≤ m ∧ m ≤ mService)

/-- The die runs and has left LOAD (R551): the modes in which channels are measured and judged. -/
def State.live (s : State) : Bool := !s.ctl.held && modeSheds s.mode

/-- The steward is off: the die is held in reset (R20) or powered down (R271). DEDUCED: assumption 23. -/
def State.stewardOff (s : State) : Bool := s.ctl.held || s.mode == mDormant

/-- The die runs with its configuration loaded or loading: terminals and group supplies are measured (R237, R239).
DEDUCED: assumption 44. -/
def State.measures (s : State) : Bool := !s.ctl.held && s.mode != mPowerUp && s.mode != mDormant

/-! ## Memories

Every byte-addressed memory but the image store lies in one list under the keys below. -/

abbrev keyDmem (st off : Nat) : Nat := 0x100000000 + st * 0x40000 + off
/-- The scratch copy of DMEM in which a dry pass or a proof run works (R290, R294). -/
abbrev keyScratch (st off : Nat) : Nat := 0x200000000 + st * 0x40000 + off
abbrev keyImem (st bank off : Nat) : Nat := 0x300000000 + (st * 2 + bank) * 0x80000 + off
abbrev keyDram (off : Nat) : Nat := 0x400000000 + off
abbrev keyKeep (off : Nat) : Nat := 0x500000000 + off
abbrev keyStore (off : Nat) : Nat := 0x600000000 + off
abbrev keyFlash (dev off : Nat) : Nat := 0x700000000 + dev * 0x4000000 + off

/-- What a byte that nothing has written reads as, after the initialisation of step 3 (R274): 0, but 1 in every bit of
an unfilled IMEM word (R547) and of an erased cell of the configuration store, where the slot of device 0 reads CONFIRMED
(R493, DESIGN CHOICE, assumption 6). -/
def memDefault (key : Nat) : Byte :=
  if keyImem 0 0 0 ≤ key ∧ key < keyDram 0 then 0xFF
  else if key = keyFlash 0 0x100004 then 0
  else if keyStore 0 ≤ key then 0xFF else 0

def State.mget (s : State) (key : Nat) : Byte := tget (memDefault key) s.mem key

def State.mset (s : State) (key : Nat) (b : Byte) : State := { s with mem := tset (memDefault key) s.mem key b }

/-- The `n` bytes from `key` up. -/
def State.mgetN (s : State) (key : Nat) : Nat → List Byte
  | 0 => []
  | n + 1 => s.mget key :: s.mgetN (key + 1) n

/-- The state with the bytes of a list from `key` up. -/
def State.msetN (s : State) (key : Nat) : List Byte → State
  | [] => s
  | b :: bs => (s.mset key b).msetN (key + 1) bs

/-- Whether every entry of the memories is in the canonical form. DESIGN CHOICE: assumption 54. -/
def memWf (m : List Host.Cell) : Bool := tabWf memDefault m

def imgWf (m : List Host.Cell) : Bool := tabWf (fun _ => (0 : Byte)) m

/-- A byte of the image store; one that nothing has written reads 0. DESIGN CHOICE: assumption 6. -/
def imgGet (m : List Host.Cell) (off : Nat) : Byte := tget 0 m off

def imgSet (m : List Host.Cell) (off : Nat) (b : Byte) : List Host.Cell := tset 0 m off b

/-- Write the bits of `mask` into byte `off`. -/
def imgMask (m : List Host.Cell) (off : Nat) (mask val : Byte) : List Host.Cell :=
  imgSet m off ((imgGet m off &&& ~~~mask) ||| (val &&& mask))

/-! ## Common status codes (R7) -/

abbrev scOk : Nat := 0x00
abbrev scBusy : Nat := 0x01
abbrev scRange : Nat := 0x02
abbrev scSize : Nat := 0x03
abbrev scPerm : Nat := 0x04
abbrev scInteg : Nat := 0x05
abbrev scTimeout : Nat := 0x06
abbrev scState : Nat := 0x07
abbrev scAuth : Nat := 0x08
abbrev scConflict : Nat := 0x09
abbrev scAbsent : Nat := 0x0A
abbrev scWear : Nat := 0x0B

/-! ## Time -/

def State.tbNat (s : State) : Nat := s.tb.toNat

/-- The RTC tick (R469). -/
def State.rtcTick (s : State) : BitVec 48 := BitVec.ofNat 48 s.rtc.count

/-- The base period and the period of a class in µs (R32, R33). -/
def State.t0us (s : State) : Nat := s.fget CYC_T0_T0_US

def State.period (s : State) (k : Nat) : Nat := (if k = 0 then 1 else s.fget (CLS_CFG_N k)) * s.t0us

def State.epoch (s : State) : Nat := s.rget64 CYC_EPOCH_LO CYC_EPOCH_HI

/-- The C0 cycle number of an instant (R36). -/
def State.c0At (s : State) (t : Nat) : Int := ((t : Int) - s.epoch) / (s.t0us : Int)

/-- Whether `t` is a t0 of class `k` (R36, R37). -/
def State.isT0 (s : State) (k t : Nat) : Bool :=
  decide (((t : Int) - s.epoch) % (s.t0us : Int) = 0) &&
    (k == 0 || decide (s.c0At t % (s.fget (CLS_CFG_N k) : Int) = (s.fget (CLS_CFG_PHASE k) : Int)))

/-- The cycle number of class `k` at its t0 `t`, a 64-bit value (R37). -/
def State.cycAt (s : State) (k t : Nat) : BitVec 64 :=
  BitVec.ofInt 64 (if k = 0 then s.c0At t
    else (s.c0At t - (s.fget (CLS_CFG_PHASE k) : Int)) / (s.fget (CLS_CFG_N k) : Int))

def State.dshed (s : State) (k : Nat) : Nat := s.fget (CLS_DSHED_DSHED_US k)
def State.dout (s : State) (k : Nat) : Nat := s.fget (CLS_DOUT_DOUT_US k)
def State.guard (s : State) (k : Nat) : Nat := s.fget (CLS_GUARD_GUARD_US k)

/-- A digital channel is an output. -/
def State.dioOut (s : State) (n : Nat) : Bool := s.fget (DIO_CH_CFG_DIR n) == 1

/-- The channels that switch with channel `n`: its pair or quad, or itself (R246). -/
def State.gang (s : State) (n : Nat) : List Nat :=
  if s.fget (DIO_CH_CFG_GANG n) = 1 then [n / 2 * 2, n / 2 * 2 + 1]
  else if s.fget (DIO_CH_CFG_GANG n) = 2 then [n / 4 * 4, n / 4 * 4 + 1, n / 4 * 4 + 2, n / 4 * 4 + 3]
  else [n]

def State.leader (s : State) (n : Nat) : Nat := (s.gang n).headD n

/-- A digital channel is shared as the leader of its gang says (R246, R251). -/
def State.dioShared (s : State) (n : Nat) : Bool := s.flag (DIO_CH_CFG_SHARED (s.leader n))

/-- Apply an output value: a change comes into force now (R244). -/
def State.dioApply (s : State) (n : Nat) (v : Bool) : State :=
  let d := s.dio n
  if d.out = v then s else s.setDio n { d with out := v, prev := d.out, outAt := s.tbNat }

/-- An output switches off at once (rows 1 to 3 of R242). -/
def State.dioOff (s : State) (n : Nat) : State := s.dioApply n false

/-- Shared outputs are gated by the own baton while it is low, but in a planned handover (R313).
DEDUCED: assumption 43. -/
def State.gated (s : State) : Bool := !s.flag RED_STAT_BATON_OUT && !s.red.ungated

/-- Eprep, fixed at 20 µs (R42). -/
abbrev eprep : Nat := 20

/-! ## Events (R11, R462, R463) -/

/-- The number of FULL descriptors of Q30 is the number of events it holds; its capacity is its depth.
DESIGN CHOICE: assumption 21. DEDUCED: assumption 22. -/
def State.raise (s : State) (code elem : Nat) (payload : List Byte) : State :=
  if s.evq.length < s.fget (QUE_CFG_DEPTH 30) then
    { s with evq := s.evq ++ [{ code := BitVec.ofNat 16 code, elem := elem, payload := slice payload 0 12,
                                tick := s.rtcTick }] }
  else
    let s := { s with recorder := { s.recorder with lost := s.recorder.lost + 1 } }
    (s.satBump EVR_LOST_LOST 1).setFlag EVR_EVT_LOST true

/-- The module sends a message. DESIGN CHOICE: assumption 53. -/
def State.send (s : State) (m : Sent) : State := { s with tx := s.tx ++ [m] }

/-! ## Performance counters (R519) -/

/-- Add `n` to the counter whose CFG, LO and HI registers are given, when it counts event `ev`. -/
def countOne (s : State) (cfg lo hi ev n : Nat) : State :=
  if (s.rget cfg).toNat % 256 = ev ∧ ev ≠ 0 then
    let v := (s.rget lo).toNat + 2 ^ 32 * (s.rget hi).toNat + n
    let s := (s.rset lo (BitVec.ofNat 32 v)).rset hi (BitVec.ofNat 32 (v / 2 ^ 32 % 2 ^ 16))
    if v < 2 ^ 48 then s else s.rset cfg (s.rget cfg ||| 0x80000000)
  else s

/-- Counters count unless frozen, in every mode but DORMANT; where no counter register holds anything but its reset
value no counter has an event selected. -/
def State.counting (s : State) : Bool :=
  s.regs.any (fun r => decide (PMC_GCFG 0 ≤ r.1 ∧ r.1 < 0x40120000)) && !s.flag PMC_CTRL_FREEZE && s.mode != mDormant

/-- Count strand event `ev` of strand `st`. -/
def State.countS (s : State) (st ev n : Nat) : State :=
  if s.counting then
    each (List.range 8) s (fun s j => countOne s (PMC_SCFG st j) (PMC_SLO st j) (PMC_SHI st j) ev n)
  else s

/-- Count global event `ev`. -/
def State.countG (s : State) (ev n : Nat) : State :=
  if s.counting then each (List.range 32) s (fun s i => countOne s (PMC_GCFG i) (PMC_GLO i) (PMC_GHI i) ev n) else s

/-! ## Heddle entries (R79, R80) -/

abbrev HEntry := BitVec 256

/-- Field of word `i` of an entry. -/
def hfield (e : HEntry) (i lo w : Nat) : Nat := bitsAt (e.extractLsb' (32 * i) 32).toNat lo w

def hValid (e : HEntry) : Bool := hfield e 0 31 1 == 1
def hKind (e : HEntry) : Nat := hfield e 0 28 3
def hClass (e : HEntry) : Nat := hfield e 0 26 2
def hOwner (e : HEntry) : Nat := hfield e 0 16 8
def hReadpol (e : HEntry) : Nat := hfield e 0 14 2
def hBeat (e : HEntry) : Nat := hfield e 0 8 6
def hMirror (e : HEntry) : Bool := hfield e 0 6 1 == 1
def hSubst (e : HEntry) : Nat := hfield e 0 4 2
def hBase (e : HEntry) : Nat := hfield e 1 0 24
def hStale (e : HEntry) : Nat := hfield e 2 16 8
def hCount (e : HEntry) : Nat := hfield e 2 0 13
def hSrctype (e : HEntry) : Nat := hfield e 3 0 8
def hInstance (e : HEntry) : Nat := hfield e 3 8 8
def hStream (e : HEntry) : Nat := hfield e 3 16 16
def hByteofs (e : HEntry) : Nat := hfield e 4 0 16
def hBitofs (e : HEntry) : Nat := hfield e 4 16 3
def hSubval (e : HEntry) : Nat := hfield e 5 0 32
def hSwidx (e : HEntry) : Nat := hfield e 6 0 18
def hShared (e : HEntry) : Bool := hOwner e == 0xFF
def hInput (e : HEntry) : Bool := hKind e == 0 || hKind e == 3
def hOutput (e : HEntry) : Bool := hKind e == 1 || hKind e == 4
def hBits (e : HEntry) : Bool := decide (hKind e < 3)

/-- The valid entries of the heddle table with their indices. -/
def State.validEntries (s : State) : List (Nat × HEntry) := s.heddle.filter (fun e => hValid e.2)

/-- The item of the image under bit `bit` of image byte `off`: its kind and its bit or word index (R80). None in the
reserved range between M and IW. -/
def itemAt (off bit : Nat) : Option (Nat × Nat) :=
  if off < 0x8000 then some (0, off * 8 + bit)
  else if off < 0x10000 then some (1, off * 8 + bit)
  else if off < 0x30000 then some (2, off * 8 + bit)
  else if off < 0x40000 then none
  else if off < 0x60000 then some (3, (off - 0x40000) / 4)
  else if off < 0x80000 then some (4, (off - 0x60000) / 4)
  else if off < 0x180000 then some (5, (off - 0x80000) / 4)
  else none

/-- The image byte of the first bit of item `idx` of kind `kind` (R80). -/
def itemOff (kind idx : Nat) : Nat :=
  if kind < 3 then idx / 8
  else if kind = 3 then 0x40000 + 4 * idx
  else if kind = 4 then 0x60000 + 4 * idx
  else 0x80000 + 4 * idx

def entryHolds (e : HEntry) (kind idx : Nat) : Bool :=
  hKind e == kind && decide (hBase e ≤ idx ∧ idx < hBase e + hCount e)

/-- The valid entry that covers an item (at most one does, R86 reason 0x06). -/
def State.entryOf (s : State) (kind idx : Nat) : Option (Nat × HEntry) :=
  s.validEntries.find? (fun e => entryHolds e.2 kind idx)

/-- The valid entry that covers bit `bit` of image byte `off`. -/
def State.entryAt (s : State) (off bit : Nat) : Option (Nat × HEntry) :=
  match itemAt off bit with
  | some (kind, idx) => s.entryOf kind idx
  | none => none

/-- The bytes of the image that an entry touches: first byte and number of bytes. -/
def entryBytes (e : HEntry) : Nat × Nat :=
  if hBits e then (hBase e / 8, (hBase e + hCount e + 7) / 8 - hBase e / 8)
  else (itemOff (hKind e) (hBase e), 4 * hCount e)

/-- The bits of image byte `off` that belong to an entry. -/
def entryMask (e : HEntry) (off : Nat) : Byte :=
  BitVec.ofNat 8 (maskOf ((List.range 8).filter (fun b =>
    match itemAt off b with
    | some (k, i) => entryHolds e k i
    | none => false)))

/-- The own module index (R347); 0 in a single module. -/
def State.member (s : State) : Nat := if s.flag MEL_CFG_HEDGE then s.fget MEL_CFG_INDEX else 0

/-- The OWNER code of strand `st` of this module (R79). -/
def State.ownerCode (s : State) (st : Nat) : Nat := s.member * 16 + st

/-- The entries that strand `st` of this module owns. -/
def State.ownedBy (s : State) (st : Nat) : List (Nat × HEntry) :=
  s.validEntries.filter (fun e => !hInput e.2 && hOwner e.2 == s.ownerCode st)

/-! ## Status words (R8) -/

def State.swGet (s : State) (i : Nat) : BitVec 16 := tget 0 s.sw i

def State.swSet (s : State) (i : Nat) (v : BitVec 16) : State := { s with sw := tset 0 s.sw i v }

/-- A status word from its fields (R8). -/
def swWord (quality : Nat) (subst stale ovr forced overrun : Bool) (age : Nat) : BitVec 16 :=
  BitVec.ofNat 16 (quality % 4 + (if subst then 4 else 0) + (if stale then 8 else 0) + (if ovr then 16 else 0) +
    (if forced then 32 else 0) + (if overrun then 64 else 0) + min age 255 * 256)

abbrev qGood : Nat := 3
abbrev qUncertain : Nat := 1
abbrev qBad : Nat := 0

/-- A received quality, with the reserved value read as BAD (R9). -/
def readQuality (q : Nat) : Nat := if q % 4 = 2 then qBad else q % 4

/-- A received status word, with the reserved quality read as BAD (R9). -/
def readStatus (v : BitVec 16) : BitVec 16 := if v.toNat % 4 = 2 then v &&& 0xFFFC else v

/-! ## Forces (R70 to R74) -/

/-- The key of a forced item: its kind and its bit or word index. -/
def forceKey (kind idx : Nat) : Nat := kind * 2 ^ 24 + idx

/-- The forced value of an item, when it is forced. -/
def State.forced (s : State) (kind idx : Nat) : Option Word :=
  (s.forces.find? (fun f => f.1 == forceKey kind idx)).map (·.2)

/-- Whether an entry has at least one forced item (R73). -/
def State.entryForced (s : State) (e : HEntry) : Bool :=
  s.forces.any (fun f => entryHolds e (f.1 / 2 ^ 24) (f.1 % 2 ^ 24))

/-- The forced bits of image byte `off`: mask and value. -/
def State.forceByte (s : State) (off : Nat) : MByte :=
  (List.range 8).foldl (fun m b =>
    match itemAt off b with
    | some (k, i) =>
      match s.forced k i with
      | some v =>
        let x := if k < 3 then v.toNat % 2 == 1 else bitAt v.toNat ((off % 4) * 8 + b)
        { mask := m.mask ||| BitVec.ofNat 8 (2 ^ b), val := if x then m.val ||| BitVec.ofNat 8 (2 ^ b) else m.val }
      | none => m
    | none => m) { mask := 0, val := 0 }

/-- A byte with the bits of `m.mask` taken from `m.val`. DEDUCED: assumption 25. -/
def overlay (b : Byte) (m : MByte) : Byte := (b &&& ~~~m.mask) ||| (m.val &&& m.mask)

/-! ## Outputs of a new primary (R330) -/

/-- Between a takeover and the first executed cycle of its class: a MIRROR output entry applies its held value, and another
entry's output that is not shared stays at its stop selection (R330). -/
def State.tkoMirror (s : State) (e : HEntry) : Bool := s.red.tko.isSome && hMirror e

def State.tkoStops (s : State) (e : HEntry) : Bool :=
  s.red.tko.isSome && s.red.tkoLeft.contains (hClass e) && !hMirror e

/-- The takeover is over: every class has executed a cycle and has changed its outputs over (R329, R330). -/
def State.takeoverOver (s : State) : State :=
  if s.red.tkoLeft.isEmpty && s.red.tkoEmit.isEmpty then { s with red := { s.red with tko := none } } else s

/-! ## Beams of a hedge that have not been released -/

/-- The committed image and status words as the shed of another class sees them: of a hedge beam that has not been released, the
values of the last completed beam (R49, R359). -/
def State.released (s : State) : State :=
  each s.hedge.old s (fun (s : State) o =>
    match o.2 with
    | some x =>
      let s := { s with img := each x.img s.img (fun m b => imgMask m b.1 b.2.1 b.2.2) }
      each x.sw s (fun (s : State) w => s.swSet w.1 w.2)
    | none => s)

end Sys2Proof.Machine
end

