-- ==== Sys2Proof/Machine/ObsOps.lean ====
section
/-!
DEFINITION. Records to the observation port (R513 to R516) and the capture of the retirement trace (R517, R518).
-/
namespace Sys2Proof.Machine

/-- The descriptors that a record of `n` words of 8 bytes takes in Q31 (R384). -/
def State.obsDescs (s : State) (n : Nat) : Nat :=
  let buf := 256 * 2 ^ s.fget (QUE_CFG_BUFSZ 31)
  (8 * n + buf - 1) / buf

def State.obsFull (s : State) : Nat := (s.obs.queue.map (fun r => s.obsDescs r.length)).sum

/-- The header word of a record (R514). -/
def obsHeader (type src words time : Nat) : BitVec 64 :=
  BitVec.ofNat 64 (type % 256 + src % 256 * 2 ^ 8 + words % 256 * 2 ^ 16 + time % 2 ^ 32 * 2 ^ 32)

/-- A record becomes ready: it enters Q31 behind a loss marker that is due, or is dropped whole and counted (R513). No
record is generated while LINK = 0 (R512). -/
def State.obsPush (s : State) (type src : Nat) (payload : List (BitVec 64)) : State :=
  if !s.flag OBS_CFG_LINK then s
  else
    let time := s.fab - s.obs.markerAt
    let rec_ := obsHeader type src (payload.length + 1) time :: payload
    let depth := s.fget (QUE_CFG_DEPTH 31)
    let marker := [obsHeader 0x02 0 2 time, BitVec.ofNat 64 (min s.obs.lost (2 ^ 32 - 1) + s.obs.lostTypes * 2 ^ 32)]
    let needM := if s.obs.lost = 0 then 0 else s.obsDescs 2
    if s.obsFull + needM + s.obsDescs rec_.length ≤ depth then
      let q := if s.obs.lost = 0 then s.obs.queue else s.obs.queue ++ [marker]
      { s with obs := { s.obs with queue := q ++ [rec_], lost := 0, lostTypes := 0 } }
    else
      let s := s.satBump OBS_LOST_LOST 1
      if s.obs.lost ≠ 0 ∧ s.obsFull + needM ≤ depth then
        { s with obs := { s.obs with queue := s.obs.queue ++ [marker], lost := 1, lostTypes := 2 ^ (type - 1) } }
      else
        { s with obs := { s.obs with lost := s.obs.lost + 1,
                                     lostTypes := if bitAt s.obs.lostTypes (type - 1) then s.obs.lostTypes
                                                  else s.obs.lostTypes + 2 ^ (type - 1) } }

/-- Whether the filters in effect let records of a type pass (R516). -/
def State.obsOn (s : State) (type : Nat) : Bool := bitAt s.obs.filter.en type

/-- A beat event record (R514). -/
def State.obsBeat (s : State) (k beat : Nat) (forced : Bool) : State :=
  if s.obsOn 3 && bitAt s.obs.filter.mask (20 + k) then
    s.obsPush 0x03 k [BitVec.ofNat 64 (beat + (if forced then 2 ^ 8 else 0) + s.fget (BEAT_PROD_PROD k beat) * 2 ^ 16)]
  else s

/-- An SE job event record: 0 accepted, 1 started, 2 completed, 3 delivered (R514). -/
def State.obsJob (s : State) (k ticket what status : Nat) : State :=
  if s.obsOn 7 && bitAt s.obs.filter.mask (24 + k) then
    s.obsPush 0x07 k [BitVec.ofNat 64 (ticket + what * 2 ^ 16 + status * 2 ^ 24)]
  else s

/-- A frame record. The PORT mask has one bit for each pair of ports (R514, R516). -/
def State.obsFrame (s : State) (can tx : Bool) (port id status len : Nat) : State :=
  if s.obsOn 6 && bitAt s.obs.filter.mask (16 + (if can then 2 else 0) + port / 2) then
    s.obsPush 0x06 port [BitVec.ofNat 64 ((if can then 1 else 0) + (if tx then 4 else 0) + id % 2 ^ 16 * 2 ^ 8 +
      status * 2 ^ 24 + len % 2 ^ 16 * 2 ^ 32)]
  else s

/-! ### Branch traces (R515) -/

def State.bt (s : State) (st : Nat) : BranchTrace := tget BranchTrace.reset s.obs.branches st

def State.setBt (s : State) (st : Nat) (b : BranchTrace) : State :=
  { s with obs := { s.obs with branches := tset BranchTrace.reset s.obs.branches st b } }

def State.btOn (s : State) (st : Nat) : Bool := s.flag OBS_CFG_LINK && s.obsOn 5 && bitAt s.obs.filter.mask st

/-- Send the words of a strand's trace when there are 31 of them, or at END. -/
def State.btSend (s : State) (st : Nat) (endRec : Bool) : State :=
  let b := s.bt st
  if 31 ≤ b.words.length then
    let s := (s.obsPush 0x05 st (b.words.take 31)).setBt st { b with words := b.words.drop 31 }
    if endRec && decide (31 < b.words.length) then
      (s.obsPush 0x05 st (b.words.drop 31)).setBt st { b with words := [] }
    else s
  else if endRec && !b.words.isEmpty then (s.obsPush 0x05 st b.words).setBt st { b with words := [] }
  else s

/-- The TNT word of the outcomes gathered so far, if any. -/
def tntWord (l : List Bool) : List (BitVec 64) :=
  if l.isEmpty then []
  else [BitVec.ofNat 64 (l.length * 2 ^ 56 + maskOf ((List.range l.length).filter (fun i => (l[i]?).getD false)))]

/-- Add a word of kind TARGET, START or END behind the outcomes gathered so far. -/
def State.btWord (s : State) (st : Nat) (w : BitVec 64) (restart : Bool) (fin : Bool) : State :=
  if s.btOn st then
    let b := s.bt st
    let s := s.setBt st { tnt := [], words := b.words ++ tntWord b.tnt ++ [w], since := if restart then 0 else b.since }
    s.btSend st fin
  else s

/-- The outcome of a conditional branch. -/
def State.btBranch (s : State) (st : Nat) (taken : Bool) : State :=
  if s.btOn st then
    let b := s.bt st
    let l := b.tnt ++ [taken]
    if 56 ≤ l.length then (s.setBt st { b with tnt := [], words := b.words ++ tntWord l }).btSend st false
    else s.setBt st { b with tnt := l }
  else s

def State.btTarget (s : State) (st : Nat) (pc : Word) : State :=
  s.btWord st (BitVec.ofNat 64 (2 ^ 62 + (s.bt st).since % 2 ^ 16 * 2 ^ 32 + pc.toNat)) true false

/-- START: 0 cycle start, 1 after a trap, 2 after a watchdog restart. -/
def State.btStart (s : State) (st why : Nat) (pc : Word) : State :=
  s.btWord st (BitVec.ofNat 64 (2 ^ 63 + why * 2 ^ 32 + pc.toNat)) true false

def State.btEnd (s : State) (st : Nat) (pc : Word) : State :=
  s.btWord st (BitVec.ofNat 64 (2 ^ 63 + 2 ^ 62 + pc.toNat)) false true

/-! ### The retirement trace (R518) -/

/-- Capture ends for a cause (0 NCYC, 1 STOP, 2 full, 3 mode): the buffer drains, and the strand stays UNCHECKED until
the next t0 of its class. An accepted start that has not begun lapses. -/
def State.traceEnd (s : State) (cause : Nat) : State :=
  if s.flag OBS_RT_STAT_CAPTURING then
    let s := (s.setFlag OBS_RT_STAT_CAPTURING false).setFlag OBS_RT_STAT_DRAINING true
    { s with trace := { s.trace with clear := some (s.fget OBS_RT_CFG_STRAND), cause := cause, start := none } }
  else { s with trace := { s.trace with start := none } }

/-- The 16 bytes that the trace writes for one retired instruction (R518). The code of the destination register is a
free value, since the spec does not give the coding (assumption 4). -/
def State.traceRecord (s : State) (st : Nat) (pc : Word) (fl : BitVec 6) (dst : Option Word) : List Byte :=
  let word := s.mgetN (keyImem st (s.strand st).bank pc.toNat) 4
  let regCode := match dst with
    | none => 0xFF
    | some _ => (Config.freeWord s.free).toNat % 256
  let clocks := 2 * (s.fab - (s.cls (s.cfg st).cls).weaveAt)
  leBytes 4 pc.toNat ++ word ++ leBytes 4 ((dst.getD 0).toNat) ++ leBytes 1 fl.toNat ++ leBytes 1 regCode ++
    leBytes 2 clocks

/-- A full trace buffer ends the capture (R518). -/
def State.traceFull (s : State) (st : Nat) : State :=
  if s.fget OBS_RT_BUF_SIZE16 * 2 ^ 24 ≤ s.trace.used then
    ((s.setFlag OBS_RT_STAT_FULL true).raise 0x1203 st (leBytes 1 st)).traceEnd 2
  else s

/-- One retired instruction writes 16 bytes into the trace buffer; a full buffer ends the capture (R518). -/
def State.traceRetire (s : State) (st : Nat) (pc : Word) (fl : BitVec 6) (dst : Option Word) : State :=
  if s.flag OBS_RT_STAT_CAPTURING && s.fget OBS_RT_CFG_STRAND == st then
    let bytes := s.traceRecord st pc fl dst
    let s := s.draw.msetN (keyDram (s.fget OBS_RT_BUF_BASE_MIB * 2 ^ 20 + s.trace.used)) bytes
    ({ s with trace := { s.trace with used := s.trace.used + 16 } }).traceFull st
  else s

end Sys2Proof.Machine
end

