-- ==== Sys2Proof/Machine/CanOps.lean ====
section
/-!
DEFINITION. The CAN mailboxes as other chapters need them: their state, withdrawal, and what the end of execution does
to them (R398, R408, R409).
-/
namespace Sys2Proof.Machine

def State.mb (s : State) (p m : Nat) : Mb := tget Mb.reset s.mbs (p * 64 + m)
def State.setMb (s : State) (p m : Nat) (x : Mb) : State := { s with mbs := tset Mb.reset s.mbs (p * 64 + m) x }
/-- Mailbox kinds (R398). -/
abbrev mbRxSoft : Nat := 1
abbrev mbRxImage : Nat := 2
abbrev mbTxSoft : Nat := 3
abbrev mbTxImage : Nat := 4

/-- A pending frame is withdrawn with a status: WITHDRAWN, event 0x0904 (R406, R408, R409, DEDUCED, assumption 13). -/
def State.mbWithdraw (s : State) (p m status : Nat) : State :=
  match (s.mb p m).pend with
  | none => s
  | some t =>
    let s := s.setMb p m { s.mb p m with pend := none }
    let s := ((s.setFlag (CAN_MB_HDR_PENDING p m) false).fput (CAN_MB_HDR_TXST p m) status).setFlag
      (CAN_EVT_WITHDRAWN p) true
    s.raise 0x0904 (p * 64 + m) (leBytes 1 p ++ leBytes 1 m ++ leBytes 1 status ++ [0] ++ leBytes 8 t.launch)

/-- Pending image frames are withdrawn with STATE when the module stops executing (R409). One on the bus completes. -/
def State.canStop (s : State) : State :=
  each (s.mbs.filter (fun e => decide (e.1 < 256))) s (fun s e =>
    let p := e.1 / 64
    let m := e.1 % 64
    if s.fget (CAN_MB_CFG_KIND p m) = mbTxImage then
      let s := match e.2.pend with
        | some t => if t.onBus then s else s.mbWithdraw p m scState
        | none => s
      s.setMb p m { s.mb p m with image := none }
    else s)

end Sys2Proof.Machine
end

