-- ==== Sys2Proof/Machine/Slots.lean ====
section
/-!
DEFINITION. The two slots of the configuration store: their marks and states (R492, R493).
-/
namespace Sys2Proof.Machine

/-- The marks of the state sector in the order of their bytes (R493). -/
abbrev mkReceiving : Nat := 0
abbrev mkComplete : Nat := 1
abbrev mkTrial : Nat := 2
abbrev mkStarted : Nat := 3
abbrev mkConfirmed : Nat := 4
abbrev mkFailed : Nat := 5
abbrev mkRetired : Nat := 6

/-- Codes of the slot states (R510). -/
abbrev slEmpty : Nat := 0
abbrev slReceiving : Nat := 1
abbrev slComplete : Nat := 2
abbrev slTrial : Nat := 3
abbrev slStarted : Nat := 4
abbrev slConfirmed : Nat := 5
abbrev slFailed : Nat := 6
abbrev slRetired : Nat := 7

/-- A mark reads as set when at least 5 of its bits read 0 (R493). -/
def State.markSet (s : State) (slot mark : Nat) : Bool :=
  decide (popcount 8 (s.mget (keyFlash slot (0x100000 + mark))).toNat ≤ 3)

/-- Program a mark. -/
def State.setMark (s : State) (slot mark : Nat) : State := s.mset (keyFlash slot (0x100000 + mark)) 0

/-- The state of a slot: the first of the list whose mark is set (R493). -/
def State.slotState (s : State) (slot : Nat) : Nat :=
  if s.markSet slot mkFailed then slFailed
  else if s.markSet slot mkRetired then slRetired
  else if s.markSet slot mkConfirmed then slConfirmed
  else if s.markSet slot mkStarted then slStarted
  else if s.markSet slot mkTrial then slTrial
  else if s.markSet slot mkComplete then slComplete
  else if s.markSet slot mkReceiving then slReceiving
  else slEmpty

/-- UPD_SLOT shows the states of both slots (R510). -/
def State.showSlots (s : State) : State :=
  (s.fput UPD_SLOT_STATE0 (s.slotState 0)).fput UPD_SLOT_STATE1 (s.slotState 1)

def State.activeSlot (s : State) : Nat := s.fget UPD_SLOT_ACTIVE

def State.inactiveSlot (s : State) : Nat := 1 - s.activeSlot

/-- Program a mark and show the states. -/
def State.markSlot (s : State) (slot mark : Nat) : State := (s.setMark slot mark).showSlots

/-- A field of the manifest in the header of a slot's image (R492, R495). -/
def State.manifest (s : State) (slot i n : Nat) : Nat := leNat (s.mgetN (keyFlash slot (0x101000 + i)) n)

end Sys2Proof.Machine
end

