-- ==== Sys2Proof/Machine/EditEnd.lean ====
section
/-!
DEFINITION. Online edits that end: the marks of the journal, the end of trial code, and an abort (R297, R302, R303).
-/
namespace Sys2Proof.Machine

/-- The pair is established (R308). -/
def State.paired (s : State) : Bool := s.red.partner.isSome

def State.edState (s : State) : Nat := s.fget EDT_STAT_STATE

abbrev edIdle : Nat := 0
abbrev edReceiving : Nat := 1
abbrev edChecked : Nat := 2
abbrev edProving : Nat := 3
abbrev edProved : Nat := 4
abbrev edArmed : Nat := 5
abbrev edSwapping : Nat := 6
abbrev edReverting : Nat := 7

/-- The first record of a journal of slot `slot` with number `seq` and no last mark takes the mark `m` (R303). -/
def markFirst (slot : Nat) (seq : BitVec 16) (m : JournalMark) : List JournalRec → List JournalRec
  | [] => []
  | r :: l =>
    if r.slot = slot ∧ r.pkg.seq = seq ∧ (r.mark = .staged ∨ r.mark = .prepared) then { r with mark := m } :: l
    else r :: markFirst slot seq m l

/-- The record of the staged edit, the latest with its number in the journal of the active slot, takes a mark (R303). -/
def State.journalMark (s : State) (seq : BitVec 16) (m : JournalMark) : State :=
  { s with journal := (markFirst s.activeSlot seq m s.journal.reverse).reverse }

/-- Strands that run trial code stop, and the classes leave their trial worlds. -/
def State.stopTrial (s : State) : State :=
  let s := each (List.range 4) s (fun s k =>
    if (s.cls k).shadow = .none then s
    else
      let s := each (s.strandsOf k) s (fun s st =>
        s.modStrand st (fun x => { x with run := .idle, stg := [], stall := none, answer := none }))
      s.modCls k (fun c => { c with shadow := .none }))
  s.setFlag SYS_MODE_PROOF false

/-- The edit is over: nothing stays staged but what each class keeps for its next edit. -/
def State.editClear (s : State) : State :=
  ({ s with edit := { EditSt.reset with banks := s.edit.banks, slack := s.edit.slack, worlds := s.edit.worlds } }).fput
    EDT_STAT_STATE edIdle

/-- The classes that have swapped revert at their next t0 (R302, R307). -/
def State.revertSwapped (s : State) : State :=
  ({ s with edit := { s.edit with revert := s.edit.swapped } }).fput EDT_STAT_STATE edReverting

/-- The staged edit aborts: VOID is written, the partner is told, the event is raised. Classes that have swapped revert
at their next t0 (R297, R302, R307). Causes: 0 session, 1 takeover, 2 links, 3 mode, 4 reset, 5 proposal lapsed. -/
def State.editAbortFor (s : State) (cause : Nat) : State :=
  match s.edit.pkg with
  | none => s
  | some p =>
    if s.edState = edReverting then s
    else
      let back := !s.edit.swapped.isEmpty
      let s := (s.journalMark p.seq .void).fput EDT_STAT_LASTSTAT scState
      let s := if s.paired then { s with tx := s.tx ++ [.editAbort p.seq cause] } else s
      let s := s.raise 0x1145 p.seq.toNat (leBytes 2 p.seq.toNat ++ leBytes 1 cause ++ leBytes 1 (if back then 1 else 0))
      let s := s.stopTrial
      if back then s.revertSwapped else s.editClear

/-- A reset of the die ends a staged edit that is not armed; of an armed one the record and the edit marker decide at the next
LOAD (R297, R304). DEDUCED: assumption 31. -/
def State.editReset (s : State) : State :=
  if s.edState = edArmed ∨ s.edState = edSwapping then s else s.editAbortFor 4

end Sys2Proof.Machine
end

