-- ==== Sys2Proof/Machine/Store.lean ====
section
/-!
DEFINITION. The retain store: its layout, what an operation does to its page, and what a failing supply leaves
(R441 to R447).
-/
namespace Sys2Proof.Machine

/-! ## Layout (R441) -/

abbrev storeRows : Nat := 0x80000

/-- Memory key of a row of the store. -/
def rowKey (row : Nat) : Nat := keyStore (32 * row)

/-- The mark that a row is not BLANK although its data bits may all be 1: 0xFF while the row is BLANK. -/
def rowMark (row : Nat) : Nat := keyStore (0x1000000 + row)

/-- First row and number of rows of a partition. -/
def partRows (part : Nat) : Option (Nat × Nat) :=
  match part with
  | 0 => some (0, 12 * 0x8000)
  | 1 => some (12 * 0x8000, 0x8000)
  | 2 => some (13 * 0x8000, 0x2000)
  | 3 => some (13 * 0x8000 + 0x2000, 0x800)
  | 4 => some (14 * 0x8000, 0x8000)
  | 5 => some (15 * 0x8000, 0x8000)
  | _ => none

/-- A coded row carries the selvedge code: partitions 0, 3 and 5. -/
def rowCoded (row : Nat) : Bool :=
  decide (row < 12 * 0x8000 ∨ (13 * 0x8000 + 0x2000 ≤ row ∧ row < 13 * 0x8000 + 0x2800) ∨ 15 * 0x8000 ≤ row)

def rowBank (row : Nat) : Nat := row / 0x8000
def pageBank (page : Nat) : Nat := page / 2048

/-- Rank of a user of a partition (R444). -/
def partRank (part : Nat) : Nat := if part = 5 then 1 else if part = 0 then 2 else if part = 1 then 3 else if part = 4 then 5 else 4

def State.rowBlank (s : State) (row : Nat) : Bool := s.mget (rowMark row) == 0xFF

def State.rowBytes (s : State) (row : Nat) : List Byte := s.mgetN (rowKey row) 32

def State.rowInteg (s : State) (row : Nat) : Bool := s.integ.contains (rowKey row / 32)

/-! ## Effects (R443) -/

/-- A row becomes BLANK. -/
def State.rowErase (s : State) (row : Nat) : State :=
  let s := (s.msetN (rowKey row) (List.replicate 32 0xFF)).mset (rowMark row) 0xFF
  { s with integ := s.integ.filter (· != rowKey row / 32) }

/-- A row holds new content. -/
def State.rowProgram (s : State) (row : Nat) (bytes : List Byte) : State :=
  let s := (s.msetN (rowKey row) (slice bytes 0 32)).mset (rowMark row) 0
  { s with integ := s.integ.filter (· != rowKey row / 32) }

/-- Chosen bits of a row change from 1 to 0. -/
def State.rowBits (s : State) (row : Nat) (bytes : List Byte) : State :=
  (s.msetN (rowKey row) (((s.rowBytes row).zip (slice bytes 0 32)).map (fun x => x.1 &&& x.2))).mset (rowMark row) 0

/-- A row reads INTEG. -/
def State.rowTorn (s : State) (row : Nat) : State :=
  let s := s.mset (rowMark row) 0
  if s.rowInteg row then s else { s with integ := s.integ ++ [rowKey row / 32] }

def pageRows (page : Nat) : List Nat := (List.range 16).map (fun r => 16 * page + r)

/-- The mark byte that a record or a base record ends with. -/
def markByte (b : Byte) : List Byte := List.replicate 31 0xFF ++ [b]

/-- The whole effect of an operation on its page. -/
def State.opEffect (s : State) (q : StoreReq) : State :=
  match q.op with
  | .write rows =>
    let s := each (pageRows q.page) s State.rowErase
    each rows s (fun s r => s.rowProgram (16 * q.page + r.1) r.2)
  | .erase => each (pageRows q.page) s State.rowErase
  | .row r bytes => s.rowProgram (16 * q.page + r) bytes
  | .bits r bytes => s.rowBits (16 * q.page + r) bytes
  | .record r bytes => (s.rowProgram (16 * q.page + r) (slice bytes 0 31 ++ [0xFF])).rowBits (16 * q.page + r)
      (markByte ((bytes[31]?).getD 0xFF))

/-- A free choice below `n`, as the place where the supply failed (R447, assumption 4). -/
def State.choose (s : State) (n : Nat) : State × Nat := (s.draw, Config.freeNat s.free % (max n 1))

/-- What an operation that a failing supply strikes leaves (R447). Where the failure strikes, and which of the allowed
contents a row takes, is open. -/
def State.opTorn (s : State) (q : StoreReq) : State :=
  let blankOrInteg := fun (s : State) (row : Nat) =>
    let c := s.choose 2
    if c.2 = 0 then c.1.rowErase row else (c.1.rowErase row).rowTorn row
  match q.op with
  | .write rows =>
    let c := s.choose 17
    if c.2 = 16 then each (pageRows q.page) c.1 blankOrInteg
    else
      let done := rows.filter (fun r => decide (r.1 < c.2))
      let at_ := 16 * q.page + c.2
      let old := c.1.rowBytes at_
      let s := each (pageRows q.page) c.1 State.rowErase
      let s := each done s (fun s r => s.rowProgram (16 * q.page + r.1) r.2)
      let k := s.choose 3
      let new := ((rows.find? (fun r => r.1 == c.2)).map (·.2)).getD old
      if k.2 = 0 then k.1.rowProgram at_ old
      else if k.2 = 1 then k.1.rowProgram at_ new
      else k.1.rowTorn at_
  | .erase => each (pageRows q.page) s blankOrInteg
  | .row r bytes =>
    let k := s.choose 3
    if k.2 = 0 then k.1 else if k.2 = 1 then k.1.rowProgram (16 * q.page + r) bytes else k.1.rowTorn (16 * q.page + r)
  | .bits r bytes =>
    let m := leBytes 32 (Config.freeNat s.free)
    s.draw.rowBits (16 * q.page + r) (((slice bytes 0 32).zip m).map (fun x => x.1 ||| x.2))
  | .record r bytes =>
    let k := s.choose 4
    let row := 16 * q.page + r
    let unmarked := slice bytes 0 31 ++ [0xFF]
    if k.2 = 0 then k.1
    else if k.2 = 1 then k.1.rowTorn row
    else if k.2 = 2 then k.1.rowProgram row unmarked
    else
      let m := BitVec.ofNat 8 (Config.freeNat k.1.free)
      k.1.draw.rowProgram row (slice bytes 0 31 ++ [((bytes[31]?).getD 0xFF) ||| m])

/-- Operations that run at a reset without loss of supply end with their whole effect; requests that wait are lost
(DESIGN CHOICE, assumption 15). -/
def State.storeSettle (s : State) : State := each s.store.running s State.opEffect

/-- Operations that run when the supply fails leave what R447 allows. -/
def State.storeTorn (s : State) : State := each s.store.running s State.opTorn

end Sys2Proof.Machine
end

