-- ==== Sys2Proof/Machine/Reset.lean ====
section
/-!
DEFINITION. A reset of the die (R12, R271, R274, R531): every part of the state goes back to its value after reset but
what the always-on companion, keep RAM and the non-volatile memories hold.
-/
namespace Sys2Proof.Machine

/-- Reset causes (R12). -/
abbrev rcPor : Nat := 0
abbrev rcExt : Nat := 1
abbrev rcWdg : Nat := 2
abbrev rcLockstep : Nat := 3
abbrev rcSelvedge : Nat := 4
abbrev rcService : Nat := 7
abbrev rcActivate : Nat := 5
abbrev rcFallback : Nat := 6

/-- The registers whose values a reset keeps, each with the mask of the fields that are kept: the RTC in the companion
(R469), the reset count in keep RAM (R283), the OTP fields (R496) and the lifetime count of restarts. -/
def keptMask (a : Nat) : Nat :=
  if a = RTC_TRIM ∨ a = RTC_ALARM_LO ∨ a = RTC_ALARM_HI ∨ a = SYS_RSTCNT ∨ a = UPD_OWNER ∨ a = UPD_SVNSTEPS ∨
      a = WDG_RSTTOT then 0xFFFFFFFF
  else if a = RTC_ALM_CTRL then 0x1F04
  else if a = RTC_STAT then 0x9E000000
  else if a = UPD_SVN then 0xFFFF
  else 0

/-- Counts since POR survive the other resets (R343). -/
def keptMaskFor (cause a : Nat) : Nat := if a = RED_TKOCNT ∧ cause ≠ rcPor then 0xFFFFFFFF else keptMask a

def keptRegs (cause : Nat) (t : Tab Word) : Tab Word :=
  (t.map (fun e => (e.1, e.2 &&& BitVec.ofNat 32 (keptMaskFor cause e.1)))).filter (fun e =>
    decide (keptMaskFor cause e.1 ≠ 0) && e.2 != regReset e.1)

/-- The cause that a reset records: of two in one CK_FAB clock the lower code (R13). -/
def State.causeOf (s : State) (cause : Nat) : Nat :=
  match s.ctl.resetAt with
  | some (t, c) => if t = s.fab then min c cause else cause
  | none => cause

/-- The restarts since POR that a reset leaves in SYS_RSTCNT; the second reset of one CK_FAB clock is none of its own (R13, R283).
-/
def State.resetCount (s : State) (cause : Nat) (wake : Bool) : Nat :=
  if cause = rcPor ∧ wake = false then 0
  else if s.ctl.resetAt.any (fun x => x.1 == s.fab) then (s.rget SYS_RSTCNT).toNat
  else satAdd (s.rget SYS_RSTCNT).toNat 1 (2 ^ 32 - 1)

/-- The die is reset with a cause; `wake` says that the reset leaves DORMANT (R12, R271, R283). TB starts again from 0 (R480).
What keep RAM, the companion, OTP, the retain store and the configuration store hold stays, and so do the events that Q30 holds
(DEDUCED, assumption 16). Of two causes in one CK_FAB clock the lower code is recorded (R13). A staged edit ends (R297). A
loop-powered output goes on drawing what it cannot regulate (R219). -/
def State.dieReset (s : State) (cause : Nat) (wake : Bool) : State :=
  let cause := s.causeOf cause
  let s := s.storeSettle.editReset
  let t : State := { State.reset with
    pending := s.pending, fab := s.fab, free := s.free, tx := s.tx, readback := s.readback,
    mem := s.mem.filter (fun c => decide (keyKeep 0 ≤ c.1)),
    integ := s.integ.filter (fun g => decide (keyKeep 0 / 32 ≤ g)),
    regs := keptRegs cause s.regs,
    rtc := { s.rtc with rel := none, latched := false, autoset := false }, supply := s.supply, seFailedKeep := s.seFailedKeep,
    ctl := { Control.reset with lockKeep := s.ctl.lockKeep, lockStore := s.ctl.lockStore, held := s.ctl.held, resetAt := some (s.fab, cause),
                                clockFault := s.ctl.clockFault },
    keep := s.keep, store := { Store.reset with laps := s.store.laps, wacc := s.store.wacc }, qs := s.qs,
    qsBaseRow := s.qsBaseRow, recorder := s.recorder, journal := s.journal, evq := s.evq,
    forces := s.forces, hiLatch := s.hiLatch.filter (fun e => e.1 == RTC_TICK_HI),
    red := { Red.reset with takebacks := if cause = rcPor then [] else s.red.takebacks },
    upd := { Upd.reset with otp := s.upd.otp, recIp := s.upd.recIp } }
  let t := each (List.range 16) t (fun t n => t.modUc n (fun u => { u with out := s.ucIdle n }))
  let n := s.resetCount cause wake
  let t := (t.fput SYS_RSTCNT_COUNT n).fput SYS_RSTCAUSE_CAUSE cause
  ((t.setFlag SYS_RSTCAUSE_WAKE wake).setFlag SYS_LOCKOUT_FLAG (s.ctl.lockKeep || s.ctl.lockStore)).showSlots

end Sys2Proof.Machine
end

