-- ==== Sys2Proof/Machine/ModeOps.lean ====
section
/-!
DEFINITION. Changing the mode: what every change shows and ends, the baton that follows it, and what every entry into
STOP, SAFE or LOCKOUT does at once (R258, R267, R297, R312, R313, R364, R502, R504).
-/
namespace Sys2Proof.Machine

/-! ## The baton (R312, R313) -/

abbrev stUnpaired : Nat := 0
abbrev stWaiting : Nat := 1
abbrev stRefused : Nat := 2
abbrev stPrimary : Nat := 3
abbrev stAlone : Nat := 4
abbrev stAligning : Nat := 5
abbrev stReady : Nat := 6
abbrev stNotReady : Nat := 7
abbrev stHandoverOut : Nat := 8
abbrev stHandoverIn : Nat := 9

def State.role (s : State) : Nat := s.fget RED_STAT_ROLE
def State.redState (s : State) : Nat := s.fget RED_STAT_STATE

/-- BATON_OUT as R312 gives it; the new primary of a takeover holds it from T_d on (R329). -/
def State.batonWant (s : State) : Bool :=
  let m := s.mode
  !s.ctl.held && ((s.role == 1 && (m == mProgram || m == mRun || m == mRunLocked || s.red.tko.isSome)) ||
    (m == mHandover && s.redState == stHandoverIn))

/-- A shared output goes off: a digital one switches off, a current output goes to 0 mA (R313). -/
def State.sharedOff (s : State) : State :=
  let s := each (List.range 32) s (fun s n =>
    if s.dioOut n && s.dioShared n then s.dioOff n else s)
  each (List.range 16) s (fun s n =>
    if s.flag (UC_MODE_SHARED n) then s.modUc n (fun u => { u with out := 0, fade := none }) else s)

/-- The baton follows the role and the mode; when it falls outside a planned handover the shared outputs are gated. -/
def State.batonUpdate (s : State) : State :=
  let want := s.batonWant
  let had := s.flag RED_STAT_BATON_OUT
  let s := s.setFlag RED_STAT_BATON_OUT want
  if had && !want && !s.red.ungated then s.sharedOff else s

/-! ## Online edits that a change of mode ends (R297) -/

/-- What a change of the mode from `old` to `m` does to a staged edit (R297). -/
def State.editOnMode (s : State) (old m : Nat) : State :=
  if s.edit.pkg.isNone then s
  else
    let exec := fun (x : Nat) => x == mProgram || x == mRun || x == mRunLocked
    let st := s.edState
    if st = edReverting then s
    else if st = edArmed ∨ st = edSwapping then
      if exec old && exec m then s else s.editAbortFor (if m = mHandover then 1 else 3)
    else if (old = mProgram ∨ old = mRun) ∧ (m = mProgram ∨ m = mRun) then s
    else if m = mStop ∧ s.paired = false ∧ exec old then s.stopTrial.fput EDT_STAT_STATE edChecked
    else s.editAbortFor (if m = mHandover then 1 else 3)

/-! ## Activation and trial (R502, R504) -/

/-- A pending activation is withdrawn with STATE: the slot stays COMPLETE (R502). -/
def State.withdrawActivation (s : State) : State :=
  match s.upd.act with
  | none => s
  | some a =>
    let s := ({ s with upd := { s.upd with act := none } }).setFlag UPD_STAT_ACTPEND false
    (s.fput UPD_STAT_LASTST scState).raise 0x1104 0
      (leBytes 1 scState ++ leBytes 1 1 ++ leBytes 1 (if a.cold then 1 else 0))

/-- The trial that runs has failed for a cause; the steward performs the fallback at the next clock (R504). -/
def State.trialFails (s : State) (cause : Nat) : State :=
  match s.upd.trial with
  | none => s
  | some t => { s with upd := { s.upd with trial := some { t with failed := some (t.failed.getD cause) } } }

/-- The present C0 cycle is none of the clean ones that a trial counts (R503). -/
def State.spoilTrial (s : State) : State :=
  match s.upd.trial with
  | none => s
  | some t => { s with upd := { s.upd with trial := some { t with spoilt := true } } }

/-! ## Failure of a hedge member (R364) -/

/-- Event 0x0A03 and what MEL_STAT shows of it. -/
def State.melFail (s : State) (member : Option Nat) (cause port : Nat) : State :=
  let s := (s.setFlag MEL_STAT_FORMED false).fput MEL_STAT_STATE 3
  let s := (s.setFlag MEL_STAT_FAILUNK member.isNone).fput MEL_STAT_FAILMOD (member.getD 0)
  let s := (s.setFlag MEL_EVT_FAIL true).raise 0x0A03 (member.getD 0xFF)
    (leBytes 1 (member.getD 0xFF) ++ leBytes 1 cause ++ leBytes 1 port ++ [0] ++ leBytes 8 (s.cls 0).cyc.toNat)
  { s with hedge := { s.hedge with failed := true } }

/-- A module of a formed hedge that enters SAFE or LOCKOUT by its own fault sends FAIL to every module (R364). -/
def State.hedgeOnFault (s : State) : State :=
  if s.flag MEL_STAT_FORMED && !s.hedge.failed then
    let s := s.melFail (some s.member) 0 0xFF
    { s with tx := s.tx ++ [.fail (some s.member) 0] }
  else s

/-! ## The change itself -/

/-- The mode becomes `m`, shown with the previous mode, and event 0x0101 is raised (R258, R284). Causes: 0 key,
1 request, 2 fault, 3 start-up, 4 redundancy, 5 escalation. FAULT_n follows (R273), SYS_FAULT ends with SAFE and LOCKOUT
(R283), a unit of a pair that leaves the executing modes or TRACK gives up its role. A handover that ends in STOP still changes its
shared outputs over (R330, R333). -/
def State.setMode (s : State) (m cause : Nat) : State :=
  let old := s.mode
  if m = old then s
  else
    let s := (s.fput SYS_MODE_PREV old).fput SYS_MODE_MODE m
    let s := s.setFlag SYS_EVT_MODECHG true
    let s := s.raise 0x0101 0
      (leBytes 1 m ++ leBytes 1 old ++ leBytes 1 cause ++ leBytes 1 (s.fget SYS_KEY_POS) ++
        leBytes 4 (if s.config.isSome then s.cycAt 0 s.tbNat else (s.cls 0).cyc).toNat)
    let s := { s with ctl := { s.ctl with faultN := m == mSafe || m == mLockout, modeAt := s.tbNat } }
    let s := if m = mSafe ∨ m = mLockout then s else s.fput SYS_FAULT_EVCODE 0
    let s := s.editOnMode old m
    let s := if m = mSafe ∨ m = mLockout ∨ m = mService ∨ m = mDormant then s.withdrawActivation else s
    let s := if m = mSafe ∨ m = mLockout then (s.trialFails 1).hedgeOnFault else s
    let leaves := decide (m = mStop ∨ m = mSafe ∨ m = mLockout ∨ m = mService ∨ m = mDormant)
    let s := if leaves && s.role != 0 then
        let s := (s.fput RED_STAT_ROLE 0).fput RED_STAT_STATE (if s.paired then stWaiting else stUnpaired)
        { s with red := { s.red with tko := none, tkoLeft := [], handover := none, dwell := none,
                                     ungated := s.red.ungated && decide (old = mHandover ∧ m = mStop) } }
      else s
    s.batonUpdate

/-- Every strand stops in this clock and no beam of any class completes afterwards; of a hedge beam that has not been released
the values of the last completed beam stay (R60, R267, R359). DEDUCED: assumption 33. -/
def State.stopAll (s : State) : State :=
  let s := s.released
  let s : State := { s with hedge := { s.hedge with beams := [], old := [] } }
  let s := each (List.range 16) s (fun s st =>
    s.modStrand st (fun x => { x with run := .idle, stg := [], stall := none, answer := none }))
  let s := { s.fput BEAT_WAIT_WAITING 0 with inflight := 0, fabWait := [], fabServed := [] }
  each (List.range 4) s (fun s k =>
    (s.modCls k (fun c => { c with beam := .none, executed := false, skipNext := false, shadow := .none })).fput
      (CLS_STAT_PHASE_NOW k) 0)

/-- Cancel every pending job and unlock its buffers (R197). -/
def State.cancelJobs (s : State) : State :=
  each (List.range 8) s (fun s k =>
    (s.setEngine k Engine.reset).fput (SE_JOBSTAT_PENDING k) 0)

/-! ## Planned handovers that a change of mode starts (R333, R334) -/

/-- The standby of this primary is READY, as its last heartbeat tells. -/
def State.standbyReady (s : State) : Bool :=
  s.paired && s.role == 1 &&
    match s.red.beacon with
    | some b => b.role.val == 2 && b.ready
    | none => false

/-- HANDOVER_PROPOSAL is sent to the partner for cycle H (R334). -/
def State.proposeAt (s : State) (h : BitVec 64) (trigger : Nat) : State :=
  let s := { s with red := { s.red with handover := some { h := h, trigger := trigger, armed := false,
                                                           incoming := s.role == 2 } } }
  s.send (.handoverProposal h trigger)

/-- A handover is proposed: H = m + 3 for the C0 cycle number m. A standby proposes one to itself (R334, R337). The top master of a
hedge tells its members, and each proposes the same H to its own partner (R341). DEDUCED: assumption 51. -/
def State.proposeHandover (s : State) (trigger : Nat) : State :=
  let h := (s.cls 0).cyc + 3
  let s := if s.flag MEL_CFG_HEDGE then s.send (.hedgeHandover h trigger) else s
  s.proposeAt h trigger

/-- TB has lost the reference `source` and runs free until another is received (R64). DEDUCED: assumption 34. -/
def State.refLost (s : State) (source : Nat) : State :=
  if s.fget CYC_SYNC_SOURCE = source then
    (((s.fput CYC_SYNC_SOURCE 0).fput CYC_SYNC_SLEW 0).fput CYC_OFFSET_OFFSET_NS 0).setFlag CYC_SYNC_SLEWING false
  else s

/-- The STOP that a primary was to enter at the end of a planned handover is withdrawn, and so is the proposal that it made. -/
def State.stopForget (s : State) : State :=
  let mine := match s.red.handover with
    | some x => x.trigger == 1 && !x.armed && !x.incoming
    | none => false
  if s.red.stopAfter then
    { s with red := { s.red with stopAfter := false, handover := if mine then none else s.red.handover } }
  else s

/-- The partner holds the primary role: its baton is high, or its last heartbeat says so (R268, R311). -/
def State.partnerPrimary (s : State) : Bool :=
  s.flag RED_CFG_PAIRED && (s.flag RED_STAT_BATON_IN ||
    (s.paired && match s.red.beacon with
      | some b => b.role.val == 1
      | none => false))

/-- Withdraw an accepted mode change that has not taken effect: event 0x0104 with the status (R266). -/
def State.withdrawChange (s : State) (status : Nat) : State :=
  match s.ctl.change with
  | none => s
  | some ch =>
    let s := { s with ctl := { s.ctl with change := none } }
    let s := s.stopForget
    if ch.req < 0x10 then
      let s := s.setFlag SYS_EVT_REQREJ true
      let s := s.fput SYS_REQSTAT_STATUS status
      s.raise 0x0104 0 (leBytes 1 ch.req ++ leBytes 1 status ++ leBytes 1 s.mode ++ leBytes 1 (s.fget SYS_KEY_POS) ++
        leBytes 1 1)
    else s

/-- The rank of an event code as a cause of SAFE (R420): the integrity codes come first, then the lower code. -/
def faultRank (code : Nat) : Nat := if 0x0C01 ≤ code ∧ code ≤ 0x0C05 then code else code + 0x10000

/-- What leaves an executing mode, STOP or TRACK for SAFE or LOCKOUT has in common. -/
def State.leaveForFault (s : State) : State :=
  ((((s.stopAll).cancelJobs).canStop).withdrawChange scState).traceEnd 3

/-- Enter SAFE at once for the fault with event code `code` (R267, R270, R273, R420). In SAFE entered in the same clock
only SYS_FAULT may change; in every other mode that SAFE cannot follow nothing happens. DEDUCED: assumption 33. -/
def State.enterSafe (s : State) (code : Nat) : State :=
  let m := s.mode
  if m = mSafe then
    if s.ctl.safeAt = s.fab ∧ faultRank code < faultRank (s.fget SYS_FAULT_EVCODE) then s.fput SYS_FAULT_EVCODE code
    else s
  else if mStop ≤ m ∧ m ≤ mHandover then
    let s := s.leaveForFault
    let s := { s with ctl := { s.ctl with safeAt := s.fab, restartDue := true } }
    (s.setMode mSafe 2).fput SYS_FAULT_EVCODE code
  else s

/-- Enter LOCKOUT at once: the flag is held in keep RAM and in the retain store (R267, R269, R434).
DEDUCED: assumption 33. -/
def State.enterLockout (s : State) (code : Nat) : State :=
  let s := s.leaveForFault
  let s := { s with ctl := { s.ctl with lockKeep := true, lockStore := true, restartDue := true } }
  ((s.setFlag SYS_LOCKOUT_FLAG true).setMode mLockout 5).fput SYS_FAULT_EVCODE code

/-- Enter STOP at once: every strand stops, jobs are cancelled, and a restart is due (R60, R197, R267). -/
def State.enterStop (s : State) (cause : Nat) : State :=
  let s := ((s.stopAll).cancelJobs).canStop
  let s := { s with ctl := { s.ctl with restartDue := true } }
  s.setMode mStop cause

/-- The strands that are not compared (R262, R517). -/
def State.unchecked (s : State) : Nat := s.fget OBS_RT_STAT_UNCHECKED

/-- Enter PROGRAM, RUN or RUN-LOCKED. With an unchecked strand RUN-LOCKED becomes RUN (R262). -/
def State.enterExec (s : State) (m cause : Nat) : State :=
  if m = mRunLocked ∧ s.unchecked ≠ 0 then
    let s := (s.setMode mRun cause).setFlag SYS_MODE_LOCKBLK true
    s.raise 0x0109 0 (leBytes 2 s.unchecked)
  else (s.setMode m cause).setFlag SYS_MODE_LOCKBLK false

/-- The die is reset by the module itself. DEDUCED: assumption 31. -/
def State.moduleReset (s : State) (cause : Nat) : State := s.dieReset cause false

end Sys2Proof.Machine
end

