-- ==== Sys2Proof/Machine/Beats.lean ====
section
/-!
DEFINITION. Beats, the halt of a strand, the end of a weave and the handling of traps (R94 to R101, R163 to R166).
-/
namespace Sys2Proof.Machine

/-- Bit `b` of the SIG or FRC registers of class `k` (R110). -/
def beatFld (frc : Bool) (k b : Nat) : Fld :=
  if frc then (if b < 32 then BEAT_FRC_LO_FRC k else BEAT_FRC_HI_FRC k)
  else (if b < 32 then BEAT_SIG_LO_SIG k else BEAT_SIG_HI_SIG k)

def State.beatSig (s : State) (k b : Nat) : Bool := bitAt (s.fget (beatFld false k b)) (b % 32)

/-- The key of a beat view: the beat and the OWNER code of the producer. -/
def viewKey (b owner : Nat) : Nat := b * 256 + owner

def State.beatDoneMask (s : State) (k b : Nat) : BitVec 16 := tget 0 (s.cls k).beatDone b

/-- The key under which `beatDone` marks that the beat message of beat `b` has come from module `m` (R356). -/
def importKey (m b : Nat) : Nat := 64 * (m + 1) + b

/-- The beat view of beat `b` of class `k` has arrived from module `m` in this cycle. -/
def State.beatArrived (s : State) (k m b : Nat) : Bool := s.beatDoneMask k (importKey m b) != 0

/-- The bytes of an image range that an entry covers, as offset, mask and value, forced items with their forced values (R72, R356,
R359). -/
def State.entryImage (s : State) (e : HEntry) (view : Tab MByte) : List (Nat × Byte × Byte) :=
  let r := entryBytes e
  (List.range r.2).map (fun i =>
    let off := r.1 + i
    (off, entryMask e off, overlay (overlay (imgGet s.img off) (tget ⟨0, 0⟩ view off)) (s.forceByte off)))

/-- The beat messages of beat `b`: to each module that imports a gated entry of it, the beat view of those entries
(R356). -/
def State.beatMessages (s : State) (k b : Nat) (forced : Bool) : List Sent :=
  match s.config with
  | none => []
  | some c =>
    if s.flag MEL_STAT_FORMED then
      (List.range 16).filterMap (fun m =>
        let es := (c.hedge.exports.filter (fun x => x.2.val == m)).filterMap (fun x =>
          let e := tget 0 s.heddle x.1
          if hValid e && hClass e == k && hReadpol e == 1 && hBeat e == b then some e else none)
        if es.isEmpty then none
        else some (.beatMessage m k b forced (es.flatMap (fun e =>
          s.entryImage e (tget [] (s.cls k).beatView (viewKey b (hOwner e)))))))
    else []

/-- Beat `b` of class `k` is signalled; every strand stalled on it is released in the next CK_FAB clock, and
modules that import gated entries are told (R96, R98, R356). -/
def State.signalBeat (s : State) (k b : Nat) (forced : Bool) : State :=
  let s := s.setBit (beatFld false k b) (b % 32) true
  let s := s.obsBeat k b forced
  let s := if (s.cls k).shadow = .none then { s with tx := s.tx ++ s.beatMessages k b forced } else s
  each (s.strandsOf k) s (fun s st =>
    s.modStrand st (fun x =>
      match x.stall with
      | some w => if w.on = .beat b then { x with stall := some { w with released := true } } else x
      | none => x))

/-- Strand `st` counts as having executed BEAT `b`, with `view` as the staged part of its beat view; the beat is
signalled when no producer is outstanding (R96, R100). -/
def State.produceBeat (s : State) (k st b : Nat) (view : Tab MByte) (forced : Bool) : State :=
  let mask := s.beatDoneMask k b ||| BitVec.ofNat 16 (2 ^ st)
  let s := s.modCls k (fun c => { c with beatDone := tset 0 c.beatDone b mask,
                                         beatView := tset [] c.beatView (viewKey b (s.ownerCode st)) view })
  let prod := s.fget (BEAT_PROD_PROD k b)
  if mask &&& BitVec.ofNat 16 prod = BitVec.ofNat 16 prod ∧ s.beatSig k b = false then s.signalBeat k b forced else s

/-- The beats of its class for which strand `st` is a producer and which it has not executed in this cycle (R100). -/
def State.pendingBeats (s : State) (st : Nat) : List Nat :=
  let k := (s.cfg st).cls
  (List.range 64).filter (fun b =>
    bitAt (s.fget (BEAT_PROD_PROD k b)) st && !(s.beatDoneMask k b).getLsbD st)

/-- Force-signal the pending beats of a strand. Cause 0 trap, 1 watchdog restart, 2 ENDC with beats pending (R100). -/
def State.forceBeats (s : State) (st cause : Nat) : State :=
  let k := (s.cfg st).cls
  let pend := s.pendingBeats st
  if pend.isEmpty then s
  else
    let view := if cause = 2 then (s.strand st).stg else []
    let s := each pend s (fun s b => (s.produceBeat k st b view true).setBit (beatFld true k b) (b % 32) true)
    let s := if cause = 2 then s.setBit BEAT_EVT_MISSED k true else s.setBit BEAT_EVT_FORCED k true
    s.raise 0x0402 (k * 16 + st) (leBytes 8 (maskOf pend) ++ leBytes 1 k ++ leBytes 1 st ++ leBytes 1 cause)

/-- The status words of the entries that a strand owns read BAD (R101). -/
def State.ownedBad (s : State) (st : Nat) : State :=
  each (s.ownedBy st) s (fun s e => s.swSet (hSwidx e.2) (s.swGet (hSwidx e.2) &&& 0xFFFC))

/-- The beam of a class becomes ready when every strand of the class has executed ENDC (R50). -/
def State.checkLastEndc (s : State) (k : Nat) : State :=
  let c := s.cls k
  if c.beam = .weaving ∧ (s.strandsOf k).all (fun st => (s.strand st).run == .ended || (s.strand st).run == .halted)
  then s.setCls k { c with beam := .ready s.fab }
  else s

/-- A stall ends without its access: the wait bit and the fabric transaction go, that of a request which has been admitted too
(R28, R98, R110). -/
def State.dropStall (s : State) (st : Nat) : State :=
  match (s.strand st).stall with
  | none => s
  | some w =>
    let s := s.modStrand st (fun x => { x with stall := none })
    match w.on with
    | .beat _ => { s.setBit BEAT_WAIT_WAITING st false with inflight := s.inflight - 1 }
    | .member => { s with inflight := s.inflight - 1 }
    | .fabric =>
      if w.released then { s with inflight := s.inflight - 1 } else { s with fabWait := s.fabWait.filter (· != st) }

/-- A strand halts: by a trap (cause 0) or a watchdog restart (cause 1). It counts as having executed ENDC, its staging
view of the cycle is discarded and its entries read BAD (R100, R101). -/
def State.haltStrand (s : State) (st cause : Nat) : State :=
  let s := s.dropStall st
  let s := (s.forceBeats st cause).ownedBad st
  let s := s.modStrand st (fun x => { x with run := .halted, stg := [], answer := none, why := cause + 1 })
  let s := s.spoilTrial
  s.checkLastEndc (s.cfg st).cls

/-! ## Trial worlds (R290, R294) -/

/-- The live world of class `k`, as it is put aside while trial code runs. -/
def State.worldOf (s : State) (k : Nat) (prods : List Nat) : World :=
  { heddle := s.heddle, img := s.img, sw := s.sw, sig := s.rget64 (BEAT_SIG_LO k) (BEAT_SIG_HI k),
    frc := s.rget64 (BEAT_FRC_LO k) (BEAT_FRC_HI k), prods := prods.map (fun a => (a, s.rget a)),
    beatDone := (s.cls k).beatDone, beatView := (s.cls k).beatView, snapImg := (s.cls k).snapImg,
    snapSw := (s.cls k).snapSw }

/-- Exchange the world of class `k` with the one kept for it: into the trial world before trial code acts, and back. -/
def State.swapWorld (s : State) (k : Nat) : State :=
  let w := tget World.reset s.edit.worlds k
  let old := s.worldOf k (w.prods.map (·.1))
  let s := { s with heddle := w.heddle, img := w.img, sw := w.sw,
                    edit := { s.edit with worlds := tset World.reset s.edit.worlds k old } }
  let s := (s.rset64 (BEAT_SIG_LO k) (BEAT_SIG_HI k) w.sig).rset64 (BEAT_FRC_LO k) (BEAT_FRC_HI k) w.frc
  let s := each w.prods s (fun s x => s.rset x.1 x.2)
  s.modCls k (fun c => { c with beatDone := w.beatDone, beatView := w.beatView, snapImg := w.snapImg,
                                snapSw := w.snapSw })

/-- Class `k` runs trial code. -/
def State.onTrial (s : State) (k : Nat) : Bool := decide ((s.cls k).shadow ≠ .none)

/-- How a trap is handled: 0 HALT_STRAND, 1 SAFE, 2 proof run or dry pass (R163, R165). -/
def State.trapHandling (s : State) (k code : Nat) : Nat :=
  if code = 0x01 then 1
  else if (s.cls k).shadow ≠ .none then 2
  else if bitAt (s.fget TRAP_POL_POL) k then 1 else 0

/-- A trap of trial code is counted in the proof report (R165, R290). -/
def State.countTrialTrap (s : State) (k : Nat) : State :=
  if (s.cls k).shadow ≠ .none then s.satBump EDT_REP_ERR_TRAPS 1 else s

/-- Strand `st` traps with code `code` at its PC: the trap is recorded and event 0x0120 is raised (R165, R166, R167). Which cycle
number the payload carries while the strand still weaves an earlier cycle is open; it carries the class's current one: DESIGN
CHOICE, assumption 57. DEDUCED: assumption 33. -/
def State.recordTrap (s : State) (st code : Nat) : State :=
  let k := (s.cfg st).cls
  let pc := (s.strand st).pc
  let h := s.trapHandling k code
  let s := (s.satBump (TRAP_INFO_COUNT st) 1).fput (TRAP_INFO_HANDLING st) h
  let s := ((s.fput (TRAP_INFO_CODE st) code).fput (TRAP_PC_PC st) pc.toNat).setBit TRAP_SUM_TRAPPED st true
  let s := s.raise 0x0120 (st * 64 + code)
    (leBytes 4 pc.toNat ++ leBytes 4 (s.cls k).cyc.toNat ++ leBytes 1 k ++ leBytes 1 st ++ leBytes 1 code ++
      leBytes 1 h)
  ((s.countS st 0x0D 1).btEnd st pc).countTrialTrap k

/-- Strand `st` traps with code `code`: the trap is recorded, and the class trap policy handles it (R163). -/
def State.trap (s : State) (st code : Nat) : State :=
  let t := s.recordTrap st code
  if s.trapHandling (s.cfg st).cls code = 1 then t.enterSafe 0x0120 else t.haltStrand st 0

end Sys2Proof.Machine
end

