-- ==== Sys2Proof/Machine/Flags.lean ====
section
/-!
DEFINITION. The flag computations of the strands (R116, R117, R150) and the rounding and limiting of the fixed-point
group and the signal engines (R147).
-/
namespace Sys2Proof.Machine

/-- Z and N from a 32-bit result (R116). -/
def Strand.zn (x : Strand) (r : Word) : Strand := { x with z := decide (r = 0), n := r.msb }

/-- Z and N from an accumulator result (R116, R150). -/
def Strand.znAcc (x : Strand) (r : Acc) : Strand := { x with z := decide (r = 0), n := r.msb }

/-- A sum with carry in: result, carry out, signed overflow (R117). -/
def addWithCarry (a b : Word) (cin : Nat) : Word × Bool × Bool :=
  let exact : Int := a.toInt + b.toInt + cin
  (BitVec.ofNat 32 (a.toNat + b.toNat + cin), decide (2 ^ 32 ≤ a.toNat + b.toNat + cin),
    decide (exact < -2147483648 ∨ 2147483647 < exact))

/-- A difference with borrow in: result, C = no borrow, signed overflow of the whole subtraction (R117). -/
def subWithBorrow (a b : Word) (bin : Nat) : Word × Bool × Bool :=
  let exact : Int := a.toInt - b.toInt - bin
  (BitVec.ofInt 32 exact, decide (b.toNat + bin ≤ a.toNat), decide (exact < -2147483648 ∨ 2147483647 < exact))

/-- Flags of the class add, subtract, compare (R117). -/
def Strand.flagsAdd (x : Strand) (r : Word × Bool × Bool) : Strand :=
  { x.zn r.1 with c := r.2.1, v := r.2.2 }

/-- Flags of the class logic (R117). -/
def Strand.flagsLogic (x : Strand) (r : Word) : Strand := { x.zn r with c := false, v := false }

/-- A shift or rotate: left, logical right, arithmetic right or rotate right. -/
inductive ShiftKind where
  | shl
  | shr
  | sar
  | ror
  deriving DecidableEq, Repr

/-- The result of a shift by `n` from 0 to 31 and the last bit shifted out; none for an amount of 0 (R117, R126). -/
def shiftResult (k : ShiftKind) (a : Word) (n : Nat) : Word × Option Bool :=
  match k with
  | .shl => (a <<< n, if n = 0 then none else some (a.getLsbD (32 - n)))
  | .shr => (a >>> n, if n = 0 then none else some (a.getLsbD (n - 1)))
  | .sar => (a.sshiftRight n, if n = 0 then none else some (a.getLsbD (n - 1)))
  | .ror => (a.rotateRight n, if n = 0 then none else some (a.getLsbD (n - 1)))

/-- Flags of the class shift and rotate (R117). -/
def Strand.flagsShift (x : Strand) (r : Word × Option Bool) : Strand :=
  { x.zn r.1 with c := r.2.getD x.c, v := false }

/-- Flags of the class multiply and the class divide (R117). -/
def Strand.flagsMul (x : Strand) (r : Word) (v : Bool) : Strand := { x.zn r with c := false, v := v }

/-- FL as a register, B mirroring BA (R116). -/
def Strand.fl (x : Strand) : BitVec 6 :=
  BitVec.ofNat 6 ((if x.z then 1 else 0) + (if x.n then 2 else 0) + (if x.c then 4 else 0) + (if x.v then 8 else 0) +
    (if x.q then 16 else 0) + (if x.ba then 32 else 0))

/-- Whether a condition holds; none for a reserved code (R118). -/
def Strand.cond (x : Strand) (cc : BitVec 4) : Option Bool :=
  match cc.toNat with
  | 0x0 => some x.z
  | 0x1 => some (!x.z)
  | 0x2 => some (x.n != x.v)
  | 0x3 => some (x.n == x.v)
  | 0x4 => some (!x.c)
  | 0x5 => some x.c
  | 0x6 => some x.v
  | 0x7 => some (!x.v)
  | 0x8 => some x.q
  | 0x9 => some x.ba
  | 0xA => some (!x.ba)
  | 0xF => some true
  | _ => none

/-! ## Rounding and limiting (R147) -/

/-- round_shift of R147 with rounding mode 0 TRUNC, 1 HALF_UP, 2 HALF_EVEN. -/
def roundShift (rnd : Nat) (v : Int) (s : Nat) : Int :=
  let q := v / (2 ^ s : Nat)
  let r := v % (2 ^ s : Nat)
  let h : Int := (2 ^ (s - 1) : Nat)
  if rnd = 1 ∧ h ≤ r then q + 1
  else if rnd = 2 ∧ (h < r ∨ (r = h ∧ q % 2 = 1)) then q + 1
  else q

/-- limit of R147 for a result of `n` bits: the value, V, and whether it saturated. -/
def limitTo (sat : Bool) (q : Int) (n : Nat) : Int × Bool × Bool :=
  let lo : Int := -((2 ^ (n - 1) : Nat) : Int)
  let hi : Int := ((2 ^ (n - 1) : Nat) : Int) - 1
  if lo ≤ q ∧ q ≤ hi then (q, false, false)
  else if sat then (if q < lo then lo else hi, true, true)
  else ((BitVec.ofInt n q).toInt, true, false)

/-- FXM.RND, FXM.SAT and FXM.FMT (R119). -/
def Strand.rnd (x : Strand) : Nat := x.fxm.toNat % 4
def Strand.sat (x : Strand) : Bool := x.fxm.getLsbD 2
def Strand.q31 (x : Strand) : Bool := x.fxm.getLsbD 3

/-- The operand width of the fixed-point format, and the extraction shift (R148). -/
def Strand.fxWidth (x : Strand) : Nat := if x.q31 then 32 else 16
def Strand.fxShift (x : Strand) : Nat := if x.q31 then 32 else 48

/-- A register read in the fixed-point format (R146, R148). -/
def Strand.fxVal (x : Strand) (r : Word) : Int := if x.q31 then r.toInt else (r.setWidth 16).toInt

/-- The exact product of two operands in units of 2^-63 (R146). -/
def Strand.product (x : Strand) (a b : Word) : Int :=
  if x.q31 then a.toInt * b.toInt * 2 else (a.setWidth 16).toInt * (b.setWidth 16).toInt * 2 ^ 33

/-- An accumulator result with its flags (R150). -/
def Strand.accResult (x : Strand) (n : Fin 2) (r : Int × Bool × Bool) : Strand :=
  let v := BitVec.ofInt 72 r.1
  { x.znAcc v with a := x.a.set n v, v := r.2.1, q := x.q || r.2.2 }

/-- A register result of the fixed-point group with its flags (R150); a Q15 result is sign-extended (R147). -/
def Strand.fxResult (x : Strand) (d : Fin 16) (r : Int × Bool × Bool) : Strand :=
  let v := BitVec.ofInt 32 r.1
  { x.zn v with w := x.w.set d v, v := r.2.1, q := x.q || r.2.2 }

end Sys2Proof.Machine
end

