-- ==== Sys2Proof/Machine/Operands.lean ====
section
/-!
DEFINITION. The operand forms of the DX instructions: bit indices (R120, R159), addressing modes (R129), the
post-modify function (R131), sign extension of immediates (R171 to R176).
-/
namespace Sys2Proof.Machine

/-- The trap codes (R161). -/
abbrev trInteg : Nat := 0x01
abbrev trIllegal : Nat := 0x02
abbrev trAlign : Nat := 0x03
abbrev trAddr : Nat := 0x04
abbrev trSysPerm : Nat := 0x05
abbrev trBkInv : Nat := 0x06
abbrev trDsOvf : Nat := 0x07
abbrev trRsOvf : Nat := 0x08
abbrev trRsUnf : Nat := 0x09
abbrev trBstk : Nat := 0x0A
abbrev trDivz : Nat := 0x0B
abbrev trScNoLr : Nat := 0x0C
abbrev trOwnv : Nat := 0x0D
abbrev trBeatTo : Nat := 0x0E

/-- The effective bit index of a bit operand, or the trap it raises: a reserved mode is ILLEGAL, an index of
0x18_0000 or above is ADDR (R120). -/
def Strand.bitIndex (x : Strand) (m : BitArg) : Except Nat Nat :=
  if m.mode.toNat = 0 then
    if m.field.toNat < 0x180000 then .ok m.field.toNat else .error trAddr
  else if m.mode.toNat = 1 then
    let i := (x.w[m.field.toNat / 2 ^ 20 % 16]'(Nat.mod_lt _ (by decide))).toNat + m.field.toNat % 2 ^ 20
    if i < 0x180000 then .ok i else .error trAddr
  else .error trIllegal

/-- The effective bit index of TSB and CLB (R159, R174). -/
def Strand.sharedBitIndex (x : Strand) (m : SharedBitArg) : Except Nat Nat :=
  let i := if m.indexed then
      (x.w[m.field.toNat / 2 ^ 17 % 16]'(Nat.mod_lt _ (by decide))).toNat + m.field.toNat % 2 ^ 17
    else m.field.toNat
  if i < 0x180000 then .ok i else .error trAddr

/-- A shift amount, 0 to 31 (R126). -/
def Strand.shiftAmt (x : Strand) : ShiftArg → Nat
  | .reg b => x.w[b].toNat % 32
  | .imm sh => sh.toNat

/-- MODE and LEN of a length register (R130). -/
def lMode (l : Word) : Nat := l.toNat / 2 ^ 30
def lLen (l : Word) : Nat := l.toNat % 2 ^ 19

/-- Whether a number is a power of two from 1 to 2^18. -/
def isPow2 (n : Nat) : Bool := (List.range 19).any (fun k => 2 ^ k == n)

/-- log2 of a power of two from 1 to 2^18. -/
def log2of (n : Nat) : Nat := ((List.range 19).find? (fun k => decide (n ≤ 2 ^ k))).getD 0

/-- Reverse the order of the `k` low bits (R131). -/
def bitrev : Nat → Nat → Nat
  | 0, _ => 0
  | k + 1, v => v % 2 * 2 ^ k + bitrev k (v / 2)

/-- Whether WRL accepts a value (R130). -/
def lValid (l : Word) : Bool :=
  lMode l != 3 && bitsAt l.toNat 19 11 == 0 && decide (lLen l ≤ 262144) && !(lMode l == 1 && lLen l == 0) &&
    !(lMode l == 2 && !isPow2 (lLen l))

/-- The post-modify function next(Pn, s); none where it raises the ILLEGAL trap (R131). -/
def nextPtr (p l : Word) (step : Int) : Option Word :=
  if lMode l = 0 then some (BitVec.ofInt 32 (p.toNat + step))
  else if lMode l = 1 then
    let size := 2 ^ log2of (lLen l)
    let base := p.toNat / size * size
    some (BitVec.ofNat 32 (base + (((p.toNat : Int) - base + step) % (lLen l : Int)).toNat))
  else
    let len := lLen l
    let m := step.natAbs
    if !isPow2 m || decide (len < m) then none
    else
      let base := p.toNat / len * len
      let k := log2of (len / m)
      let idx := (p.toNat - base) / m
      let j : Int := (bitrev k idx : Int) + (if 0 < step then 1 else -1)
      some (BitVec.ofNat 32 (base + bitrev k (j % (2 ^ k : Nat)).toNat * m))

/-- What an addressing mode gives: the effective address, and the pointer update that the access makes (R129). -/
structure Eff where
  addr : Word
  upd : Option (Fin 4 × Word)
  deriving DecidableEq, Repr

/-- The effective address of a memory operand, or ILLEGAL for an invalid bit-reversed step (R129, R131). -/
def Strand.eff (x : Strand) : AddrArg → Except Nat Eff
  | .base b imm => .ok ⟨x.w[b] + imm.signExtend 32, none⟩
  | .index b i => .ok ⟨x.w[b] + x.w[i], none⟩
  | .ptr n => .ok ⟨x.p[n], none⟩
  | .ptrImm n st =>
    match nextPtr x.p[n] x.l[n] st.toInt with
    | some q => .ok ⟨x.p[n], some (n, q)⟩
    | none => .error trIllegal
  | .ptrReg n i =>
    match nextPtr x.p[n] x.l[n] x.w[i].toInt with
    | some q => .ok ⟨x.p[n], some (n, q)⟩
    | none => .error trIllegal

/-- The address that a memory operand names, whatever its post-modify step does (R129). -/
def Strand.effAddr (x : Strand) : AddrArg → Word
  | .base b imm => x.w[b] + imm.signExtend 32
  | .index b i => x.w[b] + x.w[i]
  | .ptr n => x.p[n]
  | .ptrImm n _ => x.p[n]
  | .ptrReg n _ => x.p[n]

/-- The pointer update of an access that completes. -/
def Strand.applyUpd (x : Strand) : Option (Fin 4 × Word) → Strand
  | none => x
  | some (n, q) => { x with p := x.p.set n q }

end Sys2Proof.Machine
end

