-- ==== Sys2Proof/Machine/Selvedge.lean ====
section
/-!
DEFINITION. The selvedge code: check bits, fold, the classes of a read, and the log of reads that are not clean
(R421 to R427).
-/
namespace Sys2Proof.Machine

/-! ## GF(2^9) and the code (R421) -/

/-- Multiply by α, a root of x⁹ + x⁴ + 1. -/
def gfTwice (a : Nat) : Nat := if a < 256 then 2 * a else (2 * a) ^^^ 0x211

/-- α to the power n. -/
def gfPow : Nat → Nat
  | 0 => 1
  | n + 1 => gfTwice (gfPow n)

/-- The powers of α from `a` up, `n` of them. -/
def gfPowers : Nat → Nat → List Nat
  | _, 0 => []
  | a, n + 1 => a :: gfPowers (gfTwice a) n

/-- g(x) = m1(x) × m3(x), of degree 18. -/
abbrev selGen : Nat := 0x495C9

/-- One step of the division by g(x): the remainder takes the next lower coefficient. -/
def selStep (r : Nat) (bit : Bool) : Nat :=
  let v := 2 * r + (if bit then 1 else 0)
  if bitAt v 18 then v ^^^ selGen else v

/-- The fold F(A) of a granule index (R422). -/
def selFold (a : Nat) : Nat :=
  (bitsAt a 0 5) ^^^ (bitsAt a 5 5) ^^^ (bitsAt a 10 5) ^^^ (bitsAt a 15 5) ^^^ (bitsAt a 20 5) ^^^ (bitsAt a 25 5)

/-- Code bits c0 to c17: the remainder of the message polynomial, whose 261 coefficients stand above x^17. -/
def selRemainder (msg : Nat) : Nat :=
  ((List.range 261).reverse.map (fun i => bitAt msg i) ++ List.replicate 18 false).foldl selStep 0

/-- The 24 check bits of the data of granule `a`: code bits c0 to c18, then the fold bits (R421). -/
def selCheck (data : BitVec 256) (a : Nat) : Nat :=
  let msg := data.toNat + selFold a * 2 ^ 256
  let c := selRemainder msg
  let parity := (popcount 261 msg + popcount 18 c) % 2
  c + parity * 2 ^ 18 + selFold a * 2 ^ 19

/-! ## Decoding (R423) -/

/-- The syndrome of a set of error bits: S1, S3 and the parity (R438). Bit 279 is the parity bit. -/
def selSyndrome (errors : List Nat) : Nat :=
  let p := errors.filter (fun e => decide (e < 279))
  let s1 := p.foldl (fun s e => s ^^^ gfPow e) 0
  let s3 := p.foldl (fun s e => s ^^^ gfPow (3 * e % 511)) 0
  s1 + s3 * 2 ^ 9 + errors.length % 2 * 2 ^ 18

/-- The bits that the decoder corrects for a syndrome; none when it finds no correctable pattern. -/
def selDecode (syn : Nat) : Option (List Nat) :=
  let s1 := bitsAt syn 0 9
  let s3 := bitsAt syn 9 9
  let odd := bitAt syn 18
  let ps := (gfPowers 1 279).zip ((List.range 279).map (fun e => gfPow (3 * e % 511)))
  let single := findIdx 279 (fun e => gfPow e == s1 && gfPow (3 * e % 511) == s3)
  if s1 = 0 ∧ s3 = 0 then some (if odd then [279] else [])
  else
    match single with
    | some e => some (if odd then [e] else [e, 279])
    | none =>
      if odd then none
      else
        let idx := ps.zip (List.range 279)
        idx.findSome? (fun x =>
          (idx.find? (fun y => decide (x.2 < y.2) && x.1.1 ^^^ y.1.1 == s1 && x.1.2 ^^^ y.1.2 == s3)).map
            (fun y => [x.2, y.2]))

/-- The classes of a read other than CLEAN, as KIND codes them: 0 CORR1, 1 CORR2, 2 INTEG, 3 MISDIR (R423, R438). -/
def selKind (errors : List Nat) (foldXor : Nat) : Option Nat :=
  match selDecode (selSyndrome errors) with
  | none => some 2
  | some fix =>
    if foldXor ≠ 0 then some 3
    else if fix.isEmpty then none
    else if fix.length = 1 then some 0 else some 1

/-! ## The log (R427, R438) -/

/-- The memory code and the granule index within that memory of a granule key (a memory key divided by 32). The image
store and the status words count as their partition of global memory (DEDUCED, assumption 14). -/
def granuleMem (g : Nat) : Nat × Nat :=
  if g < keyDmem 0 0 / 32 then
    (0, if 0x20000000 / 32 ≤ g then 0x1A00000 / 32 + (g - 0x20000000 / 32) else g - 0x10000000 / 32)
  else if g < keyImem 0 0 0 / 32 then (2, (g - keyDmem 0 0 / 32) % 2 ^ 26)
  else if g < keyDram 0 / 32 then (1, g - keyImem 0 0 0 / 32)
  else if g < keyKeep 0 / 32 then (3, g - keyDram 0 / 32)
  else (4, g - keyKeep 0 / 32)

/-- A read that is not clean: one record in the log of 16, a count, and an event (R427). -/
def State.selRecord (s : State) (mem granule kind syn : Nat) (scrub : Bool) : State :=
  let a := BitVec.ofNat 32 (2 ^ 31 + mem * 2 ^ 28 + kind * 2 ^ 26 + granule % 2 ^ 26)
  let b := BitVec.ofNat 32 ((if scrub then 2 ^ 31 else 0) + syn % 2 ^ 19)
  let t := BitVec.ofNat 32 s.rtc.count
  let s := { s with int := { s.int with log := ((a, b, t) :: s.int.log).take 16 } }
  let s := if kind < 2 then (s.satBump (INT_SELCOR_CORR mem) 1).setFlag INT_EVT_CORR true
    else
      let s := s.satBump (INT_SELUNC_UNC mem) 1
      if kind = 2 then s.setFlag INT_EVT_INTEG true else s.setFlag INT_EVT_MISDIR true
  s.raise (if kind < 2 then 0x0C03 else if kind = 2 then 0x0C04 else 0x0C05) (mem * 2 ^ 26 + granule)
    (leBytes 1 mem ++ leBytes 1 kind ++ leBytes 4 granule ++ leBytes 3 syn ++ leBytes 1 (if scrub then 1 else 0))

/-- A consumer reads a granule that is INTEG: the read is recorded (R425, R427). Its syndrome is open (assumption 4). -/
def State.integRead (s : State) (g : Nat) : State :=
  let m := granuleMem g
  (s.draw).selRecord m.1 m.2 2 ((Config.freeWord s.free).toNat % 2 ^ 19) false

/-- A write of all 32 bytes of a granule clears its INTEG condition (R426). -/
def State.clearInteg (s : State) (g : Nat) : State := { s with integ := s.integ.filter (· != g) }

end Sys2Proof.Machine
end

