-- ==== Sys2Proof/Machine/Access.lean ====
section
/-!
DEFINITION. How a strand reads and writes memory: the address map (R21 to R24), image reads bit by bit (R89, R92),
image writes into the staging view (R90), the status-word window, DMEM, global memory and the banked window.
-/
namespace Sys2Proof.Machine

/-! ## The image, read and written by a strand -/

/-- The value of image byte `off` under the rule of the entry that covers it, for strand `st`; the beat that it waits
for, if any (R89, R49, R91). -/
def State.imgByteBy (s : State) (st : Nat) (e : HEntry) (off : Nat) : Except Nat Byte :=
  let k := (s.cfg st).cls
  if hShared e then .ok (imgGet s.img off)
  else if hClass e = k then
    if hInput e then .ok (imgGet s.img off)
    else if hOwner e = s.ownerCode st then .ok (overlay (imgGet s.img off) (tget ⟨0, 0⟩ (s.strand st).stg off))
    else if hReadpol e = 1 then
      let m := hOwner e / 16
      let own := m == s.member
      if (if own then s.beatSig k (hBeat e) else s.beatArrived k m (hBeat e)) then
        let view := tget [] (s.cls k).beatView (viewKey (hBeat e) (if own then hOwner e else 16 * m))
        .ok (overlay (overlay (imgGet s.img off) (tget ⟨0, 0⟩ view off)) (s.forceByte off))
      else .error (hBeat e)
    else .ok (imgGet s.img off)
  else .ok (imgGet (s.cls k).snapImg off)

/-- One image bit for strand `st` (R89); an uncovered bit reads 0. -/
def State.imgBit (s : State) (st off bit : Nat) : Except Nat Bool :=
  match s.entryAt off bit with
  | none => .ok false
  | some (_, e) =>
    match s.imgByteBy st e off with
    | .ok b => .ok (b.getLsbD bit)
    | .error k => .error k

/-- The bits `0` to `n - 1` of an image byte, as a number (R92). -/
def State.imgBits (s : State) (st off : Nat) : Nat → Except Nat Nat
  | 0 => .ok 0
  | n + 1 =>
    match s.imgBits st off n, s.imgBit st off n with
    | .ok v, .ok b => .ok (v + (if b then 2 ^ n else 0))
    | .error k, _ => .error k
    | _, .error k => .error k

/-- One image byte for strand `st`: word areas have one entry for the whole byte, bit areas are read bit by bit. -/
def State.imgByte (s : State) (st off : Nat) : Except Nat Byte :=
  if 0x40000 ≤ off then
    match s.entryAt off 0 with
    | none => .ok 0
    | some (_, e) => s.imgByteBy st e off
  else
    match s.imgBits st off 8 with
    | .ok v => .ok (BitVec.ofNat 8 v)
    | .error k => .error k

/-- `n` image bytes for strand `st` from `off` up, or the beat that the read waits for (R92). -/
def State.imgBytes (s : State) (st off : Nat) : Nat → Except Nat (List Byte)
  | 0 => .ok []
  | n + 1 =>
    match s.imgByte st off, s.imgBytes st (off + 1) n with
    | .ok b, .ok bs => .ok (b :: bs)
    | .error k, _ => .error k
    | _, .error k => .error k

/-- The bits of image byte `off` that strand `st` owns (R90). -/
def State.ownMask (s : State) (st off : Nat) : Byte :=
  let owns := fun (e : Option (Nat × HEntry)) =>
    match e with
    | some (_, e) => !hInput e && hOwner e == s.ownerCode st
    | none => false
  if 0x40000 ≤ off then (if owns (s.entryAt off 0) then 0xFF else 0)
  else BitVec.ofNat 8 (maskOf ((List.range 8).filter (fun b => owns (s.entryAt off b))))

/-- Store the bits of `mask` into image byte `off`: the owned bits go to the staging view, the others are discarded.
The second result says whether a bit was discarded (R90). -/
def State.stageByte (s : State) (st off : Nat) (mask val : Byte) : State × Bool :=
  let own := s.ownMask st off &&& mask
  let x := s.strand st
  let m := tget ⟨0, 0⟩ x.stg off
  let m' : MByte := { mask := m.mask ||| own, val := (m.val &&& ~~~own) ||| (val &&& own) }
  (s.setStrand st { x with stg := tset ⟨0, 0⟩ x.stg off m' }, own != mask)

/-- Store whole bytes into the image from `off` up (R90). -/
def State.stageBytes (s : State) (st off : Nat) : List Byte → State × Bool
  | [] => (s, false)
  | b :: bs =>
    let r := s.stageByte st off 0xFF b
    let r2 := r.1.stageBytes st (off + 1) bs
    (r2.1, r.2 || r2.2)

/-- The module records a discarded store of strand `st` at strand address `addr`: access 0 store, 1 TSB or CLB outside
a shared entry. In a trial run it is counted in the proof report as well (R90, R111). The event carries the class's current cycle
number, as a trap does: DESIGN CHOICE, assumption 57. -/
def State.discard (s : State) (st addr access : Nat) : State :=
  let k := (s.cfg st).cls
  let s := ((s.setBit HDL_OWNV_OWNV st true).fput (HDL_OWNV_ADDR_ADDR st) addr).satBump HDL_OWNV_TOT_TOTAL 1
  let s := if (s.cls k).shadow ≠ .none then s.satBump EDT_REP_ERR_OWNV 1 else s
  (s.countS st 0x0C 1).raise 0x0302 (addr * 16 + st)
    (leBytes 4 addr ++ leBytes 4 (s.cls k).cyc.toNat ++ leBytes 1 k ++ leBytes 1 st ++ leBytes 1 access)

/-- Whether a discarded store of a strand of class `k` traps (R90). -/
def State.ownvTraps (s : State) (k : Nat) : Bool := bitAt (s.fget HDL_OWNCFG_OWNV_TRAP) k

/-- The valid entry whose status word has index `i`. -/
def State.entryOfSw (s : State) (i : Nat) : Option (Nat × HEntry) :=
  s.validEntries.find? (fun e => hSwidx e.2 == i)

/-- A status word as strand `st` reads it: that of an entry of another class as it was at the reading class's shed
(R49, DEDUCED, assumption 8). -/
def State.swFor (s : State) (st i : Nat) : BitVec 16 :=
  let k := (s.cfg st).cls
  match s.entryOfSw i with
  | some (_, e) => if hClass e = k ∨ hShared e then s.swGet i else tget 0 (s.cls k).snapSw i
  | none => s.swGet i

def swByte (w : BitVec 16) (odd : Bool) : Byte := if odd then w.extractLsb' 8 8 else w.extractLsb' 0 8

/-- Byte `off` of the status-word window. DEDUCED: assumption 8. -/
def State.statByte (s : State) (st off : Nat) : Byte := swByte (s.swFor st (off / 2)) (off % 2 == 1)

/-! ## The address map -/

/-- Where an access goes (R21, R23). -/
inductive Loc where
  | dmem (off : Nat)
  | glob (addr : Nat)
  | img (off : Nat)
  | stat (off : Nat)
  | dram (off : Nat)
  | bankImg (off : Nat)
  | remote (member region off : Nat)
  deriving DecidableEq, Repr

/-- A reserved offset of the image layout 0x2000_0000 to 0x201F_FFFF (R21). -/
def imgReserved (off : Nat) : Bool := decide (0x30000 ≤ off ∧ off < 0x40000) || decide (0x200000 ≤ off)

/-- The source and parameter buffers of accepted jobs: locked until delivery (R179). -/
def State.lockedBufs (s : State) : List (Nat × Nat) :=
  (List.range 8).flatMap (fun k => ((s.engine k).jobs.filter (fun j => !j.late)).flatMap (fun j =>
    (if j.srcCopy.isNone then [(j.src, j.srcLen)] else []) ++ (if j.param = 0 then [] else [(j.param, j.paramLen)])))

def overlaps (a n b m : Nat) : Bool := decide (a < b + m ∧ b < a + n)

/-- Global memory as addressed from 0x1000_0000: the partition between general region and SE memories has no strand
access, the pipeline areas have none, a locked buffer takes no store (R21, R179). -/
def State.globOk (s : State) (addr size : Nat) (store : Bool) : Bool :=
  if addr < 0x11A00000 then true
  else if addr < 0x11E00000 then false
  else if addr < 0x12000000 then
    let k := (addr - 0x11E00000) / 0x40000
    let off := (addr - 0x11E00000) % 0x40000
    if off < s.fget (SE_JOBAREA_PIPE_END k) then false
    else !(store && s.lockedBufs.any (fun b => overlaps addr size b.1 b.2))
  else false

/-- The DRAM byte at window offset `off` lies in the strand's allocation (R24, R133). -/
def State.dramOk (s : State) (st off : Nat) : Bool :=
  let c := s.cfg st
  decide (c.dramBase * 2 ^ 20 ≤ off ∧ off < (c.dramBase + c.dramLen) * 2 ^ 20)

def bkMember (bk : BitVec 16) : Nat := bitsAt bk.toNat 8 4
def bkRegion (bk : BitVec 16) : Nat := bitsAt bk.toNat 0 4

/-- Where a load or store of `size` bytes at `addr` goes, or the trap that refuses it: the lowest code of those that
apply (R22, R23, R132, R162). -/
def State.locate (s : State) (st addr size : Nat) (store : Bool) : Except Nat Loc :=
  if addr % size ≠ 0 then .error trAlign
  else if 0x80000 ≤ addr ∧ addr < 0xC0000 then .ok (.dmem (addr - 0x80000))
  else if 0x10000000 ≤ addr ∧ addr < 0x12000000 then
    if s.globOk addr size store then .ok (.glob addr) else .error trAddr
  else if 0x20000000 ≤ addr ∧ addr < 0x20180000 then
    if imgReserved (addr - 0x20000000) then .error trAddr else .ok (.img (addr - 0x20000000))
  else if 0x20180000 ≤ addr ∧ addr < 0x20200000 then
    if store then .error trSysPerm else .ok (.stat (addr - 0x20180000))
  else if 0x80000000 ≤ addr ∧ addr < 0xC0000000 then
    let off := addr - 0x80000000
    let bk := (s.strand st).bk
    let own := decide (bkMember bk = s.member)
    if bkRegion bk = 0 then
      if 0x02000000 ≤ off ∨ (0x01A00000 ≤ off ∧ off < 0x01E00000) then .error trAddr
      else if own then
        if s.globOk (0x10000000 + off) size store then .ok (.glob (0x10000000 + off)) else .error trAddr
      else .ok (.remote (bkMember bk) 0 off)
    else if bkRegion bk = 1 then
      if imgReserved off then .error trAddr
      else if store then .error trSysPerm
      else if own then .ok (.bankImg off) else .ok (.remote (bkMember bk) 1 off)
    else
      let d := off + (if bkRegion bk = 9 then 0x40000000 else 0)
      if s.dramOk st d then .ok (.dram d) else .error trSysPerm
  else .error trAddr

/-- The DMEM key of a strand: the scratch copy while its class runs trial code (R290, R294). -/
def State.dkey (s : State) (st off : Nat) : Nat :=
  if (s.cls (s.cfg st).cls).shadow = .none then keyDmem st off else keyScratch st off

/-- Whether a location is reached through the image fabric. R28 names no list: every access outside the strand's own DMEM counts,
those of DRAM and of another member through the banked window too. DESIGN CHOICE: assumption 41. -/
def Loc.fabric : Loc → Bool
  | .dmem _ => false
  | _ => true

/-- The granule of a location for the selvedge code, by memory key / 32 (R422). -/
def State.granuleOf (s : State) (st : Nat) : Loc → Nat
  | .dmem off => s.dkey st off / 32
  | .glob a => a / 32
  | .img off => (0x20000000 + off) / 32
  | .stat off => (0x20180000 + off) / 32
  | .dram off => keyDram off / 32
  | .bankImg off => (0x20000000 + off) / 32
  | .remote _ _ _ => 0

/-- A load at a location: the bytes, or what it waits for. -/
def State.loadAt (s : State) (st : Nat) (loc : Loc) (n : Nat) : Except WaitFor (List Byte) :=
  match loc with
  | .dmem off => .ok (s.mgetN (s.dkey st off) n)
  | .glob a => .ok (s.mgetN a n)
  | .img off =>
    match s.imgBytes st off n with
    | .ok bs => .ok bs
    | .error b => .error (.beat b)
  | .stat off => .ok ((List.range n).map (fun i => s.statByte st (off + i)))
  | .dram off => .ok (s.mgetN (keyDram off) n)
  | .bankImg off =>
    .ok ((List.range n).map (fun i =>
      if 0x180000 ≤ off + i then swByte (s.swGet ((off + i - 0x180000) / 2)) ((off + i) % 2 == 1)
      else imgGet s.img (off + i)))
  | .remote _ _ _ =>
    match (s.strand st).answer with
    | some a => .ok (leBytes n a.value.toNat)
    | none => .error .member

/-- The reservations of other strands on a granule of this module's global memory are lost (R154). `st` is the writing
strand; 16 for an agent that is no strand. -/
def State.breakResv (s : State) (st addr n : Nat) : State :=
  let s := each (List.range 16) s (fun s t =>
    if t = st then s
    else s.modStrand t (fun x =>
      match x.resv with
      | .valid m g => if m = s.member ∧ overlaps (g * 32) 32 addr n then { x with resv := .lost } else x
      | _ => x))
  { s with remoteResv := s.remoteResv.filter (fun r => !overlaps (r.2 * 32) 32 addr n) }

/-- A store at a location. The second result says whether image bits were discarded (R90). -/
def State.storeAt (s : State) (st : Nat) (loc : Loc) (bytes : List Byte) : State × Bool :=
  match loc with
  | .dmem off => (s.msetN (s.dkey st off) bytes, false)
  | .glob a => ((s.msetN a bytes).breakResv st a bytes.length, false)
  | .img off => s.stageBytes st off bytes
  | .dram off => (s.msetN (keyDram off) bytes, false)
  | .stat _ => (s, false)
  | .bankImg _ => (s, false)
  | .remote _ _ _ => (s, false)

end Sys2Proof.Machine
end

