-- ==== Sys2Proof/Machine/Dx.lean ====
section
/-!
DEFINITION. How a strand executes one instruction (R115, R136, R161, R162): issue, fetch check, the instruction's own
effect, and retirement. The instruction that stands at the PC is the operand of the command (assumption 5).
-/
namespace Sys2Proof.Machine

abbrev Out : Type := Host.Outcome State Fault Refusal

/-- What the body of an instruction comes to. -/
inductive Exec where
  /-- it completes; the value written to its destination, if any; the PC moves to the next instruction -/
  | ok (s : State) (dst : Option Word)
  /-- it completes and jumps -/
  | jump (s : State) (pc : Word)
  /-- it traps; the state holds the partial effects that R90 states, and no other -/
  | trap (s : State) (code : Nat)
  /-- it completes, and nothing of the strand is left to do: the module was reset or left the mode -/
  | done (s : State)
  /-- it waits, with no effect so far but the messages that ask another member -/
  | wait (on : WaitFor) (msgs : List Sent)
  deriving DecidableEq, Repr

/-- The kinds of instruction that the performance counters tell apart (R519). -/
inductive DxKind where
  | bit
  | fixed
  | load
  | store
  | sc
  | other
  deriving DecidableEq, Repr

/-- Whether strand `st` issues instructions: it weaves and waits for nothing (R48, R138). -/
def State.issues (s : State) (st : Nat) : Bool :=
  !s.ctl.held && (s.strand st).run == .weaving && (s.strand st).stall.isNone

/-- One more instruction after an LR: the 256th loses the reservation unless it is the SC (R154). -/
def Strand.age (x : Strand) (kind : DxKind) : Strand :=
  match x.resv with
  | .valid _ _ =>
    if 256 ≤ x.resvAge + 1 ∧ kind ≠ .sc then { x with resv := .lost, resvAge := x.resvAge + 1 }
    else { x with resvAge := x.resvAge + 1 }
  | _ => x

/-- The event of R519 that an instruction of a kind counts beside the instructions issued; 0 for none. -/
def DxKind.event : DxKind → Nat
  | .bit => 0x03
  | .fixed => 0x04
  | .load => 0x05
  | .store => 0x06
  | .sc => 0x06
  | .other => 0x00

def State.issue (s : State) (st : Nat) (kind : DxKind) : State :=
  ((s.modStrand st (fun x => x.age kind)).countS st 0x02 1).countS st kind.event 1

/-- The trap that the fetch at the PC raises: outside the active bank ADDR (R22), a granule that reads INTEG (R161). -/
def State.fetchTrap (s : State) (st : Nat) : Option Nat :=
  let x := s.strand st
  if 0x80000 ≤ x.pc.toNat then some trAddr
  else if s.integ.contains (keyImem st x.bank x.pc.toNat / 32) then some trInteg
  else none

/-- A strand begins to wait with instruction `i`: a beat stall loses the reservation and sets the wait bit; a beat
stall and a wait for a member hold a fabric transaction (R28, R98, R154). -/
def State.stallOn (s : State) (st : Nat) (on : WaitFor) (i : Instr) : State :=
  let s := s.modStrand st (fun x => { x with stall := some { on := on, instr := i, released := false } })
  match on with
  | .beat _ =>
    let s := s.modStrand st (fun x => { x with resv := match x.resv with
                                                 | .valid _ _ => .lost
                                                 | r => r })
    { s.setBit BEAT_WAIT_WAITING st true with inflight := s.inflight + 1 }
  | .member => { s with inflight := s.inflight + 1 }
  | .fabric => { s with fabWait := s.fabWait ++ [st] }

/-- An instruction retires: the PC moves, and a retirement trace captures it (R518). -/
def State.retire (s : State) (st : Nat) (oldPc pc : Word) (dst : Option Word) : State :=
  (s.modStrand st (fun x => { x with pc := pc, answer := none })).traceRetire st oldPc (s.strand st).fl dst

/-- Strand `st` executes instruction `i` with the effect `body`, in the world it sees. -/
def dxRun (s : State) (st : Fin 16) (i : Instr) (kind : DxKind) (body : State → Exec) : State :=
  let pc := (s.strand st).pc
  let s1 := s.issue st kind
  match s1.fetchTrap st with
  | some code =>
    let s2 := if code = trInteg then s1.integRead (keyImem st (s1.strand st).bank pc.toNat / 32) else s1
    s2.trap st code
  | none =>
    match body s1 with
    | .ok t dst => t.retire st pc (pc + 4) dst
    | .jump t dest => (t.countS st 0x07 1).retire st pc dest none
    | .trap t code => t.trap st code
    | .done t => t
    | .wait on msgs => { s with tx := s.tx ++ msgs }.stallOn st on i

/-- Strand `st` executes instruction `i`. A strand that does not weave, or waits, executes nothing. Trial code acts on the
trial world of its class (R290, R294). DESIGN CHOICE: assumption 5. -/
def dx (s : State) (st : Fin 16) (i : Instr) (kind : DxKind) (body : State → Exec) : Out :=
  if s.issues st then
    let k := (s.cfg st).cls
    if s.onTrial k then .next ((dxRun (s.swapWorld k) st i kind body).swapWorld k)
    else .next (dxRun s st i kind body)
  else .next s

/-- What an instruction that touches only its strand comes to: the new registers and the value written to a
destination, or a trap. -/
inductive RegExec where
  | ok (x : Strand) (dst : Option Word)
  | trap (code : Nat)
  deriving DecidableEq, Repr

/-- An instruction that touches only the registers of its strand. DESIGN CHOICE: assumption 5. -/
def dxReg (s : State) (st : Fin 16) (i : Instr) (kind : DxKind) (f : Strand → RegExec) : Out :=
  dx s st i kind (fun t =>
    match f (t.strand st) with
    | .ok x dst => .ok (t.setStrand st x) dst
    | .trap code => .trap t code)

/-- Write a general register. -/
def Strand.setW (x : Strand) (d : Fin 16) (v : Word) : Strand := { x with w := x.w.set d v }

def regWrite (x : Strand) (d : Fin 16) (v : Word) : RegExec := .ok (x.setW d v) (some v)

/-- Whether a fabric access finds 128 transactions in flight and waits at its agent (R28).
DESIGN CHOICE: assumption 41. -/
def State.fabricFull (s : State) : Bool := decide (128 ≤ s.inflight)

end Sys2Proof.Machine
end

