-- ==== Sys2Proof/Machine/Alu.lean ====
section
/-!
DEFINITION. The word ALU and the moves (R117, R126, R127): one meaning per instruction over shared operations.
-/
namespace Sys2Proof.Machine

/-- Result and flags of the class add, subtract, compare, with or without a destination (R117). -/
def aluAdd (x : Strand) (d : Option (Fin 16)) (r : Word × Bool × Bool) : RegExec :=
  match d with
  | some d => .ok ((x.flagsAdd r).setW d r.1) (some r.1)
  | none => .ok (x.flagsAdd r) none

/-- Result and flags of the class logic. -/
def aluLogic (x : Strand) (d : Option (Fin 16)) (r : Word) : RegExec :=
  match d with
  | some d => .ok ((x.flagsLogic r).setW d r) (some r)
  | none => .ok (x.flagsLogic r) none

/-- C as a number. -/
def Strand.carry (x : Strand) : Nat := if x.c then 1 else 0

/-- The signed immediate of ADDI, SUBI and CMPI and the zero-extended one of ANDI, ORI and XORI (R171). -/
def simm (i : BitVec 18) : Word := i.signExtend 32
def uimm (i : BitVec 18) : Word := i.setWidth 32

def aluShift (k : ShiftKind) (x : Strand) (d a : Fin 16) (amt : ShiftArg) : RegExec :=
  let r := shiftResult k x.w[a] (x.shiftAmt amt)
  .ok ((x.flagsShift r).setW d r.1) (some r.1)

def aluMul (x : Strand) (d : Fin 16) (r : Word) (v : Bool) : RegExec :=
  .ok ((x.flagsMul r v).setW d r) (some r)

/-- DIV and REM of -2^31 by -1 set V (R127). -/
def divOverflow (a b : Word) : Bool := a == 0x80000000 && b == 0xFFFFFFFF

/-- DIV, DIVU, REM and REMU: a divisor of 0 traps (R127). -/
def aluDiv (x : Strand) (d a b : Fin 16) (f : Word → Word → Word) (signed : Bool) : RegExec :=
  if x.w[b] = 0 then .trap trDivz
  else aluMul x d (f x.w[a] x.w[b]) (signed && divOverflow x.w[a] x.w[b])

/-- A result of minimum, maximum: Z and N only (R117). -/
def aluMinMax (x : Strand) (d : Fin 16) (r : Word) : RegExec := .ok ((x.zn r).setW d r) (some r)

/-- Number of leading zero bits (R126). -/
def clz (a : Word) : Nat := 32 - (if a.toNat = 0 then 0 else a.toNat.log2 + 1)

/-- ADD: Wd := a + b (R117, R126). -/
def execAdd (st : Fin 16) (d a b : Fin 16) (s : State) : Out :=
  dxReg s st (.add st d a b) .other (fun x => aluAdd x (some d) (addWithCarry x.w[a] x.w[b] 0))

/-- ADC: Wd := a + b + C (R117, R126). -/
def execAdc (st : Fin 16) (d a b : Fin 16) (s : State) : Out :=
  dxReg s st (.adc st d a b) .other (fun x => aluAdd x (some d) (addWithCarry x.w[a] x.w[b] x.carry))

/-- SUB: Wd := a - b (R117, R126). -/
def execSub (st : Fin 16) (d a b : Fin 16) (s : State) : Out :=
  dxReg s st (.sub st d a b) .other (fun x => aluAdd x (some d) (subWithBorrow x.w[a] x.w[b] 0))

/-- SBC: Wd := a - b - (1 - C) (R117, R126). -/
def execSbc (st : Fin 16) (d a b : Fin 16) (s : State) : Out :=
  dxReg s st (.sbc st d a b) .other (fun x => aluAdd x (some d) (subWithBorrow x.w[a] x.w[b] (1 - x.carry)))

/-- ADDI: Wd := a + imm, the immediate sign-extended (R117, R126, R171). -/
def execAddi (st : Fin 16) (d a : Fin 16) (imm : BitVec 18) (s : State) : Out :=
  dxReg s st (.addi st d a imm) .other (fun x => aluAdd x (some d) (addWithCarry x.w[a] (simm imm) 0))

/-- SUBI: Wd := a - imm, the immediate sign-extended (R117, R126, R171). -/
def execSubi (st : Fin 16) (d a : Fin 16) (imm : BitVec 18) (s : State) : Out :=
  dxReg s st (.subi st d a imm) .other (fun x => aluAdd x (some d) (subWithBorrow x.w[a] (simm imm) 0))

/-- CMP: the flags of a - b (R117, R126). -/
def execCmp (st : Fin 16) (a b : Fin 16) (s : State) : Out :=
  dxReg s st (.cmp st a b) .other (fun x => aluAdd x none (subWithBorrow x.w[a] x.w[b] 0))

/-- CMPI: the flags of a - imm (R117, R126). -/
def execCmpi (st : Fin 16) (a : Fin 16) (imm : BitVec 18) (s : State) : Out :=
  dxReg s st (.cmpi st a imm) .other (fun x => aluAdd x none (subWithBorrow x.w[a] (simm imm) 0))

/-- NEG: Wd := 0 - a (R117, R126). -/
def execNeg (st : Fin 16) (d a : Fin 16) (s : State) : Out :=
  dxReg s st (.neg st d a) .other (fun x => aluAdd x (some d) (subWithBorrow 0 x.w[a] 0))

/-- AND, bitwise (R117, R126). -/
def execAnd (st : Fin 16) (d a b : Fin 16) (s : State) : Out :=
  dxReg s st (.and st d a b) .other (fun x => aluLogic x (some d) (x.w[a] &&& x.w[b]))

/-- ANDI, bitwise, the immediate zero-extended (R117, R126, R171). -/
def execAndi (st : Fin 16) (d a : Fin 16) (imm : BitVec 18) (s : State) : Out :=
  dxReg s st (.andi st d a imm) .other (fun x => aluLogic x (some d) (x.w[a] &&& uimm imm))

/-- OR, bitwise (R117, R126). -/
def execOr (st : Fin 16) (d a b : Fin 16) (s : State) : Out :=
  dxReg s st (.or st d a b) .other (fun x => aluLogic x (some d) (x.w[a] ||| x.w[b]))

/-- ORI, bitwise, the immediate zero-extended (R117, R126, R171). -/
def execOri (st : Fin 16) (d a : Fin 16) (imm : BitVec 18) (s : State) : Out :=
  dxReg s st (.ori st d a imm) .other (fun x => aluLogic x (some d) (x.w[a] ||| uimm imm))

/-- XOR, bitwise (R117, R126). -/
def execXor (st : Fin 16) (d a b : Fin 16) (s : State) : Out :=
  dxReg s st (.xor st d a b) .other (fun x => aluLogic x (some d) (x.w[a] ^^^ x.w[b]))

/-- XORI, bitwise, the immediate zero-extended (R117, R126, R171). -/
def execXori (st : Fin 16) (d a : Fin 16) (imm : BitVec 18) (s : State) : Out :=
  dxReg s st (.xori st d a imm) .other (fun x => aluLogic x (some d) (x.w[a] ^^^ uimm imm))

/-- NOT: bitwise complement (R117, R126). -/
def execNot (st : Fin 16) (d a : Fin 16) (s : State) : Out :=
  dxReg s st (.not st d a) .other (fun x => aluLogic x (some d) (~~~x.w[a]))

/-- TST: the flags of a AND b (R117, R126). -/
def execTst (st : Fin 16) (a b : Fin 16) (s : State) : Out :=
  dxReg s st (.tst st a b) .other (fun x => aluLogic x none (x.w[a] &&& x.w[b]))

/-- SHL: shift left by a register or an immediate (R117, R126). -/
def execShl (st : Fin 16) (d a : Fin 16) (amt : ShiftArg) (s : State) : Out :=
  dxReg s st (.shl st d a amt) .other (fun x => aluShift .shl x d a amt)

/-- SHR: logical shift right by a register or an immediate (R117, R126). -/
def execShr (st : Fin 16) (d a : Fin 16) (amt : ShiftArg) (s : State) : Out :=
  dxReg s st (.shr st d a amt) .other (fun x => aluShift .shr x d a amt)

/-- SAR: arithmetic shift right by a register or an immediate (R117, R126). -/
def execSar (st : Fin 16) (d a : Fin 16) (amt : ShiftArg) (s : State) : Out :=
  dxReg s st (.sar st d a amt) .other (fun x => aluShift .sar x d a amt)

/-- ROR: rotate right by a register or an immediate (R117, R126). -/
def execRor (st : Fin 16) (d a : Fin 16) (amt : ShiftArg) (s : State) : Out :=
  dxReg s st (.ror st d a amt) .other (fun x => aluShift .ror x d a amt)

/-- MUL: the low word of the signed product; V when the product does not fit in 32 signed bits (R117). -/
def execMul (st : Fin 16) (d a b : Fin 16) (s : State) : Out :=
  dxReg s st (.mul st d a b) .other (fun x => aluMul x d (x.w[a] * x.w[b])
      (let p : Int := x.w[a].toInt * x.w[b].toInt; decide (p < -2147483648 ∨ 2147483647 < p)))

/-- MULU: the low word of the unsigned product; V when the product does not fit in 32 bits (R117). -/
def execMulu (st : Fin 16) (d a b : Fin 16) (s : State) : Out :=
  dxReg s st (.mulu st d a b) .other (fun x => aluMul x d (x.w[a] * x.w[b]) (decide (2 ^ 32 ≤ x.w[a].toNat * x.w[b].toNat)))

/-- DIV: signed quotient rounded toward zero (R117, R126, R127). -/
def execDiv (st : Fin 16) (d a b : Fin 16) (s : State) : Out :=
  dxReg s st (.div st d a b) .other (fun x => aluDiv x d a b (fun a b => a.sdiv b) true)

/-- DIVU: unsigned quotient (R117, R126, R127). -/
def execDivu (st : Fin 16) (d a b : Fin 16) (s : State) : Out :=
  dxReg s st (.divu st d a b) .other (fun x => aluDiv x d a b (fun a b => a.udiv b) false)

/-- REM: signed remainder, with the sign of a (R117, R126, R127). -/
def execRem (st : Fin 16) (d a b : Fin 16) (s : State) : Out :=
  dxReg s st (.rem st d a b) .other (fun x => aluDiv x d a b (fun a b => a.srem b) true)

/-- REMU: unsigned remainder (R117, R126, R127). -/
def execRemu (st : Fin 16) (d a b : Fin 16) (s : State) : Out :=
  dxReg s st (.remu st d a b) .other (fun x => aluDiv x d a b (fun a b => a.umod b) false)

/-- MIN: signed minimum (R117, R126). -/
def execMin (st : Fin 16) (d a b : Fin 16) (s : State) : Out :=
  dxReg s st (.min st d a b) .other (fun x => aluMinMax x d (if x.w[b].slt x.w[a] then x.w[b] else x.w[a]))

/-- MAX: signed maximum (R117, R126). -/
def execMax (st : Fin 16) (d a b : Fin 16) (s : State) : Out :=
  dxReg s st (.max st d a b) .other (fun x => aluMinMax x d (if x.w[a].slt x.w[b] then x.w[b] else x.w[a]))

/-- MINU: unsigned minimum (R117, R126). -/
def execMinu (st : Fin 16) (d a b : Fin 16) (s : State) : Out :=
  dxReg s st (.minu st d a b) .other (fun x => aluMinMax x d (if x.w[b].ult x.w[a] then x.w[b] else x.w[a]))

/-- MAXU: unsigned maximum (R117, R126). -/
def execMaxu (st : Fin 16) (d a b : Fin 16) (s : State) : Out :=
  dxReg s st (.maxu st d a b) .other (fun x => aluMinMax x d (if x.w[a].ult x.w[b] then x.w[b] else x.w[a]))

/-- CLZ: number of leading zero bits, 0 to 32; N := 0 (R117, R126). -/
def execClz (st : Fin 16) (d a : Fin 16) (s : State) : Out :=
  dxReg s st (.clz st d a) .other (fun x => 
    let r := BitVec.ofNat 32 (clz x.w[a])
    .ok ({ x with z := decide (r = 0), n := false }.setW d r) (some r))

/-- MOV: Wd := a (R126). -/
def execMov (st : Fin 16) (d a : Fin 16) (s : State) : Out :=
  dxReg s st (.mov st d a) .other (fun x => regWrite x d x.w[a])

/-- MOVL: the zero-extended immediate (R126). -/
def execMovl (st : Fin 16) (d : Fin 16) (imm : BitVec 16) (s : State) : Out :=
  dxReg s st (.movl st d imm) .other (fun x => regWrite x d (imm.setWidth 32))

/-- MOVH: Wd[31:16] := imm, the low half unchanged (R126). -/
def execMovh (st : Fin 16) (d : Fin 16) (imm : BitVec 16) (s : State) : Out :=
  dxReg s st (.movh st d imm) .other (fun x => regWrite x d (imm ++ x.w[d].extractLsb' 0 16))

/-- SXTB: sign extension from bit 7 (R126). -/
def execSxtb (st : Fin 16) (d a : Fin 16) (s : State) : Out :=
  dxReg s st (.sxtb st d a) .other (fun x => regWrite x d ((x.w[a].setWidth 8).signExtend 32))

/-- SXTH: sign extension from bit 15 (R126). -/
def execSxth (st : Fin 16) (d a : Fin 16) (s : State) : Out :=
  dxReg s st (.sxth st d a) .other (fun x => regWrite x d ((x.w[a].setWidth 16).signExtend 32))

/-- ZXTB: zero extension from bit 7 (R126). -/
def execZxtb (st : Fin 16) (d a : Fin 16) (s : State) : Out :=
  dxReg s st (.zxtb st d a) .other (fun x => regWrite x d ((x.w[a].setWidth 8).setWidth 32))

/-- ZXTH: zero extension from bit 15 (R126). -/
def execZxth (st : Fin 16) (d a : Fin 16) (s : State) : Out :=
  dxReg s st (.zxth st d a) .other (fun x => regWrite x d ((x.w[a].setWidth 16).setWidth 32))

end Sys2Proof.Machine
end

