-- ==== Sys2Proof/Machine/BitLogic.lean ====
section
/-!
DEFINITION. Bit logic and bit output (R120 to R125).
-/
namespace Sys2Proof.Machine

/-- A bit index is below 0x18_0000; its image byte and its bit (R80). -/
def bitByte (i : Nat) : Nat := i / 8
def bitPos (i : Nat) : Nat := i % 8

/-- The strand address of the image byte of a bit. -/
def bitAddr (i : Nat) : Nat := 0x20000000 + bitByte i

/-- Whether the granule of an image byte reads INTEG (R161). -/
def State.imgInteg (s : State) (off : Nat) : Bool := s.integ.contains ((0x20000000 + off) / 32)

/-- Read the image bit of a bit operand and go on with it: the operand's traps, INTEG, a full fabric and a beat stall
come first (R120, R121, R162). -/
def withBit (t : State) (st : Nat) (i : Except Nat Nat) (f : Nat → Bool → Exec) : Exec :=
  match i with
  | .error c => .trap t c
  | .ok i =>
    if t.imgInteg (bitByte i) then .trap (t.integRead ((0x20000000 + bitByte i) / 32)) trInteg
    else if t.fabricFull then .wait .fabric []
    else
      match t.imgBit st (bitByte i) (bitPos i) with
      | .error b => .wait (.beat b) []
      | .ok v => f i v

/-- Store one bit into the image as strand `st`, bit by bit under R90: the state and whether the bit was discarded. -/
def State.stageBit (s : State) (st i : Nat) (v : Bool) : State × Bool :=
  s.stageByte st (bitByte i) (BitVec.ofNat 8 (2 ^ bitPos i)) (if v then 0xFF else 0)

/-- A bit store: a discarded bit is recorded, and traps where the class says so; the accumulator takes `ba` unless it
traps (R90, R121). -/
def bitStore (t : State) (st i : Nat) (v ba : Bool) : Exec :=
  let r := t.stageBit st i v
  let done := r.1.modStrand st (fun x => { x with ba := ba })
  if r.2 then
    if t.ownvTraps (t.cfg st).cls then .trap (r.1.discard st (bitAddr i) 0) trOwnv
    else .ok (done.discard st (bitAddr i) 0) none
  else .ok done none

/-- A bit logic instruction with an image operand: BA := f BA x (R122). -/
def bitLogic (s : State) (st : Fin 16) (i : Instr) (m : BitArg) (f : Bool → Bool → Bool) : Out :=
  dx s st i .bit (fun t =>
    withBit t st ((t.strand st).bitIndex m) (fun _ v =>
      .ok (t.modStrand st (fun x => { x with ba := f x.ba v })) none))

/-- A bit logic instruction on BA and the bit stack: none where the stack traps (R122, R123). -/
def bitStack (s : State) (st : Fin 16) (i : Instr) (f : Strand → Option Strand) : Out :=
  dxReg s st i .bit (fun x =>
    match f x with
    | some y => .ok y none
    | none => .trap trBstk)

/-- Pop the bit stack into an operation with BA. -/
def popWith (x : Strand) (f : Bool → Bool → Bool) : Option Strand :=
  match x.bs with
  | [] => none
  | b :: bs => some { x with ba := f b x.ba, bs := bs }

/-- LDB: BA := x (R122). -/
def execLdb (st : Fin 16) (x : BitArg) (s : State) : Out := bitLogic s st (.ldb st x) x (fun _ v => v)

/-- LDBN: BA := NOT x (R122). -/
def execLdbn (st : Fin 16) (x : BitArg) (s : State) : Out := bitLogic s st (.ldbn st x) x (fun _ v => !v)

/-- ANDB: BA := BA AND x (R122). -/
def execAndb (st : Fin 16) (x : BitArg) (s : State) : Out := bitLogic s st (.andb st x) x (fun b v => b && v)

/-- ANDBN: BA := BA AND NOT x (R122). -/
def execAndbn (st : Fin 16) (x : BitArg) (s : State) : Out := bitLogic s st (.andbn st x) x (fun b v => b && !v)

/-- ORB: BA := BA OR x (R122). -/
def execOrb (st : Fin 16) (x : BitArg) (s : State) : Out := bitLogic s st (.orb st x) x (fun b v => b || v)

/-- ORBN: BA := BA OR NOT x (R122). -/
def execOrbn (st : Fin 16) (x : BitArg) (s : State) : Out := bitLogic s st (.orbn st x) x (fun b v => b || !v)

/-- XORB: BA := BA XOR x (R122). -/
def execXorb (st : Fin 16) (x : BitArg) (s : State) : Out := bitLogic s st (.xorb st x) x (fun b v => b != v)

/-- LDBC: BA := v, no image access (R122). -/
def execLdbc (st : Fin 16) (v : Bool) (s : State) : Out := bitStack s st (.ldbc st v) (fun x => some { x with ba := v })

/-- NOTB: BA := NOT BA (R122). -/
def execNotb (st : Fin 16) (s : State) : Out := bitStack s st (.notb st) (fun x => some { x with ba := !x.ba })

/-- PSHB: push BA onto BS; with 16 entries the bit stack trap (R122, R123). -/
def execPshb (st : Fin 16) (s : State) : Out :=
  bitStack s st (.pshb st) (fun x => if 16 ≤ x.bs.length then none else some { x with bs := x.ba :: x.bs })

/-- ANDPB: BA := top AND BA; pop (R122). -/
def execAndpb (st : Fin 16) (s : State) : Out := bitStack s st (.andpb st) (fun x => popWith x (fun t b => t && b))

/-- ORPB: BA := top OR BA; pop (R122). -/
def execOrpb (st : Fin 16) (s : State) : Out := bitStack s st (.orpb st) (fun x => popWith x (fun t b => t || b))

/-- XORPB: BA := top XOR BA; pop (R122). -/
def execXorpb (st : Fin 16) (s : State) : Out := bitStack s st (.xorpb st) (fun x => popWith x (fun t b => t != b))

/-- POPB: BA := top; pop (R122). -/
def execPopb (st : Fin 16) (s : State) : Out := bitStack s st (.popb st) (fun x => popWith x (fun t _ => t))

/-- DUPB: BA := top; no pop (R122). -/
def execDupb (st : Fin 16) (s : State) : Out :=
  bitStack s st (.dupb st) (fun x =>
    match x.bs with
    | [] => none
    | b :: _ => some { x with ba := b })

/-- A bit output: the index is formed and checked whatever BA holds, and the store takes place when `when_` says so
(R124). -/
def bitOut (s : State) (st : Fin 16) (i : Instr) (m : BitArg) (when_ : Bool → Bool) (v : Bool → Bool) : Out :=
  dx s st i .bit (fun t =>
    let x := t.strand st
    match x.bitIndex m with
    | .error c => .trap t c
    | .ok idx =>
      if when_ x.ba then
        if t.fabricFull then .wait .fabric [] else bitStore t st idx (v x.ba) x.ba
      else .ok t none)

/-- OUTB: x := BA (R124). -/
def execOutb (st : Fin 16) (x : BitArg) (s : State) : Out := bitOut s st (.outb st x) x (fun _ => true) (fun b => b)

/-- SETB: when BA = 1, x := 1 (R124). -/
def execSetb (st : Fin 16) (x : BitArg) (s : State) : Out := bitOut s st (.setb st x) x (fun b => b) (fun _ => true)

/-- RSTB: when BA = 1, x := 0 (R124). -/
def execRstb (st : Fin 16) (x : BitArg) (s : State) : Out := bitOut s st (.rstb st x) x (fun b => b) (fun _ => false)

/-- An edge instruction: BA := f BA m and m := BA, both from the values before it (R68, R124, R125). -/
def bitEdge (s : State) (st : Fin 16) (i : Instr) (indexed : Bool) (field : BitVec 24) (f : Bool → Bool → Bool) : Out :=
  dx s st i .bit (fun t =>
    withBit t st ((t.strand st).bitIndex { mode := if indexed then 1 else 0, field := field }) (fun idx m =>
      let ba := (t.strand st).ba
      bitStore t st idx ba (f ba m)))

/-- EDGR: r := BA AND NOT m; m := BA; BA := r (R124). -/
def execEdgr (st : Fin 16) (indexed : Bool) (field : BitVec 24) (s : State) : Out :=
  bitEdge s st (.edgr st indexed field) indexed field (fun b m => b && !m)

/-- EDGF: r := NOT BA AND m; m := BA; BA := r (R124). -/
def execEdgf (st : Fin 16) (indexed : Bool) (field : BitVec 24) (s : State) : Out :=
  bitEdge s st (.edgf st indexed field) indexed field (fun b m => !b && m)

end Sys2Proof.Machine
end

