-- ==== Sys2Proof/Machine/FixedPoint.lean ====
section
/-!
DEFINITION. The fixed-point group (R146 to R151).
-/
namespace Sys2Proof.Machine

/-- The value of an accumulator. -/
def Strand.accVal (x : Strand) (n : Fin 2) : Int := x.a[n].toInt

/-- An accumulator operation that is limited to 72 bits (R148, R150). -/
def accLimit (x : Strand) (n : Fin 2) (v : Int) : RegExec := .ok (x.accResult n (limitTo x.sat v 72)) none

/-- A register result that is limited to the operand width (R148, R150). -/
def fxLimit (x : Strand) (d : Fin 16) (v : Int) : RegExec :=
  let y := x.fxResult d (limitTo x.sat v x.fxWidth)
  .ok y (some y.w[d])

/-- Read a part of an accumulator; flags unchanged (R150). -/
def accRead (x : Strand) (d : Fin 16) (v : Word) : RegExec := regWrite x d v

/-- Write an accumulator; flags unchanged (R150). -/
def accWrite (x : Strand) (n : Fin 2) (v : Acc) : RegExec := .ok { x with a := x.a.set n v } none

/-- MPY: An := P(a, b), which cannot overflow; V := 0 (R148, R150). -/
def execMpy (st : Fin 16) (n : Fin 2) (a b : Fin 16) (s : State) : Out :=
  dxReg s st (.mpy st n a b) .fixed (fun x => .ok (x.accResult n (x.product x.w[a] x.w[b], false, false)) none)

/-- MAC: An := limit(An + P(a, b), 72) (R148, R150). -/
def execMac (st : Fin 16) (n : Fin 2) (a b : Fin 16) (s : State) : Out :=
  dxReg s st (.mac st n a b) .fixed (fun x => accLimit x n (x.accVal n + x.product x.w[a] x.w[b]))

/-- MSU: An := limit(An - P(a, b), 72) (R148, R150). -/
def execMsu (st : Fin 16) (n : Fin 2) (a b : Fin 16) (s : State) : Out :=
  dxReg s st (.msu st n a b) .fixed (fun x => accLimit x n (x.accVal n - x.product x.w[a] x.w[b]))

/-- Where an operand of MACP and MSUP lies: DMEM or an SE memory outside its pipeline area; another address is ADDR, a
misaligned one ALIGN (R149, R179). -/
def State.macpLoc (s : State) (st addr size : Nat) : Except Nat Loc :=
  if addr % size ≠ 0 then .error trAlign
  else if (0x80000 ≤ addr ∧ addr < 0xC0000) ∨ (0x11E00000 ≤ addr ∧ addr < 0x12000000) then s.locate st addr size false
  else .error trAddr

/-- The lowest code of the traps among some checks (R162). -/
def lowestTrap (l : List (Option Nat)) : Option Nat :=
  l.foldl (fun a b =>
    match a, b with
    | none, b => b
    | a, none => a
    | some x, some y => some (min x y)) none

def errOf {α : Type} : Except Nat α → Option Nat
  | .ok _ => none
  | .error c => some c

/-- A location in a granule that reads INTEG traps (R161, R425); so does a write of less than the granule (R426). -/
def integTrap (s : State) (st : Nat) : Except Nat Loc → Option Nat
  | .ok l => if s.integ.contains (s.granuleOf st l) then some trInteg else none
  | .error _ => none

/-- A trap at a location: an INTEG trap is recorded in the selvedge log (R427). -/
def trapAt (s : State) (st : Nat) (loc : Except Nat Loc) (code : Nat) : Exec :=
  match loc with
  | .ok l => .trap (if code = trInteg then s.integRead (s.granuleOf st l) else s) code
  | .error _ => .trap s code

/-- MACP and MSUP: two operands through pointers, accumulate, advance both pointers by 4 or 2 under R131; one pointer
named twice gives both operands and advances once (R148, R149). -/
def macp (s : State) (st : Fin 16) (i : Instr) (n : Fin 2) (pa pb : Fin 4) (sub : Bool) : Out :=
  dx s st i .fixed (fun t =>
    let x := t.strand st
    let size := if x.q31 then 4 else 2
    let la := t.macpLoc st x.p[pa].toNat size
    let lb := t.macpLoc st x.p[pb].toNat size
    let na := nextPtr x.p[pa] x.l[pa] size
    let nb := nextPtr x.p[pb] x.l[pb] size
    let ill := fun (o : Option Word) => if o.isNone then some trIllegal else none
    match lowestTrap [integTrap t st la, integTrap t st lb, ill na, ill nb, errOf la, errOf lb] with
    | some c => trapAt t st (if (integTrap t st la).isSome then la else lb) c
    | none =>
      match la, lb, na, nb with
      | .ok la, .ok lb, some na, some nb =>
        if t.fabricFull && (la.fabric || lb.fabric) then .wait .fabric []
        else
          match t.loadAt st la size, t.loadAt st lb size with
          | .ok ba, .ok bb =>
            let va : Word := BitVec.ofInt 32 (sgn (8 * size) (leNat ba))
            let vb : Word := BitVec.ofInt 32 (sgn (8 * size) (leNat bb))
            let p := x.product va vb
            let v := if sub then x.accVal n - p else x.accVal n + p
            let x := x.accResult n (limitTo x.sat v 72)
            .ok (t.setStrand st { x with p := (x.p.set pa na).set pb nb }) none
          | .error w, _ => .wait w []
          | _, .error w => .wait w []
      | _, _, _, _ => .trap t trAddr)

/-- MACP An, Pa, Pb (R148, R149). -/
def execMacp (st : Fin 16) (n : Fin 2) (pa pb : Fin 4) (s : State) : Out := macp s st (.macp st n pa pb) n pa pb false

/-- MSUP An, Pa, Pb (R148, R149). -/
def execMsup (st : Fin 16) (n : Fin 2) (pa pb : Fin 4) (s : State) : Out := macp s st (.msup st n pa pb) n pa pb true

/-- CLRA: An := 0, flags unchanged (R148, R150). -/
def execClra (st : Fin 16) (n : Fin 2) (s : State) : Out := dxReg s st (.clra st n) .fixed (fun x => accWrite x n 0)

/-- ADDA: An := limit(An + Am, 72) (R148). -/
def execAdda (st : Fin 16) (n m : Fin 2) (s : State) : Out :=
  dxReg s st (.adda st n m) .fixed (fun x => accLimit x n (x.accVal n + x.accVal m))

/-- SUBA: An := limit(An - Am, 72) (R148). -/
def execSuba (st : Fin 16) (n m : Fin 2) (s : State) : Out :=
  dxReg s st (.suba st n m) .fixed (fun x => accLimit x n (x.accVal n - x.accVal m))

/-- ASHA: a left shift is limited, a right shift rounds and leaves V = 0 (R148, R150). -/
def execAsha (st : Fin 16) (n : Fin 2) (sh : BitVec 6) (s : State) : Out :=
  dxReg s st (.asha st n sh) .fixed (fun x =>
    if 0 ≤ sh.toInt then accLimit x n (x.accVal n * (2 ^ sh.toInt.toNat : Nat))
    else .ok (x.accResult n (roundShift x.rnd (x.accVal n) (-sh.toInt).toNat, false, false)) none)

/-- ACCR: Wd := limit(round_shift(An, e), w) (R148). -/
def execAccr (st : Fin 16) (d : Fin 16) (n : Fin 2) (s : State) : Out :=
  dxReg s st (.accr st d n) .fixed (fun x => fxLimit x d (roundShift x.rnd (x.accVal n) x.fxShift))

/-- RDAL: Wd := An[31:0] (R148). -/
def execRdal (st : Fin 16) (d : Fin 16) (n : Fin 2) (s : State) : Out :=
  dxReg s st (.rdal st d n) .fixed (fun x => accRead x d (x.a[n].extractLsb' 0 32))

/-- RDAH: Wd := An[63:32] (R148). -/
def execRdah (st : Fin 16) (d : Fin 16) (n : Fin 2) (s : State) : Out :=
  dxReg s st (.rdah st d n) .fixed (fun x => accRead x d (x.a[n].extractLsb' 32 32))

/-- RDAG: Wd := An[71:64], sign-extended (R148). -/
def execRdag (st : Fin 16) (d : Fin 16) (n : Fin 2) (s : State) : Out :=
  dxReg s st (.rdag st d n) .fixed (fun x => accRead x d ((x.a[n].extractLsb' 64 8).signExtend 32))

/-- WRAL: An[31:0] := Ws (R148). -/
def execWral (st : Fin 16) (n : Fin 2) (a : Fin 16) (s : State) : Out :=
  dxReg s st (.wral st n a) .fixed (fun x => accWrite x n (x.a[n].extractLsb' 32 40 ++ x.w[a]))

/-- WRAH: An[63:32] := Ws (R148). -/
def execWrah (st : Fin 16) (n : Fin 2) (a : Fin 16) (s : State) : Out :=
  dxReg s st (.wrah st n a) .fixed (fun x =>
    accWrite x n (x.a[n].extractLsb' 64 8 ++ x.w[a] ++ x.a[n].extractLsb' 0 32))

/-- WRAG: An[71:64] := Ws[7:0] (R148). -/
def execWrag (st : Fin 16) (n : Fin 2) (a : Fin 16) (s : State) : Out :=
  dxReg s st (.wrag st n a) .fixed (fun x =>
    accWrite x n (x.w[a].extractLsb' 0 8 ++ x.a[n].extractLsb' 0 64))

/-- FMUL: Wd := limit(round_shift(P(a, b), e), w) (R148). -/
def execFmul (st : Fin 16) (d a b : Fin 16) (s : State) : Out :=
  dxReg s st (.fmul st d a b) .fixed (fun x => fxLimit x d (roundShift x.rnd (x.product x.w[a] x.w[b]) x.fxShift))

/-- QADD: Wd := limit(a + b, w) (R148). -/
def execQadd (st : Fin 16) (d a b : Fin 16) (s : State) : Out :=
  dxReg s st (.qadd st d a b) .fixed (fun x => fxLimit x d (x.fxVal x.w[a] + x.fxVal x.w[b]))

/-- QSUB: Wd := limit(a - b, w) (R148). -/
def execQsub (st : Fin 16) (d a b : Fin 16) (s : State) : Out :=
  dxReg s st (.qsub st d a b) .fixed (fun x => fxLimit x d (x.fxVal x.w[a] - x.fxVal x.w[b]))

/-- QNEG: Wd := limit(0 - a, w) (R148). -/
def execQneg (st : Fin 16) (d a : Fin 16) (s : State) : Out :=
  dxReg s st (.qneg st d a) .fixed (fun x => fxLimit x d (-(x.fxVal x.w[a])))

/-- QABS: Wd := limit(|a|, w) (R148). -/
def execQabs (st : Fin 16) (d a : Fin 16) (s : State) : Out :=
  dxReg s st (.qabs st d a) .fixed (fun x => fxLimit x d ((x.fxVal x.w[a]).natAbs : Int))

end Sys2Proof.Machine
end

