-- ==== Sys2Proof/Machine/LoadStore.lean ====
section
/-!
DEFINITION. Loads, stores, pointer registers, bank register, data stack (R128 to R134).
-/
namespace Sys2Proof.Machine

/-- Whether an address lies in the banked window. -/
def inWindow (a : Word) : Bool := decide (0x80000000 ≤ a.toNat ∧ a.toNat < 0xC0000000)

/-- The message that asks another member for a load (R362). -/
def askLoad (st : Fin 16) (loc : Loc) (size : Nat) : List Sent :=
  match loc with
  | .remote m r off => [.memberAccess m st.val false r off size 0]
  | _ => []

/-- A load of `size` bytes with the extension `ext`: the traps first, the lowest code of those that apply, then the
access, then the destination and the pointer (R128, R129, R162). -/
def load (s : State) (st : Fin 16) (i : Instr) (r : Fin 16) (m : AddrArg) (size : Nat) (ext : Nat → Word) : Out :=
  dx s st i .load (fun t =>
    let x := t.strand st
    let loc := t.locate st (x.effAddr m).toNat size false
    match lowestTrap [integTrap t st loc, errOf (x.eff m), errOf loc] with
    | some c => trapAt t st loc c
    | none =>
      match x.eff m, loc with
      | .ok e, .ok loc =>
        if t.fabricFull && loc.fabric && (t.strand st).answer.isNone then .wait .fabric []
        else
          match t.loadAt st loc size with
          | .error w => .wait w (askLoad st loc size)
          | .ok bs =>
            let v := ext (leNat bs)
            let t := if inWindow e.addr then t.countS st 0x0A 1 else t
            .ok (t.setStrand st (((t.strand st).applyUpd e.upd).setW r v)) (some v)
      | _, _ => .trap t trAddr)

def extWord (v : Nat) : Word := BitVec.ofNat 32 v
def extHalf (v : Nat) : Word := (BitVec.ofNat 16 v).signExtend 32
def extByte (v : Nat) : Word := (BitVec.ofNat 8 v).signExtend 32

/-- The bytes that a store of `size` bytes writes. -/
def storeBytes (v : Word) (size : Nat) : List Byte := leBytes size v.toNat

/-- The end of a store: the strand's pointer moves, and discarded image bits are recorded and may trap; the owned bits
are written in either case (R90, R129). -/
def storeEnd (t : State) (st : Fin 16) (r : State × Bool) (addr : Nat) (upd : Option (Fin 4 × Word)) : Exec :=
  if r.2 then
    if t.ownvTraps (t.cfg st).cls then .trap (r.1.discard st addr 0) trOwnv
    else .ok ((r.1.modStrand st (fun x => x.applyUpd upd)).discard st addr 0) none
  else .ok (r.1.modStrand st (fun x => x.applyUpd upd)) none

/-- The INTEG trap of a store: a write of a part of a granule that reads INTEG meets the consequence of a read (R426). A store
into the image goes to the staging view and writes no granule (R88). -/
def storeInteg (s : State) (st : Nat) (loc : Except Nat Loc) : Option Nat :=
  match loc with
  | .ok (.img _) => none
  | _ => integTrap s st loc

/-- A store of `size` bytes (R128, R129). A store to another member waits for its completion there (R133, R362). -/
def store (s : State) (st : Fin 16) (i : Instr) (r : Fin 16) (m : AddrArg) (size : Nat) : Out :=
  dx s st i .store (fun t =>
    let x := t.strand st
    let loc := t.locate st (x.effAddr m).toNat size true
    match lowestTrap [storeInteg t st loc, errOf (x.eff m), errOf loc] with
    | some c => trapAt t st loc c
    | none =>
      match x.eff m, loc with
      | .ok e, .ok loc =>
        if t.fabricFull && loc.fabric && (t.strand st).answer.isNone then .wait .fabric []
        else
          let t := if inWindow e.addr then t.countS st 0x0A 1 else t
          match loc with
          | .remote m _ off =>
            if (t.strand st).answer.isNone then
              .wait .member [.memberAccess m st.val true 0 off size (x.w[r].setWidth (8 * size) |>.setWidth 32)]
            else .ok (t.modStrand st (fun x => x.applyUpd e.upd)) none
          | loc => storeEnd t st (t.storeAt st loc (storeBytes x.w[r] size)) e.addr.toNat e.upd
      | _, _ => .trap t trAddr)

/-- LW: a word (R128). -/
def execLw (st r : Fin 16) (x : AddrArg) (s : State) : Out := load s st (.lw st r x) r x 4 extWord

/-- LH: a halfword, sign-extended (R128). -/
def execLh (st r : Fin 16) (x : AddrArg) (s : State) : Out := load s st (.lh st r x) r x 2 extHalf

/-- LHU: a halfword, zero-extended (R128). -/
def execLhu (st r : Fin 16) (x : AddrArg) (s : State) : Out := load s st (.lhu st r x) r x 2 extWord

/-- LBY: a byte, sign-extended (R128). -/
def execLby (st r : Fin 16) (x : AddrArg) (s : State) : Out := load s st (.lby st r x) r x 1 extByte

/-- LBYU: a byte, zero-extended (R128). -/
def execLbyu (st r : Fin 16) (x : AddrArg) (s : State) : Out := load s st (.lbyu st r x) r x 1 extWord

/-- SW: stores a word (R128). -/
def execSw (st r : Fin 16) (x : AddrArg) (s : State) : Out := store s st (.sw st r x) r x 4

/-- SH: stores a halfword (R128). -/
def execSh (st r : Fin 16) (x : AddrArg) (s : State) : Out := store s st (.sh st r x) r x 2

/-- SBY: stores a byte (R128). -/
def execSby (st r : Fin 16) (x : AddrArg) (s : State) : Out := store s st (.sby st r x) r x 1

/-- MOVP: Pn := Ws (R130). -/
def execMovp (st : Fin 16) (n : Fin 4) (a : Fin 16) (s : State) : Out :=
  dxReg s st (.movp st n a) .other (fun x => .ok { x with p := x.p.set n x.w[a] } none)

/-- RDP: Wd := Pn (R130). -/
def execRdp (st d : Fin 16) (n : Fin 4) (s : State) : Out :=
  dxReg s st (.rdp st d n) .other (fun x => regWrite x d x.p[n])

/-- WRL: Ln := Ws, or ILLEGAL for a value that R130 refuses. -/
def execWrl (st : Fin 16) (n : Fin 4) (a : Fin 16) (s : State) : Out :=
  dxReg s st (.wrl st n a) .other (fun x =>
    if lValid x.w[a] then .ok { x with l := x.l.set n x.w[a] } none else .trap trIllegal)

/-- RDL: Wd := Ln (R130). -/
def execRdl (st d : Fin 16) (n : Fin 4) (s : State) : Out :=
  dxReg s st (.rdl st d n) .other (fun x => regWrite x d x.l[n])

/-- Whether a module is present in the top-level hedge; a single module has member 0 alone (R24, R85). -/
def State.memberPresent (s : State) (m : Nat) : Bool :=
  if s.flag MEL_CFG_HEDGE && s.flag MEL_STAT_FORMED then decide (m < s.fget MEL_CFG_NMOD) else m == s.member

/-- Whether BK takes a value: a region of R23, a member that is present, and the own member for the DRAM regions (R24). -/
def State.bkValid (s : State) (v : BitVec 16) : Bool :=
  let r := bkRegion v
  (r == 0 || r == 1 || r == 8 || r == 9) && s.memberPresent (bkMember v) &&
    (decide (r < 8) || bkMember v == s.member)

/-- SETBK and SETBKI load BK or raise the BK invalid member trap (R24, R132). -/
def setBank (s : State) (st : Fin 16) (i : Instr) (v : Strand → BitVec 16) : Out :=
  dx s st i .other (fun t =>
    let b := v (t.strand st)
    if t.bkValid b then .ok (t.modStrand st (fun x => { x with bk := b })) none else .trap t trBkInv)

/-- SETBK: BK := Ws[15:0] (R132). -/
def execSetbk (st a : Fin 16) (s : State) : Out := setBank s st (.setbk st a) (fun x => x.w[a].setWidth 16)

/-- SETBKI: BK := imm16 (R132). -/
def execSetbki (st : Fin 16) (imm : BitVec 16) (s : State) : Out := setBank s st (.setbki st imm) (fun _ => imm)

/-- RDBK: Wd := BK (R132). -/
def execRdbk (st d : Fin 16) (s : State) : Out :=
  dxReg s st (.rdbk st d) .other (fun x => regWrite x d (x.bk.setWidth 32))

/-- PUSH: DSP := DSP - 4, then store; DSOVF below DSL (R134). -/
def execPush (st a : Fin 16) (s : State) : Out :=
  dx s st (.push st a) .store (fun t =>
    let x := t.strand st
    if x.dsp.toNat < x.dsl.toNat + 4 then .trap t trDsOvf
    else
      let dsp := x.dsp - 4
      let loc : Except Nat Loc := .ok (.dmem (dsp.toNat - 0x80000))
      if (integTrap t st loc).isSome then trapAt t st loc trInteg
      else .ok ((t.msetN (t.dkey st (dsp.toNat - 0x80000)) (storeBytes x.w[a] 4)).setStrand st { x with dsp := dsp }) none)

/-- POP: load from DSP, then DSP := DSP + 4; ADDR at the top of DMEM (R134). -/
def execPop (st d : Fin 16) (s : State) : Out :=
  dx s st (.pop st d) .load (fun t =>
    let x := t.strand st
    let loc := t.locate st x.dsp.toNat 4 false
    match lowestTrap [integTrap t st loc, errOf loc] with
    | some c => trapAt t st loc c
    | none =>
      let v := extWord (leNat (t.mgetN (t.dkey st (x.dsp.toNat - 0x80000)) 4))
      .ok (t.setStrand st ({ x with dsp := x.dsp + 4 }.setW d v)) (some v))

/-- ADJSP: DSP := DSP + 4 × imm; DSOVF below DSL, ADDR above 0x000C_0000 (R134, R175). -/
def execAdjsp (st : Fin 16) (imm : BitVec 18) (s : State) : Out :=
  dxReg s st (.adjsp st imm) .other (fun x =>
    let dest : Int := x.dsp.toNat + 4 * imm.toInt
    if 0xC0000 < dest then .trap trAddr
    else if imm.toInt < 0 ∧ dest < x.dsl.toNat then .trap trDsOvf
    else .ok { x with dsp := BitVec.ofInt 32 dest } none)

/-- RDDSP: Wd := DSP (R134). -/
def execRddsp (st d : Fin 16) (s : State) : Out :=
  dxReg s st (.rddsp st d) .other (fun x => regWrite x d x.dsp)

end Sys2Proof.Machine
end

