-- ==== Sys2Proof/Machine/Atomics.lean ====
section
/-!
DEFINITION. Load-reserved, store-conditional, and the test-and-set and clear of shared bits (R91, R152 to R160).
-/
namespace Sys2Proof.Machine

/-- Where LR and SC may go: the general region, directly or through region 0x0 of the banked window; the member and the
address in its global memory. Any other address is ADDR, a misaligned one ALIGN (R153). -/
def State.lrLoc (s : State) (st : Nat) (a : Word) : Except Nat (Nat × Nat) :=
  let a := a.toNat
  if a % 4 ≠ 0 then .error trAlign
  else if 0x10000000 ≤ a ∧ a < 0x11A00000 then .ok (s.member, a)
  else if 0x80000000 ≤ a ∧ a < 0x81A00000 ∧ bkRegion (s.strand st).bk = 0 then
    .ok (bkMember (s.strand st).bk, 0x10000000 + (a - 0x80000000))
  else .error trAddr

/-- LR: load the word and reserve its granule (R152, R154). On another member the strand waits for the word (R157). -/
def execLr (st d b : Fin 16) (s : State) : Out :=
  dx s st (.lr st d b) .load (fun t =>
    let x := t.strand st
    match t.lrLoc st x.w[b] with
    | .error c => .trap t c
    | .ok (m, a) =>
      let fin := fun (v : Word) =>
        Exec.ok (t.setStrand st ({ x with resv := .valid m (a / 32), resvAge := 0 }.setW d v)) (some v)
      if m = t.member then
        if t.integ.contains (a / 32) then .trap (t.integRead (a / 32)) trInteg
        else if t.fabricFull then .wait .fabric []
        else fin (extWord (leNat (t.mgetN a 4)))
      else
        match x.answer with
        | some r => fin r.value
        | none => .wait .member [.memberLr m st.val (a - 0x10000000)])

/-- SC: store when the strand holds a valid reservation on the granule, and write 0; else write 1. The reservation ends
in either case; with none the SC-without-LR trap is raised (R152, R155, R157). -/
def execSc (st d a b : Fin 16) (s : State) : Out :=
  dx s st (.sc st d a b) .sc (fun t =>
    let x := t.strand st
    match t.lrLoc st x.w[b] with
    | .error c => .trap t c
    | .ok (m, addr) =>
      let fin := fun (t : State) (ok : Bool) =>
        let v : Word := if ok then 0 else 1
        let t := if ok then t else t.countS st 0x0B 1
        Exec.ok (t.setStrand st ({ t.strand st with resv := .none }.setW d v)) (some v)
      match x.resv with
      | .none => .trap t trScNoLr
      | .lost => fin t false
      | .valid rm rg =>
        if rm ≠ m ∨ rg ≠ addr / 32 then fin t false
        else if m = t.member then
          if t.integ.contains (addr / 32) then .trap (t.integRead (addr / 32)) trInteg
          else if t.fabricFull then .wait .fabric []
          else fin ((t.msetN addr (storeBytes x.w[a] 4)).breakResv st addr 4) true
        else
          match x.answer with
          | some r => fin t (!r.failed)
          | none => .wait .member [.memberSc m st.val (addr - 0x10000000) x.w[a]])

/-- Whether a bit lies in a shared entry (R91). -/
def State.bitShared (s : State) (i : Nat) : Bool :=
  match s.entryAt (bitByte i) (bitPos i) with
  | some (_, e) => hShared e
  | none => false

/-- TSB and CLB: Wd := the old value, and a shared bit takes `v` in the committed image at once; a forced one keeps its forced value
(R72). Any other bit is a
discarded store: recorded, and trapped or read under R89 (R91, R159, R160). -/
def sharedBit (s : State) (st : Fin 16) (i : Instr) (d : Fin 16) (m : SharedBitArg) (v : Bool) : Out :=
  dx s st i .bit (fun t =>
    match (t.strand st).sharedBitIndex m with
    | .error c => .trap t c
    | .ok idx =>
      if !t.bitShared idx && t.ownvTraps (t.cfg st).cls then
        if t.imgInteg (bitByte idx) then .trap (t.integRead ((0x20000000 + bitByte idx) / 32)) trInteg
        else .trap (t.discard st (bitAddr idx) 1) trOwnv
      else
        withBit t st (.ok idx) (fun idx old =>
          let w : Word := if old then 1 else 0
          if t.bitShared idx then
            let bit := BitVec.ofNat 8 (2 ^ bitPos idx)
            let put := match t.forced 2 idx with
              | some f => bitAt f.toNat 0
              | none => v
            let t := { t with img := imgMask t.img (bitByte idx) bit (if put then 0xFF else 0) }
            .ok (t.modStrand st (fun x => x.setW d w)) (some w)
          else .ok ((t.discard st (bitAddr idx) 1).modStrand st (fun x => x.setW d w)) (some w)))

/-- TSB: Wd[0] := the bit, and a shared bit becomes 1 (R159). -/
def execTsb (st d : Fin 16) (x : SharedBitArg) (s : State) : Out := sharedBit s st (.tsb st d x) d x true

/-- CLB: Wd[0] := the bit, and a shared bit becomes 0 (R159). -/
def execClb (st d : Fin 16) (x : SharedBitArg) (s : State) : Out := sharedBit s st (.clb st d x) d x false

end Sys2Proof.Machine
end

