-- ==== Sys2Proof/Machine/Branch.lean ====
section
/-!
DEFINITION. Branches, calls and the return stack (R118, R135, R136).
-/
namespace Sys2Proof.Machine

/-- A displacement counts instructions from the branch itself (R136, R175). -/
def branchTarget (pc : Word) (disp : Int) : Int := pc.toNat + 4 * disp

/-- The trap of a taken branch to a displacement target: outside the active bank (R22, R136). -/
def dispTrap (dest : Int) : Option Nat := if 0 ≤ dest ∧ dest < 0x80000 then none else some trAddr

/-- The traps of a register target: misaligned, or outside the active bank, the lowest code first (R136, R162). -/
def regTrap (dest : Word) : Option Nat :=
  if dest.toNat % 4 ≠ 0 then some trAlign else if 0x80000 ≤ dest.toNat then some trAddr else none

/-- B: a conditional branch. A reserved condition is ILLEGAL; one that is not taken checks no target (R118, R136). -/
def execB (st : Fin 16) (cond : BitVec 4) (disp : BitVec 22) (s : State) : Out :=
  dx s st (.b st cond disp) .other (fun t =>
    let x := t.strand st
    match x.cond cond with
    | none => .trap t trIllegal
    | some false => .ok (t.btBranch st false) none
    | some true =>
      let dest := branchTarget x.pc disp.toInt
      match dispTrap dest with
      | some c => .trap t c
      | none => .jump (t.btBranch st true) (BitVec.ofInt 32 dest))

/-- DBNZ: Wn := Wn - 1; branch when the new value is not 0 (R136). -/
def execDbnz (st n : Fin 16) (disp : BitVec 22) (s : State) : Out :=
  dx s st (.dbnz st n disp) .other (fun t =>
    let x := t.strand st
    let v := x.w[n] - 1
    if v = 0 then .ok ((t.setStrand st (x.setW n v)).btBranch st false) (some v)
    else
      let dest := branchTarget x.pc disp.toInt
      match dispTrap dest with
      | some c => .trap t c
      | none => .jump ((t.setStrand st (x.setW n v)).btBranch st true) (BitVec.ofInt 32 dest))

/-- JR: PC := Ws (R136). -/
def execJr (st a : Fin 16) (s : State) : Out :=
  dx s st (.jr st a) .other (fun t =>
    let dest := (t.strand st).w[a]
    match regTrap dest with
    | some c => .trap t c
    | none => .jump (t.btTarget st dest) dest)

/-- A call pushes PC + 4; with 64 entries the return stack overflows (R135). The target's trap has the lower code. -/
def callTo (t : State) (st : Fin 16) (bad : Option Nat) (dest : Word) : Exec :=
  let x := t.strand st
  match bad with
  | some c => .trap t c
  | none =>
    if 64 ≤ x.rs.length then .trap t trRsOvf
    else .jump (t.setStrand st { x with rs := (x.pc + 4) :: x.rs }) dest

/-- CALL: push PC + 4 and branch (R135, R136). -/
def execCall (st : Fin 16) (disp : BitVec 26) (s : State) : Out :=
  dx s st (.call st disp) .other (fun t =>
    let dest := branchTarget (t.strand st).pc disp.toInt
    callTo t st (dispTrap dest) (BitVec.ofInt 32 dest))

/-- CALLR: push PC + 4 and jump to Ws (R135, R136). -/
def execCallr (st a : Fin 16) (s : State) : Out :=
  dx s st (.callr st a) .other (fun t =>
    let dest := (t.strand st).w[a]
    match callTo t st (regTrap dest) dest with
    | .jump t pc => .jump (t.btTarget st pc) pc
    | e => e)

/-- RET: PC := the popped entry; with none the return stack underflows. The popped target is checked as a taken branch
(R22, R135, R136). -/
def execRet (st : Fin 16) (s : State) : Out :=
  dx s st (.ret st) .other (fun t =>
    let x := t.strand st
    match x.rs with
    | [] => .trap t trRsUnf
    | dest :: rs =>
      match regTrap dest with
      | some c => .trap t c
      | none => .jump ((t.setStrand st { x with rs := rs }).btTarget st dest) dest)

/-- RDRSP: Wd := RSP (R135). -/
def execRdrsp (st d : Fin 16) (s : State) : Out :=
  dxReg s st (.rdrsp st d) .other (fun x => .ok (x.setW d (BitVec.ofNat 32 x.rs.length)) (some (BitVec.ofNat 32 x.rs.length)))

end Sys2Proof.Machine
end

