-- ==== Sys2Proof/Machine/Digital.lean ====
section
/-!
DEFINITION. The digital channels and counters: group supply, inputs, outputs by the rows of R242, readback and
discrepancy, counters and frequency (R236 to R256).
-/
namespace Sys2Proof.Machine

def State.ct (s : State) (k : Nat) : Ct := tget Ct.reset s.cts k
def State.setCt (s : State) (k : Nat) (x : Ct) : State := { s with cts := tset Ct.reset s.cts k x }

/-- Bits of byte 0 of the channel record (R240). -/
abbrev recDisc : Nat := 1
abbrev recOpenLoad : Nat := 2
abbrev recOverload : Nat := 3
abbrev recSupplyLow : Nat := 4

def State.recBit (s : State) (n i : Nat) : Bool := bitAt (s.fget (DIO_CH_STAT_REC n)) i

/-- The quality of a channel record: the worst of the group state and of DISC, OVERLOAD and OPEN_LOAD; BAD for a member
of a gang that is not its leader (R237, R240, R247). -/
def State.dioQuality (s : State) (n : Nat) : Nat :=
  let st := s.fget (DIO_GRP_STAT_STATE (n / 8))
  if s.recBit n recDisc || s.recBit n recOpenLoad || s.recBit n recOverload then qBad
  else if s.dioOut n && s.leader n != n then qBad
  else if st = 0 then qGood else if st = 1 then qUncertain else qBad

/-- SUPPLY_LOW and the quality follow the group state and the latched conditions. -/
def State.dioRefresh (s : State) (n : Nat) : State :=
  let s := s.setBit (DIO_CH_STAT_REC n) recSupplyLow (s.fget (DIO_GRP_STAT_STATE (n / 8)) != 0)
  s.fput (DIO_CH_STAT_QUALITY n) (s.dioQuality n)

def groupChannels (g : Nat) : List Nat := (List.range 8).map (fun i => 8 * g + i)

/-- The state of a group from its supply: 0 OK, 1 LOW, 2 OFF, with 0.5 V of hysteresis on the rising side (R237). -/
def groupState (old mv : Nat) : Nat :=
  if mv < 15000 then 2
  else if old = 2 ∧ mv < 15500 then 2
  else if mv < 18000 then 1
  else if old ≠ 0 ∧ mv < 18500 then 1
  else 0

/-- GROUP_SUPPLY_MEASURE: L+ of a group is measured and its state decided; OFF switches the outputs of the group off at
once, and every change of state raises event 0x0704 (R237, R242). DEDUCED: assumption 44. -/
def execGroupSupplyMeasure (g : Fin 4) (mv : BitVec 16) (s : State) : Out :=
  if s.measures then
    let old := s.fget (DIO_GRP_STAT_STATE g)
    let new := groupState old mv.toNat
    let s := (s.fput (DIO_GRP_STAT_LPLUS_MV g) mv.toNat).fput (DIO_GRP_STAT_STATE g) new
    let s := each (groupChannels g) s (fun s n => (if new = 2 then s.dioOff n else s).dioRefresh n)
    .next (if new = old then s else s.raise 0x0704 g (leBytes 1 g ++ leBytes 1 new ++ leBytes 2 mv.toNat))
  else .next s

/-- GROUP_CURRENT_TRIP: a group current above 4.4 A for 5 ms switches every output of the group off and latches FUSE
(R238). -/
def execGroupCurrentTrip (g : Fin 4) (ma : BitVec 16) (s : State) : Out :=
  if s.live && decide (4400 < ma.toNat) then
    let s := each (groupChannels g) (s.setFlag (DIO_GRP_STAT_FUSE g) true) (fun s n => s.dioOff n)
    .next (s.raise 0x0705 g (leBytes 1 g ++ leBytes 2 ma.toNat))
  else .next s

/-- An output reaches OVERLOAD: it and every member of its gang switch off in the same clock, OVERLOAD is latched for the
leader (R243, R247). -/
def State.overload (s : State) (n : Nat) : State :=
  let l := s.leader n
  let s := each (s.gang n) s (fun s m => s.dioOff m)
  let s := (s.setBit DIO_EVT_OVL_OVL n true).setBit (DIO_CH_STAT_REC l) recOverload true
  (s.dioRefresh l).raise 0x0702 l (leBytes 1 l ++ leBytes 1 (s.fget (DIO_CH_CFG_GANG n)))

/-- OVERLOAD: an output that is on has held its current limit for 100 µs (R243). -/
def execOverload (n : Fin 32) (s : State) : Out :=
  if s.live && s.dioOut n && (s.dio n).out then .next (s.overload n) else .next s

/-- THERMAL_SHUTDOWN: the thermal shutdown of an output switch acts as OVERLOAD (R243). -/
def execThermalShutdown (n : Fin 32) (s : State) : Out :=
  if s.live && s.dioOut n && (s.dio n).out then .next (s.overload n) else .next s

/-- INPUT_FILTER: the terminal of an input has held its new level for the full filter time (R239). -/
def execInputFilter (n : Fin 32) (level : Bool) (s : State) : Out :=
  if s.measures && s.fget (DIO_CH_CFG_DIR n) == 0 then .next (s.setDio n { s.dio n with filt := level }) else .next s

/-! ## Readback (R244, R245, R247) -/

/-- The output bit entry that commands channel `n`, and the image bit of its command (R241). -/
def State.dioEntry (s : State) (n : Nat) : Option (HEntry × Nat) :=
  (s.validEntries.find? (fun e => hKind e.2 == 1 && hSrctype e.2 == 2 &&
    decide (hInstance e.2 ≤ n ∧ n < hInstance e.2 + hCount e.2))).map (fun e =>
      (e.2, hBase e.2 + (n - hInstance e.2)))

/-- The standby leaves a shared output to its partner (R251). -/
def State.sharedStandby (s : State) (n : Nat) : Bool := s.fget RED_STAT_ROLE == 2 && s.flag (DIO_CH_CFG_SHARED n)

/-- Open load is judged on a readback of an output that is off: three in sequence above 9 V set it, one at or below
9 V clears it (R245). DEDUCED: assumption 44. -/
def State.judgeOpenLoad (s : State) (n : Nat) (above : Bool) : State :=
  let d := s.dio n
  let was := s.recBit n recOpenLoad
  if above then
    let s := s.setDio n { d with oldCnt := min 3 (d.oldCnt + 1) }
    if 3 ≤ d.oldCnt + 1 ∧ was = false then
      let s := (s.setBit (DIO_CH_STAT_REC n) recOpenLoad true).setBit DIO_EVT_OLD_OLD n true
      s.raise 0x0703 n (leBytes 1 n ++ leBytes 1 1)
    else s
  else
    let s := s.setDio n { d with oldCnt := 0 }
    if was then (s.setBit (DIO_CH_STAT_REC n) recOpenLoad false).raise 0x0703 n (leBytes 1 n ++ leBytes 1 0) else s

/-- Event 0x0701: the applied command, the readback and the cycle number (R256). -/
def State.raiseDisc (s : State) (k n : Nat) (set applied value : Bool) : State :=
  s.raise 0x0701 n (leBytes 1 n ++ leBytes 1 (if set then 1 else 0) ++ leBytes 1 (if applied then 1 else 0) ++
    leBytes 1 (if value then 1 else 0) ++ leBytes 8 (s.cycAt k s.tbNat).toNat)

/-- A judged readback counts a mismatch, or clears the count and DISC (R244). -/
def State.judgeDisc (s : State) (k n : Nat) (mismatch value : Bool) : State :=
  let applied := (s.dio n).out
  if mismatch then
    let s := s.satBump (DIO_CH_STAT_MISCNT n) 1
    if s.fget DIO_DISC_DISC_CNT ≤ s.fget (DIO_CH_STAT_MISCNT n) ∧ s.recBit n recDisc = false then
      let s := (s.setBit (DIO_CH_STAT_REC n) recDisc true).setBit DIO_EVT_DISC_DISC n true
      s.raiseDisc k n true applied value
    else s
  else
    let was := s.recBit n recDisc
    let s := (s.fput (DIO_CH_STAT_MISCNT n) 0).setBit (DIO_CH_STAT_REC n) recDisc false
    if was then s.raiseDisc k n false applied value else s

/-- The readback of the output led by channel `n` at a t0 of its class: `rb` are the terminal levels behind the fixed
filter of 0.05 ms, `above9` says which terminals are above 9 V (R244, R245, R247, R251). -/
def State.dioReadback (s : State) (k n t0 : Nat) (rb above9 : BitVec 32) : State :=
  let ms := s.gang n
  let value := ms.any (fun m => rb.getLsbD m)
  let s := each ms s (fun s m => s.setBit (DIO_CH_STAT_REC m) 0 (rb.getLsbD m))
  let s := s.setBit (DIO_CH_STAT_REC n) 0 value
  let d := s.dio n
  let old := s.flag (DIO_CH_CFG_OLD_EN n) && !d.out
  let s :=
    if s.sharedStandby n then s
    else
      let s := if old then s.judgeOpenLoad n (ms.any (fun m => above9.getLsbD m)) else s
      if d.outAt + 100 * s.fget DIO_DISC_DISC_DLY ≤ t0 then
        s.judgeDisc k n (if old then false
          else value != d.out || ms.any (fun m => rb.getLsbD m != value)) value
      else s
  each ms s (fun s m => s.dioRefresh m)

/-! ## Counters (R248 to R250) -/

def State.ctMode (s : State) (k : Nat) : Nat := s.fget (CT_CFG_MODE k)

/-- A quotient rounded HALF_EVEN (R249). -/
def divHalfEven (a b : Nat) : Nat :=
  let q := a / b
  let r := a % b
  if 2 * r > b ∨ (2 * r = b ∧ q % 2 = 1) then q + 1 else q

/-- Count by `d`: the count wraps modulo 2^32, which sets WRAP, and the direction is kept (R248). The count is signed
(R250), so it wraps between 2^31 - 1 and -2^31 (DEDUCED, assumption 11). -/
def State.ctCount (s : State) (k : Nat) (d : Int) : State :=
  if d = 0 ∨ (s.ct k).hold then s
  else
    let v := (BitVec.ofNat 32 (s.fget (CT_LIVE_LIVE k))).toInt + d
    let s := s.fput (CT_LIVE_LIVE k) (intBits 32 v)
    let s := s.setFlag (CT_STAT_DIR k) (decide (d < 0))
    if v < -2147483648 ∨ 2147483647 < v then
      (s.setFlag (CT_STAT_WRAP k) true).setCt k { s.ct k with wrapped := 0xF }
    else s

/-- Counts of a quadrature sample, positive when A leads B. QUAD_X1 counts the edges of A while B is 0, QUAD_X2 every
edge of A, QUAD_X4 every edge (R248, DEDUCED, assumption 11). -/
def quadStep (mode : Nat) (pa pb a b : Bool) : Int :=
  if pa != a then
    if mode = 4 ∧ b then 0 else if a != b then 1 else -1
  else if pb != b then
    if mode = 6 then (if a == b then 1 else -1) else 0
  else 0

/-- A rising edge in a frequency mode: the period from the previous one gives the frequency unless it took more than 12 s, or the
gate counts it (R249). -/
def State.ctRise (s : State) (k : Nat) : State :=
  let c := s.ct k
  let now := s.fab / 4
  if s.ctMode k = 7 then
    let s := s.setCt k { c with lastRise := some now }
    match c.lastRise with
    | some t =>
      let p := 8 * (now - t)
      if p = 0 ∨ 12 * 10 ^ 9 < p then s
      else
        let s := s.setCt k { c with lastRise := some now, doneAt := now }
        (s.fput (CT_LIVE_LIVE k) (divHalfEven (10 ^ 12) p)).setFlag (CT_STAT_NOSIG k) false
    | none => s
  else
    let lo := s.tbNat - 1000 * s.fget (CT_GATE_GATE_MS k)
    s.setCt k { c with rises := (c.rises ++ [s.tbNat]).filter (fun t => decide (lo ≤ t)) }

/-- COUNTER_EDGE: the glitch-filtered levels `a` of the counter's input and `b` of its pair channel, in the 8 ns sample
in which one of them has changed (R248, R249, R253). -/
def execCounterEdge (k : Fin 8) (a b : Bool) (s : State) : Out :=
  let mode := s.ctMode k
  if s.live && decide (1 ≤ mode ∧ mode ≤ 8) then
    let c := s.ct k
    let rise := !c.a && a
    let fall := c.a && !a
    let edge := s.fget (CT_CFG_EDGE k)
    let sel := (rise && edge != 1) || (fall && edge != 0)
    let s := s.setCt k { c with a := a, b := b }
    if mode = 1 then .next (s.ctCount k (if sel then 1 else 0))
    else if mode = 2 then .next (s.ctCount k (if sel then -1 else 0))
    else if mode = 3 then .next (s.ctCount k (if sel then (if b then -1 else 1) else 0))
    else if mode ≤ 6 then
      if c.a != a && c.b != b then
        let s := ((s.satBump (CT_QERRCNT_QERRCNT k) 1).setFlag (CT_STAT_QERR k) true).setCt k
          { s.ct k with qerr := 0xF }
        .next (s.raise 0x0706 k (leBytes 1 k ++ leBytes 4 (s.fget (CT_LIVE_LIVE k))))
      else .next (s.ctCount k (quadStep mode c.a c.b a b))
    else .next (if rise then s.ctRise k else s)
  else .next s

/-- NO_SIGNAL: no period has completed within 12 s, so the frequency is 0 and NOSIG is set (R249). -/
def execNoSignal (k : Fin 8) (s : State) : Out :=
  if s.live && s.ctMode k == 7 && decide (12 * 10 ^ 9 ≤ 8 * (s.fab / 4 - (s.ct k).doneAt)) then
    .next ((s.fput (CT_LIVE_LIVE k) 0).setFlag (CT_STAT_NOSIG k) true)
  else .next s

/-- The gate of FREQ_GATE ends at t0: the edges in the gate give the frequency (R249). -/
def State.ctGate (s : State) (k t0 : Nat) : State :=
  if s.ctMode k = 8 then
    let g := s.fget (CT_GATE_GATE_MS k)
    let n := ((s.ct k).rises.filter (fun t => decide (t0 - 1000 * g ≤ t ∧ t < t0))).length
    (s.fput (CT_LIVE_LIVE k) (divHalfEven (n * 1000000) g)).setFlag (CT_STAT_NOSIG k) (n == 0)
  else s

/-- Quality of a counter record (R250): its channel lies in G0. -/
def State.ctQuality (s : State) (k : Nat) : Nat :=
  let st := s.fget (DIO_GRP_STAT_STATE 0)
  if s.flag (CT_STAT_NOSIG k) then qBad else if st = 0 then qGood else if st = 1 then qUncertain else qBad

/-- The latch of counter `k` at a t0 of class `c`: the state, and the record of R250. -/
def State.ctLatch (s : State) (c k t0 : Nat) : State × List Byte :=
  let s := s.ctGate k t0
  let x := s.ct k
  let v := s.fget (CT_LIVE_LIVE k)
  let flags := maskOf ((if x.wrapped.getLsbD c then [0] else []) ++ (if s.flag (CT_STAT_DIR k) then [1] else []) ++
    (if x.qerr.getLsbD c then [2] else []) ++ (if s.flag (CT_STAT_NOSIG k) then [3] else []))
  let keep : BitVec 4 := BitVec.ofNat 4 (15 - 2 ^ c)
  let s := (s.fput (CT_VAL_VAL k) v).setCt k { x with wrapped := x.wrapped &&& keep, qerr := x.qerr &&& keep }
  (s, leBytes 4 v ++ leBytes 1 flags ++ leBytes 1 (s.ctQuality k) ++ [0, 0])

/-! ## Latch and emit of a class -/

/-- The key of a latched local record: SRCTYPE and instance. -/
def latchKey (srctype instance_ : Nat) : Nat := srctype * 256 + instance_

def State.setLatch (s : State) (k key : Nat) (bytes : List Byte) : State :=
  s.modCls k (fun c => { c with latch := tset [] c.latch key bytes })

/-- The classes that latch at the t0 of class `k`: `k` itself and those that share the instant. -/
def State.t0Classes (s : State) (k t0 : Nat) : List Nat :=
  (List.range 4).filter (fun j => j == k || (s.classOn j && s.isT0 j t0))

/-- A class that shares this t0 with class `k` has latched already, for `k` too (R47). -/
def State.latchShared (s : State) (k t0 : Nat) : Bool :=
  (List.range 4).any (fun j => j != k && (s.cls j).started && (s.cls j).t0.toNat == t0 && (s.cls j).latched)

/-- The digital records that the input entries of class `k` read are kept for its shed. -/
def State.latchDigital (s : State) (k t0 : Nat) : State :=
  let ins := s.validEntries.filter (fun e => hInput e.2 && hSrctype e.2 == 2 && hClass e.2 == k)
  let s := each (List.range 8) s (fun s c =>
    if s.ctMode c = 0 then s
    else
      let r := s.ctLatch k c t0
      r.1.setLatch k (latchKey 2 (0x40 + c)) r.2)
  each ins s (fun s e =>
    if hInstance e.2 < 32 then
      each (List.range (hCount e.2)) s (fun s j =>
        let n := hInstance e.2 + j
        s.setLatch k (latchKey 2 n)
          (leBytes 1 (s.fget (DIO_CH_STAT_REC n)) ++ leBytes 1 (s.fget (DIO_CH_STAT_QUALITY n))))
    else s)

/-- The digital part of the latch of class `k` at its t0 (R43, R47, R244): inputs and counters are captured and the outputs are read
back, once for all classes that share the t0, and the records are kept for their sheds. -/
def State.dioLatch (s : State) (k t0 : Nat) (rb above9 : BitVec 32) : State :=
  if s.latchShared k t0 then s
  else
    let ks := s.t0Classes k t0
    let s := each (List.range 32) s (fun s n =>
      if s.dioOut n then
        match s.dioEntry n with
        | some (e, _) => if ks.contains (hClass e) then s.dioReadback (hClass e) n t0 rb above9 else s
        | none => s
      else (s.setBit (DIO_CH_STAT_REC n) 0 (s.dio n).filt).dioRefresh n)
    each ks s (fun s j => s.latchDigital j t0)

/-- A committed image bit. -/
def State.imgBitVal (s : State) (bit : Nat) : Bool := (imgGet s.img (bit / 8)).getLsbD (bit % 8)

/-- The output of channel `n` as last applied before the condition of row `row` began: of a row that holds already, what it began
with; of a change of mode, the output before a cut that has come since (R242). -/
def State.dioHold (s : State) (n row : Nat) : Bool :=
  let d := s.dio n
  if d.row = row then d.hold
  else if (row = 4 ∨ row = 5) ∧ s.ctl.modeAt < d.outAt then d.prev
  else d.out

/-- Rows 4 to 8 of R242 for the output that channel `n` leads: the row and the output it gives. The outgoing unit of a handover
into STOP leaves its shared outputs to the other unit (R330, R333). An output that is not shared applies its stop selection in
TRACK, and after a takeover where R330 says so (R322, R330). -/
def State.dioBase (s : State) (n : Nat) : Nat × Bool :=
  let m := s.mode
  let cmd := match s.dioEntry n with
    | some (e, b) => (s.imgBitVal b, hSwidx e)
    | none => (false, 0)
  let leaving := m == mStop && s.red.ungated && s.flag (DIO_CH_CFG_SHARED n)
  let own : Bool := match s.dioEntry n with
    | some (e, _) => s.tkoStops e || (m == mTrack && !s.tkoMirror e)
    | none => m == mTrack || !s.red.tkoLeft.isEmpty
  let row :=
    if m = mSafe ∨ m = mLockout ∨ m = mService then 4
    else if leaving then 6
    else if m = mStop ∨ (s.flag (DIO_CH_CFG_SHARED n) = false ∧ own) then 5
    else if s.sharedStandby n then 6
    else if (s.dioEntry n).isSome ∧ (s.swGet cmd.2).toNat % 4 = qBad then 7
    else 8
  let hold := s.dioHold n row
  let sel := fun c => if c = 2 then true else if c = 1 then hold else false
  (row, match row with
    | 4 => sel (s.fget (DIO_CH_CFG_SAFE_SEL n))
    | 5 => sel (s.fget (DIO_CH_CFG_STOP_SEL n))
    | 6 => false
    | 7 => sel (s.fget (DIO_CH_CFG_BADQ_SEL n))
    | _ => cmd.1)

/-- The leaders of the outputs of a group. -/
def State.groupLeaders (s : State) (g : Nat) : List Nat :=
  (groupChannels g).filter (fun n => s.dioOut n && s.leader n == n)

/-- Group `g` keeps its outputs off: OFF or FUSE (row 2 of R242). -/
def State.groupBlocked (s : State) (g : Nat) : Bool :=
  s.fget (DIO_GRP_STAT_STATE g) == 2 || s.flag (DIO_GRP_STAT_FUSE g)

/-- The emit of the output that channel `n` leads: rows 4 to 8 give a value, off clears OVERLOAD, and the first row that
applies decides the members of the gang (R242, R243, R246). -/
def State.dioEmitOut (s : State) (n : Nat) : State :=
  let b := s.dioBase n
  let d := s.dio n
  let s := s.setDio n { d with row := b.1, hold := s.dioHold n b.1 }
  let s := if b.2 then s else (s.setBit (DIO_CH_STAT_REC n) recOverload false).dioRefresh n
  let v := b.2 && !s.groupBlocked (n / 8) && !s.recBit n recOverload && !(s.gated && s.flag (DIO_CH_CFG_SHARED n)) &&
    s.supply.resetN.isNone
  each (s.gang n) s (fun s m => s.dioApply m v)

/-- Counter `k` under its committed control bits: LOAD takes CT_PRESET, HOLD stops the count until the next emit (R250).
An entry that covers one of the bits leaves the other; both are ignored in the frequency modes. -/
def State.ctControl (s : State) (k : Nat) (e : HEntry) : State :=
  let bit := fun b => decide (hBitofs e ≤ b ∧ b < hBitofs e + hCount e) && s.imgBitVal (hBase e + (b - hBitofs e))
  if 1 ≤ s.ctMode k ∧ s.ctMode k ≤ 6 then
    let s := if hBitofs e ≤ 1 ∧ 1 < hBitofs e + hCount e then s.setCt k { s.ct k with hold := bit 1 } else s
    if bit 0 then s.fput (CT_LIVE_LIVE k) (s.fget (CT_PRESET_PRESET k)) else s
  else s

/-- The digital part of the emit of class `k` (R53, R238, R242, R250). -/
def State.dioEmit (s : State) (k : Nat) : State :=
  let mine := fun (e : HEntry) => hKind e == 1 && hSrctype e == 2 && hClass e == k
  let outs := (List.range 32).filter (fun n => s.dioOut n && s.leader n == n &&
    (match s.dioEntry n with
     | some (e, _) => hClass e == k
     | none => k == 0))
  let s := each (List.range 4) s (fun s g =>
    if s.flag (DIO_GRP_STAT_FUSE g) && outs.any (fun n => n / 8 == g) &&
        (s.groupLeaders g).all (fun n => !(s.dioBase n).2)
    then s.setFlag (DIO_GRP_STAT_FUSE g) false else s)
  let s := each outs s (fun s n => s.dioEmitOut n)
  each (s.validEntries.filter (fun e => mine e.2 && decide (0x40 ≤ hInstance e.2 ∧ hInstance e.2 < 0x48))) s
    (fun s e => s.ctControl (hInstance e.2 - 0x40) e.2)

/-- The digital outputs of a die that enters POWER-UP, LOAD or a clock fault are off at once (row 1 of R242). -/
def State.dioAllOff (s : State) : State := each (List.range 32) s (fun s n => s.dioOff n)

/-- FUSE, OVERLOAD, DISC and OPEN_LOAD and the counts behind them are clear at the beginning of LOAD (R550). -/
def State.dioStart (s : State) : State :=
  each (List.range 8) { s with dios := [], cts := [] } (fun s k => s.setCt k { Ct.reset with doneAt := s.fab / 4 })

end Sys2Proof.Machine
end

