-- ==== Sys2Proof/Machine/Queues.lean ====
section
/-!
DEFINITION. The hardware queues: descriptors, buffers, the drop of receive frames, posts and retires (R384 to R388).
-/
namespace Sys2Proof.Machine

/-- The first descriptor of queue `q` in the table (R384). -/
def State.qFirst (s : State) (q : Nat) : Nat := ((List.range q).map (fun i => s.fget (QUE_CFG_DEPTH i))).sum

/-- The descriptor at ring place `i` of queue `q`. -/
def State.qDesc (s : State) (q i : Nat) : Nat := s.qFirst q + i % s.fget (QUE_CFG_DEPTH q)

def State.qBufsz (s : State) (q : Nat) : Nat := 256 * 2 ^ s.fget (QUE_CFG_BUFSZ q)

/-- The memory key of buffer `i` of queue `q`. -/
def State.qBuf (s : State) (q i : Nat) : Nat :=
  let at_ := 32 * s.fget (QUE_BASE_BASE q) + i % s.fget (QUE_CFG_DEPTH q) * s.qBufsz q
  if s.flag (QUE_BASE_DRAM q) then keyDram at_ else at_

/-- The descriptors of a queue that hold data (R391). Q30 holds one event each, Q31 the records for OBS.
DEDUCED: assumption 24. -/
def State.qFull (s : State) (q : Nat) : Nat :=
  if q = 30 then s.evq.length else if q = 31 then s.obsFull else s.fget (QUE_STAT_FULLCNT q)

def State.qFree (s : State) (q : Nat) : Nat := s.fget (QUE_CFG_DEPTH q) - s.qFull q

/-- Descriptors that a frame of `n` bytes takes (R384). -/
def State.qNeeds (s : State) (q n : Nat) : Nat := (n + s.qBufsz q - 1) / s.qBufsz q

/-- Fields of descriptor word 0 (R384). -/
def descWord0 (full first last : Bool) (tc status len : Nat) : Word :=
  BitVec.ofNat 32 ((if full then 2 ^ 31 else 0) + (if first then 2 ^ 30 else 0) + (if last then 2 ^ 29 else 0) +
    tc % 8 * 2 ^ 26 + status % 256 * 2 ^ 16 + len % 2 ^ 12)

def State.dFull (s : State) (d : Nat) : Bool := bitAt (s.rget (QUE_DESC0 d)).toNat 31
def State.dFirst (s : State) (d : Nat) : Bool := bitAt (s.rget (QUE_DESC0 d)).toNat 30
def State.dLast (s : State) (d : Nat) : Bool := bitAt (s.rget (QUE_DESC0 d)).toNat 29
def State.dTc (s : State) (d : Nat) : Nat := bitsAt (s.rget (QUE_DESC0 d)).toNat 26 3
def State.dStatus (s : State) (d : Nat) : Nat := bitsAt (s.rget (QUE_DESC0 d)).toNat 16 8
def State.dLen (s : State) (d : Nat) : Nat := bitsAt (s.rget (QUE_DESC0 d)).toNat 0 12

/-- Give the next `n` descriptors of the producer to the consumer. -/
def State.qHand (s : State) (q n : Nat) : State :=
  (s.fput (QUE_STAT_PIDX q) ((s.fget (QUE_STAT_PIDX q) + n) % s.fget (QUE_CFG_DEPTH q))).fput (QUE_STAT_FULLCNT q)
    (s.fget (QUE_STAT_FULLCNT q) + n)

/-- Return the next `n` FULL descriptors to the producer. -/
def State.qReturn (s : State) (q n : Nat) : State :=
  let c := s.fget (QUE_CIDX_CIDX q)
  let s := each (List.range n) s (fun s j =>
    let d := s.qDesc q (c + j)
    s.rset (QUE_DESC0 d) (s.rget (QUE_DESC0 d) &&& 0x7FFFFFFF))
  (s.fput (QUE_CIDX_CIDX q) ((c + n) % s.fget (QUE_CFG_DEPTH q))).fput (QUE_STAT_FULLCNT q)
    (s.fget (QUE_STAT_FULLCNT q) - n)

/-- Whether a receive frame of `n` bytes finds room; a drop is counted and raises event 0x1301 (R386). -/
def State.qAdmit (s : State) (q n : Nat) : State × Bool :=
  if s.fget (QUE_CFG_MAXFRAME q) < n then
    let s := ((s.countG 0x4B 1).satBump (QUE_DROP_OVERSIZE q) 1).setFlag (QUE_EVT_OVERSIZE q) true
    (s.raise 0x1301 q (leBytes 1 q ++ leBytes 1 scSize ++ leBytes 2 n), false)
  else if s.qFree q < s.qNeeds q n then
    let s := ((s.countG 0x4B 1).satBump (QUE_DROP_NOROOM q) 1).setFlag (QUE_EVT_NOROOM q) true
    (s.raise 0x1301 q (leBytes 1 q ++ leBytes 1 scBusy ++ leBytes 2 n), false)
  else (s, true)

/-- Store a whole frame into a queue from the producer's place on, with its descriptors (R384, R386). -/
def State.qStore (s : State) (q tc stamp : Nat) (frame : List Byte) : State :=
  let n := s.qNeeds q frame.length
  let p := s.fget (QUE_STAT_PIDX q)
  let sz := s.qBufsz q
  let s := each (List.range n) s (fun s j =>
    let part := (frame.drop (j * sz)).take sz
    let d := s.qDesc q (p + j)
    let s := (s.msetN (s.qBuf q (p + j)) part).breakResv 16 (s.qBuf q (p + j)) part.length
    (s.rset (QUE_DESC0 d) (descWord0 true (j == 0) (j + 1 == n) tc scOk part.length)).rset (QUE_DESC1 d)
      (BitVec.ofNat 32 stamp))
  s.qHand q n

/-- A received frame: stored when it finds room. The second result says whether it was. -/
def State.qReceive (s : State) (q stamp : Nat) (frame : List Byte) : State × Bool :=
  let r := s.qAdmit q frame.length
  if r.2 then (r.1.qStore q 0 stamp frame, true) else r

/-- The length in descriptors of the frame at the consumer's place, at most `n`. -/
def State.qFrameLen (s : State) (q : Nat) : Nat → Nat → Nat
  | _, 0 => 0
  | i, n + 1 => if s.dLast (s.qDesc q i) then 1 else 1 + s.qFrameLen q (i + 1) n

/-- The bytes of `n` descriptors from ring place `i` on. -/
def State.qBytes (s : State) (q i n : Nat) : List Byte :=
  (List.range n).flatMap (fun j => s.mgetN (s.qBuf q (i + j)) (s.dLen (s.qDesc q (i + j))))

/-- The lengths of the frames that `n` descriptors from ring place `i` form, `acc` bytes of the first being counted. -/
def State.qFrames (s : State) (q : Nat) : Nat → Nat → Nat → List Nat
  | _, 0, acc => if acc = 0 then [] else [acc]
  | i, n + 1, acc =>
    let a := acc + s.dLen (s.qDesc q i)
    if s.dLast (s.qDesc q i) then a :: s.qFrames q (i + 1) n 0 else s.qFrames q (i + 1) n a

/-- Whether software agent `agent`, a strand below 16 or else the steward, owns a descriptor of queue `q` (R29, R385): the
producer the ones that are not FULL, the consumer the FULL ones. -/
def ownsDesc (agent q : Nat) (full : Bool) : Bool :=
  let steward := agent == 16
  if full then (if q = 28 then !steward else if q = 31 then false
    else steward && (q == 29 || q == 30 || decide (q < 4 ∨ (8 ≤ q ∧ q < 12) ∨ (16 ≤ q ∧ q < 22))))
  else if q = 29 then !steward
  else steward && (q == 28 || decide ((4 ≤ q ∧ q < 8) ∨ (12 ≤ q ∧ q < 16) ∨ (22 ≤ q ∧ q < 28)))

/-- Queue `q` has a software producer (`full` false) or a software consumer (`full` true) (R385). -/
def softOwns (q : Nat) (full : Bool) : Bool := ownsDesc 0 q full || ownsDesc 16 q full

/-- The status of a post of `n` descriptors, in the order of the table of R387. DEDUCED: assumption 37. -/
def State.postStatus (s : State) (q n : Nat) : Nat :=
  let p := s.fget (QUE_STAT_PIDX q)
  if s.qFree q < n then scBusy
  else if n = 0 then scRange
  else if !s.dFirst (s.qDesc q p) || !s.dLast (s.qDesc q (p + n - 1)) then scState
  else if (s.qFrames q p n 0).any (fun l => decide (s.fget (QUE_CFG_MAXFRAME q) < l)) then scSize
  else if (List.range n).any (fun j =>
      let l := s.dLen (s.qDesc q (p + j))
      decide (l = 0 ∨ s.qBufsz q < l)) then scRange
  else scOk

/-- A software producer posts `n` descriptors; a refused post hands over nothing (R387). -/
def State.quePost (s : State) (q n : Nat) : State :=
  let st := s.postStatus q n
  let s := s.fput (QUE_STAT_LASTST q) st
  if st = scOk then
    let p := s.fget (QUE_STAT_PIDX q)
    let s := each (List.range n) s (fun s j =>
      let d := s.qDesc q (p + j)
      s.rset (QUE_DESC0 d) (s.rget (QUE_DESC0 d) ||| 0x80000000))
    s.qHand q n
  else
    (s.setFlag (QUE_EVT_POSTREJ q) true).raise 0x1302 q (leBytes 1 q ++ leBytes 1 st ++ leBytes 2 n)

/-- The consumer returns `n` FULL descriptors; more than there are returns nothing (R387). In Q30 it drops events. -/
def State.queRetire (s : State) (q n : Nat) : State :=
  if s.qFull q < n then s
  else if q = 30 then { s with evq := s.evq.drop n, evOut := s.evOut + n }
  else if q = 31 then s
  else s.qReturn q n

end Sys2Proof.Machine
end

