-- ==== Sys2Proof/Machine/SignalEngine.lean ====
section
/-!
DEFINITION. The signal engines: stages, pipelines, values as of t0, time redundancy and strand jobs (R177 to R200).
-/
namespace Sys2Proof.Machine

/-! ## Engine arithmetic: HALF_EVEN, saturation on (R177) -/

def seRound (v : Int) (s : Nat) : Int := roundShift 2 v s

def seLimit (v : Int) : Int := (limitTo true v 32).1

/-- Floor of the square root (R183). -/
def isqrt (n : Nat) : Nat :=
  (List.range 40).foldl (fun r i => if (r + 2 ^ (39 - i)) ^ 2 ≤ n then r + 2 ^ (39 - i) else r) 0

/-- Sum of products of coefficients with samples, newest first. -/
def firSum : List Int → List Int → Int
  | h :: hs, x :: xs => h * x + firSum hs xs
  | _, _ => 0

/-- TABLE: the value and whether x lies at or beyond an end (R183). -/
def tableLookup (pts : List (Int × Int)) (x : Int) : Int × Bool :=
  match pts with
  | [] => (0, true)
  | (x0, y0) :: rest =>
    let last := (rest.getLast?).getD (x0, y0)
    if x ≤ x0 then (y0, true)
    else if last.1 ≤ x then (last.2, true)
    else
      match ((pts.zip rest).filter (fun p => decide (p.1.1 ≤ x))).getLast? with
      | none => (y0, true)
      | some ((xk, yk), (xn, yn)) =>
        let q := (x - xk) * 2 ^ 31 / (xn - xk)
        (yk + seRound ((yn - yk) * q) 31, false)

/-- The Callendar-Van Dusen function of IEC 60751 at `t` m°C, as the resistance ratio times 10^21. PRESUMED: the
coefficients are those of the standard that the spec names (assumption 9). -/
def cvd (t : Int) : Int :=
  let quad := 10 ^ 21 + 39083 * t * 10 ^ 11 - 5775 * t * t * 10 ^ 5
  if t < 0 then quad - 4183 * (t - 100000) * t * t * t / 10 ^ 6 else quad

/-- The temperature in m°C at or just below a resistance ratio given in Q2.30, by bisection over -200 to 850 °C.
PRESUMED: assumption 9. -/
def rtdInverse (ratio : Int) : Int :=
  (List.range 21).foldl (fun t i =>
    let t' := t + (2 ^ (20 - i) : Nat)
    if t' ≤ 850000 ∧ cvd t' * 2 ^ 30 ≤ ratio * 10 ^ 21 then t' else t) (-200000)

/-- RTD: the inverse at an unsigned ratio, with a deviation of at most 10 m°C that the spec leaves open (R183).
PRESUMED: assumption 9. -/
def rtdValue (x : Int) : Int :=
  let ratio : Int := intBits 32 x
  let t := rtdInverse ratio
  let lo : Int := if cvd t * 2 ^ 30 = ratio * 10 ^ 21 then -10 else -9
  t + max lo (min 10 (Config.rtdDev ratio))

/-- The range in m°C of a thermocouple type in the order B, E, J, K, N, R, S, T (R205, R209). -/
def tcRange (kind : Nat) : Int × Int :=
  match kind with
  | 0 => (250000, 1820000)
  | 1 => (-200000, 1000000)
  | 2 => (-200000, 1200000)
  | 3 => (-200000, 1372000)
  | 4 => (-200000, 1300000)
  | 5 => (-50000, 1768000)
  | 6 => (-50000, 1768000)
  | _ => (-200000, 400000)

/-- The temperature in m°C at or just below a voltage of a type, by bisection over its range (R183). -/
def tcInverse (kind : Nat) (v : Int) : Int :=
  (List.range 21).foldl (fun t i =>
    let t' := t + (2 ^ (20 - i) : Nat)
    if t' ≤ (tcRange kind).2 ∧ Config.tcRef kind t' ≤ v then t' else t) (tcRange kind).1

/-- TC: the reference voltage of the cold junction is added and the reference function inverted, with a deviation of at most
10 m°C that the spec leaves open (R183). -/
def tcValue (kind : Nat) (x cj : Int) : Int :=
  let v := x + Config.tcRef kind cj
  let t := tcInverse kind v
  let lo : Int := if Config.tcRef kind t = v then -10 else -9
  t + max lo (min 10 (Config.tcDev kind v))

/-- A threshold bit with hysteresis: set past the threshold, kept until the value returns past it by `y` (R184). -/
def hystBit (was passed returned : Bool) : Bool := passed || (was && !returned)

/-- The alarm bits of LIMIT: LL, L, H, HH (R184). -/
def limitAlarms (old : BitVec 8) (x ll l h hh y : Int) : BitVec 8 :=
  let b := fun (i : Nat) (p r : Bool) => if hystBit (old.getLsbD i) p r then 2 ^ i else 0
  BitVec.ofNat 8 (b 0 (decide (x < ll)) (decide (ll + y ≤ x)) + b 1 (decide (x < l)) (decide (l + y ≤ x)) +
    b 2 (decide (h < x)) (decide (x ≤ h - y)) + b 3 (decide (hh < x)) (decide (x ≤ hh - y)))

/-! ## Stages -/

def StageSt.init : StageSt := { xs := [], bq := [], cnt := 0 }

/-- One biquad step: the state is x[n-1], x[n-2], y[n-1], y[n-2] (R183). -/
def biquad (c : List Int) (st : List Int) (x : Int) : List Int × Int :=
  let g := fun (l : List Int) (i : Nat) => (l[i]?).getD 0
  let acc := g c 0 * x + g c 1 * g st 0 + g c 2 * g st 1 - g c 3 * g st 2 - g c 4 * g st 3
  let y := seLimit (seRound acc 29)
  ([x, g st 0, y, g st 2], y)

/-- All biquads in order. -/
def biquads : List (List Int) → List (List Int) → Int → List (List Int) × Int
  | [], _, x => ([], x)
  | c :: cs, sts, x =>
    let r := biquad c (sts.headD []) x
    let rest := biquads cs sts.tail r.2
    (r.1 :: rest.1, rest.2)

/-- What a pipeline run carries from stage to stage: the value, alarm bits and OVR so far. -/
structure StageOut where
  x : Int
  alarms : BitVec 8
  ovr : Bool
  deriving DecidableEq, Repr

/-- One stage on one input sample: its new state and its output, none where a decimator yields none (R183). `cj` is
the cold-junction temperature of TC, `rate` the output rate of the pipeline for ROC. -/
def stageStep (rate : Nat) (cj : Int) (stg : Stage) (ss : StageSt) (i : StageOut) :
    StageSt × Option StageOut :=
  match stg with
  | .dec d h =>
    let xs := (i.x :: ss.xs).take h.length
    let out := if ss.cnt % d = 0 then some { i with x := seLimit (seRound (firSum h xs) 31) } else none
    ({ ss with xs := xs, cnt := (ss.cnt + 1) % d }, out)
  | .fir h =>
    let xs := (i.x :: ss.xs).take h.length
    ({ ss with xs := xs }, some { i with x := seLimit (seRound (firSum h xs) 31) })
  | .iir bs =>
    let r := biquads bs ss.bq i.x
    ({ ss with bq := r.1 }, some { i with x := r.2 })
  | .scale g e o => (ss, some { i with x := seLimit (seRound (g * i.x) (31 - e).toNat + o) })
  | .sqrt u => (ss, some { i with x := if i.x < u then 0 else isqrt (i.x * 2 ^ 31).toNat })
  | .table pts =>
    let r := tableLookup pts i.x
    (ss, some { i with x := r.1, ovr := i.ovr || r.2 })
  | .rtd _ => (ss, some { i with x := rtdValue i.x })
  | .tc kind => (ss, some { i with x := tcValue kind i.x cj })
  | .limit lo hi ll l h hh y =>
    (ss, some { i with alarms := (i.alarms &&& 0xF0) ||| limitAlarms i.alarms i.x ll l h hh y,
                       ovr := i.ovr || decide (i.x < lo) || decide (hi < i.x) })
  | .roc k r =>
    let xs := (i.x :: ss.xs).take (k + 1)
    let past := match xs[k]? with
      | some old => decide (r * k < ((i.x - old) * rate).natAbs)
      | none => false
    ({ ss with xs := xs }, some { i with alarms := (i.alarms &&& 0xEF) ||| (if past then 0x10 else 0) })
  | .square => (ss, some { i with x := seLimit (seRound (i.x * i.x) 31) })

/-- Lane operations per output sample of a stage (R183). -/
def stageCost : Stage → Nat
  | .dec _ h => h.length
  | .fir h => h.length
  | .iir b => 5 * b.length
  | .scale _ _ _ => 2
  | .sqrt _ => 8
  | .table _ => 10
  | .rtd _ => 12
  | .tc _ => 24
  | .limit _ _ _ _ _ _ _ => 4
  | .roc _ _ => 3
  | .square => 2

/-- One input sample through the stages in order, with the lane operations of a single pass: a decimator computes only
when it yields (R183, R519). -/
def runStages (rate : Nat) (cj : Int) :
    List Stage → List StageSt → StageOut → List StageSt × Option StageOut × Nat
  | [], sts, i => (sts, some i, 0)
  | g :: gs, sts, i =>
    let r := stageStep rate cj g (sts.headD StageSt.init) i
    match r.2 with
    | none => (r.1 :: sts.tail, none, 0)
    | some o =>
      let rest := runStages rate cj gs sts.tail o
      (r.1 :: rest.1, rest.2.1, stageCost g + rest.2.2)

/-! ## Pipelines -/

/-- TB in units of 62.5 ns (R187). -/
def State.stampNow (s : State) : Nat := 16 * s.tbNat + s.tbPhase * 16 / (500 * 100000000)

def State.hostOf (s : State) (p : Nat) : Nat := s.fget (SE_PIPE_STAT_HOST p)

def State.seFailed (s : State) (k : Nat) : Bool := bitAt (s.fget SE_STAT_FAILED) k

/-- A pipeline that runs: enabled, with an engine that has not failed (R190, R191). -/
def State.pipeRuns (s : State) (p : Nat) : Bool :=
  s.flag (SE_PIPE_CFG_EN p) && !s.flag (SE_PIPE_STAT_SUBST_HOLD p) && !s.seFailed (s.hostOf p)

/-- The Q31 fraction of an instant between two samples, HALF_EVEN (R187). -/
def t0Alpha (num den : Int) : Int :=
  let q := num * 2 ^ 31 / den
  let r := num * 2 ^ 31 - q * den
  if 2 * r > den ∨ (2 * r = den ∧ q % 2 = 1) then q + 1 else q

/-- The instant `t` in units of 62.5 ns lies at or after sample `a` and before sample `b`, as the samples describe it. -/
def brackets (tau t : Nat) (a b : Sample) : Bool := decide (a.stamp ≤ t + tau ∧ t + tau < b.stamp)

/-- The worse of two qualities: BAD, UNCERTAIN, GOOD (R8). -/
def worse (a b : Nat) : Nat := min (readQuality a) (readQuality b)

/-- The record as of an instant that two samples bracket (R187). The rule names the value, the alarm bits and the quality; that OVR
is that of either sample is the model's choice: DESIGN CHOICE, assumption 42. -/
def interpolate (tau t : Nat) (a b : Sample) : Sample :=
  let alpha := t0Alpha ((t + tau : Int) - a.stamp) ((b.stamp : Int) - a.stamp)
  { stamp := b.stamp, value := a.value + seLimit (seRound ((b.value - a.value) * alpha) 31),
    alarms := b.alarms, quality := BitVec.ofNat 2 (worse a.quality.toNat b.quality.toNat),
    ovr := a.ovr || b.ovr }

/-- The records as of the t0 of each class that sample `x`, the first after `y`, completes, as class, t0 in TB µs and record
(R43, R187). -/
def State.t0Records (s : State) (p : Nat) (y x : Sample) : List (Nat × Nat × Sample) :=
  let tau := s.fget (SE_PIPE_TAU_TAU p)
  (List.range 4).filterMap (fun k =>
    let t := (s.cls k).t0.toNat
    if (s.cls k).started && brackets tau (16 * t) y x then some (k, t, interpolate tau (16 * t) y x) else none)

/-- The samples of a remote pipeline that some shed may still use, those from the begin of the earliest receive window of an enabled
class on (R44, R185); of a channel's pipeline the last 16. DEDUCED: assumption 42. -/
def State.keepSamples (s : State) (p : Nat) (l : List Sample) : List Sample :=
  if p < 16 then l.take 16
  else l.filter (fun x => s.classesOn.any (fun k => decide (16 * (s.cls k).winFrom.toNat ≤ x.stamp)))

/-- Keep a result record: the sample joins the history, SE_PIPE_STAT shows its bytes 4 and 5, and the values as of t0 that it
completes are formed (R184, R187, R199). DEDUCED: assumption 42. -/
def State.pushSample (s : State) (p : Nat) (x : Sample) : State :=
  let pp := s.pipe p
  let now := match pp.samples with
    | [] => []
    | y :: _ => if p < 16 then s.t0Records p y x else []
  let s := s.setPipe p { pp with
    samples := s.keepSamples p (x :: pp.samples), alarms := x.alarms,
    t0s := now ++ pp.t0s.filter (fun e => !now.any (fun n => n.1 == e.1)) }
  (s.fput (SE_PIPE_STAT_ALARMS p) x.alarms.toNat).fput (SE_PIPE_STAT_QUALITY p)
    (x.quality.toNat + (if x.ovr then 4 else 0))

/-- Run a pipeline on one input value (R183). -/
def State.runPipe (s : State) (p : Nat) (cj : Int) (x : Int) : State × Option StageOut :=
  let pp := s.pipe p
  let r := runStages (s.fget (SE_PIPE_CFG_RATE p)) cj pp.stages pp.st { x := x, alarms := pp.alarms, ovr := false }
  let pp := { pp with st := r.1, alarms := match r.2.1 with
                                    | some o => o.alarms
                                    | none => pp.alarms }
  ((s.setPipe p pp).countG 0x45 r.2.2, r.2.1)

/-! ## Time redundancy (R189, R190) -/

/-- The tolerance of the comparison of a stage or job step (R189). DEDUCED: assumption 42. -/
def seTolerance (stage : Nat) : Nat := if stage = 0x9 ∨ stage = 0xB then 0 else 1

def differ (stage : Nat) (a b : Word) : Bool := decide (seTolerance stage < (a.toInt - b.toInt).natAbs)

/-- A pipeline of a failed engine delivers quality BAD at once (R190). -/
def State.pipeBad (s : State) (p : Nat) : State :=
  let pp := s.pipe p
  let last := (pp.samples.head?).getD { stamp := 0, value := 0, alarms := 0, quality := 0, ovr := false }
  s.pushSample p { last with stamp := s.stampNow, quality := 0 }

/-- Engine `k` fails: its pipelines deliver BAD, its jobs stop, the running one with INTEG and the others with ABSENT,
and the mark is set and kept (R190, R191, R197). When it fails in a stage of a pipeline, the rule does not say whether the job that
runs failed on it or before it ran; the oldest waiting job, which has begun, takes INTEG: DESIGN CHOICE, assumption 42. -/
def State.failEngine (s : State) (k : Nat) (payload : List Byte) : State :=
  let s := each (List.range 256) s (fun s p =>
    if s.flag (SE_PIPE_CFG_EN p) && s.hostOf p == k && !s.flag (SE_PIPE_STAT_SUBST_HOLD p) then s.pipeBad p else s)
  let jobs := (s.engine k).jobs
  let running := jobs.findIdx (fun j => j.state == .waiting)
  let jobs := (jobs.zipIdx).map (fun (j, i) =>
    if j.state = .waiting then { j with state := if i = running then .integ else .absent } else j)
  let s := s.setEngine k { jobs := jobs.filter (fun j => !j.late) }
  let s := s.setBit SE_STAT_FAILED k true
  let s := { s with seFailedKeep := s.fget SE_STAT_FAILED }
  let s := s.setBit SE_EVT_FAIL k true
  s.raise 0x0502 k payload

/-- What a comparison means for engine `k`: no difference, one corrected by the repeat, or a failed engine (R190).
DEDUCED: assumption 42. -/
def State.seCompare (s : State) (k id : Nat) (c : Option SeCheck) : State × Bool :=
  match c with
  | none => (s, true)
  | some c =>
    if differ c.stage c.r1 c.r2 then
      let pay := fun (a b : Word) =>
        leBytes 1 k ++ leBytes 1 c.stage ++ leBytes 2 id ++ leBytes 4 a.toNat ++ leBytes 4 b.toNat
      if differ c.stage c.again1 c.again2 then (s.failEngine k (pay c.again1 c.again2), false)
      else
        let s := (s.satBump (SE_RETRYCNT_RETRIES k) 1).satBump INT_SERED_RETRIES 1
        let s := (s.setBit SE_EVT_RETRY k true).countG 0x46 1
        (s.raise 0x0501 (k * 256 + c.stage) (pay c.r1 c.r2), true)
    else (s, true)

/-- Several comparisons, in order until one fails the engine: every stage, interpolation and job step is compared (R189). -/
def State.seChecks (s : State) (k id : Nat) : List SeCheck → State × Bool
  | [] => (s, true)
  | c :: l =>
    let r := s.seCompare k id (some c)
    if r.2 then r.1.seChecks k id l else r

/-! ## The modulator interface (R181) -/

/-- The taps of a fourth-order sinc filter of ratio 5: four moving sums of 5 bits; together they are 625. -/
def sincTaps : List Int := [1, 4, 10, 20, 35, 52, 68, 80, 85, 80, 68, 52, 35, 20, 10, 4, 1]

/-- A pre-decimated sample from the last modulator bits, newest first, a bit standing for +1 or -1: the Q31 fraction of full scale
(R181). DEDUCED: assumption 42. -/
def sincOut (bits : List Bool) : BitVec 32 :=
  BitVec.ofInt 32 (seLimit (t0Alpha (firSum sincTaps (bits.map (fun b => if b then 1 else -1))) 625))

/-- Modulator bits of channel `n`, oldest first, enter the pre-decimator: one sample for every five (R181). -/
def preDecimate (u : Uc) : List Bool → Uc × List (BitVec 32)
  | [] => (u, [])
  | b :: l =>
    let v := { u with mod := (b :: u.mod).take 17, modCnt := (u.modCnt + 1) % 5 }
    let r := preDecimate v l
    (r.1, if v.modCnt = 0 then sincOut v.mod :: r.2 else r.2)

/-! ## A sample of a channel pipeline -/

/-- The user trim of channel `n` (R203). -/
def State.userTrim (s : State) (n : Nat) (x : Int) : Int :=
  seLimit (seRound (x * (s.fget (UC_TRIM_GAIN_TRIM_GAIN n) : Int)) 30 + sgn 32 (s.fget (UC_TRIM_OFS_TRIM_OFS n)))

/-- Factory calibration and user trim of a pre-decimated sample (R203). -/
def State.calibrate (s : State) (n : Nat) (x : BitVec 32) : Int :=
  let u := s.uc n
  s.userTrim n (seLimit (seRound (x.toInt * u.gf) 30 + u.ofs))

/-- Whether a mode code is an input mode that samples (R205). -/
def ucInput (mode : Nat) : Bool := decide (0x01 ≤ mode ∧ mode ≤ 0x27)
def ucOutput (mode : Nat) : Bool := decide (0x30 ≤ mode)
def ucTc (mode : Nat) : Bool := decide (0x20 ≤ mode ∧ mode ≤ 0x27)
def ucRtd (mode : Nat) : Bool := decide (0x10 ≤ mode ∧ mode ≤ 0x13)
def ucCurrentIn (mode : Nat) : Bool := decide (0x08 ≤ mode ∧ mode ≤ 0x0B)

/-- A resistive mode whose WIRES code stands for a 3-wire connection (R204, R233). -/
def State.ucThreeWire (s : State) (n : Nat) : Bool :=
  (ucRtd (s.fget (UC_MODE_MODE n)) || s.fget (UC_MODE_MODE n) == 0x18) && s.fget (UC_MODE_WIRES n) == 1

def State.ucMode (s : State) (n : Nat) : Nat := s.fget (UC_MODE_MODE n)

/-- Bit `i` of DIAG of a channel (R204). -/
def State.diagBit (s : State) (n i : Nat) : Bool := bitAt (s.fget (UC_STAT_DIAG n)) i

/-- DIAG of a channel becomes `d`; a change sets the event bit and raises event 0x0603 (R223, R235). -/
def State.setDiag (s : State) (n d : Nat) : State :=
  let old := s.fget (UC_STAT_DIAG n)
  if d = old then s
  else
    let s := (s.fput (UC_STAT_DIAG n) d).setFlag (UC_EVT_DIAGCHG n) true
    s.raise 0x0603 n (leBytes 1 n ++ leBytes 1 d ++ leBytes 1 old ++ leBytes 1 0 ++
      leBytes 4 (s.fget (UC_RDBK_VALUE n)) ++ leBytes 2 (s.fget (UC_VT_VT_MV n)))

def State.setDiagBit (s : State) (n i : Nat) (b : Bool) : State :=
  s.setDiag n (bitsPut (s.fget (UC_STAT_DIAG n)) i 1 (if b then 1 else 0))

/-- The cold-junction temperature that a TC stage uses, and CJSUB (R212, R213). -/
def State.coldJunction (s : State) (n : Nat) : Int × Bool :=
  if s.flag (UC_CJC_FIXED n) || (s.uc n).cjBad then (10 * sgn 16 (s.fget (UC_CJC_CJ_FIX n)), true)
  else ((s.uc n).cj, false)

/-- The best quality of any record of channel `n`: BAD without its link, UNCERTAIN on nominal coefficients (R202, R227). -/
def State.ucBest (s : State) (n : Nat) : Nat :=
  if !s.flag (UC_STAT_ONLINE n) || !(s.uc n).running then qBad else if (s.uc n).calOk then qGood else qUncertain

/-- The quality that the front end's conditions give a record of an input channel; OPEN of a sensor lead is BAD
(R202, R211, R212, R227, R229). -/
def State.ucQuality (s : State) (n : Nat) : Nat :=
  let u := s.uc n
  let sensor := ucTc (s.ucMode n) || ucRtd (s.ucMode n)
  if u.adcOver || u.short || (sensor && s.diagBit n 2) then qBad
  else if ucTc (s.ucMode n) && u.cjBad && !s.flag (UC_CJC_FIXED n) then worse (s.ucBest n) qUncertain else s.ucBest n

/-- A secondary reading of an input channel: V_T in mV of a current input, lead resistance in mΩ of a 3-wire connection; other modes
have none (R204). -/
def State.ucSecond (s : State) (n : Nat) : Option Int → State
  | none => s
  | some v =>
    if ucCurrentIn (s.ucMode n) then (s.fput (UC_VT_VT_MV n) (intBits 16 v)).fput (UC_STAT_RBQ n) (s.ucBest n)
    else if s.ucThreeWire n then (s.fput (UC_RDBK_VALUE n) (intBits 32 v)).fput (UC_STAT_RBQ n) (s.ucBest n)
    else s

/-- A reading of the cold-junction sensor, with the factory offset of the front end; one outside -40 to +85 °C makes the channel use
UC_CJC (R212, R213, R227). -/
def State.readCj (s : State) (n : Nat) : Option Int → State
  | none => s
  | some t =>
    let t := t + (s.uc n).cjOfs
    let bad := ucTc (s.ucMode n) && decide (t < -40000 ∨ 85000 < t)
    s.modUc n (fun u => { u with cj := t, cjBad := u.cjBad || bad })

/-- A thermocouple channel shows its cold-junction temperature as the secondary value, and CJSUB (R204, R212). -/
def State.showCj (s : State) (n : Nat) : State :=
  let j := s.coldJunction n
  ((s.fput (UC_RDBK_VALUE n) (intBits 32 j.1)).fput (UC_STAT_RBQ n) (s.ucBest n)).setDiagBit n 7 j.2

/-- One pre-decimated sample of channel `p` goes through calibration and stages (R183, R184, R203). -/
def State.sampleIn (s : State) (p : Nat) (feQuality : BitVec 2) (x : BitVec 32) : State :=
  let r := s.runPipe p (s.coldJunction p).1 (s.calibrate p x)
  match r.2 with
  | none => r.1
  | some o =>
    r.1.pushSample p { stamp := s.stampNow, value := o.x, alarms := o.alarms,
                       quality := BitVec.ofNat 2 (worse feQuality.toNat (s.ucQuality p)),
                       ovr := o.ovr || (s.uc p).adcOver }

/-- PIPELINE_SAMPLE: pipeline `p` of channel `p` takes the modulator bits since its last output, pre-decimates and calibrates them
and runs its stages; the output joins the record (R181, R183, R184, R203). A new cold-junction reading, a secondary value, a sample
in which the two copies of the pre-decimator differ, and comparisons of results come with it; of a remote or an output pipeline,
which runs elsewhere, the comparisons alone (R189). -/
def execPipelineSample (p : Fin 256) (bits : List Bool) (feQuality : BitVec 2) (cj sec : Option Int)
    (copies : Option (BitVec 32 × BitVec 32)) (checks : List SeCheck) (s : State) : Out :=
  if !s.stewardOff && s.pipeRuns p then
    let k := s.hostOf p
    let chan := decide (p.val < 16) && ucInput (s.ucMode p)
    let s := if chan then
        let s := (s.readCj p cj).ucSecond p sec
        if ucTc (s.ucMode p) then s.showCj p else s
      else s
    let differing := match copies with
      | some (a, b) => chan && a != b
      | none => false
    if differing then
      let a := (copies.getD (0, 0)).1
      let b := (copies.getD (0, 0)).2
      .next (s.failEngine k (leBytes 1 k ++ leBytes 1 0 ++ leBytes 2 p ++ leBytes 4 a.toNat ++ leBytes 4 b.toNat))
    else
      let c := s.seChecks k p checks
      if c.2 && chan then
        let d := preDecimate (c.1.uc p) bits
        .next (each d.2 (c.1.setUc p d.1) (fun s x => s.sampleIn p feQuality x))
      else .next c.1
  else .next s

/-! ## Values as of t0 (R187) -/

/-- The samples that bracket an instant in units of 62.5 ns: the older and the newer one, from a list newest first. -/
def bracket (tau t : Nat) : List Sample → Option (Sample × Sample)
  | a :: b :: rest => if brackets tau t b a then some (b, a) else bracket tau t (b :: rest)
  | _ => none

/-- The record of a channel pipeline as of the t0 of class `k` at TB µs `t0`, as it was formed when the second of its samples
came. A pipeline that its engine does not run delivers BAD (R187, R190). DEDUCED: assumption 38. -/
def State.valueAt (s : State) (p k t0 : Nat) : Option Sample :=
  let tau := s.fget (SE_PIPE_TAU_TAU p)
  let x := match (s.pipe p).t0s.find? (fun e => e.1 == k && e.2.1 == t0) with
    | some e => some e.2.2
    | none => (bracket tau (16 * t0) (s.pipe p).samples).map (fun (b : Sample × Sample) => interpolate tau (16 * t0) b.1 b.2)
  x.map (fun x => if s.pipeRuns p then x else { x with quality := 0 })

/-- The 8-byte result record of a sample (R184). -/
def sampleRecord (x : Sample) : List Byte :=
  leBytes 4 (intBits 32 x.value) ++ leBytes 1 x.alarms.toNat ++
    leBytes 1 (x.quality.toNat + (if x.ovr then 4 else 0)) ++ leBytes 2 0

/-! ## Remote pipelines (R185) -/

/-- A remote pipeline runs on the value of a frame field; its record takes the frame's receive stamp in TB µs. -/
def State.remoteSample (s : State) (p : Nat) (x : Int) (quality : Nat) (stamp : Nat) : State :=
  if s.pipeRuns p then
    let r := s.runPipe p 0 x
    match r.2 with
    | none => r.1
    | some o => r.1.pushSample p { stamp := 16 * stamp, value := o.x, alarms := o.alarms,
                                   quality := BitVec.ofNat 2 (readQuality quality), ovr := o.ovr }
  else s

/-! ## Jobs (R193 to R197) -/

def isFft (kind : Nat) : Bool := kind == 6 || kind == 7

/-- Source bytes that a job needs, bytes of its parameter buffer, and bytes of its result (R194, DEDUCED, assumption 10). -/
def jobSrcLen (kind count : Nat) : Nat := if isFft kind then 8 * count else 4 * count

def jobParamLen (kind count order param : Nat) : Nat :=
  match kind with
  | 1 => 4 * order
  | 2 => 20 * order
  | 3 => 8 * order
  | 6 => if param = 0 then 0 else 4 * count
  | 7 => if param = 0 then 0 else 4 * count
  | _ => 0

def jobResLen (kind count : Nat) : Nat :=
  if kind = 6 then 8 * count else if kind = 7 then 4 * (count / 2 + 1) else 4 * count

/-- ORDER within its range (R193). The field has 8 bits, so 256 taps have no code of their own; that the code 0 is refused and
stands for none of them is the model's choice: DESIGN CHOICE, assumption 10. -/
def orderOk (kind order : Nat) : Bool :=
  match kind with
  | 1 => decide (1 ≤ order ∧ order ≤ 256)
  | 2 => decide (1 ≤ order ∧ order ≤ 8)
  | 3 => decide (2 ≤ order ∧ order ≤ 64)
  | _ => true

def countOk (kind count : Nat) : Bool :=
  if isFft kind then decide (64 ≤ count ∧ count ≤ 16384) && isPow2 count else decide (1 ≤ count ∧ count ≤ 16384)

/-- A range lies wholly in DMEM, or in the job area of engine `k`. -/
def inDmem (a n : Nat) : Bool := decide (0x80000 ≤ a ∧ a + n ≤ 0xC0000)

def State.inJobArea (s : State) (k a n : Nat) : Bool :=
  let base := 0x11E00000 + k * 0x40000
  decide (base + s.fget (SE_JOBAREA_PIPE_END k) ≤ a ∧ a + n ≤ base + 0x40000)

/-- An engine is configured when it carries an enabled pipeline, whichever engine the image names for it, or its SE_JOBPERM is not 0
(R191, R195). -/
def State.seConfigured (s : State) (k : Nat) : Bool :=
  s.fget (SE_JOBPERM_PERM k) != 0 ||
    (List.range 256).any (fun p => s.flag (SE_PIPE_CFG_EN p) && !s.flag (SE_PIPE_STAT_SUBST_HOLD p) && s.hostOf p == k)

/-- A job descriptor as its eight words (R193). -/
def descWord (d : List Byte) (i : Nat) : Nat := fieldAt d (4 * i) 4

/-- The status code that SEJ returns for a descriptor, by the checks of R195 in their order. The rule names no code for a DST that
is no multiple of 32 or a STATUS that is no multiple of 4, which R193 asks for: that it is RANGE is the model's choice: DESIGN
CHOICE, assumption 42. -/
def State.sejStatus (s : State) (st : Nat) (d : List Byte) : Nat :=
  let w := descWord d
  let k := bitsAt (w 0) 0 3
  let kind := bitsAt (w 0) 4 4
  let count := bitsAt (w 6) 0 16
  let order := bitsAt (w 6) 16 8
  let reserved := bitAt (w 0) 3 || bitsAt (w 0) 9 23 != 0 || bitsAt (w 6) 24 8 != 0
  let srcOk := (s.inJobArea k (w 1) (w 2)) || (inDmem (w 1) (w 2) && decide (w 2 ≤ 4096))
  let plen := jobParamLen kind count order (w 5)
  let paramOk := if plen = 0 then true else s.inJobArea k (w 5) plen
  let dstOk := w 3 % 32 == 0 && w 4 % 32 == 0 &&
    (s.cfg st).regions.any (fun r => decide (r.1 ≤ w 3 ∧ w 3 + w 4 ≤ r.1 + r.2))
  if s.seFailed k || !s.seConfigured k then scAbsent
  else if !bitAt (s.fget (SE_JOBPERM_PERM k)) st then scPerm
  else if reserved || kind = 0 || decide (7 < kind) || !countOk kind count || !orderOk kind order || !srcOk ||
      decide (w 2 < jobSrcLen kind count) || !paramOk || !dstOk || !inDmem (w 7) 4 || w 7 % 4 != 0 then scRange
  else if w 4 < jobResLen kind count then scSize
  else if 8 ≤ (s.engine k).jobs.length then scBusy
  else scOk

/-- An accepted job enters its engine: the ticket, the copied DMEM source, the locked buffers (R179, R195, R196).
DEDUCED: assumption 24. -/
def State.acceptJob (s : State) (st : Nat) (d : List Byte) : State × Nat :=
  let w := descWord d
  let k := bitsAt (w 0) 0 3
  let kind := bitsAt (w 0) 4 4
  let count := bitsAt (w 6) 0 16
  let order := bitsAt (w 6) 16 8
  let seq := s.fget (SE_JOBSTAT_NEXTSEQ k)
  let ticket := k * 2 ^ 13 + seq
  let job : Job :=
    { strand := st, kind := kind, ticket := BitVec.ofNat 16 ticket, src := w 1, srcLen := w 2,
      srcCopy := if inDmem (w 1) (w 2) then some (s.mgetN (s.dkey st (w 1 - 0x80000)) (w 2)) else none,
      dst := w 3, dstLen := w 4, param := w 5, paramLen := jobParamLen kind count order (w 5), count := count,
      order := order, status := w 7, defer := bitsAt (w 0) 8 1, state := .waiting, late := false }
  let idle := !(s.engine k).jobs.any (fun j => j.state == .waiting)
  let s := s.setEngine k { jobs := (s.engine k).jobs ++ [job] }
  let s := (s.fput (SE_JOBSTAT_NEXTSEQ k) (seq + 1)).fput (SE_JOBSTAT_PENDING k) (s.fget (SE_JOBSTAT_PENDING k) + 1)
  let s := s.obsJob k ticket 0 0
  (if idle then s.obsJob k ticket 1 0 else s, ticket)

/-- SEJ: submit the job whose descriptor lies at Ws in DMEM; the status goes to Wd[7:0] and the ticket to Wd[31:16]
when it is OK. In a dry pass no job is accepted and the answer is BUSY (R137, R140, R195, R290). R140 speaks of the descriptor's
address alone; that a descriptor whose 32 bytes run past the end of DMEM raises ADDR as well is the model's choice: DESIGN CHOICE,
assumption 42. A descriptor granule that reads INTEG traps as a load does (R161). -/
def execSej (st d a : Fin 16) (s : State) : Out :=
  dx s st (.sej st d a) .other (fun t =>
    let x := t.strand st
    let addr := x.w[a].toNat
    if addr % 4 ≠ 0 then .trap t trAlign
    else if !inDmem addr 32 then .trap t trAddr
    else
      let key := t.dkey st (addr - 0x80000)
      match [key / 32, (key + 31) / 32].find? t.integ.contains with
      | some g => .trap (t.integRead g) trInteg
      | none =>
        let desc := t.mgetN key 32
        let code := if (t.cls (t.cfg st).cls).shadow = .dry then scBusy else t.sejStatus st desc
        let r := if code = scOk then t.acceptJob st desc else (t, 0)
        let v : Word := BitVec.ofNat 32 (code + (if code = scOk then r.2 * 2 ^ 16 else 0))
        .ok (r.1.modStrand st (fun x => x.setW d v)) (some v))

/-- The signed words of a byte list. -/
def wordsOf (l : List Byte) : List Int :=
  (List.range (l.length / 4)).map (fun i => sgn 32 (fieldAt l (4 * i) 4))

def bytesOf (l : List Int) : List Byte := l.flatMap (fun v => leBytes 4 (intBits 32 v))

/-- A block through a FIR from a state of zeros (R183, R194). -/
def firBlock (h xs : List Int) : List Int :=
  (xs.foldl (fun (acc : List Int × List Int) x =>
    let hist := (x :: acc.1).take h.length
    (hist, acc.2 ++ [seLimit (seRound (firSum h hist) 31)])) ([], [])).2

def iirBlock (bs : List (List Int)) (xs : List Int) : List Int :=
  (xs.foldl (fun (acc : List (List Int) × List Int) x =>
    let r := biquads bs acc.1 x
    (r.1, acc.2 ++ [r.2])) ([], [])).2

/-- Groups of `n`. -/
def chunks (n : Nat) (l : List Int) (k : Nat) : List (List Int) := (List.range k).map (fun i => (l.drop (i * n)).take n)

/-- The power of each point of a complex spectrum (R194). -/
def powerOf (x : List Int) (n : Nat) : List Int :=
  (List.range (n / 2 + 1)).map (fun k =>
    let re := (x[2 * k]?).getD 0
    let im := (x[2 * k + 1]?).getD 0
    seLimit (seRound (re * re + im * im) 31))

/-! ## FFT (R194) -/

/-- The elements at even and at odd places. -/
def evens : List (Int × Int) → List (Int × Int)
  | a :: _ :: l => a :: evens l
  | l => l

def odds : List (Int × Int) → List (Int × Int)
  | _ :: b :: l => b :: odds l
  | _ => []

/-- One halved sum of a butterfly: the exact sum `v` in units of 2^-32 of a Q31 step, rounded as the engine leaves it
(R177, R194, assumption 4). -/
def fftHalf (v : Int) : Int := seLimit (seRound v 32 + max (-1) (min 1 (Config.fftDev v)))

/-- A butterfly of a stage that yields `n` points: points `k` and `k + n / 2`, each halved (R194). -/
def butterfly (n k : Nat) (a b : Int × Int) : (Int × Int) × (Int × Int) :=
  let w := Config.twiddle n k
  let re := w.1 * b.1 - w.2 * b.2
  let im := w.1 * b.2 + w.2 * b.1
  ((fftHalf (a.1 * 2 ^ 31 + re), fftHalf (a.2 * 2 ^ 31 + im)), (fftHalf (a.1 * 2 ^ 31 - re), fftHalf (a.2 * 2 ^ 31 - im)))

/-- Radix-2 FFT of 2^m points; taking the even and odd places apart at every stage is the bit-reversed addressing (R194). -/
def fftRec : Nat → List (Int × Int) → List (Int × Int)
  | 0, l => l.take 1
  | m + 1, l =>
    let r := ((fftRec m (evens l)).zip (fftRec m (odds l))).zipIdx.map (fun x => butterfly (2 ^ (m + 1)) x.2 x.1.1 x.1.2)
    r.map (·.1) ++ r.map (·.2)

/-- The points of interleaved words. -/
def pointsOf : List Int → List (Int × Int)
  | re :: im :: l => (re, im) :: pointsOf l
  | _ => []

/-- FFT of the source, multiplied by the window when there is one (R194). -/
def fft (src window : List Int) : List Int :=
  let pts := pointsOf src
  let pts := if window.isEmpty then pts
    else (pts.zip window).map (fun x => (seLimit (seRound (x.1.1 * x.2) 31), seLimit (seRound (x.1.2 * x.2) 31)))
  (fftRec (Nat.log2 pts.length) pts).flatMap (fun p => [p.1, p.2])

/-- The result of a job, from its source and parameter buffers alone (R194, R197). DEDUCED: assumption 10. -/
def jobResult (s : State) (j : Job) : List Byte :=
  let src := wordsOf (match j.srcCopy with
    | some b => b.take (jobSrcLen j.kind j.count)
    | none => s.mgetN j.src (jobSrcLen j.kind j.count))
  let par := wordsOf (s.mgetN j.param j.paramLen)
  let out := match j.kind with
    | 1 => firBlock par src
    | 2 => iirBlock (chunks 5 par j.order) src
    | 3 => src.map (fun x => (tableLookup ((chunks 2 par j.order).map (fun p => (p.headD 0, (p[1]?).getD 0))) x).1)
    | 4 => src.map rtdValue
    | 5 => src.map (fun x => tcValue (Config.tcJob j.order j.param).1 x (Config.tcJob j.order j.param).2)
    | 6 => fft src par
    | _ => powerOf (fft src par) j.count
  slice (bytesOf out) 0 (jobResLen j.kind j.count)

/-- Lane operations of a job, single pass (R183, R194). -/
def jobCost (j : Job) : Nat :=
  let n := j.count
  let fft := 5 * n * Nat.log2 n + (if j.paramLen = 0 then 0 else n)
  match j.kind with
  | 1 => n * j.order
  | 2 => n * (5 * j.order)
  | 3 => n * 10
  | 4 => n * 12
  | 5 => n * 24
  | 6 => fft
  | _ => fft + 3 * (n / 2 + 1)

/-- JOB_COMPLETE: the oldest waiting job of engine `k` completes; a job that was delivered late is discarded (R196,
R197). -/
def execJobComplete (k : Fin 8) (checks : List SeCheck) (s : State) : Out :=
  if s.stewardOff || s.seFailed k then .next s
  else
    match (s.engine k).jobs.findIdx? (fun j => j.state == .waiting) with
    | none => .next s
    | some i =>
      match (s.engine k).jobs[i]? with
      | none => .next s
      | some j =>
        let c := s.seChecks k j.ticket.toNat checks
        if !c.2 then .next c.1
        else
          let s := c.1
          let jobs := (s.engine k).jobs
          let jobs := if j.late then jobs.eraseIdx i
            else jobs.set i { j with state := .done s.fab (jobResult s j) }
          let s := ((s.setEngine k { jobs := jobs }).countG 0x45 (jobCost j)).obsJob k j.ticket.toNat 2 0
          .next (match jobs.find? (fun j => j.state == .waiting) with
            | some n => s.obsJob k n.ticket.toNat 1 0
            | none => s)

/-- The status code of a delivery at a beam that started at CK_FAB clock `start` (R197). -/
def jobStatus (j : Job) (start : Nat) : Nat :=
  match j.state with
  | .waiting => scTimeout
  | .done at_ _ => if at_ ≤ start then scOk else scTimeout
  | .integ => scInteg
  | .absent => scAbsent

/-- The granules that a result dirties (R103). -/
def granulesIn (a n : Nat) : Nat := if n = 0 then 0 else (a + n - 1) / 32 - a / 32 + 1

/-- A write of `n` bytes at memory key `key` touches a part of a granule that reads INTEG (R426). -/
def State.partialHit (s : State) (key n : Nat) : Bool :=
  s.integ.any (fun g => decide (key < 32 * g + 32 ∧ 32 * g < key + n) && !decide (key ≤ 32 * g ∧ 32 * g + 32 ≤ key + n))

/-- A write by the module itself: it replaces a whole granule that reads INTEG, and into a part of one it is discarded (R426). -/
def State.hardPut (s : State) (key : Nat) (bytes : List Byte) : State :=
  let stop := key + bytes.length
  let s := { s with integ := s.integ.filter (fun g => !decide (key ≤ 32 * g ∧ 32 * g + 32 ≤ stop)) }
  each bytes.zipIdx s (fun s b => if s.integ.contains ((key + b.2) / 32) then s else s.mset (key + b.2) b.1)

/-- Deliver one job: the result into DST when OK, the status word into STATUS, event 0x0505 when late (R197). -/
def State.deliverJob (s : State) (k : Nat) (j : Job) (start : Nat) : State :=
  let code := jobStatus j start
  let s := s.hardPut (s.dkey j.strand (j.status - 0x80000)) (leBytes 4 (code + j.ticket.toNat * 2 ^ 16))
  let s := s.fput (SE_JOBSTAT_PENDING k) (s.fget (SE_JOBSTAT_PENDING k) - 1)
  let s := s.obsJob k j.ticket.toNat 3 code
  let c := (s.cfg j.strand).cls
  if code = scOk then
    match j.state with
    | .done _ r => s.hardPut (s.dkey j.strand (j.dst - 0x80000)) r
    | _ => s
  else if code = scTimeout then
    (s.setFlag SE_EVT_JOBTO true).raise 0x0505 k
      (leBytes 2 j.ticket.toNat ++ leBytes 1 j.strand ++ leBytes 1 c ++ leBytes 8 (s.cls c).cyc.toNat)
  else s

/-- Where the result of a job goes when it is delivered with OK: memory key and length. -/
def State.jobDest (s : State) (start : Nat) (j : Job) : Option (Nat × Nat) :=
  match j.state with
  | .done _ r => if jobStatus j start = scOk then some (s.dkey j.strand (j.dst - 0x80000), r.length) else none
  | _ => none

/-- The granules that a list of destinations dirties, each counted once (R103). -/
def dirtyOf : List (Nat × Nat) → Nat
  | [] => 0
  | d :: l =>
    ((List.range (granulesIn d.1 d.2)).filter (fun i =>
      !l.any (fun e => decide (e.1 / 32 ≤ d.1 / 32 + i ∧ d.1 / 32 + i < e.1 / 32 + granulesIn e.1 e.2)))).length + dirtyOf l

/-- The jobs of one engine at a beam of class `c`: those due are delivered, a late one stays until the engine completes
it, and the others wait one more executed cycle (R197). The number is the granules that the engine has dirtied (R103). -/
def State.deliverEngine (s : State) (c k start : Nat) : State × Nat :=
  let due := fun (j : Job) => (s.cfg j.strand).cls == c && j.defer == 0 && !j.late
  let jobs := (s.engine k).jobs
  let t := each (jobs.filter due) s (fun s j => s.deliverJob k j start)
  let kept := jobs.filterMap (fun j =>
    if due j then (if j.state = .waiting then some { j with late := true } else none)
    else if (s.cfg j.strand).cls = c then some { j with defer := j.defer - 1 } else some j)
  (t.setEngine k { jobs := kept }, dirtyOf ((jobs.filter due).filterMap (s.jobDest start)))

/-- Deliver every job that is due at this beam of class `c` (R102, R197). -/
def State.deliverJobs (s : State) (c start : Nat) : State × Nat :=
  (List.range 8).foldl (fun (acc : State × Nat) k =>
    let r := acc.1.deliverEngine c k start
    (r.1, acc.2 + r.2)) (s, 0)

end Sys2Proof.Machine
end

