-- ==== Sys2Proof/Machine/Ethernet.lean ====
section
/-!
DEFINITION. Ethernet: links, received frames and their streams, output frames and their windows, sessions, gPTP roles
(R370 to R383).
-/
namespace Sys2Proof.Machine

def State.streamCf (s : State) (i : Nat) : StreamCfg := tget StreamCfg.reset s.streamCfg i
def State.stream (s : State) (i : Nat) : StreamSt := tget StreamSt.reset s.eth.streams i
def State.setStream (s : State) (i : Nat) (x : StreamSt) : State :=
  { s with eth := { s.eth with streams := tset StreamSt.reset s.eth.streams i x } }

/-- TB in ns (R372). A CK_FAB clock is 2 ns; the phase counts 10 ppb of a clock. -/
def State.tbNs (s : State) : Nat := 1000 * s.tbNat + s.tbPhase / 50000000

def State.linkUp (s : State) (p : Nat) : Bool := s.flag (ETH_PSTAT_LINK p)

/-- The ports that carry stream `i`: its port, and the upper port of the pair when it is replicated (R382). -/
def State.streamPorts (s : State) (i : Nat) : List Nat :=
  let p := s.fget (ETH_STR_CFG_PORT i)
  if s.flag (ETH_STR_CFG_CB i) then [p, p + 1] else [p]

def State.streamsWhere (s : State) (f : Nat → Bool) : List Nat :=
  (List.range 1024).filter (fun i => s.flag (ETH_STR_CFG_EN i) && f i)

/-! ## Links (R371) -/

/-- The role of a port in IEEE 802.1AS when no grandmaster is received on it: master while it can send, else disabled
(R370). DEDUCED: assumption 34. -/
def State.asBase (s : State) (p : Nat) : Nat :=
  if s.flag ETH_CFG_AS_EN && s.flag (ETH_PCFG_AS p) && s.linkUp p then 1 else 0

/-- ETH_LINK_CHANGE: a link comes up with a speed (0 1,000, 1 100, 2 10 Mbit/s) or goes down. Half duplex holds it down,
a speed below SPEED_MIN holds it down with SLOW (R370, R371). -/
def execEthLinkChange (p : Fin 4) (up fullDuplex : Bool) (speed : Fin 3) (s : State) : Out :=
  if s.ctl.held || s.mode == mDormant || !s.flag (ETH_PCFG_EN p) then .next s
  else
    let slow := up && decide (s.fget (ETH_PCFG_SPEED_MIN p) < speed.val)
    let link := up && fullDuplex && !slow
    if link = s.linkUp p ∧ slow = s.flag (ETH_PSTAT_SLOW p) then .next s
    else
      let s := ((s.setFlag (ETH_PSTAT_LINK p) link).setFlag (ETH_PSTAT_SLOW p) slow).fput (ETH_PSTAT_SPEED p) speed
      let s := if link then s else
        match s.eth.gm with
        | some (_, q) => if q = p.val then ({ s with eth := { s.eth with gm := none } }).refLost 1 else s
        | none => s
      let s := s.fput (ETH_PSTAT_AS_ROLE p) (s.asBase p)
      .next (s.raise 0x0801 p (leBytes 1 p ++ leBytes 1 (if link then 1 else 0) ++ leBytes 1 speed ++
        leBytes 1 (if slow then 1 else 0)))

/-! ## Received frames (R373 to R376) -/

/-- Bytes of a frame on the wire, with its tags and FCS (R370, R373). -/
def frameSize (f : EthFrame) : Nat :=
  max 64 (18 + (if f.vlan = 0 then 0 else 4) + (if f.rtag.isSome then 6 else 0) + f.payload.length)

/-- The input stream that a frame of stream `id` received on port `p` belongs to (R375). -/
def State.inStream (s : State) (p id : Nat) (f : EthFrame) : Option Nat :=
  (s.streamsWhere (fun i => !s.flag (ETH_STR_CFG_DIR i) && s.fget (ETH_STR_CFG_STREAM i) == id &&
    (s.streamPorts i).contains p && (s.streamCf i).mac == f.src && (s.streamCf i).vlan == f.vlan)).head?

/-- The vector recovery of 802.1CB with a history of 32: whether a frame with sequence number `q` passes (R370).
PRESUMED: assumption 35. -/
def StreamSt.recover (x : StreamSt) (q : Nat) : StreamSt × Bool :=
  let d := sgn 16 (q + 65536 - x.seq % 65536)
  if x.takeAny then ({ x with takeAny := false, seq := q, history := 1 }, true)
  else if d ≥ 32 ∨ d ≤ -32 then (x, false)
  else if d > 0 then ({ x with seq := q, history := (x.history <<< d.toNat) ||| 1 }, true)
  else if x.history.getLsbD d.natAbs then (x, false)
  else ({ x with history := x.history ||| BitVec.ofNat 32 (2 ^ d.natAbs) }, true)

/-- The signed 32-bit field at byte offset `o` and bit offset `b` of a frame, when the frame carries it (R79, R185). -/
def rawField (data : List Byte) (o b : Nat) : Option Int :=
  if 8 * data.length < 8 * o + b + 32 then none else some (sgn 32 (fieldAt data o 5 / 2 ^ b % 2 ^ 32))

/-- Remote pipelines run on the field of a valid frame that they name, in the manner of heddle words 3 and 4: a signed 32-bit word
(R185). -/
def State.runRemote (s : State) (srctype instance_ id : Nat) (data : List Byte) (quality us : Nat) : State :=
  each (s.pipeSrc.filter (fun e => decide (e.1 < 256))) s (fun s e =>
    let w := e.2.toNat
    if bitsAt w 0 8 = srctype ∧ bitsAt w 8 8 = instance_ ∧ bitsAt w 16 16 = id then
      match rawField data (bitsAt w 32 16) (bitsAt w 48 3) with
      | some x => s.remoteSample e.1 x quality us
      | none => s
    else s)

/-- A frame that fails a condition of R375 other than the fifth. -/
def State.ethDrop (s : State) (p : Nat) : State := s.satBump (ETH_PCNT_DROP_DROP p) 1

/-- A frame of stream `i` past the address checks: length, elimination and order, then it is kept for its window or its
beam (R375, R376, R380). -/
def State.streamFrame (s : State) (p i : Nat) (f : EthFrame) : State :=
  let msg := s.flag (ETH_STR_CFG_MSG i)
  let l := fieldAt f.payload 20 2
  let len := s.fget (ETH_STR_LEN_LEN i)
  if msg = false ∧ l ≠ len then s.ethDrop p
  else
    let x := { s.stream i with lastAt := s.tbNat }
    let r : StreamSt × Bool := match f.rtag with
      | some q => if s.flag (ETH_STR_CFG_CB i) then x.recover q.toNat else (x, true)
      | none => (x, true)
    let s := s.setStream i r.1
    if r.2 = false then (s.ethDrop p).satBump (ETH_PCNT_ELIM_ELIM p) 1
    else
      let cycle := fieldAt f.payload 4 8
      let old := match r.1.last with
        | some c => decide (cycle ≤ c)
        | none => false
      if old || (msg && decide (len < l + 32)) then s.satBump (ETH_STR_STAT_OLDCNT i) 1
      else
        let q := fieldAt f.payload 24 1 % 4
        let rx : RxFrame := { stamp := 8 * f.stamp, cycle := cycle, quality := q, data := slice f.payload 28 l }
        let frames := if msg && decide (4 ≤ r.1.frames.length) then r.1.frames else r.1.frames ++ [rx]
        let s := s.setStream i { r.1 with last := some cycle, frames := frames }
        let s := s.wrapBump (ETH_STR_STAT_RXCNT i) 1
        s.runRemote 4 (s.fget (ETH_STR_CFG_PORT i)) (s.fget (ETH_STR_CFG_STREAM i)) rx.data q (8 * f.stamp / 1000)

/-- A witness heartbeat of the partner: any other UID is discarded (R381). -/
def State.witnessFrame (s : State) (f : EthFrame) : State :=
  match s.red.partner with
  | some uid =>
    if BitVec.ofNat 64 (fieldAt f.payload 28 8) = uid.setWidth 64 then
      { s with red := { s.red with witnessAt := some s.fab } }
    else s
  | none => s

/-- A remote I/O frame: the kind and the stream decide (R373, R375, R380, R381). -/
def State.rioReceived (s : State) (p : Nat) (f : EthFrame) : State :=
  let kind := fieldAt f.payload 1 1
  let id := fieldAt f.payload 2 2
  if fieldAt f.payload 0 1 ≠ 1 then s.ethDrop p
  else if kind = 3 ∧ id = 0xFFFF then s.witnessFrame f
  else
    match s.inStream p id f with
    | none => s.ethDrop p
    | some i =>
      if kind = (if s.flag (ETH_STR_CFG_MSG i) then 4 else 1) then s.streamFrame p i f else s.ethDrop p

/-- In a hedge, only the top master answers sessions (R363). -/
def State.answersSessions (s : State) (p : Nat) : Bool :=
  s.flag (ETH_PCFG_SESS p) && s.rget (ETH_IPADDR p) != 0 && (!s.flag MEL_CFG_HEDGE || s.fget MEL_CFG_INDEX == 0)

/-- An IP frame is answered by ARP, ICMP echo or TCP on TLS_PORT, and discarded otherwise (R383). -/
def State.ipReceived (s : State) (p : Nat) (k : IpKind) : State :=
  if s.answersSessions p then
    match k with
    | .arp => (s.countG 0x48 1).send (.ipAnswer p k true)
    | .icmpEcho => (s.countG 0x48 1).send (.ipAnswer p k true)
    | .tcp port =>
      if port.toNat = s.fget ETH_SESS_TLS_PORT then
        (s.countG 0x48 1).send (.ipAnswer p k (decide (s.eth.sessions.length < s.fget ETH_SESS_MAXSESS)))
      else s
    | .other => s
  else s

/-- ETH_FRAME_RECEIVED: a frame is judged once its last byte has arrived. It needs room in the port's receive queue; the
queue engine frees the descriptors of a stream frame at once, other frames go to the steward (R376, R383, R386). A frame
with a bad FCS or a second tag, and a PAUSE frame, goes no further (R370). -/
def execEthFrameReceived (p : Fin 4) (f : EthFrame) (s : State) : Out :=
  if s.ctl.held || s.mode == mDormant || s.mode == mPowerUp || !s.linkUp p then .next s
  else
    let s := s.countG 0x47 1
    let rio := f.etype.toNat == s.fget ETH_CFG_ETYPE
    let r := s.qAdmit p (frameSize f)
    if r.2 = false then .next r.1
    else if f.fcsOk = false then .next (if rio then s.ethDrop p else s)
    else
      let s := s.obsFrame false false p (if rio then fieldAt f.payload 2 2 else 0) 0 (frameSize f)
      if rio then .next (s.rioReceived p f)
      else if f.etype = 0x8808 ∨ f.etype = 0x8100 ∨ f.etype = 0x88A8 then .next s
      else
        match f.ip with
        | some k => .next (s.ipReceived p k)
        | none => .next s

/-- SEQUENCE_RECOVERY_RESET: the vector recovery of a replicated stream resets its history after 100 ms without a frame
(R370). PRESUMED: assumption 35. -/
def execSequenceRecoveryReset (i : Fin 1024) (s : State) : Out :=
  let x := s.stream i
  if s.flag (ETH_STR_CFG_EN i) && s.flag (ETH_STR_CFG_CB i) && decide (x.lastAt + 100000 ≤ s.tbNat) then
    .next (s.setStream i { x with takeAny := true, history := 0 })
  else .next s

/-! ## Output frames and windows (R377 to R379) -/

/-- The `n` committed bits from image bit `b` up, as a number. -/
def State.imgBitsNat (s : State) (b n : Nat) : Nat := maskOf ((List.range n).filter (fun j => s.imgBitVal (b + j)))

/-- The committed value of an entry as one number, its items from the least significant upward, and its width. -/
def State.entryNat (s : State) (e : HEntry) : Nat × Nat :=
  if hBits e then (s.imgBitsNat (hBase e) (hCount e), hCount e)
  else (leNat ((List.range (4 * hCount e)).map (fun j => imgGet s.img (itemOff (hKind e) (hBase e) + j))),
    32 * hCount e)

/-- The output entries that fill a frame: SRCTYPE, instance and stream or mailbox (R374, R396). -/
def State.frameEntries (s : State) (srctype instance_ stream : Nat) : List (Nat × HEntry) :=
  s.validEntries.filter (fun e => hOutput e.2 && hSrctype e.2 == srctype && hInstance e.2 == instance_ &&
    hStream e.2 == stream)

/-- The DATA of a frame from its entries; bytes that no entry covers are 0 (R374, R377). DEDUCED: assumption 37. -/
def State.frameData (s : State) (es : List (Nat × HEntry)) (len : Nat) : List Byte :=
  leBytes len (es.foldl (fun v e =>
    let x := s.entryNat e.2
    bitsPut v (8 * hByteofs e.2 + hBitofs e.2) x.2 x.1) 0)

/-- The worst quality of entries (R377). -/
def State.worstQuality (s : State) (es : List (Nat × HEntry)) : Nat :=
  es.foldl (fun q e => worse q (s.swGet (hSwidx e.2)).toNat) qGood

/-- The output streams of class `k`, in index order. -/
def State.outStreams (s : State) (k : Nat) : List Nat :=
  s.streamsWhere (fun i => s.flag (ETH_STR_CFG_DIR i) && s.fget (ETH_STR_CFG_CLASS i) == k)

/-- Build the frame of output stream `i` for an emit instant (R373, R377). DEDUCED: assumption 37. -/
def State.buildStream (s : State) (i cycle launch : Nat) (ovr : Bool) : State :=
  let id := s.fget (ETH_STR_CFG_STREAM i)
  let es := s.frameEntries 4 (s.fget (ETH_STR_CFG_PORT i)) id
  let x := s.stream i
  let cb := s.flag (ETH_STR_CFG_CB i)
  let f : OutFrame :=
    { stream := id, cycle := cycle, time := launch,
      status := s.worstQuality es + (if ovr then 4 else 0), apply := s.fget (ETH_STR_LEN_APPLY_US i),
      data := s.frameData es (s.fget (ETH_STR_LEN_LEN i)), rtag := if cb then some x.seqOut else none }
  let s := if cb then s.setStream i { x with seqOut := (x.seqOut + 1) % 65536 } else s
  { s with eth := { s.eth with outs := tput s.eth.outs i f } }

/-- OUTPUT_FRAME_BUILD: one frame for each output stream of the class (R377). -/
def State.buildStreams (s : State) (k cycle launch : Nat) (ovr : Bool) : State :=
  each (s.outStreams k) s (fun s i => s.buildStream i cycle launch ovr)

/-- Byte time in ns at SPEED_MIN of a port (R378). -/
def State.byteNs (s : State) (p : Nat) : Nat :=
  if s.fget (ETH_PCFG_SPEED_MIN p) = 0 then 8 else if s.fget (ETH_PCFG_SPEED_MIN p) = 1 then 80 else 800

/-- The output streams of class `k` on port `p`. -/
def State.portStreams (s : State) (p k : Nat) : List Nat :=
  (s.outStreams k).filter (fun i => (s.streamPorts i).contains p)

/-- WIN of class `k` on port `p` in ns (R378). -/
def State.rioWin (s : State) (p k : Nat) : Nat :=
  ((s.portStreams p k).map (fun i => (max 64 (56 + s.fget (ETH_STR_LEN_LEN i)) + 20) * s.byteNs p)).sum + 1000

/-- GUARD in ns: the time of 1,542 bytes (R378). -/
def State.rioGuard (s : State) (p : Nat) : Nat := 1542 * s.byteNs p

def State.portWindows (s : State) (p : Nat) : List RioWindow := tget [] s.eth.windows p

def State.setWindows (s : State) (p : Nat) (w : List RioWindow) : State :=
  { s with eth := { s.eth with windows := tset [] s.eth.windows p w } }

/-- The gates of every traffic class but RIO_TC are closed on a port. -/
def State.gatesClosed (s : State) (p : Nat) : Bool := s.eth.closed.any (fun c => c / 4 == p)

def State.closeGates (s : State) (p k : Nat) : State :=
  if s.eth.closed.contains (4 * p + k) then s else { s with eth := { s.eth with closed := s.eth.closed ++ [4 * p + k] } }

/-- GATE_CLOSE: at the launch of class `k` less GUARD, the gates of every other traffic class close (R378). -/
def execGateClose (p k : Fin 4) (s : State) : Out :=
  let launch := 1000 * ((s.cls k).t0.toNat + s.dout k)
  if s.ctl.held then .next s
  else if modeExecutes s.mode && !(s.portStreams p k).isEmpty && (s.cls k).started &&
      decide (launch ≤ s.tbNs + s.rioGuard p ∧ s.tbNs < launch) then .next (s.closeGates p k)
  else .next s

/-- The RIO windows of class `k` open at its emit instant, on each port with output streams of the class. A window that
finds another in progress waits for its end (R378, R379). -/
def State.rioOpen (s : State) (k launch : Nat) : State :=
  each (List.range 4) s (fun s p =>
    let l := s.portStreams p k
    if l.isEmpty then s
    else
      let ws := s.portWindows p
      let w : RioWindow := { cls := k, launch := launch, start := if ws.isEmpty then some (1000 * launch) else none,
                             left := l.filter (fun i => s.eth.outs.any (fun o => o.1 == i)) }
      (s.closeGates p k).setWindows p (ws ++ [w]))

/-- RIO_WINDOW_END: the window in progress on a port ends WIN after its start. Frames that have not started are
withdrawn, counted and reported; the next window starts, or the gates reopen (R379). -/
def execRioWindowEnd (p : Fin 4) (s : State) : Out :=
  match s.portWindows p with
  | [] => .next s
  | w :: rest =>
    match w.start with
    | none => .next s
    | some t =>
      let stop := t + s.rioWin p w.cls
      if s.ctl.held || decide (s.tbNs < stop) then .next s
      else
        let s := each w.left s (fun s i =>
          let o := s.eth.outs.find? (fun o => o.1 == i)
          let id := s.fget (ETH_STR_CFG_STREAM i)
          (s.satBump (ETH_PCNT_LATE_LATE p) 1).raise 0x0803 id
            (leBytes 1 p ++ leBytes 2 id ++ leBytes 1 w.cls ++ leBytes 8 ((o.map (fun o => o.2.cycle)).getD 0)))
        let s := { s with eth := { s.eth with closed := s.eth.closed.filter (fun c => c != 4 * p.val + w.cls) } }
        match rest with
        | [] => .next (s.setWindows p [])
        | n :: more => .next (s.setWindows p ({ n with start := some stop } :: more))

/-- ETH_FRAME_TRANSMITTED: a port finishes sending a frame. In a window that is the next output frame in stream order; and none is
sent outside the executing modes (R272); else it is the frame at the consumer's place of the transmit queue, whose last descriptor
takes the stamp (in 8 ns units) and which returns to the producer (R378, R385). -/
def execEthFrameTransmitted (p : Fin 4) (stamp : Nat) (s : State) : Out :=
  if s.stewardOff || !s.linkUp p then .next s
  else
    let fromQueue : Out :=
      let q := 4 + p.val
      if s.qFull q = 0 then .next s
      else
        let c := s.fget (QUE_CIDX_CIDX q)
        let n := s.qFrameLen q c (s.qFull q)
        let bytes := s.qBytes q c n
        let s := s.rset (QUE_DESC1 (s.qDesc q (c + n - 1))) (BitVec.ofNat 32 stamp)
        let s := (s.qReturn q n).obsFrame false true p 0 0 bytes.length
        .next ((s.countG 0x48 1).send (.ethFrame p bytes))
    match s.portWindows p with
    | [] => fromQueue
    | w :: rest =>
      match w.start, w.left with
      | some _, i :: more =>
        match s.eth.outs.find? (fun o => o.1 == i) with
        | some o =>
          let s := (s.setWindows p ({ w with left := more } :: rest)).obsFrame false true p o.2.stream 0 (56 + o.2.data.length)
          .next (if modeExecutes s.mode then (s.countG 0x48 1).send (.rioFrame p o.2) else s)
        | none => .next (s.setWindows p ({ w with left := more } :: rest))
      | _, _ => fromQueue

/-! ## Sessions (R383) -/

/-- The number of open sessions is shown. -/
def State.setSessions (s : State) (l : List Session) : State :=
  ({ s with eth := { s.eth with sessions := l } }).fput ETH_SESS_ACTIVE l.length

/-- Event 0x0804. DEDUCED: assumption 12. -/
def State.sessionEvent (s : State) (p status : Nat) (client : BitVec 32) : State :=
  s.raise 0x0804 p (leBytes 1 p ++ leBytes 1 status ++ leBytes 4 client.toNat)

/-- SESSION_CONNECT: a connection beyond MAXSESS is reset; a client certificate that does not chain to the owner ends
the handshake with AUTH; else the session opens (R383, DEDUCED, assumption 12). -/
def execSessionConnect (p : Fin 4) (client : BitVec 32) (certOk : Bool) (s : State) : Out :=
  if s.live && s.answersSessions p && s.linkUp p then
    if s.fget ETH_SESS_MAXSESS ≤ s.eth.sessions.length then .next (s.sessionEvent p scBusy client)
    else if certOk = false then .next (s.sessionEvent p scAuth client)
    else .next (s.setSessions (s.eth.sessions ++ [{ port := p, client := client }]))
  else .next s

/-- SESSION_IDLE_TIMEOUT: a session without traffic for 600 s is closed (R383). DEDUCED: assumption 12. -/
def execSessionIdleTimeout (j : Fin 4) (s : State) : Out :=
  match s.eth.sessions[j.val]? with
  | some x => .next ((s.setSessions (s.eth.sessions.eraseIdx j)).sessionEvent x.port scTimeout x.client)
  | none => .next s

/-! ## gPTP roles (R370) -/

/-- GPTP_SYNC_INTERVAL: a port in the master role sends its sync messages (R370). -/
def execGptpSyncInterval (p : Fin 4) (s : State) : Out :=
  if !s.stewardOff && s.linkUp p && s.fget (ETH_PSTAT_AS_ROLE p) == 1 then
    .next ((s.countG 0x48 1).send (.gptpSync p))
  else .next s

/-- The module's own system identity as a grandmaster: its priorities, and clock quality and identity, which the spec
does not give (assumption 4). None when it may not be grandmaster. -/
def State.ownGm (s : State) : Option (BitVec 112) :=
  if s.flag ETH_CFG_GM_CAP then
    some (BitVec.ofNat 112 (s.fget ETH_GM_PRIO1 * 2 ^ 104 + Config.gmIdentity.toNat / 2 ^ 64 * 2 ^ 72 +
      s.fget ETH_GM_PRIO2 * 2 ^ 64 + Config.gmIdentity.toNat % 2 ^ 64))
  else none

/-- An announce on a port: the best master clock algorithm takes the lower system identity; the port becomes slave, a
second port with the same grandmaster passive, the others master. A new grandmaster raises event 0x0802 (R370).
DEDUCED: assumption 34. -/
def State.announce (s : State) (p : Nat) (gm : BitVec 112) : State :=
  let best := match s.eth.gm with
    | some (g, _) => some g
    | none => s.ownGm
  let better := match best with
    | some g => decide (gm.toNat < g.toNat)
    | none => true
  if better then
    let s := { s with eth := { s.eth with gm := some (gm, p) } }
    let s := each (List.range 4) s (fun s q => s.fput (ETH_PSTAT_AS_ROLE q) (if q = p then 2 else s.asBase q))
    s.raise 0x0802 p (leBytes 8 gm.toNat ++ leBytes 1 p)
  else
    match s.eth.gm with
    | some (g, q) => if g = gm ∧ q ≠ p then s.fput (ETH_PSTAT_AS_ROLE p) 3 else s
    | none => s

end Sys2Proof.Machine
end

