-- ==== Sys2Proof/Machine/Can.lean ====
section
/-!
DEFINITION. The CAN ports: filters, mailboxes, read locks, transmission and arbitration, queue frames, error states
(R393 to R415).
-/
namespace Sys2Proof.Machine

def State.canPort (s : State) (p : Nat) : CanPort := tget CanPort.reset s.canPorts p
def State.setCanPort (s : State) (p : Nat) (x : CanPort) : State :=
  { s with canPorts := tset CanPort.reset s.canPorts p x }

/-- Payload bytes of a SIZE code, and of DLC 8 to 15 in FD frames (R399). -/
def canSize (code : Nat) : Nat := ([8, 12, 16, 20, 24, 32, 48, 64][code]?).getD 64

/-- Data length of a DLC (R399). -/
def dlcLen (fdf : Bool) (dlc : Nat) : Nat := if dlc ≤ 8 then dlc else if fdf then canSize (dlc - 8) else 8

def frameLen (f : CanFrame) : Nat := if f.rtr then 0 else dlcLen f.fdf f.dlc.toNat

/-- The port takes part in the bus. -/
def State.canOn (s : State) (p : Nat) : Bool :=
  !s.ctl.held && s.mode != mDormant && s.flag (CAN_PCFG_EN p) && s.fget (CAN_PSTAT_STATE p) != 2

/-! ## Receive (R397 to R405) -/

/-- Write a frame into the buffer of a mailbox: header, identifier, stamp and the first SIZE bytes (R401, R402). -/
def State.mbStore (s : State) (p m : Nat) (f : CanFrame) (ns : Nat) : State :=
  let size := canSize (s.fget (CAN_MB_CFG_SIZE p m))
  let s := s.setFlag (CAN_MB_HDR_TRUNC p m) (decide (size < frameLen f))
  let s := (s.setFlag (CAN_MB_HDR_FDF p m) f.fdf).setFlag (CAN_MB_HDR_BRS p m) f.brs
  let s := (s.setFlag (CAN_MB_HDR_ESI p m) f.esi).setFlag (CAN_MB_HDR_RTR p m) f.rtr
  let s := (s.setFlag (CAN_MB_HDR_IDE p m) f.ide).fput (CAN_MB_HDR_DLC p m) f.dlc.toNat
  let s := s.fput (CAN_MB_ID_ID p m) f.id.toNat
  let s := s.rset64 (CAN_MB_STAMP_LO p m) (CAN_MB_STAMP_HI p m) (ns / 1000)
  each (List.range (size / 4)) s (fun s w => s.rset (CAN_MB_DATA p m w) (BitVec.ofNat 32 (fieldAt f.data (4 * w) 4)))

/-- OVERWRITE: a frame is lost unread (R401). -/
def State.mbOverwrite (s : State) (p m : Nat) (f : CanFrame) : State :=
  let s := (s.setFlag (CAN_MB_HDR_OVERWRITE p m) true).setFlag (CAN_EVT_OVERWRITE p) true
  s.raise 0x0905 (p * 64 + m) (leBytes 1 p ++ leBytes 1 m ++ leBytes 4 f.id.toNat)

/-- An accepted frame in an RX_SOFT mailbox (R401). -/
def State.softReceive (s : State) (p m : Nat) (f : CanFrame) (ns : Nat) : State :=
  let x := s.mb p m
  if x.lock.isNone then
    let was := s.flag (CAN_MB_HDR_NEW p m)
    let s := (s.mbStore p m f ns).setFlag (CAN_MB_HDR_NEW p m) true
    if was then s.mbOverwrite p m f else s
  else
    let was := !x.shadow.isEmpty
    let s := (s.setMb p m { x with shadow := [(f, ns)] }).setFlag (CAN_MB_HDR_SHADOW p m) true
    if was then s.mbOverwrite p m f else s

/-- The input entries that read mailbox `m` of port `p` (R405). -/
def State.mbEntries (s : State) (p m : Nat) : List (Nat × HEntry) :=
  s.validEntries.filter (fun e => hInput e.2 && hSrctype e.2 == 5 && hInstance e.2 == p && hStream e.2 == m)

/-- Bits of one item of an entry. -/
def itemWidth (e : HEntry) : Nat := if hBits e then 1 else 32

/-- EXTENT: the byte after the last byte that any entry of the mailbox locates (R404). -/
def State.mbExtent (s : State) (p m : Nat) : Nat :=
  ((s.mbEntries p m).map (fun e => (8 * hByteofs e.2 + hBitofs e.2 + itemWidth e.2 * hCount e.2 + 7) / 8)).foldl max 0

/-- An accepted frame in an RX_IMAGE mailbox: a valid one joins the open frames, and remote pipelines run on it (R185,
R403, R404). -/
def State.imageReceive (s : State) (p m : Nat) (f : CanFrame) (ns : Nat) : State :=
  if frameLen f < s.mbExtent p m then s.satBump (CAN_ERRCNT_SHORT p) 1
  else
    let x := s.mb p m
    let s := (s.setMb p m { x with shadow := x.shadow ++ [(f, ns)] }).setFlag (CAN_MB_HDR_SHADOW p m) true
    s.runRemote 5 p m f.data qGood (ns / 1000)

/-- A frame as the receive queue stores it (R410). -/
def canQueueBytes (f : CanFrame) (ns : Nat) : List Byte :=
  leBytes 4 (f.id.toNat + (if f.ide then 2 ^ 29 else 0) + (if f.rtr then 2 ^ 30 else 0) + (if f.fdf then 2 ^ 31 else 0)) ++
    leBytes 1 f.dlc.toNat ++ leBytes 1 ((if f.brs then 1 else 0) + (if f.esi then 2 else 0)) ++ leBytes 2 (ns % 1000) ++
    leBytes 8 (ns / 1000) ++ slice f.data 0 (frameLen f)

/-- Whether filter `i` of a port matches a frame (R397). -/
def State.filterHits (s : State) (p i : Nat) (f : CanFrame) : Bool :=
  let fmt := s.fget (CAN_FLT_TGT_FMT p i)
  s.flag (CAN_FLT_ID_EN p i) &&
    (f.id ^^^ BitVec.ofNat 29 (s.fget (CAN_FLT_ID_ID p i))) &&& BitVec.ofNat 29 (s.fget (CAN_FLT_MASK_MASK p i)) == 0 &&
    s.flag (CAN_FLT_ID_IDE p i) == f.ide && s.flag (CAN_FLT_ID_RTR p i) == f.rtr &&
    (fmt == 0 || (fmt == 1 && !f.fdf) || (fmt == 2 && f.fdf))

/-- A received frame lowers the receive error counter (ISO 11898-1): by 1 from 1 to 127, and to a value from 119 to 127
above, which the spec leaves open (R411, assumption 4). PRESUMED: assumption 36. -/
def State.canReceiveOk (s : State) (p : Nat) : State :=
  if s.flag (CAN_PCFG_LISTEN p) then s
  else
    let r := s.fget (CAN_PSTAT_REC p)
    if r = 0 then s
    else if r ≤ 127 then s.fput (CAN_PSTAT_REC p) (r - 1)
    else (s.fput (CAN_PSTAT_REC p) (119 + Config.freeNat s.free % 9)).draw

/-- The error state that the counters give: passive above 127 (R411). -/
def State.canJudge (s : State) (p : Nat) : State :=
  let new := if 127 < s.fget (CAN_PSTAT_TEC p) ∨ 127 < s.fget (CAN_PSTAT_REC p) then 1 else 0
  if s.fget (CAN_PSTAT_STATE p) = new then s
  else
    let s := (s.fput (CAN_PSTAT_STATE p) new).setFlag (CAN_EVT_ERRSTATE p) true
    s.raise 0x0903 (p * 64) (leBytes 1 p ++ leBytes 1 new ++ leBytes 1 (s.fget (CAN_PSTAT_TEC p)) ++
      leBytes 1 (s.fget (CAN_PSTAT_REC p)))

/-- CAN_FRAME_RECEIVED: a frame received without error goes where the first matching filter says; one that none matches
is counted in NOMATCH. A port with FD = 0 receives no FD frame (R394, R397). -/
def execCanFrameReceived (p : Fin 4) (f : CanFrame) (stampNs : Nat) (s : State) : Out :=
  if s.canOn p && (!f.fdf || s.flag (CAN_PCFG_FD p)) then
    let s := s.countG 0x49 1
    let s := ((s.canReceiveOk p).canJudge p).obsFrame true false p f.id.toNat 0 (frameLen f)
    match (List.range 128).find? (fun i => s.filterHits p i f) with
    | none => .next (s.satBump (CAN_ERRCNT_NOMATCH p) 1)
    | some i =>
      let t := s.fget (CAN_FLT_TGT_TARGET p i)
      if t < 64 then
        if s.fget (CAN_MB_CFG_KIND p t) = mbRxSoft then .next (s.softReceive p t f stampNs)
        else if s.fget (CAN_MB_CFG_KIND p t) = mbRxImage then .next (s.imageReceive p t f stampNs)
        else .next s
      else if t = 64 then .next (s.qReceive (8 + p.val) (stampNs / 8) (canQueueBytes f stampNs)).1
      else .next s
  else .next s

/-! ## Read locks (R400) -/

/-- The lock is released: NEW is cleared, and a full shadow moves into the buffer (R401). -/
def State.mbRelease (s : State) (p m : Nat) : State :=
  let x := s.mb p m
  let s := (s.setMb p m { x with lock := none, shadow := [] }).setFlag (CAN_MB_HDR_LOCKED p m) false
  let s := (s.setFlag (CAN_MB_HDR_NEW p m) false).setFlag (CAN_MB_HDR_SHADOW p m) false
  match x.shadow with
  | [] => s
  | (f, ns) :: _ => (s.mbStore p m f ns).setFlag (CAN_MB_HDR_NEW p m) true

/-- A read of CAN_MB_HDR by an agent: the value, and the lock of an unlocked RX_SOFT mailbox (R400). -/
def State.mbReadHdr (s : State) (p m agent : Nat) : State × Word :=
  let v := s.rget (CAN_MB_HDR p m)
  let x := s.mb p m
  if s.fget (CAN_MB_CFG_KIND p m) = mbRxSoft ∧ x.lock.isNone then
    ((s.setMb p m { x with lock := some (agent, s.tbNat) }).setFlag (CAN_MB_HDR_LOCKED p m) true, v)
  else (s, v)

/-- A read of data word `w` by an agent: the value; the last word of a locked mailbox releases the agent's lock. -/
def State.mbReadData (s : State) (p m w agent : Nat) : State × Word :=
  let v := s.rget (CAN_MB_DATA p m w)
  match (s.mb p m).lock with
  | some (a, _) =>
    if a = agent ∧ w + 1 = canSize (s.fget (CAN_MB_CFG_SIZE p m)) / 4 then (s.mbRelease p m, v) else (s, v)
  | none => (s, v)

/-- MAILBOX_HEADER_READ: reading the header of an unlocked RX_SOFT mailbox takes the lock (R400). -/
def execMailboxHeaderRead (p : Fin 4) (m : Fin 64) (agent : Fin 17) (s : State) : Out :=
  if s.stewardOff then .next s
  else
    let r := s.mbReadHdr p m agent
    .next { r.1 with readback := r.2 }

/-- LAST_DATA_WORD_READ: the agent that holds the lock reads the last data word, which releases it (R400, R401). -/
def execLastDataWordRead (p : Fin 4) (m : Fin 64) (agent : Fin 17) (s : State) : Out :=
  if s.stewardOff then .next s
  else
    let r := s.mbReadData p m (canSize (s.fget (CAN_MB_CFG_SIZE p m)) / 4 - 1) agent
    .next { r.1 with readback := r.2 }

/-- LOCK_TIMEOUT: a lock held for 20 µs is released, and LOCKTO is set (R400). -/
def execLockTimeout (p : Fin 4) (m : Fin 64) (s : State) : Out :=
  match (s.mb p m).lock with
  | some (_, t) =>
    if t + 20 ≤ s.tbNat then .next ((s.mbRelease p m).setFlag (CAN_MB_HDR_LOCKTO p m) true) else .next s
  | none => .next s

/-! ## Transmission (R406 to R409) -/

/-- The first status that applies to a transmit request (R406). -/
def State.txStatus (s : State) (p m : Nat) (launch : Nat) (fdf brs rtr : Bool) (dlc : Nat) : Nat :=
  if s.fget (CAN_MB_CFG_KIND p m) ≠ mbTxSoft ∨ s.flag (CAN_PCFG_LISTEN p) ∨ s.flag (CAN_PCFG_EN p) = false then scState
  else if (s.mb p m).pend.isSome then scBusy
  else if (rtr ∧ fdf) ∨ (brs ∧ fdf = false) then scRange
  else if fdf ∧ s.flag (CAN_PCFG_FD p) = false then scConflict
  else if canSize (s.fget (CAN_MB_CFG_SIZE p m)) < dlcLen fdf dlc then scSize
  else if launch + s.fget (CAN_MB_DL_DL_US p m) ≤ s.tbNat then scTimeout
  else scOk

/-- The data bytes that the registers of a mailbox hold. -/
def State.mbData (s : State) (p m n : Nat) : List Byte :=
  ((List.range 16).flatMap (fun w => leBytes 4 (s.rget (CAN_MB_DATA p m w)).toNat)).take n

/-- A frame becomes pending. -/
def State.mbPend (s : State) (p m : Nat) (f : CanFrame) (launch : Nat) : State :=
  let x := s.mb p m
  let s := s.setFlag (CAN_MB_HDR_PENDING p m) true
  s.setMb p m { x with pend := some { frame := f, launch := launch, deadline := launch + s.fget (CAN_MB_DL_DL_US p m),
                                      ready := decide (launch ≤ s.tbNat), started := false, onBus := false } }

/-- A transmit request is judged at once (R406, R408). -/
def State.txRequest (s : State) (p m : Nat) (launchAt fdf brs rtr ide : Bool) (dlc : Nat) : State :=
  let launch := if launchAt then s.rget64 (CAN_MB_LAUNCH_LO p m) (CAN_MB_LAUNCH_HI p m) else s.tbNat
  let st := s.txStatus p m launch fdf brs rtr dlc
  let s := s.fput (CAN_MB_HDR_TXST p m) st
  if st = scOk then
    let s := (s.setFlag (CAN_MB_HDR_FDF p m) fdf).setFlag (CAN_MB_HDR_BRS p m) brs
    let s := (s.setFlag (CAN_MB_HDR_RTR p m) rtr).setFlag (CAN_MB_HDR_IDE p m) ide
    let s := s.fput (CAN_MB_HDR_DLC p m) dlc
    s.mbPend p m { id := BitVec.ofNat 29 (s.fget (CAN_MB_ID_ID p m)), ide := ide, rtr := rtr, fdf := fdf, brs := brs,
                   esi := s.fget (CAN_PSTAT_STATE p) == 1, dlc := BitVec.ofNat 4 dlc,
                   data := if rtr then [] else s.mbData p m (dlcLen fdf dlc) } launch
  else s

/-- TXREQ: a transmit request to a mailbox (R406). -/
def execTxreq (p : Fin 4) (m : Fin 64) (launchAt fdf brs rtr ide : Bool) (dlc : BitVec 4) (s : State) : Out :=
  if s.stewardOff then .next s else .next (s.txRequest p m launchAt fdf brs rtr ide dlc.toNat)

/-- ABORT withdraws a pending frame that has not started arbitration, with status STATE (R406). -/
def State.txAbort (s : State) (p m : Nat) : State :=
  match (s.mb p m).pend with
  | some t => if t.started then s else s.mbWithdraw p m scState
  | none => s

/-- ABORT_PENDING_FRAME (R406). -/
def execAbortPendingFrame (p : Fin 4) (m : Fin 64) (s : State) : Out :=
  if s.stewardOff then .next s else .next (s.txAbort p m)

/-- LAUNCH_TIME: a pending frame becomes ready at its launch time (R408). -/
def execLaunchTime (p : Fin 4) (m : Fin 64) (s : State) : Out :=
  match (s.mb p m).pend with
  | some t =>
    if t.launch ≤ s.tbNat then .next (s.setMb p m { s.mb p m with pend := some { t with ready := true } }) else .next s
  | none => .next s

/-- TRANSMIT_DEADLINE: a frame that is not on the bus at its deadline is withdrawn with TIMEOUT (R408). -/
def execTransmitDeadline (p : Fin 4) (m : Fin 64) (s : State) : Out :=
  match (s.mb p m).pend with
  | some t => if decide (t.deadline ≤ s.tbNat) && !t.onBus then .next (s.mbWithdraw p m scTimeout) else .next s
  | none => .next s

/-- The arbitration field of a frame as a number; the lower wins (R407): base identifier, RTR or SRR, IDE, identifier
extension, RTR. -/
def arbKey (f : CanFrame) : Nat :=
  let r := if f.rtr then 1 else 0
  if f.ide then f.id.toNat / 2 ^ 18 * 2 ^ 21 + 2 ^ 20 + 2 ^ 19 + f.id.toNat % 2 ^ 18 * 2 + r
  else f.id.toNat % 2 ^ 11 * 2 ^ 21 + r * 2 ^ 20

/-- A frame as the transmit queue holds it (R410). -/
def canQueueFrame (b : List Byte) : CanFrame :=
  let h := fieldAt b 0 4
  { id := BitVec.ofNat 29 h, ide := bitAt h 29, rtr := bitAt h 30, fdf := bitAt h 31, brs := bitAt (fieldAt b 5 1) 0,
    esi := false, dlc := BitVec.ofNat 4 (fieldAt b 4 1), data := b.drop 16 }

/-- The status of a transmit queue frame: its length, then the RANGE and CONFLICT cases of R406 (R410, DEDUCED, assumption 13). -/
def State.canQueueStatus (s : State) (p : Nat) (b : List Byte) : Nat :=
  let f := canQueueFrame b
  if (f.rtr ∧ f.fdf) ∨ (f.brs ∧ f.fdf = false) then scRange
  else if f.fdf ∧ s.flag (CAN_PCFG_FD p) = false then scConflict
  else if b.length ≠ 16 + frameLen f then scSize
  else scOk

/-- The head frame of the transmit queue: its descriptors and bytes. -/
def State.canHead (s : State) (p : Nat) : Option (Nat × List Byte) :=
  let q := 12 + p
  if s.qFull q = 0 then none
  else
    let c := s.fget (QUE_CIDX_CIDX q)
    let n := s.qFrameLen q c (s.qFull q)
    some (n, s.qBytes q c n)

/-- Return the descriptors of the head frame with a status and a stamp. -/
def State.canHeadReturn (s : State) (p n status stamp : Nat) : State :=
  let q := 12 + p
  let c := s.fget (QUE_CIDX_CIDX q)
  let s := each (List.range n) s (fun s j =>
    let d := s.qDesc q (c + j)
    (s.rset (QUE_DESC0 d) (BitVec.ofNat 32 (bitsPut (s.rget (QUE_DESC0 d)).toNat 16 8 status))).rset (QUE_DESC1 d)
      (BitVec.ofNat 32 stamp))
  s.qReturn q n

/-- Invalid frames at the head of the transmit queue are not sent: they return with their status, and event 0x0906 is
raised (R410). -/
def State.canRefuse (s : State) (p : Nat) : Nat → State
  | 0 => s
  | fuel + 1 =>
    match s.canHead p with
    | none => s
    | some (n, b) =>
      let st := s.canQueueStatus p b
      if st = scOk then s
      else
        ((s.canHeadReturn p n st 0).raise 0x0906 p (leBytes 1 p ++ leBytes 1 st ++ leBytes 4 (canQueueFrame b).id.toNat)).canRefuse
          p fuel

/-- Port ML`p` is up (R349). -/
def State.melberUp (s : State) (p : Nat) : Bool :=
  if p = 4 then s.flag RED_STAT_ML4_UP else if p = 5 then s.flag RED_STAT_ML5_UP else s.fget (MEL_LINK_STATE p) == 2

/-- Port ML`p` sends the frames of its transmit queue and returns their descriptors (R29, R385). No command stands for the end of
a frame there: DEDUCED, assumption 37. -/
def State.melberSend (s : State) (p : Nat) : Nat → State
  | 0 => s
  | fuel + 1 =>
    let q := 22 + p
    if s.melberUp p = false ∨ s.qFull q = 0 then s
    else
      let c := s.fget (QUE_CIDX_CIDX q)
      let n := s.qFrameLen q c (s.qFull q)
      ((s.send (.melberFrame p (s.qBytes q c n))).qReturn q n).melberSend p fuel

/-- A post into a queue: a CAN port refuses an invalid frame at the head of its queue, and a Melber port sends (R29, R387, R410). -/
def State.postFrames (s : State) (q n : Nat) : State :=
  if softOwns q false = false then s
  else
    let s := s.quePost q n
    if 22 ≤ q ∧ q ≤ 27 then s.melberSend (q - 22) (s.qFull q)
    else if 12 ≤ q ∧ q ≤ 15 ∧ (s.canPort (q - 12)).queueOnBus = false then s.canRefuse (q - 12) (s.qFull q) else s

/-- QUE_POST: a producer hands descriptors to the consumer (R387). -/
def execQuePost (q : Fin 32) (n : BitVec 11) (s : State) : Out :=
  if s.stewardOff then .next s else .next (s.postFrames q n.toNat)

/-- QUE_RETIRE: the consumer returns FULL descriptors (R387). -/
def execQueRetire (q : Fin 32) (n : BitVec 11) (s : State) : Out :=
  if s.stewardOff || !softOwns q true then .next s else .next (s.queRetire q n.toNat)

/-- The mailboxes of a port with a ready frame, in index order. -/
def State.readyMbs (s : State) (p : Nat) : List (Nat × CanFrame) :=
  (List.range 64).filterMap (fun m =>
    match (s.mb p m).pend with
    | some t => if t.ready && !t.onBus && decide (s.tbNat < t.deadline) then some (m, t.frame) else none
    | none => none)

/-- The head of the transmit queue once its launch time has passed; 64 stands for the queue. -/
def State.readyQueue (s : State) (p : Nat) : List (Nat × CanFrame) :=
  match s.canHead p with
  | some (_, b) =>
    let at_ := fieldAt b 8 8
    if s.canQueueStatus p b = scOk ∧ at_ ≤ s.tbNat then [(64, canQueueFrame b)] else []
  | none => []

/-- The frame that would win among the ready ones: the lower arbitration field, then the lower index (R407). -/
def pickFrame : List (Nat × CanFrame) → Option (Nat × CanFrame)
  | [] => none
  | x :: l =>
    match pickFrame l with
    | some y => if arbKey y.2 < arbKey x.2 then some y else some x
    | none => some x

/-- A frame of the port is on the bus. -/
def State.canBusy (s : State) (p : Nat) : Bool :=
  (s.canPort p).queueOnBus || (List.range 64).any (fun m =>
    match (s.mb p m).pend with
    | some t => t.onBus
    | none => false)

/-- ARBITRATION_START: the port offers the ready frame that would win; `wins` says whether it wins against the other
nodes. One that loses stays ready (R407). -/
def execArbitrationStart (p : Fin 4) (wins : Bool) (s : State) : Out :=
  if s.canOn p && !s.flag (CAN_PCFG_LISTEN p) && !s.canBusy p then
    match pickFrame (s.readyMbs p ++ s.readyQueue p) with
    | none => .next s
    | some (m, _) =>
      if m = 64 then .next (s.setCanPort p { s.canPort p with queueOnBus := wins })
      else
        match (s.mb p m).pend with
        | some t => .next (s.setMb p m { s.mb p m with pend := some { t with started := true, onBus := wins } })
        | none => .next s
  else .next s

/-- The mailbox of a port whose frame is on the bus. -/
def State.mbOnBus (s : State) (p : Nat) : Option (Nat × CanTx) :=
  (List.range 64).findSome? (fun m =>
    match (s.mb p m).pend with
    | some t => if t.onBus then some (m, t) else none
    | none => none)

/-- A completed transmission lowers the transmit error counter by 1 (ISO 11898-1, R411). PRESUMED: assumption 36. -/
def State.canTransmitOk (s : State) (p : Nat) : State :=
  (s.fput (CAN_PSTAT_TEC p) (s.fget (CAN_PSTAT_TEC p) - 1)).canJudge p

/-- TRANSMISSION_COMPLETE: the frame on the bus completes with status OK and its stamp (R408). -/
def execTransmissionComplete (p : Fin 4) (stampNs : Nat) (s : State) : Out :=
  if s.canOn p then
    match s.mbOnBus p with
    | some (m, t) =>
      let s := s.setMb p m { s.mb p m with pend := none }
      let s := (s.setFlag (CAN_MB_HDR_PENDING p m) false).fput (CAN_MB_HDR_TXST p m) scOk
      let s := s.rset64 (CAN_MB_STAMP_LO p m) (CAN_MB_STAMP_HI p m) (stampNs / 1000)
      let s := (s.canTransmitOk p).obsFrame true true p t.frame.id.toNat 0 (frameLen t.frame)
      .next ((s.countG 0x4A 1).send (.canFrame p t.frame))
    | none =>
      if (s.canPort p).queueOnBus then
        match s.canHead p with
        | some (n, b) =>
          let f := canQueueFrame b
          let s := (s.setCanPort p { s.canPort p with queueOnBus := false }).canHeadReturn p n scOk (stampNs / 8)
          let s := (s.canTransmitOk p).obsFrame true true p f.id.toNat 0 (frameLen f)
          let s := s.canRefuse p (s.qFull (12 + p.val))
          .next ((s.countG 0x4A 1).send (.canFrame p f))
        | none => .next s
      else .next s
  else .next s

/-! ## Errors (R411, R412) -/

/-- A frame on the bus meets an error: it must be offered again; past its deadline it is withdrawn (R407, R408). -/
def State.canReoffer (s : State) (p : Nat) : State :=
  let s := s.setCanPort p { s.canPort p with queueOnBus := false }
  match s.mbOnBus p with
  | some (m, t) =>
    let s := s.setMb p m { s.mb p m with pend := some { t with onBus := false } }
    if t.deadline ≤ s.tbNat then s.mbWithdraw p m scTimeout else s
  | none => s

/-- CAN_ERROR: a bus error changes the counters as ISO 11898-1 requires and may change the error state; above 255 the
port goes bus-off (R411). A listen-only port changes no counter (R412). PRESUMED: assumption 36. -/
def execCanError (p : Fin 4) (kind : CanErrorKind) (s : State) : Out :=
  if s.canOn p && !s.flag (CAN_PCFG_LISTEN p) then
    match kind with
    | .receive => .next ((s.satBump (CAN_PSTAT_REC p) 1).canJudge p)
    | .receiveDominant => .next ((s.satBump (CAN_PSTAT_REC p) 8).canJudge p)
    | .transmit =>
      let tec := s.fget (CAN_PSTAT_TEC p) + 8
      let s := (s.canReoffer p).fput (CAN_PSTAT_TEC p) (min 255 tec)
      if 255 < tec then
        let s := (s.fput (CAN_PSTAT_STATE p) 2).satBump (CAN_BOCNT_BUSOFF p) 1
        let s := (s.setFlag (CAN_EVT_ERRSTATE p) true).setFlag (CAN_EVT_BUSOFF p) true
        let s := s.setCanPort p { s.canPort p with busOffAt := s.tbNat }
        let s := s.raise 0x0903 (p.val * 64) (leBytes 1 p ++ leBytes 1 2 ++ leBytes 1 (min 255 tec) ++
          leBytes 1 (s.fget (CAN_PSTAT_REC p)))
        .next (s.raise 0x0901 p (leBytes 1 p ++ leBytes 4 (s.fget (CAN_BOCNT_BUSOFF p))))
      else .next (s.canJudge p)
  else .next s

/-- BUS_OFF_RECOVERY: after 128 occurrences of 11 recessive bits the port is error active again (R411). -/
def execBusOffRecovery (p : Fin 4) (s : State) : Out :=
  if s.fget (CAN_PSTAT_STATE p) = 2 then
    let s := ((s.fput (CAN_PSTAT_TEC p) 0).fput (CAN_PSTAT_REC p) 0).fput (CAN_PSTAT_STATE p) 0
    let s := (s.setFlag (CAN_EVT_ERRSTATE p) true).setFlag (CAN_EVT_RECOVERED p) true
    let s := s.raise 0x0903 (p.val * 64) (leBytes 1 p ++ leBytes 3 0)
    .next (s.raise 0x0902 p (leBytes 1 p ++ leBytes 4 (s.tbNat - (s.canPort p).busOffAt)))
  else .next s

/-! ## Image mailboxes (R403, R409) -/

/-- The mailboxes of a kind and class, as (port, mailbox). -/
def State.mbsOf (s : State) (kind k : Nat) : List (Nat × Nat) :=
  (((List.range 4).filter (fun p => s.flag (CAN_PCFG_EN p))).flatMap (fun p =>
    (List.range 64).map (fun m => (p, m)))).filter (fun x => s.fget (CAN_MB_CFG_KIND x.1 x.2) == kind && s.fget (CAN_MB_CFG_CLASS x.1 x.2) == k)

/-- TX_IMAGE_BUILD: the commit of class `k` builds the frames of its TX_IMAGE mailboxes (R409). -/
def State.canBuild (s : State) (k : Nat) : State :=
  each (s.mbsOf mbTxImage k) s (fun s x =>
    let p := x.1
    let m := x.2
    let fdf := s.flag (CAN_MB_CFG_FDF p m)
    let dlc := s.fget (CAN_MB_CFG_DLC p m)
    let f : CanFrame :=
      { id := BitVec.ofNat 29 (s.fget (CAN_MB_TXID_ID p m)), ide := s.flag (CAN_MB_CFG_IDE p m), rtr := false, fdf := fdf,
        brs := s.flag (CAN_MB_CFG_BRS p m), esi := s.fget (CAN_PSTAT_STATE p) == 1, dlc := BitVec.ofNat 4 dlc,
        data := s.frameData (s.frameEntries 5 p m) (dlcLen fdf dlc) }
    s.setMb p m { s.mb p m with image := some f })

/-- At the emit instant of class `k`, the built frames become pending with the launch time (R409). -/
def State.canEmit (s : State) (k launch : Nat) : State :=
  each (s.mbsOf mbTxImage k) s (fun s x =>
    match (s.mb x.1 x.2).image with
    | some f => s.mbPend x.1 x.2 f launch
    | none => s)

end Sys2Proof.Machine
end

