-- ==== Sys2Proof/Machine/SeLoad.lean ====
section
/-!
DEFINITION. The load of the signal engines and the engine that runs a pipeline (R188, R191, R192).
-/
namespace Sys2Proof.Machine

/-- A rate as numerator and denominator. -/
abbrev Rate : Type := Nat × Nat

def rateAdd (a b : Rate) : Rate :=
  let n := a.1 * b.2 + b.1 * a.2
  let d := a.2 * b.2
  let g := Nat.gcd n d
  (n / g, d / g)

/-- Lane operations per second of a list of stages whose input has rate `r` (R192). -/
def stagesLoad (r : Rate) : List Stage → Rate
  | [] => (0, 1)
  | .dec d h :: l => rateAdd (h.length * r.1, r.2 * d) (stagesLoad (r.1, r.2 * d) l)
  | x :: l => rateAdd (stageCost x * r.1, r.2) (stagesLoad r l)

/-- The product of the decimation factors of a pipeline (R182). -/
def decProduct (l : List Stage) : Nat :=
  l.foldl (fun n x => match x with
    | .dec d _ => n * d
    | _ => n) 1

/-- The classes whose entries take the value of the pipeline of channel `n` as of t0. -/
def State.readers (s : State) (n : Nat) : List Nat :=
  s.classesOn.filter (fun k => s.validEntries.any (fun e =>
    hInput e.2 && hSrctype e.2 == 1 && hInstance e.2 == n && hClass e.2 == k && decide (hByteofs e.2 < 8)))

/-- The class of the output entry of channel `n`. -/
def State.ucOutClass (s : State) (n : Nat) : Option Nat :=
  (s.validEntries.find? (fun e => hKind e.2 == 4 && hSrctype e.2 == 1 && hInstance e.2 == n)).map (fun e => hClass e.2)

/-- The load of one pipeline: an input pipeline with four operations for each value as of t0, an output pipeline once per cycle of
its class. The frame rate of a remote pipeline is not configured, and it counts with the rate 0 that its RATE holds. -/
def State.pipeLoad (s : State) (p : Nat) : Rate :=
  let l := (s.pipe p).stages
  if 16 ≤ p then (0, 1)
  else if ucInput (s.ucMode p) then
    (s.readers p).foldl (fun u k => rateAdd u (4000000, s.period k)) (stagesLoad (400000, 1) l)
  else if ucOutput (s.ucMode p) then
    match s.ucOutClass p with
    | some k => stagesLoad (1000000, s.period k) l
    | none => (0, 1)
  else (0, 1)

/-- U of engine `k` with the pipelines that it runs now (R192). -/
def State.engineLoad (s : State) (k : Nat) : Rate :=
  ((List.range 256).filter (fun p => s.flag (SE_PIPE_CFG_EN p) && s.hostOf p == k &&
    !s.flag (SE_PIPE_STAT_SUBST_HOLD p))).foldl (fun u p => rateAdd u (s.pipeLoad p)) (0, 1)

def rateLe (a b : Rate) : Bool := decide (a.1 * b.2 ≤ b.1 * a.2)

/-- The limit of R192. -/
def withinLimit (u : Rate) : Bool := rateLe u (1500000000, 1)

/-- CONFIGURED, and SE_LOAD of every engine in units of 10⁶ rounded up. -/
def State.showLoad (s : State) : State :=
  each (List.range 8) (s.fput SE_STAT_CONFIGURED (maskOf ((List.range 8).filter s.seConfigured))) (fun s k =>
    let u := s.engineLoad k
    s.fput (SE_LOAD_LOAD_M k) ((u.1 + u.2 * 1000000 - 1) / (u.2 * 1000000)))

/-- The healthy engines with the lowest load. -/
def State.leastLoaded (s : State) : List Nat :=
  let up := (List.range 8).filter (fun k => !s.seFailed k)
  up.filter (fun k => up.all (fun j => rateLe (s.engineLoad k) (s.engineLoad j)))

/-- Pipeline `p`, whose engine `old` has failed, goes to engine `k`, or nowhere (R191). -/
def State.hostPipe (s : State) (p old : Nat) : Option Nat → State
  | some k =>
    if withinLimit (rateAdd (s.engineLoad k) (s.pipeLoad p)) then
      ((s.setFlag (SE_PIPE_STAT_SUBST_HOLD p) false).fput (SE_PIPE_STAT_HOST p) k).raise 0x0503 p
        (leBytes 2 p ++ leBytes 1 old ++ leBytes 1 k)
    else (s.setFlag SE_EVT_UNASSIGNED true).raise 0x0504 p (leBytes 2 p ++ leBytes 1 old)
  | none => (s.setFlag SE_EVT_UNASSIGNED true).raise 0x0504 p (leBytes 2 p ++ leBytes 1 old)

/-- A pipeline whose engine has failed moves to the healthy engine with the lowest load, while that engine stays within the limit;
which of several is left open. A pipeline that fits nowhere stays on substitute values (R191). -/
def State.reassignPipe (s : State) (p : Nat) : State :=
  let old := s.hostOf p
  let s := s.setFlag (SE_PIPE_STAT_SUBST_HOLD p) true
  let best := s.leastLoaded
  let c := s.choose best.length
  c.1.hostPipe p old best[c.2]?

/-- At every restart the pipelines of failed engines are assigned in index order (R191). -/
def State.reassign (s : State) : State :=
  (each ((List.range 256).filter (fun p => s.flag (SE_PIPE_CFG_EN p) && s.seFailed (s.hostOf p))) s State.reassignPipe).showLoad

end Sys2Proof.Machine
end

