-- ==== Sys2Proof/Machine/Universal.lean ====
section
/-!
DEFINITION. The universal analogue channels: link, input conditions, outputs and diagnostics (R201 to R235).
-/
namespace Sys2Proof.Machine

/-! ## Records (R204) -/

/-- The band of a current input with hysteresis towards GOOD: low thresholds in rising order with the band below each,
high thresholds with the band above each, outermost last (R211). Currents in nA. -/
def currentBand (lows highs : List (Int × Nat)) (old : Nat) (i : Int) : Nat :=
  match lows.find? (fun t => decide (i < t.1) || (decide (old ≤ t.2) && decide (i < t.1 + 50000))) with
  | some t => t.2
  | none =>
    match highs.reverse.find? (fun t => decide (t.1 < i) || (decide (t.2 ≤ old) && decide (t.1 - 50000 < i))) with
    | some t => t.2
    | none => 3

/-- The thresholds of R211 for a mode; none where the mode is no current input. -/
def bandLimits (mode : Nat) : Option (List (Int × Nat) × List (Int × Nat)) :=
  if mode = 0x0A ∨ mode = 0x0B then
    some ([(200000, 0), (3600000, 1), (3800000, 2)], [(20500000, 4), (21000000, 5)])
  else if mode = 0x08 ∨ mode = 0x09 then some ([(-200000, 1)], [(20500000, 4), (24000000, 5)])
  else none

def bandQuality (b : Nat) : Nat := if b = 3 then qGood else if b = 2 ∨ b = 4 then qUncertain else qBad

/-- Judge the t0 value of a current input (R211). -/
def State.judgeBand (s : State) (n : Nat) (i : Int) : State :=
  match bandLimits (s.ucMode n) with
  | none => s
  | some (lows, highs) =>
    let b := currentBand lows highs (s.uc n).band i
    let s := s.modUc n (fun u => { u with band := b })
    let d := s.fget (UC_STAT_DIAG n)
    let d := bitsPut (bitsPut (bitsPut d 2 1 (if b = 0 then 1 else 0)) 4 1 (if b = 1 then 1 else 0)) 5 1
      (if b = 5 then 1 else 0)
    s.setDiag n d

/-- The pipeline record of a channel as of a t0 of class `k`, with the input conditions of the front end (R187, R211, R212). -/
def State.ucSample (s : State) (n k t0 : Nat) : Option (State × Sample) :=
  match s.valueAt n k t0 with
  | none => none
  | some x =>
    let s := (s.countG 0x45 4).judgeBand n x.value
    let b := (s.uc n).band
    let q := if (bandLimits (s.ucMode n)).isSome then bandQuality b else qGood
    some (s, { x with quality := BitVec.ofNat 2 (worse (worse x.quality.toNat q) (s.ucQuality n)),
                      ovr := x.ovr || (s.uc n).adcOver || b == 2 || b == 4 })

/-- The 16-byte record of channel `n` with pipeline record `rec8` and secondary value `second` (R204). -/
def State.ucRecord (s : State) (n : Nat) (rec8 second : List Byte) : List Byte :=
  rec8 ++ second ++ leBytes 2 (s.fget (UC_VT_VT_MV n)) ++
    leBytes 1 (s.fget (UC_STAT_DIAG n)) ++ leBytes 1 (s.fget (UC_STAT_RBQ n))

/-! ## Link and front end -/

/-- The channel's records take quality BAD (R202). -/
def State.ucBad (s : State) (n : Nat) : State := (s.pipeBad n).fput (UC_STAT_RBQ n) qBad

/-- UC_LINK_LOSS: the module finds the link of channel `n` lost (R202, R235). -/
def execUcLinkLoss (n : Fin 16) (s : State) : Out :=
  if s.flag (UC_STAT_ONLINE n) then
    let s := (s.modUc n (fun u => { u with word := s.mode })).setFlag (UC_STAT_ONLINE n) false
    let s := (s.setFlag (UC_EVT_LINKDOWN n) true).ucBad n
    .next (s.raise 0x0601 n (leBytes 1 n ++ leBytes 1 0))
  else .next s

/-- The raw full scale of an output mode, in µV or nA (R205). -/
def ucFull (mode : Nat) : Int := if mode = 0x30 then 12500000 else 25000000

/-- The DAC code of an output: the Q31 fraction of the raw full scale, the user trim and the factory calibration, by the formula
of the inputs (R203). DEDUCED: assumption 43. -/
def State.dacCode (s : State) (n : Nat) (v : Int) : Int :=
  let x := s.userTrim n (seLimit (t0Alpha v (ucFull (s.ucMode n))))
  seLimit (seRound (x * (s.uc n).gf) 30 + (s.uc n).ofs)

/-- The output of a channel takes a value now because of row `row` of R216; a new row keeps the output before it. A front end that
runs gives its DAC the code of the value (R203). DEDUCED: assumption 43. -/
def State.ucDrive (s : State) (n row : Nat) (v : Int) : State :=
  s.modUc n (fun u => { u with out := v, hold := if u.row = row then u.hold else u.out, row := row,
                               dac := if row < 3 then u.dac else s.dacCode n v })

/-- BROWNOUT: the terminal voltage of a loop-powered output falls below 6.5 V, and its front end stops with the last command that it
has received in its retention register (R216 row 2, R219 to R221). -/
def execBrownout (n : Fin 16) (vt : Int) (s : State) : Out :=
  if s.ucMode n = 0x3A ∧ (s.uc n).running ∧ vt < 6500 then
    let s := s.modUc n (fun u => { u with running := false, cmdNext := none, retained := match u.cmdNext with
                                                                                          | some c => some c.1
                                                                                          | none => u.cmd })
    let s := (s.fput (UC_VT_VT_MV n) (intBits 16 vt)).fput (UC_STAT_RBQ n) qBad
    .next (s.ucDrive n 2 (s.ucIdle n))
  else .next s

/-- FRONT_END_RESTART: a browned-out front end runs again when its terminal voltage is 7.0 V or above. With its
retention register intact it applies the held command at once, otherwise it drives 3.6 mA (R221).
DEDUCED: assumption 43. -/
def execFrontEndRestart (n : Fin 16) (vt : Int) (intact : Bool) (s : State) : Out :=
  let u := s.uc n
  if s.ctl.held || s.mode == mPowerUp || s.mode == mLoad then .next s
  else if s.ucMode n = 0x3A ∧ u.running = false ∧ s.flag (UC_STAT_FMT_OK n) ∧ 7000 ≤ vt then
    let held := intact && u.retained.isSome
    let v : Int := if held then u.retained.getD 0 else 3600000
    let s := s.modUc n (fun u => { u with running := true, out := v, hold := u.out, row := 8, dac := s.dacCode n v,
                                          cmd := if held then u.retained else some v, cmdAt := s.tbNat })
    let s := (s.fput (UC_VT_VT_MV n) (intBits 16 vt)).fput (UC_STAT_DIAG n) 0
    let s := (s.fput (UC_RDBK_VALUE n) (intBits 32 v)).setFlag (UC_STAT_RETAINED n) held
    let s := s.fput (UC_STAT_RBQ n) (if u.calOk then qGood else qUncertain)
    let s := ((s.setFlag (UC_STAT_ONLINE n) true).setFlag (UC_EVT_LINKUP n) true).satBump (UC_RESTARTS_COUNT n) 1
    .next (s.raise 0x0602 n (leBytes 1 n ++ leBytes 1 (if held then 1 else 0) ++
      leBytes 4 (s.fget (UC_RESTARTS_COUNT n))))
  else .next s

/-! ## Outputs (R214 to R217) -/

/-- The output that a selection gives (R215). `value` is the stop or the safe value, `off` what OFF leaves. -/
def ucSelect (sel : Nat) (hold value off : Int) : Int :=
  match sel with
  | 0 => off
  | 1 => hold
  | 2 => value
  | 3 => 3600000
  | 4 => 21000000
  | _ => off

/-- The command range of an output mode (R214). -/
def ucRange (mode : Nat) : Int × Int :=
  if mode = 0x30 then (-10500000, 10500000)
  else if mode = 0x38 then (0, 21000000)
  else (3800000, 20500000)

/-- The output entry of channel `n` (R214). -/
def State.ucOutEntry (s : State) (n : Nat) : Option (Nat × HEntry) :=
  s.validEntries.find? (fun e => hKind e.2 == 4 && hSrctype e.2 == 1 && hInstance e.2 == n)

/-- The module mode as the front end of channel `n` knows it: from the mode word of its link, or from the last one that came
(R202, R216). -/
def State.modeWord (s : State) (n : Nat) : Nat := if s.flag (UC_STAT_ONLINE n) then s.mode else (s.uc n).word

/-- Channel `n` is not shared, and in TRACK or after a takeover it stays at its stop selection (R322, R330). -/
def State.ucStops (s : State) (n : Nat) : Bool :=
  !s.flag (UC_MODE_SHARED n) &&
    match s.ucOutEntry n with
    | some (_, e) => s.tkoStops e || (s.modeWord n == mTrack && !s.tkoMirror e)
    | none => s.modeWord n == mTrack || !s.red.tkoLeft.isEmpty

/-- The front ends are under maintenance: in SERVICE their boot loaders are replaced (R272, R507). -/
def State.frontMaintenance (s : State) : Bool := s.mode == mService && s.upd.privKind == some 4

/-- The shared current of the outgoing unit of a handover ramps down, in STOP too (R330, R331, R333). -/
def State.rampsDown (s : State) (n : Nat) : Bool :=
  s.red.ungated && s.flag (UC_MODE_SHARED n) &&
    match (s.uc n).fade with
    | some f => !f.up
    | none => false

/-- The row of R216 that holds for channel `n`. -/
def State.ucRow (s : State) (n : Nat) : Nat :=
  let m := s.modeWord n
  if s.ctl.held then 1
  else if s.supply.resetN.isSome || !(s.uc n).running || s.ucMode n == 0 || s.mode == mPowerUp || s.mode == mLoad ||
      s.mode == mDormant || s.frontMaintenance then 2
  else if m == mSafe || m == mLockout || m == mService then 3
  else if s.rampsDown n then 5
  else if m == mStop || s.ucStops n then 4
  else if s.fget RED_STAT_ROLE == 2 && s.flag (UC_MODE_SHARED n) then 5
  else if s.diagBit n 6 then 6
  else if (s.uc n).cmdBad then 7
  else 8

/-- A committed image word (R102). -/
def State.imgWord (s : State) (off : Nat) : Word :=
  BitVec.ofNat 32 (leNat ((List.range 4).map (fun i => imgGet s.img (off + i))))

/-- The output pipeline of channel `n` on its committed value; the command goes to the front end for the next emit, and
its arrival ends a command loss at that emit (R186, R214). -/
def State.ucOutputPipe (s : State) (n : Nat) (e : HEntry) : State :=
  if s.pipeRuns n && ucOutput (s.ucMode n) then
    let off := itemOff 4 (hBase e)
    let bad := (s.swGet (hSwidx e)).toNat % 4 = qBad
    let r := s.runPipe n 0 (s.imgWord off).toInt
    match r.2 with
    | none => r.1
    | some o =>
      let lim := ucRange (s.ucMode n)
      let v := max lim.1 (min lim.2 o.x)
      let s := r.1.pushSample n { stamp := s.stampNow, value := v, alarms := o.alarms,
                                  quality := BitVec.ofNat 2 (s.ucBest n), ovr := o.ovr || v != o.x }
      let s := s.fput (UC_CMDLAST_CMD n) (intBits 32 v)
      if s.flag (UC_STAT_ONLINE n) then
        s.modUc n (fun u => { u with cmdNext := some (v, bad), cmdAt := s.tbNat })
      else s
  else s

/-- What a cross-fade or ramp makes of command `v` now, in steps of 10 µs (R330, R331). -/
def State.faded (s : State) (f : Fade) (v : Int) : Int :=
  let k := min f.dur ((s.tbNat - f.from_) / 10 * 10)
  if f.up then v * (k : Int) / ((max f.dur 1 : Nat) : Int)
  else f.cmd * ((f.dur - k : Nat) : Int) / ((max f.dur 1 : Nat) : Int)

/-- A fade that has reached its end. -/
def State.fadeOver (s : State) (f : Fade) : Bool := decide (f.from_ + f.dur ≤ s.tbNat)

/-- The housekeeping current that selection OFF leaves in a loop-powered output, at most 3.0 mA and open (R215, R219). -/
def State.ucKeeping (s : State) (n : Nat) : Int :=
  if s.ucMode n = 0x3A then ((min 3000000 (Config.loopDraw n s.tbNat) : Nat) : Int) else 0

/-- What row `row` of R216 gives channel `n` (R215, R216, R313, R330, R331). -/
def State.ucValue (s : State) (n row : Nat) (hold : Int) : Int :=
  let u := s.uc n
  let stopv := sgn 32 (s.fget (UC_STOPVAL_STOPVAL n))
  let safev := sgn 32 (s.fget (UC_SAFEVAL_SAFEVAL n))
  let off := s.ucKeeping n
  if s.gated && s.flag (UC_MODE_SHARED n) then 0
  else match row with
    | 1 => s.ucIdle n
    | 2 => s.ucIdle n
    | 3 => ucSelect (s.fget (UC_FAILSEL_SAFE_SEL n)) hold safev off
    | 4 => ucSelect (s.fget (UC_FAILSEL_STOP_SEL n)) hold stopv off
    | 5 => match u.fade with
      | some f => if f.up then 0 else s.faded f 0
      | none => 0
    | 6 => ucSelect (s.fget (UC_FAILSEL_LOSS_SEL n)) hold safev off
    | 7 => ucSelect (s.fget (UC_FAILSEL_BADQ_SEL n)) hold safev off
    | _ => match u.fade with
      | some f => s.faded f (u.cmd.getD 0)
      | none => u.cmd.getD 0

/-- The emit of channel `n`: a delivered command becomes the command, a command loss ends with it, and the row that
holds decides the output (R215, R216, R217). -/
def State.ucEmit (s : State) (n : Nat) : State :=
  if ucOutput (s.ucMode n) then
    let s := match (s.uc n).cmdNext with
      | none => s
      | some (v, bad) =>
        let old := (s.uc n).cmd.getD 0
        let s := s.modUc n (fun u => { u with cmd := some v, cmdBad := bad, cmdNext := none,
                                              stepAt := if 20000 < (v - old).natAbs then s.tbNat else u.stepAt })
        s.setDiagBit n 6 false
    let u := s.uc n
    let row := s.ucRow n
    let hold := if u.row = row then u.hold else u.out
    let s := if row < 5 then s.modUc n (fun u => { u with fade := none }) else s
    s.ucDrive n row (s.ucValue n row hold)
  else s

/-- CROSS_FADE_STEP: a front end in a cross-fade or ramp recomputes k and drives its share; at the end of the fade the
incoming unit drives its command and the outgoing unit 0 mA (R330, R331). DEDUCED: assumption 43. -/
def execCrossFadeStep (n : Fin 16) (s : State) : Out :=
  match (s.uc n).fade with
  | none => .next s
  | some f =>
    let u := s.uc n
    let s1 := s.ucDrive n u.row (s.ucValue n u.row u.hold)
    .next (if s.fadeOver f then s1.modUc n (fun u => { u with fade := none }) else s1)

/-- COMMAND_LOSS: no command has arrived for TMO_MS; CMDLOSS is set, and LOSS_SEL applies from the next emit (R216,
R217). The event is raised only while the link is up. -/
def execCommandLoss (n : Fin 16) (s : State) : Out :=
  let u := s.uc n
  if ucOutput (s.ucMode n) && u.running && !s.diagBit n 6 &&
      decide (u.cmdAt + 1000 * s.fget (UC_CMDTMO_TMO_MS n) ≤ s.tbNat) then
    if s.flag (UC_STAT_ONLINE n) then .next (s.setDiagBit n 6 true)
    else .next (s.fput (UC_STAT_DIAG n) (bitsPut (s.fget (UC_STAT_DIAG n)) 6 1 1))
  else .next s

/-! ## Diagnostics (R211, R212, R220, R222, R223) -/

/-- A flag judged on three samples: set when all set it, cleared when all clear it. -/
def threeJudge (old : Bool) (l : List LoopSample) (set clear : LoopSample → Bool) : Bool :=
  if l.all set then true else if l.all clear then false else old

/-- DIAG_CHANGE: the front end judges three consecutive samples, 1 ms apart and the last one now, of terminal voltage and loop
current of an output (R220, R222, R223). The shortfall and OPEN tests rest for 2 ms after a command change of more than 20 µA: a
sample within them does not count. -/
def execDiagChange (n : Fin 16) (a b c : LoopSample) (s : State) : Out :=
  let mode := s.ucMode n
  let u := s.uc n
  if (mode = 0x38 ∨ mode = 0x39 ∨ mode = 0x3A) ∧ u.running ∧ s.flag (UC_STAT_ONLINE n) then
    let l := [a, b, c]
    let rest := decide (s.tbNat ≤ u.stepAt + 4000)
    let low := if mode = 0x3A then
        threeJudge (s.diagBit n 0) l (fun x => decide (x.vt < 10000)) (fun x => decide (10200 ≤ x.vt))
      else s.diagBit n 0
    let opn := if mode ≠ 0x3A ∧ rest = false then
        threeJudge (s.diagBit n 2) l (fun x => decide (x.cur < 200000 ∧ 20000 < u.out - x.cur))
          (fun x => decide (400000 ≤ x.cur))
      else s.diagBit n 2
    let comp := if rest then s.diagBit n 1
      else threeJudge (s.diagBit n 1) l
        (fun x => decide (20000 < u.out - x.cur ∧ (mode = 0x3A ∨ 200000 ≤ x.cur)))
        (fun x => decide (u.out - x.cur ≤ 10000))
    let d := s.fget (UC_STAT_DIAG n)
    let d := bitsPut (bitsPut (bitsPut d 0 1 (if low then 1 else 0)) 1 1 (if comp then 1 else 0)) 2 1
      (if opn then 1 else 0)
    let s := (s.fput (UC_RDBK_VALUE n) (intBits 32 c.cur)).fput (UC_VT_VT_MV n) (intBits 16 c.vt)
    let s := s.fput (UC_STAT_RBQ n) (worse (s.ucBest n) (if opn then qBad else if comp then qUncertain else qGood))
    .next (s.setDiag n d)
  else .next s

/-- The raw value of 5 Ω in a resistance-thermometer mode (R205, R212). PRESUMED: assumption 9. -/
def rtdShortRaw (mode : Nat) : Int := if mode = 0x10 ∨ mode = 0x12 then 5 * 2 ^ 31 / 625 else 5 * 2 ^ 31 / 6250

/-- ADC_OVERRANGE: the raw ADC value of an input mode has stood at `x` for `us` µs. At full scale for more than 1 ms the quality is
BAD with OVR; at +RFS a lead of an RTD or a thermocouple is open at once; an RTD below 5 Ω is short; any other value ends these
conditions (R212). -/
def execAdcOverrange (n : Fin 16) (x : BitVec 32) (us : Nat) (s : State) : Out :=
  let mode := s.ucMode n
  if ucInput mode && (s.uc n).running then
    let top := x.toInt == 2 ^ 31 - 1
    let full := (top || x.toInt == -(2 ^ 31)) && decide (1000 < us)
    let short := ucRtd mode && decide (x.toInt < rtdShortRaw mode)
    let opn := top && (ucRtd mode || ucTc mode)
    let s := s.modUc n (fun u => { u with adcOver := full, short := if ucRtd mode then short else u.short })
    if ucRtd mode || ucTc mode then
      .next ((s.setDiagBit n 2 opn).setDiagBit n 3 short)
    else .next s
  else .next s

/-- LOOP_SHORT: in an active current-input mode, the loop supply at its 25 mA limit with V_T below 1.0 V for 1 ms is a
short; otherwise the condition ends (R211). -/
def execLoopShort (n : Fin 16) (vt : Int) (atLimit : Bool) (us : Nat) (s : State) : Out :=
  let mode := s.ucMode n
  if (mode = 0x09 ∨ mode = 0x0B) ∧ (s.uc n).running ∧ s.flag (UC_STAT_ONLINE n) then
    let short := atLimit && decide (vt < 1000) && decide (1000 ≤ us)
    let s := (s.modUc n (fun u => { u with short := short })).fput (UC_VT_VT_MV n) (intBits 16 vt)
    .next (s.setDiagBit n 3 short)
  else .next s

/-- VOLTAGE_OUTPUT_SHORT: a voltage output that holds its 25 mA limit for 1 ms sets SHORT, and its readback is BAD;
otherwise the condition ends (R222). -/
def execVoltageOutputShort (n : Fin 16) (atLimit : Bool) (us : Nat) (s : State) : Out :=
  if s.ucMode n = 0x30 ∧ (s.uc n).running ∧ s.flag (UC_STAT_ONLINE n) then
    let short := atLimit && decide (1000 ≤ us)
    .next ((s.fput (UC_STAT_RBQ n) (if short then qBad else s.ucBest n)).setDiagBit n 3 short)
  else .next s

/-- COLD_JUNCTION_RESTORE: the cold-junction sensor has read within -40 to +85 °C for 10 s; its value is used again
(R213). -/
def execColdJunctionRestore (n : Fin 16) (temp : Int) (us : Nat) (s : State) : Out :=
  if ucTc (s.ucMode n) ∧ (s.uc n).cjBad ∧ -40000 ≤ temp ∧ temp ≤ 85000 ∧ 10000000 ≤ us then
    let s := s.modUc n (fun u => { u with cj := temp + u.cjOfs, cjBad := false })
    .next (s.setDiagBit n 7 (s.coldJunction n).2)
  else .next s

end Sys2Proof.Machine
end

