-- ==== Sys2Proof/Machine/Watchdog.lean ====
section
/-!
DEFINITION. The watchdog: periods, tokens, judgement and escalation (R429 to R437).
-/
namespace Sys2Proof.Machine

def State.wslot (s : State) (n : Nat) : WdgSlot := tget WdgSlot.reset s.wdg n
def State.setWslot (s : State) (n : Nat) (x : WdgSlot) : State := { s with wdg := tset WdgSlot.reset s.wdg n x }

/-- CK_TB ticks of 1 µs: 500 CK_FAB clocks (R19, R430). -/
def State.wtick (s : State) : Nat := s.fab / 500

/-- The token after `t` (R432). -/
def nextToken (t : BitVec 16) : BitVec 16 :=
  let b := xor (xor (t.getLsbD 15) (t.getLsbD 13)) (xor (t.getLsbD 12) (t.getLsbD 10))
  t * 2 + (if b then 1 else 0)

def wdgFaultEarly : Nat := 0
def wdgFaultMissing : Nat := 1
def wdgFaultDouble : Nat := 2
def wdgFaultToken : Nat := 3

/-- Class slots are suspended where their class does not weave (R433). -/
def State.wdgSuspended (s : State) : Bool := !modeExecutes s.mode || s.redState == stHandoverOut

def State.wdgEnabled (s : State) (n : Nat) : Bool := s.flag (WDG_SLOT_CFG_EN n)

def State.wdgArmed (s : State) (n : Nat) : Bool :=
  s.flag (WDG_SLOT_STAT_ARMED n) && (decide (24 ≤ n) || !s.wdgSuspended)

/-- The period of a slot in ticks (R429). -/
def State.wdgPeriod (s : State) (n : Nat) : Nat :=
  if n < 24 then s.fget (WDG_SLOT_P_PER n) * s.period (s.fget (WDG_SLOT_CFG_CLASS n)) else s.fget (WDG_SLOT_P_PER n)

/-- A slot is armed now: its token sequence begins again (R430, R432). -/
def State.wdgArm (s : State) (n : Nat) (cyc : BitVec 64) : State :=
  let x := s.wslot n
  let s := s.setWslot n { x with start := s.wtick, startCyc := cyc, seen := false, clean := false, await := false,
                                 expected := nextToken (BitVec.ofNat 16 (s.fget (WDG_SLOT_SEED_SEED n))) }
  (s.setFlag (WDG_SLOT_STAT_ARMED n) true).setFlag (WDG_SLOT_STAT_REARM n) true

def State.wdgDisarm (s : State) (n : Nat) (await : Bool) : State :=
  (s.setWslot n { s.wslot n with await := await }).setFlag (WDG_SLOT_STAT_ARMED n) false

/-- The slots of class `k` that the configuration registers. -/
def State.classSlots (s : State) (k : Nat) : List Nat :=
  (List.range 24).filter (fun n => s.wdgEnabled n && s.fget (WDG_SLOT_CFG_CLASS n) == k)

/-- A t0 of class `k` for its slots: the first executed one arms them all, a slot that waits after a fault is armed at
any t0, and where the class does not weave they are suspended (R433, R434). -/
def State.wdgCycle (s : State) (k : Nat) (first : Bool) : State :=
  let cyc := (s.cls k).cyc
  each (s.classSlots k) s (fun s n =>
    if s.wdgSuspended then s.wdgDisarm n false
    else if first || (s.wslot n).await then s.wdgArm n cyc
    else s)

/-- The slots that are armed and have had no check-in in their current period (R434). -/
def State.wdgOutstanding (s : State) : Nat :=
  maskOf ((List.range 32).filter (fun n => s.wdgArmed n && !(s.wslot n).seen))

/-- The module restarts of the last 24 h (R435). -/
def State.rst24 (s : State) : Nat :=
  (s.keep.restarts.filter (fun t =>
    decide ((s.rtc.count + 2 ^ 48 - t) % 2 ^ 48 < 2831155200))).length

/-- A module restart is recorded when its reset is made (R435). -/
def State.recordRestart (s : State) : State :=
  { s with keep := { s.keep with restarts := (s.rtc.count :: s.keep.restarts).take 7 } }

/-- The lifetime count of watchdog restarts and its quickset counter: counter 0 is taken for it (R435, DESIGN CHOICE, assumption
18). -/
def State.countRestart (s : State) : State :=
  let s := s.satBump WDG_RSTTOT_TOTAL 1
  let q := tget Qs.reset s.qs 0
  { s with qs := tset Qs.reset s.qs 0 { q with pending := q.pending + 1 } }

/-- A level-2 trigger of slot `n`: LOCKOUT when enough restarts are recorded, otherwise a warm reset (R434, R435). -/
def State.wdgEscalate (s : State) (n : Nat) : State :=
  let r := s.rst24
  if s.fget WDG_CFG_ESC_N ≤ r then
    (s.enterLockout 0x0D03).raise 0x0D03 n (leBytes 1 n ++ leBytes 1 r)
  else
    let s := s.recordRestart.countRestart
    (s.raise 0x0D02 n (leBytes 1 n ++ leBytes 1 s.rst24)).moduleReset rcWdg

/-- A slot faults (R434): the fault is shown, its event raised, and it acts at its level. DEDUCED: assumption 45. -/
def State.wdgFault (s : State) (n fault strand token : Nat) : State :=
  let out := s.wdgOutstanding
  let run := s.flag (WDG_SLOT_STAT_INRUN n)
  let up := run || n == 24
  let level := if up = false then 1 else if s.fget WDG_CFG_ESC_N ≤ s.rst24 then 3 else 2
  let s := (s.fput WDG_OUTST_MASK out).setBit WDG_FAULTSUM_FAULT n true
  let s := ((s.fput (WDG_SLOT_STAT_LASTFAULT n) fault).fput (WDG_SLOT_STAT_CLEAN n) 0).setFlag (WDG_SLOT_STAT_INRUN n) true
  let s := s.setWslot n { s.wslot n with since := 0 }
  let s := match s.upd.trial with
    | some t => { s with upd := { s.upd with trial := some { t with slotFault := true } } }
    | none => s
  let s := s.raise 0x0D01 (n * 4 + fault) (leBytes 1 n ++ leBytes 1 fault ++ leBytes 1 level ++
    leBytes 1 (if fault = wdgFaultMissing ∨ 24 ≤ n then 0xFF else strand) ++ leBytes 4 out ++ leBytes 2 token)
  if up then s.wdgEscalate n
  else if n < 24 then
    let k := s.fget (WDG_SLOT_CFG_CLASS n)
    let s := s.wdgDisarm n true
    each ((s.strandsOf k).filter (fun st => (s.strand st).run == .weaving)) s (fun s st => s.haltStrand st 1)
  else
    let s := s.wdgArm n 0
    s.setWslot n { s.wslot n with thread := some s.wtick }

/-- Whether the current period of an armed slot has closed (R430). -/
def State.wdgClosed (s : State) (n : Nat) : Bool :=
  let x := s.wslot n
  if n < 24 then
    decide (s.fget (WDG_SLOT_P_PER n) ≤ ((s.cls (s.fget (WDG_SLOT_CFG_CLASS n))).cyc - x.startCyc).toNat)
  else decide (x.start + s.wdgPeriod n ≤ s.wtick)

/-- The period of slot `n` closes: a clean one may end the fault run, and one without a check-in is MISSING; a class slot
that misses at a t0 is armed again at that t0 (R431, R434). -/
def State.wdgClose (s : State) (n : Nat) : State :=
  let x := s.wslot n
  if x.seen then
    let s := s.satBump (WDG_SLOT_STAT_CLEAN n) 1
    let s := if s.fget WDG_CFG_ESC_WIN ≤ x.since + 1 then s.setFlag (WDG_SLOT_STAT_INRUN n) false else s
    s.setWslot n { x with seen := false, clean := false, since := x.since + 1,
                          start := if n < 24 then s.wtick else x.start + s.wdgPeriod n,
                          startCyc := x.startCyc + BitVec.ofNat 64 (s.fget (WDG_SLOT_P_PER n)) }
  else
    let up := s.flag (WDG_SLOT_STAT_INRUN n) || n == 24
    let s := s.wdgFault n wdgFaultMissing 0xFF 0
    if up || decide (24 ≤ n) then s else s.wdgArm n (s.cls (s.fget (WDG_SLOT_CFG_CLASS n))).cyc

/-- WATCHDOG_PERIOD_END: the period of a slot has reached its closing tick (R430, R431). -/
def execWatchdogPeriodEnd (slot : Fin 32) (s : State) : Out :=
  if !s.ctl.held && s.mode != mDormant && s.wdgArmed slot && s.wdgClosed slot then .next (s.wdgClose slot)
  else .next s

/-- A check-in to an armed slot is judged in the tick in which it arrives (R431, R432). -/
def State.wdgJudge (s : State) (n strand token : Nat) : State :=
  let s := if s.wdgClosed n then s.wdgClose n else s
  if !s.wdgArmed n then s
  else
    let x := s.wslot n
    if x.seen then s.wdgFault n wdgFaultDouble strand token
    else
      let s := s.setWslot n { x with seen := true }
      if s.wtick < x.start + s.wdgPeriod n * s.fget (WDG_SLOT_CFG_OPEN_PCT n) / 100 then
        s.wdgFault n wdgFaultEarly strand token
      else if token ≠ x.expected.toNat then s.wdgFault n wdgFaultToken strand token
      else
        (s.setWslot n { x with seen := true, clean := true, thread := none,
                               expected := nextToken x.expected }).setFlag (WDG_SLOT_STAT_REARM n) false

/-- CHKIN Ws (R139, R431, R433): a slot that is not registered to the strand's class is a permission trap; a check-in of
trial code or to a slot that is not armed has no effect. -/
def execChkin (st a : Fin 16) (s : State) : Out :=
  dx s st (.chkin st a) .other (fun t =>
    let v := (t.strand st).w.get a
    let n := v.toNat / 2 ^ 16 % 32
    let k := (t.cfg st).cls
    if 24 ≤ n ∨ t.wdgEnabled n = false ∨ t.fget (WDG_SLOT_CFG_CLASS n) ≠ k then .trap t trSysPerm
    else if t.onTrial k || !t.wdgArmed n then .ok t none
    else
      let u := t.wdgJudge n st (v.toNat % 2 ^ 16)
      if (u.strand st).run = .weaving ∧ u.mode = t.mode then .ok u none else .done u)

/-- STEWARD_CHECK_IN: a thread of the steward writes its check-in (R431). -/
def execStewardCheckIn (slot : Fin 32) (token : BitVec 16) (s : State) : Out :=
  if !s.ctl.held && s.mode != mDormant && decide (24 ≤ slot.val) && s.wdgEnabled slot && s.wdgArmed slot then
    .next (s.wdgJudge slot 0xFF token.toNat)
  else .next s

/-- THREAD_RESTART_TIMEOUT: the restart of a steward thread at level 1 has not been confirmed within 10 ms. Its next
clean check-in is taken as the confirmation (R434, DESIGN CHOICE, assumption 18). -/
def execThreadRestartTimeout (slot : Fin 32) (s : State) : Out :=
  match (s.wslot slot).thread with
  | some t =>
    if !s.ctl.held && s.mode != mDormant && decide (t + 10000 ≤ s.wtick) then
      .next ((s.setWslot slot { s.wslot slot with thread := none }).wdgEscalate slot)
    else .next s
  | none => .next s

end Sys2Proof.Machine
end

