-- ==== Sys2Proof/Machine/Program.lean ====
section
/-!
DEFINITION. Program data: initial values, retentive ranges, the restart and what it does to memories, image, status words,
forces and retentive timers (R40, R69, R74, R277 to R280, R449, R546).
-/
namespace Sys2Proof.Machine

/-! ## Initial values and retentive ranges -/

/-- The initial values of committed edits, in the order of their records (R301, R304). -/
def State.editInits (s : State) : List EditInit :=
  (s.journal.filter (fun r => r.slot == s.activeSlot && r.mark == .committed)).flatMap (fun r => r.pkg.inits)

/-- The initial values of the image as bytes by offset: those of the configuration image, then those of edits. -/
def State.initImage (s : State) : List (Nat × Byte) :=
  (match s.config with
   | some c => c.initImg
   | none => []) ++
  s.editInits.flatMap (fun i => match i.place.dmem with
    | none => (i.bytes.zipIdx).map (fun b => (i.place.off + b.2, b.1))
    | some _ => [])

/-- The initial values of DMEM, as memory keys. -/
def State.initData (s : State) : List (Nat × Byte) :=
  (match s.config with
   | some c => c.initDmem.map (fun d => (keyDmem d.1.val d.2.1, d.2.2))
   | none => []) ++
  s.editInits.flatMap (fun i => match i.place.dmem with
    | some st => (i.bytes.zipIdx).map (fun b => (keyDmem st.val (i.place.off + b.2), b.1))
    | none => [])

/-- The bits of byte `i` that belong to a retentive range. DEDUCED: assumption 27. -/
def retMask (r : RetRange) (i : Nat) : Byte :=
  (if i = 0 then r.head else 0xFF) &&& (if i + 1 = r.len then r.tail else 0xFF)

/-- The byte of a retentive range at index `i` of the range, as the class holds it; bits outside the range read 0. -/
def State.retByte (s : State) (r : RetRange) (i : Nat) : Byte :=
  (match r.dmem with
   | some st => s.mget (keyDmem st (r.off + i))
   | none => imgGet s.img (r.off + i)) &&& retMask r i

/-- Put a byte of a retentive range back into the class's data. -/
def State.retPut (s : State) (r : RetRange) (i : Nat) (b : Byte) : State :=
  match r.dmem with
  | some st => s.mset (keyDmem st (r.off + i)) (overlay (s.mget (keyDmem st (r.off + i))) { mask := retMask r i, val := b })
  | none => { s with img := imgMask s.img (r.off + i) (retMask r i) b }

/-- All retentive bytes, by range. -/
def State.retBytes (s : State) : List (RetRange × List Byte) :=
  s.retMap.map (fun r => (r, (List.range r.len).map (s.retByte r)))

def State.retPutAll (s : State) (l : List (RetRange × List Byte)) : State :=
  each l s (fun s x => each x.2.zipIdx s (fun s b => s.retPut x.1 b.2 b.1))

/-- Retentive data as keep RAM holds it goes into the class's data (R279). -/
def State.retRestore (s : State) : State :=
  each s.retMap s (fun s r => each (List.range r.len) s (fun s i => s.retPut r i (s.mget (keyKeep (32 * r.granule + i)))))

/-- An offset of the input areas I and IW. -/
def inputArea (off : Nat) : Bool := decide (off < 0x8000 ∨ (0x40000 ≤ off ∧ off < 0x60000))

def isDmemKey (key : Nat) : Bool := decide (keyDmem 0 0 ≤ key ∧ key < keyScratch 0 0)

/-- A granule of DMEM or of the image, by its number among the granules that can read INTEG. -/
def isDataGranule (g : Nat) : Bool :=
  isDmemKey (32 * g) || decide (0x20000000 ≤ 32 * g ∧ 32 * g < 0x20180000)

/-- The granules that a retentive range touches. -/
def rangeHolds (r : RetRange) (g : Nat) : Bool :=
  let base := match r.dmem with
    | some st => keyDmem st r.off
    | none => 0x20000000 + r.off
  decide (base / 32 ≤ g ∧ g < (base + r.len + 31) / 32)

/-- Every strand's DMEM and every output and marker byte of the image take their initial values; the input areas stay. -/
def State.initProgram (s : State) : State :=
  let s := { s with mem := s.mem.filter (fun c => !isDmemKey c.1), img := s.img.filter (fun c => inputArea c.1) }
  let s := each s.initData s (fun s d => s.mset d.1 d.2)
  each (s.initImage.filter (fun d => !inputArea d.1)) s (fun s d => { s with img := imgSet s.img d.1 d.2 })

/-- The status words of output and marker entries: GOOD, age 0, FORCED as the forces give it (R546). -/
def State.initStatus (s : State) : State :=
  each (s.validEntries.filter (fun e => !hInput e.2)) s (fun s e =>
    s.swSet (hSwidx e.2) (swWord qGood false false false (s.entryForced e.2) false 0))

/-! ## Forces (R74) -/

/-- Event 0x0206 for a forced item: set or released, with the count after the change. -/
def State.forceEvent (s : State) (kind idx : Nat) (released : Bool) (v : Word) : State :=
  s.raise 0x0206 idx (leBytes 4 idx ++ leBytes 1 kind ++ leBytes 1 (if released then 1 else 0) ++
    leBytes 2 s.forces.length ++ leBytes 4 v.toNat)

/-- FORCED in the status word of the output or marker entry of an item, as its forces now are; an input entry takes it at the
shed (R72, R73). -/
def State.forceFlag (s : State) (kind idx : Nat) : State :=
  match s.entryOf kind idx with
  | some (_, e) =>
    if hInput e then s
    else s.swSet (hSwidx e) ((s.swGet (hSwidx e) &&& 0xFFDF) ||| (if s.entryForced e then 0x20 else 0))
  | none => s

/-- A forced output or marker item as every reader but its owner sees it, from the instant at which the force takes effect
(R72). -/
def State.forceShow (s : State) (kind idx : Nat) : State :=
  match s.entryOf kind idx with
  | some (_, e) =>
    if hInput e then s
    else
      let offs := if kind < 3 then [itemOff kind idx] else (List.range 4).map (itemOff kind idx + ·)
      let t : State := { s with forces := s.forces.filter (fun f => f.1 == forceKey kind idx) }
      ({ s with img := each offs s.img (fun m o => imgMask m o (t.forceByte o).mask (t.forceByte o).val) }).forceFlag kind idx
  | none => s

/-- Release one forced item at once. -/
def State.unforce (s : State) (kind idx : Nat) : State :=
  match s.forced kind idx with
  | none => s
  | some v => (({ s with forces := tdel s.forces (forceKey kind idx) }).forceFlag kind idx).forceEvent kind idx true v

def State.unforceAll (s : State) : State :=
  let s := each s.forces s (fun s f => s.unforce (f.1 / 2 ^ 24) (f.1 % 2 ^ 24))
  { s with forceReq := [] }

/-! ## The restart (R277) -/

/-- Retentive timers of the class that run: at a warm restart with RETTMR = 1 they start again when their start condition
is next seen (R280). DEDUCED: assumption 28. -/
def State.timersStop (s : State) : State :=
  match s.config with
  | none => s
  | some c => each c.timers s (fun s t => s.mset (keyDmem t.strand t.running) 0)

/-- The restart, warm or cold. `fresh` says that it is the first one after a reset (R277, R278, R280). -/
def State.restartProgram (s : State) (cold fresh : Bool) : State :=
  let kept := if cold then [] else s.retBytes
  let s := { s with integ := s.integ.filter (fun g => !isDataGranule g || (!cold && s.retMap.any (fun r => rangeHolds r g))) }
  let s := (s.initProgram.retPutAll kept).initStatus
  let s := if cold then s.unforceAll else each s.forces s (fun (s : State) f => s.forceShow (f.1 / 2 ^ 24) (f.1 % 2 ^ 24))
  let s := s.setFlag SYS_RSTCAUSE_COLD cold
  let s := if fresh then s else s.fput SYS_RSTCAUSE_RETSRC 3
  let ret := s.fget SYS_RESTART_RETTMR
  let s := if fresh && !cold && ret == 1 then s.timersStop else s
  { s with ctl := { s.ctl with restartDue := false, resetKind := none,
                               timersDue := if fresh && !cold && ret == 0 then s.classesOn else [] } }

/-- The restart that is due at an entry into an executing mode: of the kind of the last reset, or STOPRUN. Pipelines of failed
engines are assigned anew (R191, R278). -/
def State.restart (s : State) : State :=
  let s := if s.fget SE_STAT_FAILED = 0 then s else s.reassign
  match s.ctl.resetKind with
  | some cold => s.restartProgram cold true
  | none => s.restartProgram (s.flag SYS_RESTART_STOPRUN) false

/-- Every class begins anew: overrun counters and FAULTED are clear, and its first executed cycle is to come (R40). -/
def State.classesBegin (s : State) : State :=
  each s.classesOn s (fun s k =>
    let s := s.modCls k (fun c => { c with firstPend := true, consec := 0, ovrs := [], skipNext := false, ovrEmit := false })
    ((s.fput (CLS_STAT_CONSEC k) 0).fput (CLS_STAT_WINCNT k) 0).setFlag (CLS_STAT_FAULTED k) false)

/-! ## Retentive timers (R280, R476) -/

/-- The elapsed time of a running timer at the class's last executed cycle. Without t0 of that cycle it is a value up to PT
that the spec does not give (assumption 4). DEDUCED: assumption 28. -/
def State.timerEt (s : State) (t : RetTimer) : State × Nat :=
  let at_ := fun o => leNat (s.mgetN (keyDmem t.strand o) 8)
  match s.keep.classT0.find? (fun e => e.1 == t.cls) with
  | some e => (s, min (at_ t.pt) (e.2 - at_ t.start))
  | none => (s.draw, min (at_ t.pt) (Config.freeNat s.free))

/-- At the first executed t0 of class `k` after a warm restart, running retentive timers take the start stamp that lets
them continue. DEDUCED: assumption 28. -/
def State.timersContinue (s : State) (k : Nat) : State :=
  if s.ctl.timersDue.contains k then
    let s1 := { s with ctl := { s.ctl with timersDue := s.ctl.timersDue.filter (· != k) } }
    let delta := match s.keep.classTick.find? (fun e => e.1 == k) with
      | some e =>
        if s.flag RTC_STAT_VALID && s.fget SYS_RSTCAUSE_RETSRC == 0 then (s.rtc.count - e.2) * 1000000 / 32768 else 0
      | none => 0
    match s.config with
    | none => s1
    | some c =>
      each (c.timers.filter (fun t => t.cls == k && s.mget (keyDmem t.strand t.running) != 0)) s1 (fun s t =>
        let r := s.timerEt t
        let et := min (leNat (s.mgetN (keyDmem t.strand t.pt) 8)) (r.2 + delta)
        r.1.msetN (keyDmem t.strand t.start) (leBytes 8 ((s.cls k).t0.toNat + 2 ^ 64 - et)))
  else s

/-- What keep RAM holds of the class's last executed cycle (R280). -/
def State.noteCycle (s : State) (k : Nat) : State :=
  { s with keep := { s.keep with classT0 := tput s.keep.classT0 k (s.cls k).t0.toNat,
                                 classTick := tput s.keep.classTick k s.rtc.count } }

end Sys2Proof.Machine
end

