-- ==== Sys2Proof/Machine/Integrity.lean ====
section
/-!
DEFINITION. Lockstep of the strands and of the steward, and the scrubbers (R416 to R428).
-/
namespace Sys2Proof.Machine

/-! ## Strand pairs (R416 to R418) -/

/-- Strand pairs are compared from the end of step 4 on, in every mode in which the die runs; an UNCHECKED strand is
not (R416, R417). -/
def State.compared (s : State) (st : Nat) : Bool :=
  !s.ctl.held && s.mode != mDormant && (s.mode != mPowerUp || decide (5 ≤ s.fget SYS_BOOT_STEP)) &&
    !bitAt (s.fget OBS_RT_STAT_UNCHECKED) st

/-- LOCKSTEP_MISMATCH: the pair stops, the mismatch is recorded, and from STOP to HANDOVER the module enters SAFE
(R417). -/
def execLockstepMismatch (st : Fin 16) (lane : Fin 7) (s : State) : Out :=
  if s.compared st then
    let s := s.modStrand st (fun x => { x with run := if x.run = .weaving then .halted else x.run, stall := none })
    let s := if s.flag INT_LSINFO_VALID then s
      else ((s.setFlag INT_LSINFO_VALID true).fput INT_LSINFO_STRAND st).fput INT_LSINFO_LANE lane
    let s := (s.setBit INT_LS_LSFAIL st true).setFlag INT_EVT_LSMIS true
    let s := s.raise 0x0C01 st (leBytes 1 st ++ leBytes 1 lane ++ leBytes 1 s.mode ++ [0] ++
      leBytes 8 (s.cls (s.cfg st).cls).cyc.toNat)
    .next (s.enterSafe 0x0C01)
  else .next s

/-! ## The steward pair (R419) -/

/-- Every front end takes the safe selection and every digital output its SAFE_SEL, at once; rows 1 to 3 of R242 stand before it
(R242, R246, R419). -/
def State.forceSafe (s : State) : State :=
  let s := each (List.range 16) s (fun s n =>
    if ucOutput (s.ucMode n) && (s.uc n).running then
      let u := s.uc n
      s.ucDrive n 3 (s.ucValue n 3 (if u.row = 3 then u.hold else u.out))
    else s)
  each (List.range 32) s (fun s n =>
    if s.dioOut n && s.leader n == n then
      let sel := s.fget (DIO_CH_CFG_SAFE_SEL n)
      let hold := s.dioHold n 4
      let on := if sel = 2 then true else if sel = 1 then hold else false
      let s := s.setDio n { s.dio n with row := 4, hold := hold }
      let v := on && !s.groupBlocked (n / 8) && !s.recBit n recOverload
      each (s.gang n) s (fun s m => s.dioApply m v)
    else s)

/-- The steward stops with every strand; the outputs are safe, FAULT_n is asserted and the baton falls. The reset that
follows has cause `cause` (R419, R425). -/
def State.stewardStop (s : State) (lane cause : Nat) : State :=
  let s := (s.stopAll.forceSafe).setFlag RED_STAT_BATON_OUT false
  let s := if s.red.ungated then s else s.sharedOff
  { s with ctl := { s.ctl with held := true, faultN := true,
                               stewardFault := some { lane := lane, cause := cause, at_ := s.fab } },
           keep := if cause = rcLockstep then { s.keep with stewardLane := some lane } else s.keep }

/-- A steward that has stopped in this CK_FAB clock for a cause of a higher code takes the lower one (R13). -/
def State.stewardCause (s : State) (lane cause : Nat) : State :=
  match s.ctl.stewardFault with
  | some f =>
    if f.at_ = s.fab ∧ cause < f.cause then
      { s with ctl := { s.ctl with stewardFault := some { f with lane := lane, cause := cause } },
               keep := if cause = rcLockstep then { s.keep with stewardLane := some lane } else s.keep }
    else s
  | none => s

/-- STEWARD_MISMATCH (R419). -/
def execStewardMismatch (lane : Fin 8) (s : State) : Out :=
  if s.mode = mDormant then .next s
  else if s.ctl.held then .next (s.stewardCause lane rcLockstep)
  else .next (s.stewardStop lane rcLockstep)

/-- STEWARD_FAULT_RESET: 10 ms after the stop the die is reset; the reset counts as a module restart (R419, R435). -/
def execStewardFaultReset (s : State) : Out :=
  match s.ctl.stewardFault with
  | none => .next s
  | some f =>
    if f.at_ + 5000000 ≤ s.fab then
      .next ({ s with ctl := { s.ctl with held := false } }.recordRestart.dieReset f.cause false)
    else .next s

/-! ## Scrubbing (R424, R425, R428) -/

/-- Memory key / 32 of the granule that the scrubber of the die memories reads `i`-th: global memory, IMEM, DMEM. -/
def scrubKey (i : Nat) : Nat :=
  if i < 1048576 then
    if 0x1A00000 / 32 ≤ i ∧ i < 0x1E00000 / 32 then 0x20000000 / 32 + (i - 0x1A00000 / 32) else 0x10000000 / 32 + i
  else if i < 1572864 then keyImem 0 0 0 / 32 + (i - 1048576)
  else keyDmem 0 0 / 32 + (i - 1572864)

/-- What a scrub read of a granule finds and records: the class of the read, INTEG for one that is INTEG already
(R423, R427). A corrected granule waits for its write-back. -/
def State.scrubRead (s : State) (g : Nat) (errors : List Nat) (foldXor : Nat) : State × Option Nat :=
  let kind := if s.integ.contains g then some 2 else selKind errors foldXor
  match kind with
  | none => (s, none)
  | some c =>
    let m := granuleMem g
    let s := s.selRecord m.1 m.2 c (selSyndrome errors) true
    let s := if c < 2 then s.countG 0x4C 1 else s
    let s := if c < 2 then { s with int := { s.int with corrected := s.int.corrected ++ [g] } }
      else if s.integ.contains g then s else { s with integ := s.integ ++ [g] }
    (s, some c)

/-- The consequence that an INTEG granule has at once when a scrub finds it (R425, R428). The heddle table, staging views
and steward memory lie where the granule's use says; an active IMEM bank stops the module in SAFE, as its fetch would.
DEDUCED: assumption 33. -/
def State.integConsequence (s : State) (g code : Nat) (use : GranuleUse) : State :=
  match use with
  | .steward => s.stewardStop 7 rcSelvedge
  | .mirror => s.enterSafe code
  | .plain =>
    if 0x20000000 / 32 ≤ g ∧ g < 0x20200000 / 32 then s.enterSafe code
    else if keyDmem 0 0 / 32 ≤ g ∧ g < keyScratch 0 0 / 32 then s.enterSafe code
    else if keyImem 0 0 0 / 32 ≤ g ∧ g < keyDram 0 / 32 then
      let i := (32 * g - keyImem 0 0 0) / 0x80000
      if tget 0 s.edit.banks (i / 2) = i % 2 then s.enterSafe code
      else if s.edit.pkg.isSome then s.editAbortFor 3 else s
    else if 0x11E00000 / 32 ≤ g ∧ g < 0x12000000 / 32 then
      let k := (32 * g - 0x11E00000) / 0x40000
      if (32 * g - 0x11E00000) % 0x40000 < s.fget (SE_JOBAREA_PIPE_END k) then
        s.failEngine k (leBytes 1 k ++ leBytes 3 0 ++ leBytes 4 0 ++ leBytes 4 0)
      else s
    else s

/-- The scrubber moves to the next granule; the last one completes a pass (R428). -/
def State.scrubNext (s : State) : State :=
  if s.int.scrubAt + 1 < 1703936 then { s with int := { s.int with scrubAt := s.int.scrubAt + 1 } }
  else
    let ms := (s.fab - s.int.passAt) / 500000
    let s := { s with int := { s.int with scrubAt := 0, passAt := s.fab } }
    let s := (s.wrapBump INT_SCRUB_PASSES 1).fput INT_SCRUB_PASS_MS (min ms 0xFFFF)
    if 10000 < ms then (s.setFlag INT_EVT_SCRUBLATE true).raise 0x0C06 0 (leBytes 4 ms) else s

/-- SCRUB: the scrubber reads the next granule of the die memories (R428). -/
def execScrub (errors : List Nat) (foldXor : BitVec 5) (use : GranuleUse) (s : State) : Out :=
  if s.ctl.held || s.mode == mDormant then .next s
  else
    let g := scrubKey s.int.scrubAt
    let r := s.scrubRead g errors foldXor.toNat
    let s := r.1.scrubNext
    match r.2 with
    | some c => if 2 ≤ c then .next (s.integConsequence g (if c = 2 then 0x0C04 else 0x0C05) use) else .next s
    | none => .next s

/-- Read a list of granules of one memory, by memory key / 32. -/
def State.scrubList (s : State) (base : Nat) (l : List GranuleRead) : State :=
  each l s (fun s r => (s.scrubRead (base + r.granule) r.errors r.foldXor.toNat).1)

/-- DRAM_SCRUB: the granules of DRAM that a scrub finds in error (R428). -/
def execDramScrub (granules : List GranuleRead) (s : State) : Out :=
  if s.ctl.held || s.mode == mDormant then .next s else .next (s.scrubList (keyDram 0 / 32) granules)

/-- KEEP_RAM_SCRUB: the companion scrubs keep RAM in every mode (R428). -/
def execKeepRamScrub (granules : List GranuleRead) (s : State) : Out :=
  .next (s.scrubList (keyKeep 0 / 32) granules)

/-- CORRECTION_WRITE_BACK: the oldest corrected granule is written back; its stored bits in this model are the corrected
ones already, so only the wait ends (R424). -/
def execCorrectionWriteBack (s : State) : Out :=
  .next { s with int := { s.int with corrected := s.int.corrected.drop 1 } }

end Sys2Proof.Machine
end

