-- ==== Sys2Proof/Machine/Retain.lean ====
section
/-!
DEFINITION. The retain store at work: the coppice ring and its consolidation, the service of requests, the quickset
counters and the RET commands (R443 to R459).
-/
namespace Sys2Proof.Machine

/-! ## CRC-24 (R461) -/

/-- One bit of CRC-24: polynomial 0x864CFB, no reflection. -/
def crc24Bits : Nat → Nat → Nat
  | 0, r => r
  | n + 1, r => crc24Bits n (if 0x800000 ≤ r then (2 * r) % 0x1000000 ^^^ 0x864CFB else 2 * r)

/-- CRC-24 of a byte list, with initial value 0xB704CE and no final exclusive-or. -/
def crc24 (l : List Byte) : Nat := l.foldl (fun r b => crc24Bits 8 (r ^^^ (b.toNat * 0x10000))) 0xB704CE

/-! ## Ring pages (R450) -/

abbrev ringSlots : Nat := 24576

/-- The page of the store that holds a ring slot. -/
def slotPage (slot : Nat) : Nat := slot % 12 * 2048 + slot / 12

def pageSlot (page : Nat) : Nat := page % 2048 * 12 + page / 2048

/-- The rows of a ring page: its number, kind, checkpoint page index, S, and the granules by keep RAM index.
DEDUCED: assumption 46. -/
def ringRows (seq kind idx ckptS : Nat) (gs : List (Nat × List Byte)) : List (Nat × List Byte) :=
  let row0 := leBytes 8 seq ++ leBytes 1 kind ++ leBytes 1 gs.length ++ leBytes 2 idx ++ leBytes 8 ckptS ++ leBytes 12 0
  let data := (List.range 14).map (fun i => (((gs[i]?).map (·.2)).getD (leBytes 32 0)))
  let index := (List.range 14).flatMap (fun i => leBytes 2 (((gs[i]?).map (·.1)).getD 0xFFFF))
  let rows := row0 :: data
  let row15 := index ++ leBytes 3 (crc24 (rows.flatten ++ index)) ++ [0x5A]
  ((List.range 16).zip (rows ++ [row15]))

/-- A ring page as the steward reads it: its slot, number, kind, checkpoint page index, S, granules, and whether one of its
rows reads INTEG. -/
structure RingPage where
  slot : Nat
  seq : Nat
  kind : Nat
  idx : Nat
  s : Nat
  data : List (Nat × List Byte)
  integ : Bool
  deriving DecidableEq, Repr

/-- The page at a slot, when it is valid (R450). -/
def State.ringPage (s : State) (slot : Nat) : Option RingPage :=
  let page := slotPage slot
  let b := s.mgetN (rowKey (16 * page)) 512
  if s.rowInteg (16 * page + 15) || fieldAt b 511 1 != 0x5A || fieldAt b 508 3 != crc24 (slice b 0 508) then none
  else
    some { slot := slot, seq := fieldAt b 0 8, kind := fieldAt b 8 1, idx := fieldAt b 10 2, s := fieldAt b 12 8,
           data := (List.range (min 14 (fieldAt b 9 1))).map (fun i => (fieldAt b (480 + 2 * i) 2, slice b (32 * (i + 1)) 32)),
           integ := (List.range 16).any (fun r => s.rowInteg (16 * page + r)) }

/-- The rows of a range of the store that are not BLANK. -/
def State.usedRows (s : State) (first n : Nat) : List Nat :=
  (s.mem.filter (fun c => decide (rowMark first ≤ c.1 ∧ c.1 < rowMark (first + n)))).map (fun c => c.1 - rowMark 0)

/-- Every valid ring page by its number. -/
def State.ringPages (s : State) : Tab RingPage :=
  ((s.usedRows 0 (12 * 0x8000)).filter (fun r => r % 16 == 15)).foldl (fun t r =>
    match s.ringPage (pageSlot (r / 16)) with
    | some p => tput t p.seq p
    | none => t) []

/-! ## Consolidation (R455 to R457) -/

/-- What a consolidation finds: whether the ring is complete, whether the newest page is a flush end, the newest number, the
pages of which the granules are applied, the number of journal pages among them, the erase pointer, the checkpoint's S with
the first slot of the copy in use, and whether its copies differ. -/
structure Consol where
  complete : Bool
  flushEnd : Bool
  newest : Nat
  pages : List RingPage
  applied : Nat
  ptr : Nat
  ckpt : Option (Nat × Nat)
  twin : Bool
  deriving DecidableEq, Repr

/-- The pages of a checkpoint copy by their index, when the copy is complete (R456). -/
def ckptCopy (ps : List RingPage) (kind sNum : Nat) : Option (List RingPage) :=
  let mine := ps.filter (fun p => p.kind == kind && p.s == sNum)
  (List.range 1152).mapM (fun i => mine.find? (fun p => p.idx == i))

/-- How far after the write pointer the first page of a copy stands. -/
def copyPlace (ptr : Nat) (l : List RingPage) : Nat := ((l.head?.map (·.slot)).getD 0 + ringSlots - ptr) % ringSlots

/-- Which of the two copies of checkpoint `n` is in use, and whether both are complete and differ. -/
def copyInUse (ptr n : Nat) : Option (List RingPage) → Option (List RingPage) → Option (Nat × List RingPage × Bool)
  | none, none => none
  | some a, none => some (n, a, false)
  | none, some b => some (n, b, false)
  | some a, some b =>
    if a.map (·.data) = b.map (·.data) then some (n, a, false)
    else some (n, if copyPlace ptr b < copyPlace ptr a then a else b, true)

/-- The copy in use of the checkpoint with the highest S that has a complete copy, and whether both are complete and differ. -/
def ckptInUse (ps : List RingPage) (ptr : Nat) : List Nat → Option (Nat × List RingPage × Bool)
  | [] => none
  | n :: rest =>
    match copyInUse ptr n (ckptCopy ps 1 n) (ckptCopy ps 2 n) with
    | some r => some r
    | none => ckptInUse ps ptr rest

/-- The pages from number `n` on without a gap. -/
def unbroken (t : Tab RingPage) : Nat → Nat → List RingPage
  | 0, _ => []
  | fuel + 1, n =>
    match t.find? (fun e => e.1 == n) with
    | some e => e.2 :: unbroken t fuel (n + 1)
    | none => []

def State.consolidate (s : State) : Consol :=
  let t := s.ringPages
  match t.getLast? with
  | none => { complete := false, flushEnd := false, newest := 0, pages := [], applied := 0, ptr := 0, ckpt := none, twin := false }
  | some (newest, last) =>
    let ptr := (last.slot + 1) % ringSlots
    let ps := t.map (·.2)
    let nums := ((ps.filter (fun p => p.kind == 1 || p.kind == 2)).map (·.s)).foldl (fun (u : Tab Nat) n => tput u n n) []
    match ckptInUse ps ptr ((nums.map (·.1)).reverse) with
    | none =>
      { complete := false, flushEnd := last.kind == 3, newest := newest, pages := [], applied := 0, ptr := ptr, ckpt := none,
        twin := false }
    | some (n, copy, twin) =>
      let span := unbroken t ringSlots n
      let jr := span.filter (fun p => p.kind == 0)
      { complete := (span.getLast?.map (·.seq)) == some newest && last.kind == 3 && !span.any (·.integ),
        flushEnd := last.kind == 3, newest := newest, pages := copy ++ jr, applied := jr.length, ptr := ptr,
        ckpt := some (n, (copy.head?.map (·.slot)).getD 0), twin := twin }

/-- A consolidation is shown and reported (R455, R456). -/
def State.consolShow (s : State) (c : Consol) : State :=
  let s := (s.setFlag RET_STAT_RINGOK c.complete).rset64 RET_SEQ_LO RET_SEQ_HI c.newest
  let s := (s.fput RET_RING_PTR_SLOT c.ptr).fput RET_RING_CKPT_SLOT ((c.ckpt.map (·.2)).getD 0)
  let s := if c.twin then
      (s.setFlag RET_EVT_TWIN true).raise 0x0E02 0
        (leBytes 8 ((c.ckpt.map (·.1)).getD 0) ++ leBytes 2 ((c.ckpt.map (·.2)).getD 0))
    else s
  s.raise 0x0E03 0 (leBytes 1 (if c.complete then 1 else 0) ++ leBytes 1 (if c.flushEnd then 1 else 0) ++
    leBytes 8 c.newest ++ leBytes 2 (min c.applied 0xFFFF))

/-- The consolidated granules are written to the retentive area of keep RAM. -/
def State.consolApply (s : State) (c : Consol) : State :=
  each c.pages s (fun s p => each p.data s (fun s g =>
    if 256 ≤ g.1 ∧ g.1 < 16384 then s.msetN (keyKeep (32 * g.1)) g.2 else s))

/-- CONSOLIDATION_REQUEST: in SERVICE the ring is consolidated into keep RAM, with the seal CLOSED (R457). -/
def execConsolidationRequest (s : State) : Out :=
  if s.ctl.held || s.mode != mService then .next s
  else
    let c := s.consolidate
    let t := (s.consolApply c).consolShow c
    .next { t with keep := { t.keep with sealOpen := false } }

/-! ## Dirty granules and wear (R449, R451, R453) -/

/-- RET_DIRTY, OVERCAP and ACCEL follow the dirty set. -/
def State.showDirty (s : State) : State :=
  let n := s.store.dirty.length
  let was := s.flag RET_STAT_OVERCAP
  let past := decide (1536 < n)
  let s := (s.fput RET_DIRTY_DIRTY n).setFlag RET_STAT_OVERCAP past
  let s := if 1024 < n then s.setFlag RET_STAT_ACCEL true else if n ≤ 512 then s.setFlag RET_STAT_ACCEL false else s
  if past && !was then (s.setFlag RET_EVT_OVERCAP true).raise 0x0E04 0 (leBytes 2 n) else s

/-- A beam writes a retentive granule into keep RAM and marks it dirty (R449). -/
def State.keepWrite (s : State) (g : Nat) (bytes : List Byte) : State :=
  let s := s.msetN (keyKeep (32 * g)) bytes
  { s with store := { s.store with
      dirty := if s.store.dirty.any (fun e => e.1 == g) then s.store.dirty else tput s.store.dirty g s.fab } }

abbrev storePace : Nat := 109375000
abbrev clocksPerSec : Nat := 500000000

/-- The wear account and the laps are shown; at their limits the WEAR state begins (R453). -/
def State.showWear (s : State) : State :=
  let mib := min (s.store.wacc / 2 ^ 20) (2 ^ 32 - 1)
  let s := (s.fput RET_WEARACC_MIB mib).fput RET_LAPS_LAPS s.store.laps
  if (2 ^ 38 ≤ s.store.wacc ∨ 200000 ≤ s.store.laps) ∧ s.flag RET_STAT_WEAR = false then
    ((s.setFlag RET_STAT_WEAR true).setFlag RET_EVT_WEAR true).raise 0x0E01 0 (leBytes 4 mib ++ leBytes 4 s.store.laps)
  else s

/-- The erase pointer and the number of the next page move on. -/
def State.ringAdvance (s : State) : State :=
  let slot := (s.store.slot + 1) % ringSlots
  let s := { s with store := { s.store with seq := s.store.seq + 1, slot := slot,
                                            laps := if slot = 0 then s.store.laps + 1 else s.store.laps } }
  s.fput RET_RING_PTR_SLOT slot

/-- A journal page of the lowest dirty granules takes the next slot: its rows, and the state after it (R450, R451, R453). -/
def State.journalPage (s : State) : State × List (Nat × List Byte) :=
  let gs := (s.store.dirty.take 14).map (fun e => (e.1, s.mgetN (keyKeep (32 * e.1)) 32))
  let rows := ringRows s.store.seq 0 0 s.store.ckptS gs
  let dt := s.fab - s.store.journalAt.getD s.fab
  let n := s.store.journals + 1
  let s := { s with store := { s.store with
      dirty := s.store.dirty.drop 14, journalAt := some s.fab,
      wacc := s.store.wacc + 448 - 2048 * dt / clocksPerSec,
      journals := if n = 8192 then 0 else n, ckptDue := s.store.ckptDue || n == 8192 } }
  (s.ringAdvance.showWear.showDirty, rows)

/-- The next page of the checkpoint that runs (R452). -/
def State.ckptPage (s : State) (c : Checkpoint) : State × List (Nat × List Byte) :=
  let i := c.next % 1152
  let gs := (List.range 14).map (fun j => (256 + 14 * i + j, tget (leBytes 32 0) c.copy (256 + 14 * i + j)))
  let rows := ringRows s.store.seq (1 + c.next / 1152) i c.s gs
  let s := { s with store := { s.store with
      ckptAt := some s.fab, ckpt := if c.next + 1 = 2304 then none else some { c with next := c.next + 1 } } }
  (s.ringAdvance.showWear, rows)

/-! ## Service (R444) -/

/-- What a request comes to when it starts: a ring page takes its slot and content now; it lapses with nothing to write. -/
def State.resolve (s : State) (q : StoreReq) : State × Option StoreReq :=
  if q.tag = .ring ∨ q.tag = .flush then
    if s.store.dirty.isEmpty then (s, none)
    else
      let r := s.journalPage
      (r.1, some { q with page := slotPage s.store.slot, op := .write r.2 })
  else if q.tag = .ckpt then
    match s.store.ckpt with
    | none => (s, none)
    | some c =>
      let r := s.ckptPage c
      (r.1, some { q with page := slotPage s.store.slot, op := .write r.2 })
  else (s, some q)

def State.reqBank (s : State) (q : StoreReq) : Nat :=
  if q.tag = .ring ∨ q.tag = .flush ∨ q.tag = .ckpt then s.store.slot % 12 else pageBank q.page

/-- Whether a request may start now: its bank is free, fewer than 12 operations run, and after PFAIL only rank 1. -/
def State.mayStart (s : State) (q : StoreReq) : Bool :=
  decide (s.store.running.length < 12) && !s.store.running.any (fun r => pageBank r.page == s.reqBank q) &&
    (!s.ctl.pfail || q.rank == 1)

/-- RET_BUSY shows the banks that run an operation. -/
def State.showBusy (s : State) : State :=
  s.fput RET_BUSY_BUSY (maskOf (s.store.running.map (fun q => pageBank q.page)))

/-- The waiting request that is granted next: the lowest rank, then the oldest, whose bank is free. -/
def State.nextGrant (s : State) : Option StoreReq :=
  (List.range 6).findSome? (fun r => s.store.waiting.find? (fun q => q.rank == r && s.mayStart q))

/-- Grant free places until no waiting request can start. -/
def State.grant (s : State) : Nat → State
  | 0 => s
  | n + 1 =>
    match s.nextGrant with
    | none => s
    | some q =>
      let r := { s with store := { s.store with waiting := s.store.waiting.erase q } }.resolve q
      match r.2 with
      | none => r.1.grant n
      | some p => ({ r.1 with store := { r.1.store with running := r.1.store.running ++ [p] } }).grant n

/-- A request arrives: it waits behind those of its rank, and starts when it may. -/
def State.submit (s : State) (q : StoreReq) : State :=
  let s := { s with store := { s.store with waiting := s.store.waiting ++ [q] } }
  (s.grant s.store.waiting.length).showBusy

def ringReq (rank : Nat) (tag : StoreTag) : StoreReq := { rank := rank, page := 0, op := .erase, tag := tag }

/-- Whether a request with a tag waits. -/
def State.waits (s : State) (tag : StoreTag) : Bool := s.store.waiting.any (fun q => q.tag == tag)

/-- TRICKLE: a journal page of dirty granules asks for its place (R451). -/
def execTrickle (s : State) : Out :=
  let d := s.store.dirty
  let old := d.any (fun e => decide (10 * clocksPerSec ≤ s.fab - e.2))
  let pace := match s.store.journalAt with
    | none => true
    | some t => decide (storePace ≤ s.fab - t)
  if s.live && !s.ctl.pfail && !d.isEmpty && !s.waits .ring &&
      (s.flag RET_STAT_ACCEL || ((decide (14 ≤ d.length) || old) && pace)) then
    .next (s.submit (ringReq 2 .ring))
  else .next s

/-- CHECKPOINT_PAGE: the next page of the running checkpoint asks for its place (R452). -/
def execCheckpointPage (s : State) : Out :=
  let pace := match s.store.ckptAt with
    | none => true
    | some t => decide (storePace ≤ s.fab - t)
  if s.live && !s.ctl.pfail && s.store.ckpt.isSome && !s.waits .ckpt && pace then .next (s.submit (ringReq 2 .ckpt))
  else .next s

/-- A checkpoint that is due starts at a beam boundary: the retentive area is copied and S taken (R452). -/
def State.startCheckpoint (s : State) : State :=
  if s.store.ckptDue && s.store.ckpt.isNone && !s.ctl.pfail then
    let used := s.mem.filter (fun c => decide (keyKeep (32 * 256) ≤ c.1 ∧ c.1 < keyKeep (32 * 16384)))
    let copy := used.foldl (fun (t : Tab (List Byte)) c =>
      let g := (c.1 - keyKeep 0) / 32
      if t.any (fun e => e.1 == g) then t else tput t g (s.mgetN (keyKeep (32 * g)) 32)) []
    let s := { s with store := { s.store with ckptDue := false, ckptS := s.store.seq, journals := 0,
                                              ckpt := some { s := s.store.seq, copy := copy, next := 0 } } }
    s.setFlag RET_STAT_CKPT true
  else s

/-! ## Quickset counters (R458, R459) -/

def State.qsc (s : State) (i : Nat) : Qs := tget Qs.reset s.qs i
def State.setQsc (s : State) (i : Nat) (q : Qs) : State := { s with qs := tset Qs.reset s.qs i q }

def Qs.value (q : Qs) : Nat := q.base + q.tally + q.pending

/-- Erase count of a tally page of the counter. -/
def Qs.erasesOf (q : Qs) (page : Nat) : Nat := if page = 0 then q.erases.1 else q.erases.2

/-- Increments that the counter can still take before it is worn: the rest of the active page, and 4,096 for each page
switch that leaves both pages within 200,000 erases. DEDUCED: assumption 46. -/
def Qs.room (q : Qs) : Nat :=
  let i := 200000 - q.erasesOf (1 - q.active)
  let a := 200000 - q.erasesOf q.active
  let switches := if i ≤ a then 2 * i else 2 * a + 1
  4096 * (switches + 1) - q.tally - q.pending

/-- The counter's next page would exceed 200,000 erases (R459). DEDUCED: assumption 46. -/
def Qs.worn (q : Qs) : Bool := q.room == 0

/-- First page of the tally pages and first row of the base table. -/
abbrev tallyPage0 : Nat := 13 * 2048
abbrev baseRow0 : Nat := 13 * 0x8000 + 0x2000

def tallyPage (i page : Nat) : Nat := tallyPage0 + 2 * i + page

/-- The next tally bit of counter `i` is programmed, or the inactive page is erased to begin a page switch. -/
def State.qsPump (s : State) (i : Nat) : State :=
  let q := s.qsc i
  if q.pending = 0 ∨ q.busy ∨ q.switching then s
  else if q.tally < 4096 then
    let bit := q.tally % 256
    let bytes := (List.range 32).map (fun j => if j = bit / 8 then BitVec.ofNat 8 (255 - 2 ^ (bit % 8)) else 0xFF)
    (s.setQsc i { q with busy := true }).submit
      { rank := 4, page := tallyPage i q.active, op := .bits (q.tally / 256) bytes, tag := .tally i }
  else
    (s.setQsc i { q with switching := true }).submit
      { rank := 4, page := tallyPage i (1 - q.active), op := .erase, tag := .tallyErase i }

def baseRecord (i active base seq erases : Nat) : List Byte :=
  leBytes 2 i ++ leBytes 1 active ++ [0] ++ leBytes 4 base ++ leBytes 8 seq ++ leBytes 4 erases ++ leBytes 11 0 ++ [0x3C]

/-- Program the next row of the base table. -/
def State.basePut (s : State) (bytes : List Byte) (tag : StoreTag) : State :=
  let row := baseRow0 + s.qsBaseRow
  let s := { s with qsBaseRow := (s.qsBaseRow + 1) % 2048 }
  s.submit { rank := 4, page := row / 16, op := .row (row % 16) bytes, tag := tag }

/-- Counters whose newest base record stands in page `p` of the base table. -/
def State.liveBase (s : State) (p : Nat) : List Nat :=
  (List.range 16).filterMap (fun r =>
    let row := baseRow0 + 16 * p + r
    let b := s.rowBytes row
    let i := fieldAt b 0 2
    if !s.rowBlank row && !s.rowInteg row && fieldAt b 31 1 == 0x3C && fieldAt b 8 8 == (s.qsc i).seq then some i else none)

/-- The page of the base table after the one being filled is erased, its newest records being copied first; when the copies
fill their page, the next page follows (R459). -/
def State.baseClear (s : State) : Nat → State
  | 0 => s
  | n + 1 =>
    let p := (s.qsBaseRow / 16 + 1) % 128
    if (s.usedRows (baseRow0 + 16 * p) 16).isEmpty then s
    else
      let s := each (s.liveBase p) s (fun s i =>
        let q := s.qsc i
        let s := s.setQsc i { q with seq := q.seq + 1 }
        s.basePut (baseRecord i q.active q.base (q.seq + 1) (q.erasesOf q.active)) .none)
      let s := s.submit { rank := 4, page := baseRow0 / 16 + p, op := .erase, tag := .none }
      if s.qsBaseRow % 16 = 0 then s.baseClear n else s

/-- The same before a page is begun. -/
def State.baseRoom (s : State) : State := if s.qsBaseRow % 16 = 0 then s.baseClear 128 else s

/-- The end of the erase of a page switch: the new base record is written. -/
def State.qsBase (s : State) (i : Nat) : State :=
  let q := s.qsc i
  let new := 1 - q.active
  let s := (s.setQsc i { q with seq := q.seq + 1 }).baseRoom
  s.basePut (baseRecord i new (q.base + 4096) (q.seq + 1) (q.erasesOf new + 1)) (.base i)

/-- The end of the page switch. -/
def State.qsSwitched (s : State) (i : Nat) : State :=
  let q := s.qsc i
  let new := 1 - q.active
  let er := if new = 0 then (q.erases.1 + 1, q.erases.2) else (q.erases.1, q.erases.2 + 1)
  (s.setQsc i { q with base := q.base + 4096, active := new, tally := 0, erases := er, switching := false }).qsPump i

/-- `n` increments arrive for counter `i`; those past the wear of its pages are refused with WEAR (R459). -/
def State.qsAdd (s : State) (i n : Nat) : State :=
  let q := s.qsc i
  let m := min n q.room
  let q' := { q with pending := q.pending + m }
  let s := s.setQsc i q'
  let s := if q'.worn && !q.worn then
      (s.setFlag RET_EVT_QSWORN true).raise 0x0E06 i (leBytes 1 i ++ leBytes 4 q'.value)
    else s
  let s := if m < n then s.fput RET_CMD_STAT_STATUS scWear else s
  s.qsPump i

/-- QS_INCREMENT: counter `i` is incremented `n` times (R458, R459). -/
def execQsIncrement (i : BitVec 8) (n : BitVec 16) (s : State) : Out :=
  if s.stewardOff then .next s else .next (s.qsAdd i.toNat n.toNat)

/-- The tally of a page: the programmed bits before the first erased one, bit 0 of byte 0 first (R458). -/
def tallyOf : List Byte → Nat
  | [] => 0
  | b :: bs => if b = 0 then 8 + tallyOf bs else ((List.range 8).takeWhile (fun i => !b.getLsbD i)).length

/-- At a start every counter is read from the store; its pending count is held in keep RAM (R458, R459). -/
def State.qsRestore (s : State) : State :=
  let rows := (s.usedRows baseRow0 2048).filterMap (fun row =>
    let b := s.rowBytes row
    if !s.rowInteg row && fieldAt b 31 1 == 0x3C then some (fieldAt b 0 2 % 256, b) else none)
  let s := each rows s (fun s r =>
    let q := s.qsc r.1
    let seq := fieldAt r.2 8 8
    if q.seq ≤ seq then
      let act := fieldAt r.2 2 1 % 2
      let e := fieldAt r.2 16 4
      s.setQsc r.1 { q with base := fieldAt r.2 4 4, active := act, seq := seq, erases := if act = 0 then (e, e) else (e - 1, e) }
    else s)
  let s := s.baseClear 128
  each (List.range 256) s (fun s i =>
    let q := s.qsc i
    let page := tallyPage i q.active
    let t := if (s.usedRows (16 * page) 16).isEmpty then 0 else tallyOf (s.mgetN (rowKey (16 * page)) 512)
    (s.setQsc i { q with tally := t, busy := false, switching := false }).qsPump i)

/-! ## RET commands (R445, R446) -/

/-- The command ends with a status. -/
def State.cmdEnd (s : State) (status : Nat) : State :=
  let s := { s with store := { s.store with cmd := none } }
  (s.setFlag RET_CMD_STAT_ACTIVE false).fput RET_CMD_STAT_STATUS status

/-- A coded row reads INTEG: the event, and the end of the command that read it (R468). -/
def State.cmdInteg (s : State) (part row : Nat) : State :=
  ((s.setFlag RET_EVT_INTEGROW true).raise 0x0E05 part (leBytes 1 part ++ leBytes 4 row)).cmdEnd scInteg

/-- An operation runs in the page of a row. -/
def State.pageRuns (s : State) (row : Nat) : Bool := s.store.running.any (fun q => q.page == row / 16)

/-- Rows that one step of a command covers: those of its page, or one row. -/
def StoreCmd.rows (c : StoreCmd) : Nat := if c.op = 1 ∨ c.op = 2 then min c.left (16 - c.row % 16) else 1

def StoreCmd.advance (c : StoreCmd) : StoreCmd :=
  { c with row := c.row + c.rows, left := c.left - c.rows, buf := c.buf + 32 * c.rows }

def State.partOf (s : State) : Nat := s.fget RET_CMD_ADDR_PART
def State.partRow0 (s : State) : Nat := ((partRows s.partOf).map (·.1)).getD 0

/-- Serve the rows of a read until one stalls (R445). -/
def State.readRows (s : State) : Nat → State
  | 0 => s
  | n + 1 =>
    match s.store.cmd with
    | none => s
    | some c =>
      if c.left = 0 then s.cmdEnd scOk
      else if s.pageRuns c.row then s
      else if s.rowInteg c.row then s.cmdInteg s.partOf (c.row - s.partRow0)
      else
        let s := ((s.msetN c.buf (s.rowBytes c.row)).breakResv 16 c.buf 32).wrapBump RET_CMD_STAT_DONE 1
        State.readRows { s with store := { s.store with cmd := some c.advance } } n

/-- The next step of the command that runs: a page or a row asks for its place. -/
def State.cmdStep (s : State) : State :=
  match s.store.cmd with
  | none => s
  | some c =>
    if c.op = 0 then s.readRows (c.left + 1)
    else if c.left = 0 then s.cmdEnd scOk
    else
      let rank := partRank s.partOf
      let page := c.row / 16
      let ask := fun (s : State) (op : StoreOp) => s.submit { rank := rank, page := page, op := op, tag := .command }
      if c.op = 1 then
        let named := fun (r : Nat) => decide (c.row % 16 ≤ r ∧ r < c.row % 16 + c.rows)
        let kept := (List.range 16).filter (fun r => !named r && !s.rowBlank (16 * page + r))
        match kept.find? (fun r => s.rowInteg (16 * page + r)) with
        | some r => s.cmdInteg s.partOf (16 * page + r - s.partRow0)
        | none =>
          ask s (.write ((List.range 16).filterMap (fun r =>
            if named r then some (r, s.mgetN (c.buf + 32 * (r - c.row % 16)) 32)
            else if kept.contains r then some (r, s.rowBytes (16 * page + r)) else none)))
      else if c.op = 2 then ask s .erase
      else if c.op = 3 then
        if s.rowBlank c.row then ask s (.row (c.row % 16) (s.mgetN c.buf 32)) else s.cmdEnd scState
      else if rowCoded c.row then s.cmdEnd scState
      else ask s (.bits (c.row % 16) (s.mgetN c.buf 32))

/-- A worn counter owns a row of the tally pages. -/
def State.wornRow (s : State) (row : Nat) : Bool :=
  decide (16 * tallyPage0 ≤ row ∧ row < baseRow0) && (s.qsc ((row / 16 - tallyPage0) / 2)).worn

/-- The status that a command is judged with before it touches the store (R445, R446). DEDUCED: assumption 46. -/
def State.cmdStatus (s : State) (op : Nat) : Nat :=
  let row := s.fget RET_CMD_ADDR_ROW
  let len := s.fget RET_CMD_LEN_LEN
  let buf := (s.rget RET_CMD_BUF).toNat
  match partRows s.partOf with
  | none => scRange
  | some (first, n) =>
    if 5 ≤ op then scRange
    else if len = 0 ∨ n < row + len then scRange
    else if op ≠ 2 ∧ ¬(0x10000000 ≤ buf ∧ buf + 32 * len ≤ 0x12000000) then scRange
    else if op ≠ 0 ∧ s.ctl.pfail ∧ s.partOf ≠ 5 then scState
    else if op ≠ 0 ∧ (List.range len).any (fun i => s.wornRow (first + row + i)) then scWear
    else if op = 0 ∧ s.flag RET_CMD_LEN_NB ∧ (List.range len).any (fun i => s.pageRuns (first + row + i)) then scBusy
    else scOk

/-- A RET command starts with GO (R446). One that finds another running is refused with BUSY. -/
def State.retCommand (s : State) (op : Nat) : State :=
  if s.stewardOff then s
  else if s.flag RET_CMD_STAT_ACTIVE then s.fput RET_CMD_STAT_STATUS scBusy
  else
    let s := s.fput RET_CMD_LEN_OP op
    let st := s.cmdStatus op
    let s := (s.fput RET_CMD_STAT_DONE 0).fput RET_CMD_STAT_STATUS st
    if st = scOk then
      let c : StoreCmd := { op := op, row := s.partRow0 + s.fget RET_CMD_ADDR_ROW, left := s.fget RET_CMD_LEN_LEN,
                            buf := (s.rget RET_CMD_BUF).toNat / 32 * 32 }
      let s := { s with store := { s.store with cmd := some c } }
      (s.setFlag RET_CMD_STAT_ACTIVE true).cmdStep
    else s

/-- READ_COMMAND: rows are read into the buffer (R445). -/
def execReadCommand (s : State) : Out := .next (s.retCommand 0)

/-- WRITE_COMMAND: rows are written page by page from the buffer (R446). -/
def execWriteCommand (s : State) : Out := .next (s.retCommand 1)

/-- PAGE_ERASE: the pages of the named rows are erased (R443). -/
def execPageErase (s : State) : Out := .next (s.retCommand 2)

/-- ROW_PROGRAM: BLANK rows are programmed from the buffer (R443). -/
def execRowProgram (s : State) : Out := .next (s.retCommand 3)

/-- BIT_PROGRAM: bits of raw rows that are 0 in the buffer change from 1 to 0 (R443). -/
def execBitProgram (s : State) : Out := .next (s.retCommand 4)

/-! ## The end of an operation -/

/-- The power-down flush asks for as many pages as the dirty set needs (R454). -/
def State.flushPump (s : State) : State :=
  let want := (s.store.dirty.length + 13) / 14
  let have_ := (s.store.waiting.filter (fun q => q.tag == .flush)).length
  each (List.range (want - have_)) s (fun s _ => s.submit (ringReq 1 .flush))

/-- What an operation that has ended starts, by its tag. -/
def State.opTag (s : State) (q : StoreReq) : State :=
  match q.tag with
  | .none => s
  | .command =>
    match s.store.cmd with
    | none => s
    | some c =>
      let s := s.wrapBump RET_CMD_STAT_DONE c.rows
      State.cmdStep { s with store := { s.store with cmd := some c.advance } }
  | .tally i =>
    let x := s.qsc i
    (s.setQsc i { x with tally := x.tally + 1, pending := x.pending - 1, busy := false }).qsPump i
  | .tallyErase i => s.qsBase i
  | .base i => s.qsSwitched i
  | _ =>
    let seq := leNat (s.mgetN (rowKey (16 * q.page)) 8)
    let s := if s.rget64 RET_SEQ_LO RET_SEQ_HI < seq then s.rset64 RET_SEQ_LO RET_SEQ_HI seq else s
    if s.store.ckpt.isNone && !s.store.running.any (fun r => r.tag == .ckpt) then s.setFlag RET_STAT_CKPT false else s

/-- The operation of a bank ends: its effect is complete, what it belongs to goes on, and its place is granted (R444). -/
def State.opEnd (s : State) (q : StoreReq) : State :=
  let s := s.opEffect q
  let s := { s with store := { s.store with running := s.store.running.erase q } }
  let s := s.opTag q
  let s := match s.store.cmd with
    | some c => if c.op = 0 then s.cmdStep else s
    | none => s
  let s := if s.ctl.pfail then s.flushPump else s
  (s.grant s.store.waiting.length).showBusy

end Sys2Proof.Machine
end

