-- ==== Sys2Proof/Machine/Modes.lean ====
section
/-!
DEFINITION. The key switch and the requests for a mode: what a new position and a request accept, refuse or withdraw
(R257 to R271). When an accepted change takes effect is in Machine/Cycle.lean.
-/
namespace Sys2Proof.Machine

/-- The executing modes are barred: a configuration fault (R261, R265), a strand whose lockstep failed (R418), or a hedge that
is not formed (R351). DEDUCED: assumption 51. -/
def State.execBarred (s : State) : Bool :=
  s.flag SYS_MODE_CFGFAULT || s.fget INT_LS_LSFAIL != 0 || (s.flag MEL_CFG_HEDGE && !s.flag MEL_STAT_FORMED)

/-- A module of a hedge below its top master. -/
def State.hedgeBelow (s : State) : Bool := s.flag MEL_CFG_HEDGE && s.member != 0

/-- The mode that a key position selects (R261, R276). -/
def keyMode (pos : Nat) : Nat :=
  if pos = 0 then mStop else if pos = 1 then mProgram else if pos = 2 then mRun else mRunLocked

/-- The C0 cycle number of the first t0 at least 100 µs from now (R267). -/
def State.changeCycle (s : State) : BitVec 64 :=
  BitVec.ofInt 64 (((s.tbNat : Int) + 100 - s.epoch + s.t0us - 1) / (s.t0us : Int))

/-- The modes into which a hedge changes together: those that the key and the requests select (R352). -/
def hedgeMode (m : Nat) : Bool := m == mStop || m == mProgram || m == mRun || m == mRunLocked || m == mService || m == mDormant || m == mPowerUp

/-- The top master of a hedge announces an accepted change of mode; to modules of a hedge that is not formed it forwards STOP
(R351, R352, R365). -/
def State.announceChange (s : State) (target : Nat) (cold : Bool) : State :=
  if s.flag MEL_CFG_HEDGE && s.member == 0 && hedgeMode target then
    if s.flag MEL_STAT_FORMED then s.send (.announce (.mode (Fin.ofNat 16 target) s.changeCycle cold))
    else if target = mStop then s.send (.announce .stopRequest) else s
  else s

/-- A change of mode is accepted and waits for its C0 t0 (R266, R267). A primary whose standby is READY enters STOP at the end
of a planned handover, and so does each member of its hedge (R333, R341). DEDUCED: assumption 32. -/
def State.acceptChange (s : State) (target req cause : Nat) (cold : Bool) : State :=
  let s := { s with ctl := { s.ctl with change := some { target := target, req := req, cause := cause,
                                                         accepted := s.tbNat, cold := cold } } }
  if target = mStop ∧ s.standbyReady then
    let s := { s with red := { s.red with stopAfter := true } }
    if s.red.handover.isNone then s.proposeHandover 1 else s
  else s.announceChange target cold

/-- A STOP that has waited for a planned handover goes on without it: it takes effect as if accepted now (R333, R334).
DEDUCED: assumption 50. -/
def State.stopAlone (s : State) : State :=
  if s.red.stopAfter then
    let s : State := { s with red := { s.red with stopAfter := false },
                              ctl := { s.ctl with change := s.ctl.change.map (fun c => { c with accepted := s.tbNat }) } }
    if s.ctl.change.isSome then s.announceChange mStop false else s
  else s

/-- Event 0x0104 for a refusal: what was refused, the status, mode and position (R284). -/
def State.raiseRefusal (s : State) (what status : Nat) : State :=
  s.raise 0x0104 0 (leBytes 1 what ++ leBytes 1 status ++ leBytes 1 s.mode ++ leBytes 1 (s.fget SYS_KEY_POS) ++
    leBytes 1 0)

/-- The key acts by the mode (R261). On a module below the top master of a hedge only STOP acts, as a request to the top master
(R352). DEDUCED: assumption 32. -/
def State.keyAct (s : State) (pos : Nat) : State :=
  let m := s.mode
  let target := keyMode pos
  if s.hedgeBelow then (if target = mStop then s.send .stopRequest else s)
  else if m = mStop ∨ m = mProgram ∨ m = mRun ∨ m = mRunLocked then
    if m = target then s
    else if m = mStop ∧ s.execBarred then s.raiseRefusal (0x10 + pos) scState
    else s.acceptChange target (0x10 + pos) 0 false
  else if m = mTrack ∨ m = mSafe then
    if target = mStop then s.acceptChange mStop (0x10 + pos) 0 false else s
  else if m = mHandover then { s with ctl := { s.ctl with keyHeld := some pos } }
  else s

/-- POS takes a new position: event 0x0102, a waiting request is withdrawn with CONFLICT, and the key acts; during
step 8 of the start-up the mode to enter follows it, and in DORMANT it wakes the die (R260, R266, R271, R276). -/
def State.keyTo (s : State) (pos : Nat) : State :=
  let old := s.fget SYS_KEY_POS
  if old = pos then s
  else if s.mode = mDormant then s.dieReset 0 true
  else
    let s := (s.fput SYS_KEY_POS pos).setFlag SYS_EVT_KEYCHG true
    let s := s.raise 0x0102 0 (leBytes 1 pos ++ leBytes 1 old)
    let starting := s.mode == mLoad && s.ctl.change.isSome
    let s := s.withdrawChange scConflict
    let s := { s with ctl := { s.ctl with keyAt := some s.tbNat } }
    if starting then s.acceptChange (keyMode pos) (0x10 + pos) 3 false else s.keyAct pos

/-- KEY_POSITION_CHANGE: a new valid position has been read without interruption for 20 ms (R259). -/
def execKeyPositionChange (pos : Fin 4) (s : State) : Out :=
  if s.ctl.held || s.flag SYS_KEY_KEYFAULT then .next s
  else .next ((s.fput SYS_KEY_RAW (2 ^ pos.val)).keyTo pos)

/-- KEY_FAULT: no contact or several contacts have been closed for 100 ms; POS keeps its value (R259). -/
def execKeyFault (raw : BitVec 4) (s : State) : Out :=
  if s.ctl.held || s.mode == mDormant || popcount 4 raw.toNat == 1 then .next s
  else
    let s := s.fput SYS_KEY_RAW raw.toNat
    if s.flag SYS_KEY_KEYFAULT then .next s
    else
      let s := (s.setFlag SYS_KEY_KEYFAULT true).setFlag SYS_EVT_KEYFLT true
      .next (s.raise 0x0103 0 (leBytes 1 raw.toNat ++ leBytes 1 1))

/-- KEY_FAULT_CLEAR: a valid position has been read for 20 ms; KEYFAULT clears and POS takes the position in the same
sample (R259). -/
def execKeyFaultClear (pos : Fin 4) (s : State) : Out :=
  if s.ctl.held || !s.flag SYS_KEY_KEYFAULT then .next s
  else
    let s := (s.fput SYS_KEY_RAW (2 ^ pos.val)).setFlag SYS_KEY_KEYFAULT false
    .next ((s.raise 0x0103 0 (leBytes 1 (2 ^ pos.val) ++ leBytes 1 0)).keyTo pos)

/-! ## Requests -/

abbrev rqStop : Nat := 1
abbrev rqProgram : Nat := 2
abbrev rqRun : Nat := 3
abbrev rqService : Nat := 4
abbrev rqDormant : Nat := 5
abbrev rqRestart : Nat := 6

/-- The key table of R264: whether a position permits a request. -/
def keyPermits (req pos : Nat) : Bool :=
  if req = rqStop then pos != 3
  else if req = rqProgram then pos == 1
  else if req = rqRun then pos == 1 || pos == 2
  else if req = rqDormant then pos == 0 || pos == 1
  else pos == 0

/-- The mode table of R265: the status of a request that the key table permits. -/
def State.modePermits (s : State) (req : Nat) : Nat :=
  let m := s.mode
  if m = mPowerUp ∨ m = mLoad ∨ m = mHandover then scBusy
  else if m = mStop then
    if (req = rqProgram ∨ req = rqRun) ∧ s.execBarred then scState else scOk
  else if m = mProgram ∨ m = mRun then
    if req = rqStop ∨ req = rqProgram ∨ req = rqRun then scOk else scState
  else if m = mTrack then if req = rqStop ∨ req = rqDormant then scOk else scState
  else if m = mSafe then if req = rqStop then scOk else scState
  else if m = mLockout then if req = rqService ∨ req = rqRestart then scOk else scState
  else if m = mService then if req = rqRestart then scOk else scState
  else scState

/-- POS changed in the 1 ms key sample in which a request is judged now (R266). -/
def State.keyConflict (s : State) : Bool :=
  match s.ctl.keyAt with
  | some t => t / 1000 == s.tbNat / 1000
  | none => false

/-- An earlier request has been accepted and has not yet taken effect (R266). -/
def State.requestWaits (s : State) : Bool :=
  match s.ctl.change with
  | some ch => decide (ch.req < 0x10)
  | none => false

/-- The status of a request: the first refusal condition that applies (R266). -/
def State.requestStatus (s : State) (req : Nat) : Nat :=
  if req = 0 ∨ 7 ≤ req then scRange
  else if s.flag SYS_KEY_KEYFAULT then scPerm
  else if s.keyConflict then scConflict
  else if keyPermits req (s.fget SYS_KEY_POS) = false then scPerm
  else if s.requestWaits then scBusy
  else s.modePermits req

/-- The mode that a request enters; RESTART enters POWER-UP through the reset (R263). -/
def requestMode (req : Nat) : Nat :=
  if req = rqStop then mStop
  else if req = rqProgram then mProgram
  else if req = rqRun then mRun
  else if req = rqService then mService
  else if req = rqDormant then mDormant
  else mPowerUp

/-- LOCKOUT is left by an accepted request, or by a power cycle with POS STOP: the flag is cleared (R269).
DEDUCED: assumption 32. -/
def State.lockoutLeft (s : State) (how : Nat) : State :=
  let s := { s with ctl := { s.ctl with lockKeep := false, lockStore := false } }
  (s.setFlag SYS_LOCKOUT_FLAG false).raise 0x0108 0 (leBytes 1 how)

/-- The status of a request on this module: in a formed hedge only the requests of the top master select the mode, and a module
below it refuses what R264 to R266 would accept (R352). DEDUCED: assumption 51. -/
def State.memberStatus (s : State) (req : Nat) : Nat :=
  let st := s.requestStatus req
  if st = scOk ∧ s.hedgeBelow = true ∧ s.flag MEL_STAT_FORMED = true then scState else st

/-- A request is judged: the status is shown, a refusal raises event 0x0104, an accepted request waits for its t0, and
one for the present mode changes nothing (R263 to R267). -/
def State.modeRequest (s : State) (req : Nat) (cold : Bool) : State :=
  if s.ctl.held || s.mode == mDormant then s
  else
    let st := s.memberStatus req
    let s := ((s.wrapBump SYS_REQSTAT_SEQ 1).fput SYS_REQSTAT_REQ req).fput SYS_REQSTAT_STATUS st
    if st ≠ scOk then (s.setFlag SYS_EVT_REQREJ true).raiseRefusal req st
    else if s.mode = requestMode req then s
    else
      let s := if s.mode = mLockout then s.lockoutLeft (if req = rqService then 1 else 2) else s
      s.acceptChange (requestMode req) req 1 cold

/-- STOP_REQUEST (R263 to R266). -/
def execStopRequest (s : State) : Out := .next (s.modeRequest rqStop false)

/-- PROGRAM_REQUEST. -/
def execProgramRequest (s : State) : Out := .next (s.modeRequest rqProgram false)

/-- RUN_REQUEST. -/
def execRunRequest (s : State) : Out := .next (s.modeRequest rqRun false)

/-- SERVICE_REQUEST. -/
def execServiceRequest (s : State) : Out := .next (s.modeRequest rqService false)

/-- DORMANT_REQUEST (R271). -/
def execDormantRequest (s : State) : Out := .next (s.modeRequest rqDormant false)

/-- RESTART_REQUEST: a reset with cause SERVICE, cold or warm (R263). -/
def execRestartRequest (cold : Bool) (s : State) : Out := .next (s.modeRequest rqRestart cold)

end Sys2Proof.Machine
end

