-- ==== Sys2Proof/Machine/Rtc.lean ====
section
/-!
DEFINITION. The real-time clock: tick edges, sets, trim, alarm and periodic wake (R469 to R488).
-/
namespace Sys2Proof.Machine

abbrev rtcSpan : Nat := 2 ^ 48

/-- A quotient of integers by a positive number, rounded HALF_EVEN. DEDUCED: assumption 17. -/
def intHalfEven (a : Int) (b : Nat) : Int :=
  let q := a / (b : Int)
  let r := a - q * b
  if 2 * r > b ∨ (2 * r = b ∧ q % 2 = 1) then q + 1 else q

/-- A trim limited to ±200,000 ppb (R477). -/
def limitTrim (x : Int) : Int := max (-200000) (min 200000 x)

def State.trim (s : State) : Int := sgn 32 (s.fget RTC_TRIM_TRIM)

def State.setTrim (s : State) (x : Int) : State := s.fput RTC_TRIM_TRIM (intBits 32 (limitTrim x))

def State.taiofs (s : State) : Int := sgn 16 (s.fget RTC_TAIOFS_TAIOFS)

/-- The RTC tick of a TB value (R471). -/
def State.tickOf (s : State) (tb : Int) : Int := (tb - 1000000 * (946684800 + s.taiofs)) * 32768 / 1000000

/-- The TB value of an RTC tick (R471). -/
def State.tbOf (s : State) (tick : Int) : Int := 1000000 * (946684800 + s.taiofs) + tick * 1000000 / 32768

def State.alarmAt (s : State) : Nat :=
  s.fget RTC_ALARM_LO_ALARM + 2 ^ 32 * (s.fget RTC_ALARM_HI_ALARM % 2 ^ 16)

/-- A tick edge under the trim: the phase accumulator and the number of ticks that the edge counts (R477). -/
def State.trimEdge (s : State) : Int × Nat :=
  let a := s.rtc.acc + s.trim
  if 1000000000 ≤ a then (a - 1000000000, 2) else if a ≤ -1000000000 then (a + 1000000000, 0) else (a, 1)

/-- The count that an edge produces, and whether it wraps (R469). -/
def State.edgeCount (s : State) (n : Nat) : Nat × Bool :=
  ((s.rtc.count + n) % rtcSpan, decide (rtcSpan ≤ s.rtc.count + n))

/-- A tick edge without a set (R469, R477). -/
def State.plainEdge (s : State) : State :=
  let e := s.trimEdge
  let c := s.edgeCount e.2
  let s := { s with rtc := { s.rtc with acc := e.1, count := c.1 } }
  if c.2 then s.setFlag RTC_STAT_WRAP true else s

/-- The step of a set is added to the RTC ticks that keep RAM holds (R475). -/
def State.stepKept (s : State) (step : Int) : State :=
  let shift := fun (t : Nat) => ((t : Int) + step).toNat % rtcSpan
  { s with keep := { s.keep with classTick := s.keep.classTick.map (fun e => (e.1, shift e.2)),
                                 restarts := s.keep.restarts.map shift } }

/-- A tick edge at which a staged set is applied in place of what the edge would have produced; the phase accumulator
does not change (R473, R475, R482, R483). DEDUCED: assumption 47. -/
def State.applySet (s : State) : State :=
  let would := (s.edgeCount (s.trimEdge).2).1
  let v := match s.rtc.rel with
    | some d => (((would : Int) + d) % (rtcSpan : Int)).toNat
    | none => s.fget RTC_SET_LO_SET + 2 ^ 32 * (s.fget RTC_SET_HI_SET % 2 ^ 16)
  let late := s.flag RTC_STAT_ARMED && decide (s.alarmAt ≤ v)
  let s := { s with rtc := { s.rtc with count := v, rel := none, late := late,
                                        nw := v + 2 ^ s.fget RTC_ALM_CTRL_K } }
  let s := (s.stepKept ((v : Int) - would)).setFlag RTC_STAT_PEND false
  let s := (s.setFlag RTC_STAT_VALID true).setFlag RTC_EVT_SET true
  s.raise 0x1002 0 (leBytes 6 would ++ leBytes 6 v)

def State.rtcEdge (s : State) : State := if s.flag RTC_STAT_PEND then s.applySet else s.plainEdge

/-- RTC_TICK: a tick edge of the crystal (R469, R473, R477). DEDUCED: assumption 47. -/
def execRtcTick (s : State) : Out := .next s.rtcEdge

/-- GO: the staged value waits for the next tick edge; a GO while one waits is ignored and sets SETREJ (R473). -/
def State.rtcGo (s : State) (rel : Option Int) : State :=
  if s.flag RTC_STAT_PEND then s.setFlag RTC_EVT_SETREJ true
  else ({ s with rtc := { s.rtc with rel := rel } }).setFlag RTC_STAT_PEND true

/-- RTC_SET: the steward writes GO. -/
def execRtcSet (s : State) : Out := if s.stewardOff then .next s else .next (s.rtcGo none)

/-- RTC_SET_APPLY: the tick edge at which a staged set is applied (R473). DEDUCED: assumption 47. -/
def execRtcSetApply (s : State) : Out := if s.flag RTC_STAT_PEND then .next s.applySet else .next s

def State.stageSet (s : State) (v : Nat) : State :=
  (s.rset RTC_SET_LO (BitVec.ofNat 32 v)).rset RTC_SET_HI (BitVec.ofNat 32 (v / 2 ^ 32 % 2 ^ 16))

/-- What a session asked for, in its answer (`Sent.sessionAnswer`): a force, a mode, a clock set, a trace, an edit, a
consolidation, a handover. -/
abbrev saForce : Nat := 0
abbrev saClock : Nat := 2
abbrev saTrace : Nat := 3
abbrev saEdit : Nat := 4
abbrev saConsolidate : Nat := 5
abbrev saRed : Nat := 6

def State.answer (s : State) (what status : Nat) : State := { s with tx := s.tx ++ [.sessionAnswer what status] }

/-- CLOCK_SET_REQUEST: a session sets the clock; refused with PERM in RUN-LOCKED (R474). While a set waits, the steward's
values and GO are ignored (R473). -/
def execClockSetRequest (value : BitVec 48) (s : State) : Out :=
  if s.stewardOff then .next s
  else if s.mode = mRunLocked then .next (s.answer saClock scPerm)
  else if s.flag RTC_STAT_PEND then .next ((s.rtcGo none).answer saClock scBusy)
  else .next (((s.stageSet value.toNat).rtcGo none).answer saClock scOk)

/-! ## Alarm and periodic wake (R481 to R484) -/

/-- ARM: the alarm is armed; one at or below the counter fires at the next edge, late (R481). -/
def execArm (s : State) : Out :=
  if s.stewardOff then .next s
  else
    let s := ((s.setFlag RTC_STAT_ARMED true).setFlag RTC_STAT_FIRED false).setFlag RTC_STAT_LATE false
    .next { s with rtc := { s.rtc with late := decide (s.alarmAt ≤ s.rtc.count) } }

/-- DISARM (R481). -/
def execDisarm (s : State) : Out := if s.stewardOff then .next s else .next (s.setFlag RTC_STAT_ARMED false)

/-- WAKE_CONFIG: a write of WAKE_EN or K sets NW; one with K below 5 is ignored whole (R483). -/
def execWakeConfig (enable : Bool) (k : BitVec 5) (s : State) : Out :=
  if s.stewardOff || decide (k.toNat < 5) then .next s
  else
    let s := (s.setFlag RTC_ALM_CTRL_WAKE_EN enable).fput RTC_ALM_CTRL_K k.toNat
    .next { s with rtc := { s.rtc with nw := s.rtc.count + 2 ^ k.toNat } }

/-- In DORMANT an alarm or a wake starts the module (R271, R484). -/
def State.wakeUp (s : State) : State := if s.mode = mDormant then s.dieReset rcPor true else s

/-- ALARM_FIRE: at an edge the counter is at or above ALARM while the alarm is armed (R481). -/
def execAlarmFire (s : State) : Out :=
  if s.flag RTC_STAT_ARMED ∧ s.alarmAt ≤ s.rtc.count then
    let late := s.rtc.late
    let s := ({ s with rtc := { s.rtc with late := false } }).setFlag RTC_STAT_ARMED false
    let s := ((s.setFlag RTC_STAT_FIRED true).setFlag RTC_STAT_LATE late).wakeUp
    .next ((s.setFlag RTC_EVT_ALARM true).raise 0x1001 0 (leBytes 6 s.alarmAt ++ leBytes 1 (if late then 1 else 0)))
  else .next s

/-- PERIODIC_WAKE: at an edge the counter is at or above NW while WAKE_EN = 1 (R483, R484). -/
def execPeriodicWake (s : State) : Out :=
  if s.flag RTC_ALM_CTRL_WAKE_EN ∧ s.rtc.nw ≤ s.rtc.count then
    let s := { s with rtc := { s.rtc with nw := s.rtc.nw + 2 ^ s.fget RTC_ALM_CTRL_K } }
    .next (s.wakeUp.setFlag RTC_EVT_WAKE true)
  else .next s

/-! ## Trim references (R478) -/

/-- REFOK takes a value; a change raises event 0x1003 (R478, R488). -/
def State.setRefOk (s : State) (ok : Bool) : State :=
  if s.flag RTC_STAT_REFOK = ok then s
  else (s.setFlag RTC_STAT_REFOK ok).raise 0x1003 0
    (leBytes 1 (s.fget RTC_CFG_REFSRC) ++ leBytes 1 (if ok then 1 else 0) ++ leBytes 4 (s.fget RTC_TRIM_TRIM))

/-- MAINS_WINDOW: a window of the mains reference has taken `ticks` raw crystal ticks; one with a period out of range is
discarded (R478). -/
def execMainsWindow (ticks : Nat) (inRange : Bool) (s : State) : Out :=
  if s.fget RTC_CFG_REFSRC = 1 ∧ 0 < ticks then
    if inRange then .next ((s.setTrim (intHalfEven ((327680000 - (ticks : Int)) * 10 ^ 9) ticks)).setRefOk true)
    else .next (s.setRefOk false)
  else .next s

/-- MAINS_REF_ABSENT: the mains input has been absent for 1 s, which discards the window (R478). -/
def execMainsRefAbsent (s : State) : Out :=
  if s.fget RTC_CFG_REFSRC = 1 then .next (s.setRefOk false) else .next s

/-- TB follows a reference that the trim may use. -/
def State.tbSynced (s : State) : Bool :=
  s.flag CYC_SYNC_SYNC && (s.fget CYC_SYNC_SOURCE == 1 || s.fget CYC_SYNC_SOURCE == 2)

/-- TB_LATCH: the counter and TB are latched together; `rho` is the crystal rate error in ppb over the last 16 s
(R478). The quotient of TRIM is rounded HALF_EVEN, as R478 rounds that of REFSRC 1 (DEDUCED, assumption 17). -/
def execTbLatch (rho : Int) (s : State) : Out :=
  if s.fget RTC_CFG_REFSRC = 2 then
    if s.tbSynced then
      let tick := s.tickOf s.tbNat
      let d : Int := (s.rtc.count : Int) - tick
      let first := !s.rtc.latched && !s.flag RTC_STAT_VALID
      let set := s.flag RTC_CFG_AUTOSET && !s.rtc.autoset && (first || decide (32768 < d.natAbs))
      let s := { s with rtc := { s.rtc with latched := true } }
      if set then
        if s.flag RTC_STAT_PEND then .next ((s.rtcGo none).setRefOk true)
        else
          let s := { s with rtc := { s.rtc with autoset := true } }
          .next (((s.stageSet (tick % (rtcSpan : Int)).toNat).rtcGo none).setRefOk true)
      else .next ((s.setTrim (-rho - intHalfEven (d * 10 ^ 9) 32768000)).setRefOk true)
    else .next (s.setRefOk false)
  else .next s

end Sys2Proof.Machine
end

