-- ==== Sys2Proof/Machine/Observe.lean ====
section
/-!
DEFINITION. The observation link, the retirement trace and the performance counter commands (R512 to R523).
-/
namespace Sys2Proof.Machine

/-- OBS_LINK_CHANGE: training of the OBS link completes, or the link drops (R512). -/
def execObsLinkChange (up : Bool) (s : State) : Out :=
  if s.ctl.held || s.mode == mDormant || s.flag OBS_CFG_LINK == up then .next s
  else .next ((s.setFlag OBS_CFG_LINK up).raise 0x1204 0
    (leBytes 1 (if up then 1 else 0) ++ leBytes 4 (s.fget OBS_LOST_LOST)))

/-! ## The retirement trace (R517, R518) -/

/-- The judgement of a request for a trace: the first case of R517 that applies. -/
def State.traceStatus (s : State) : Nat :=
  if s.fget OBS_RT_BUF_SIZE16 = 0 then scAbsent
  else if s.mode = mRunLocked then scPerm
  else if s.mode ≠ mStop ∧ s.mode ≠ mProgram ∧ s.mode ≠ mRun then scState
  else if s.flag OBS_RT_STAT_CAPTURING || s.flag OBS_RT_STAT_DRAINING then scBusy
  else scOk

/-- A request for a trace is judged and answered; an accepted one waits for its start t0 (R517).
DEDUCED: assumption 52. -/
def State.traceBegin (s : State) : State :=
  let st := s.traceStatus
  let s := s.answer saTrace st
  if st = scOk then { s with trace := { s.trace with start := some s.tbNat, left := s.fget OBS_RT_CFG_NCYC } } else s

/-- TRACE_START (R517). -/
def execTraceStart (s : State) : Out := if s.stewardOff then .next s else .next s.traceBegin

/-- TRACE_STOP: capture ends (R518). -/
def execTraceStop (s : State) : Out := if s.stewardOff then .next s else .next (s.traceEnd 1)

/-- The records of a drained trace: two captured instructions each (R514, R518). -/
def State.traceRecords (s : State) (st used : Nat) : List Sent :=
  let base := keyDram (s.fget OBS_RT_BUF_BASE_MIB * 2 ^ 20)
  (List.range ((used + 31) / 32)).map (fun i =>
    let n := min 4 ((used - 32 * i) / 8)
    .obsRecord (obsHeader 0x09 st (n + 1) (s.fab - s.obs.markerAt) ::
      (List.range n).map (fun w => BitVec.ofNat 64 (leNat (s.mgetN (base + 32 * i + 8 * w) 8)))))

/-- TRACE_DRAIN_END: the buffer has drained over OBS (R518). -/
def execTraceDrainEnd (s : State) : Out :=
  if s.flag OBS_RT_STAT_DRAINING && s.flag OBS_CFG_LINK && s.trace.clear.isNone then
    let s := { s with tx := s.tx ++ s.traceRecords (s.fget OBS_RT_CFG_STRAND) s.trace.used }
    let s := { s with trace := { s.trace with used := 0 } }
    .next ((s.setFlag OBS_RT_STAT_DRAINING false).setFlag OBS_RT_STAT_FULL false)
  else .next s

/-! ## Performance counters (R520) -/

/-- The registers of the counters. -/
def isCounter (a : Nat) : Bool := decide ((PMC_GCFG 0 ≤ a ∧ a < OBS_CFG) ∨ (PMC_SCFG 0 0 ≤ a ∧ a < QUE_CFG 0))

/-- The part of a counter register that a snapshot holds and CLEAR sets to 0: the count, and OVF of a CFG register. -/
def counterPart (a : Nat) (v : Word) : Word := if a % 16 = 0 then v &&& 0x80000000 else v

/-- The payload words of the counter-snapshot records (R514). -/
def State.snapWords (s : State) : List (BitVec 64) :=
  let word := fun (cfg lo hi n : Nat) =>
    let g := fun a => (tget 0 s.pmcSnap a).toNat
    BitVec.ofNat 64 (g lo + 2 ^ 32 * (g hi % 2 ^ 16) + n * 2 ^ 48 + (if bitAt (g cfg) 31 then 2 ^ 56 else 0))
  (List.range 128).map (fun i =>
      word (PMC_SCFG (i / 8) (i % 8)) (PMC_SLO (i / 8) (i % 8)) (PMC_SHI (i / 8) (i % 8)) i) ++
    (List.range 32).map (fun i => word (PMC_GCFG i) (PMC_GLO i) (PMC_GHI i) (128 + i))

/-- A snapshot of every counter and OVF bit with TB, sent as records when type 0x08 is enabled (R520). -/
def State.snapshot (s : State) : State :=
  let t := ((s.regs.filter (fun e => isCounter e.1)).map (fun e => (e.1, counterPart e.1 e.2))).filter (fun e => e.2 != 0)
  let s := ({ s with pmcSnap := t }).rset64 PMC_SNAPT_LO PMC_SNAPT_HI s.tbNat
  if s.obsOn 8 then
    each (List.range 6) s (fun s i => s.obsPush 0x08 0 ((s.snapWords.drop (30 * i)).take 30))
  else s

/-- SNAP (R520). -/
def execSnap (s : State) : Out := if s.stewardOff then .next s else .next s.snapshot

/-- Every counter and OVF bit is 0 (R520). -/
def State.clearCounters (s : State) : State :=
  { s with regs := (s.regs.map (fun e =>
      (e.1, if isCounter e.1 then e.2 &&& ~~~(counterPart e.1 0xFFFFFFFF) else e.2))).filter (fun e =>
        e.2 != regReset e.1) }

/-- CLEAR (R520). -/
def execClear (s : State) : Out := if s.stewardOff then .next s else .next s.clearCounters

/-- FREEZE stops every increment, or lets counting go on (R520). -/
def execFreeze (on : Bool) (s : State) : Out := if s.stewardOff then .next s else .next (s.setFlag PMC_CTRL_FREEZE on)

end Sys2Proof.Machine
end

