-- ==== Sys2Proof/Machine/Recorder.lean ====
section
/-!
DEFINITION. The event recorder, the end of a store operation, and the power-down flush (R444, R454, R460 to R464).
-/
namespace Sys2Proof.Machine

/-! ## Records (R461) -/

/-- The element of a record: the payload bytes, as place and number, of the first field that the event's table names as a
strand, channel, counter, port, queue, slot, engine, group or class. DEDUCED: assumption 22. -/
def elemField (code : Nat) : Option (Nat × Nat) :=
  if code ∈ [0x0201, 0x0202, 0x0302, 0x0401, 0x0402, 0x0403, 0x0120, 0x0802, 0x0A06, 0x0B05] then some (8, 1)
  else if code ∈ [0x0501, 0x0502, 0x0601, 0x0602, 0x0603, 0x0604, 0x0605, 0x0701, 0x0702, 0x0703, 0x0704, 0x0705, 0x0706,
      0x0A04, 0x0A05, 0x0801, 0x0803, 0x0804, 0x1301, 0x1302, 0x0901, 0x0902, 0x0903, 0x0904, 0x0905, 0x0906, 0x0C01,
      0x0D01, 0x0D02, 0x0D03, 0x0E06, 0x1103, 0x1105, 0x1106, 0x1201, 0x1202, 0x1203] then some (0, 1)
  else if code ∈ [0x0503, 0x0504, 0x0505, 0x0A03] then some (2, 1)
  else if code ∈ [0x1101, 0x1107] then some (1, 1)
  else if code = 0x0E02 then some (8, 2)
  else none

/-- The events that their chapters declare repeat-counted. -/
def repeatCounted (code : Nat) : Bool :=
  decide (code ∈ [0x0201, 0x0302, 0x0120, 0x0501, 0x0603, 0x0701, 0x0706, 0x0B05, 0x0A05, 0x0803, 0x1301, 0x0903, 0x0904,
    0x0905, 0x0C03, 0x0D01, 0x0E04, 0x0E05, 0x1102])

/-- The 32 bytes of a record. DEDUCED: assumption 46. -/
def State.recordBytes (s : State) (seq code : Nat) (tick count : Nat) (payload : List Byte) : List Byte :=
  let el := match elemField code with
    | some (i, n) => fieldAt payload i n % 0x1000
    | none => 0
  let body := leBytes 4 seq ++ leBytes 6 tick ++ leBytes 2 code ++ leBytes 2 (el + s.member * 0x1000) ++ leBytes 2 count ++
    slice payload 0 12
  body ++ leBytes 3 (crc24 body) ++ [0xA5]

/-! ## Regions (R460) -/

abbrev recRow0 : Nat := 12 * 0x8000
abbrev recPage0 : Nat := 12 * 2048

/-- A row of bank 12 holds a valid record. -/
def State.recValid (s : State) (row : Nat) : Bool :=
  let b := s.rowBytes row
  fieldAt b 31 1 == 0xA5 && fieldAt b 28 3 == crc24 (slice b 0 28)

/-- The rows of a region that hold valid records, oldest first: of the first-fault region, of the rolling region. -/
def State.recRows (s : State) (rolling : Bool) : List Nat :=
  if rolling then
    let l := (s.usedRows (recRow0 + 1024) 31744).filter s.recValid
    let at_ := recRow0 + 1024 + s.recorder.roll
    l.filter (fun r => decide (at_ ≤ r)) ++ l.filter (fun r => decide (r < at_))
  else (s.usedRows recRow0 1024).filter s.recValid

/-- The EVR registers show the recorder. -/
def State.showEvr (s : State) : State :=
  let s := (s.fput EVR_SEQ_NEXT s.recorder.next).setFlag EVR_STAT_OPEN s.recorder.openRec.isSome
  let s := (s.fput EVR_STAT_FFCOUNT (s.recRows false).length).fput EVR_ROLL_COUNT (s.recRows true).length
  s.setFlag EVR_STAT_FFFULL (decide (1024 ≤ s.recorder.ff))

/-- The page of the rolling region after the one being filled is erased, unless it is BLANK. -/
def State.rollClear (s : State) : State :=
  let p := (s.recorder.roll / 16 + 1) % 1984
  if (s.usedRows (recRow0 + 1024 + 16 * p) 16).isEmpty then s
  else s.submit { rank := 3, page := recPage0 + 64 + p, op := .erase, tag := .none }

/-- The place of the next record, and the recorder after it; the first-fault region full raises its event. -/
def State.recPlace (s : State) (seq : Nat) : State × Nat :=
  if s.recorder.ff < 1024 then
    let row := recRow0 + s.recorder.ff
    let t := { s with recorder := { s.recorder with ff := s.recorder.ff + 1 } }
    if s.recorder.ff = 1023 then ((t.setFlag EVR_EVT_FFFULL true).raise 0x0F03 0 (leBytes 4 seq), row) else (t, row)
  else
    let t := if s.recorder.roll % 16 = 0 then s.rollClear else s
    let r := t.recorder.roll
    ({ t with recorder := { t.recorder with roll := (r + 1) % 31744, wrapped := t.recorder.wrapped || r == 31743 } },
      recRow0 + 1024 + r)

/-- A record is sealed: a row program and the bit program of its mark (R448, R462). -/
def State.recSeal (s : State) (rank seq code tick count : Nat) (payload : List Byte) : State :=
  let p := s.recPlace seq
  let bytes := p.1.recordBytes seq code tick count payload
  p.1.submit { rank := rank, page := p.2 / 16, op := .record (p.2 % 16) bytes, tag := .none }

/-- The open record is sealed (R462). -/
def State.sealOpenRec (s : State) (rank : Nat) : State :=
  match s.recorder.openRec with
  | none => s
  | some o =>
    { s with recorder := { s.recorder with openRec := none } }.recSeal rank o.seq o.code.toNat o.tick.toNat o.count o.payload

/-- Write a record of an event that has one record of its own. -/
def State.recWrite (s : State) (code tick : Nat) (payload : List Byte) : State :=
  let seq := s.recorder.next
  { s with recorder := { s.recorder with next := seq + 1 } }.recSeal 3 seq code tick 0 payload

/-- An event enters the recorder (R462, R463). -/
def State.recordEvent (s : State) (e : Event) : State :=
  let same := match s.recorder.openRec with
    | some o => o.code == e.code && o.elem == e.elem
    | none => false
  let s := if same then
      match s.recorder.openRec with
      | some o =>
        let s := { s with recorder := { s.recorder with openRec := some { o with count := o.count + 1 } } }
        if o.count + 1 = 0xFFFF then s.sealOpenRec 3 else s
      | none => s
    else
      let s := s.sealOpenRec 3
      let s := if s.recorder.lost = 0 then s
        else
          let n := s.recorder.lost
          { s with recorder := { s.recorder with lost := 0 } }.recWrite 0x0F01 s.rtc.count (leBytes 4 (min n (2 ^ 32 - 1)))
      if repeatCounted e.code.toNat then
        let o : OpenRecord := { seq := s.recorder.next, code := e.code, elem := e.elem, payload := e.payload, tick := e.tick,
                                count := 0, openedAt := s.fab }
        { s with recorder := { s.recorder with next := o.seq + 1, openRec := some o } }
      else s.recWrite e.code.toNat e.tick.toNat e.payload
  s.showEvr

/-- EVENT_INTAKE: the oldest event of Q30 reaches the recorder, which runs from step 7 on (R258, R462, R463). -/
def execEventIntake (s : State) : Out :=
  match s.evq with
  | [] => .next s
  | e :: rest => if s.stewardOff || s.ctl.pfail || s.mode == mPowerUp then .next s else .next ({ s with evq := rest, evOut := s.evOut + 1 }.recordEvent e)

/-- SEAL_TIMEOUT: a record that has been open for 60 s is sealed (R462). -/
def execSealTimeout (s : State) : Out :=
  match s.recorder.openRec with
  | none => .next s
  | some o =>
    if s.stewardOff || s.ctl.pfail || decide (s.fab < o.openedAt + 60 * clocksPerSec) then .next s
    else .next (s.sealOpenRec 3).showEvr

/-- At a start the rows that hold no valid record are counted (R464), and an open record that keep RAM has kept is sealed. -/
def State.recorderStart (s : State) (keepOk : Bool) : State :=
  let torn := ((s.usedRows recRow0 0x8000).filter (fun r => !s.recValid r)).length
  let s := s.fput EVR_TORN_TORN (min torn 0xFFFF)
  let s := if torn = 0 then s else (s.setFlag EVR_EVT_TORN true).raise 0x0F02 0 (leBytes 2 (min torn 0xFFFF))
  let s := if keepOk then s.sealOpenRec 3 else { s with recorder := { s.recorder with openRec := none } }
  (if s.recorder.roll % 16 = 0 then s else s.rollClear).showEvr

/-! ## The end of an operation (R444) -/

/-- STORE_OPERATION_END: the operation that runs in a bank ends (R443, R444). -/
def execStoreOperationEnd (bank : Fin 16) (s : State) : Out :=
  if s.ctl.held then .next s
  else
    match s.store.running.find? (fun q => pageBank q.page == bank.val) with
    | none => .next s
    | some q =>
      let s := s.opEnd q
      .next (if bank.val = 12 then s.showEvr else s)

/-! ## Power down (R454) -/

/-- PFAIL: no request but those of rank 1 starts any more, and the flush writes the dirty set. Latch, shed, weave and beam
test the same mark. -/
def execPfail (s : State) : Out :=
  if s.ctl.held || s.ctl.pfail then .next s
  else .next { s with ctl := { s.ctl with pfail := true } }.flushPump

/-- Whether a beam is in progress. -/
def State.beamRuns (s : State) : Bool :=
  (List.range 4).any (fun k => match (s.cls k).beam with
    | .running _ _ => true
    | _ => false)

/-- FLUSH_COMPLETE: every flush page is complete; the flush-end page is written, the open record sealed, and the module
reset with cause POR (R454). -/
def execFlushComplete (s : State) : Out :=
  let open_ := s.store.running.any (fun q => q.tag == .flush || q.tag == .ring || q.tag == .ckpt) || s.waits .flush
  if s.ctl.held || !s.ctl.pfail || s.beamRuns || open_ || !s.store.dirty.isEmpty then .next s
  else
    let rows := ringRows s.store.seq 3 0 s.store.ckptS []
    let s := (s.opEffect { rank := 1, page := slotPage s.store.slot, op := .write rows, tag := .flush }).ringAdvance
    let s := s.storeSettle
    let s := { s with store := { s.store with running := [], waiting := [] } }
    let s := (s.sealOpenRec 1).storeSettle
    .next ({ s with store := { s.store with running := [], waiting := [] } }.moduleReset rcPor)

end Sys2Proof.Machine
end

