-- ==== Sys2Proof/Machine/SysRegs.lean ====
section
/-!
DEFINITION. What a read or a write of a system register does beyond the stored bits (R3 to R6, R27, R76, R472, R522):
registers whose value is formed when they are read, high words that a read latches, fields that a read clears, the access
code of each field, and the command registers that a strand can reach (R142).
-/
namespace Sys2Proof.Machine

/-- The index of address `a` in a family of `n` registers. -/
def famIdx (a base stride n : Nat) : Option Nat :=
  if base ≤ a ∧ (a - base) % stride = 0 ∧ (a - base) / stride < n then some ((a - base) / stride) else none

/-! ## Reads -/

/-- The HI register that a read of the LO register at `a` latches (R76, R306, R466, R472, R522). In every such pair HI
follows LO. DEDUCED: assumption 24. -/
def hiOf (a : Nat) : Option Nat :=
  if a = CYC_TB_LO ∨ a = EDT_NCYC_LO ∨ a = RTC_TICK_LO ∨ a = RET_SEQ_LO ∨ a = PMC_SNAPT_LO ∨
      (isCounter a ∧ a % 16 = 4) ∨ (famIdx a (CLS_CYC_LO 0) 0x40 4).isSome ∨ (famIdx a (CLS_T0_LO 0) 0x40 4).isSome
  then some (a + 4) else none

/-- A counter register: live, or the snapshot with VIEW = 1 (R522). -/
def State.counterView (s : State) (a : Nat) : Word :=
  if s.flag PMC_CTRL_VIEW then
    let snap := tget 0 s.pmcSnap a
    if a % 16 = 0 then (s.rget a &&& 0x7FFFFFFF) ||| snap else snap
  else s.rget a

/-- The value of the pair whose LO register is at `a`. -/
def State.pairValue (s : State) (a : Nat) : Nat :=
  if a = CYC_TB_LO then s.tbNat
  else if a = RTC_TICK_LO then s.rtc.count
  else
    match famIdx a (CLS_CYC_LO 0) 0x40 4, famIdx a (CLS_T0_LO 0) 0x40 4 with
    | some k, _ => (s.cls k).cyc.toNat
    | _, some k => (s.cls k).t0.toNat
    | none, none =>
      if isCounter a then (s.counterView a).toNat + 2 ^ 32 * (s.counterView (a + 4)).toNat else s.rget64 a (a + 4)

/-- The record that EVR_RD_SEL selects; an index without a valid record reads 0 (R467). -/
def State.recordShown (s : State) : List Byte :=
  match (s.recRows (s.flag EVR_RD_SEL_REGION))[s.fget EVR_RD_SEL_INDEX]? with
  | some row => s.rowBytes row
  | none => List.replicate 32 0

/-- The age in cycles of the held set of class `k`; 255 while none is held (R322, R343). -/
def State.setAge (s : State) (k : Nat) : Nat :=
  match tget none s.red.held k with
  | some m => min 255 ((s.cls k).cyc - m.cycle).toNat
  | none => 255

/-- CK_FAB clocks of `n` seconds. -/
abbrev secs (n : Nat) : Nat := n * 500000000

/-- The takebacks of the last 60 min (R338). -/
def State.takebacksHour (s : State) : Nat := (s.red.takebacks.filter (fun t => decide (s.fab < t + secs 3600))).length

/-- The witness heartbeat of the partner is at most 150 µs old (R381). -/
def State.witnessOk (s : State) : Bool :=
  match s.red.witnessAt with
  | some t => decide (s.fab ≤ t + 150 * 500)
  | none => false

/-- The degradation weight: failed engines, unchecked strands, front ends of shared channels that are offline, witness ports
that are down (R339). -/
def State.weight (s : State) : Nat :=
  popcount 8 (s.fget SE_STAT_FAILED) + popcount 16 s.unchecked +
    ((List.range 16).filter (fun n => s.flag (UC_MODE_SHARED n) && !s.flag (UC_STAT_ONLINE n))).length +
    ((List.range 4).filter (fun p => bitAt (s.fget RED_WITNESS_PORTS) p && !s.flag (ETH_PSTAT_LINK p))).length

/-- The partner is DEGRADED, as its last heartbeat tells (R339). -/
def State.partnerDegraded (s : State) : Bool :=
  match s.red.beacon with
  | some b => s.paired && decide (0 < b.weight)
  | none => false

/-- The dwell that remains, in s (R337). -/
def State.dwellRem (s : State) : Nat :=
  match s.red.dwell with
  | some t => s.fget RED_DWELL_DWELL_S - (s.fab - t) / secs 1
  | none => 0

/-- The seconds that a trial window has left (R503). -/
def State.trialRem (s : State) : Nat :=
  match s.upd.trial with
  | some t => (t.begun + secs t.window - s.fab + secs 1 - 1) / secs 1
  | none => 0

/-- The watchdog's PAUSE: paused in DORMANT, class slots suspended where classes do not weave (R433). -/
def State.wdgPause (s : State) : Nat := if s.mode = mDormant then 2 else if s.wdgSuspended then 1 else 0

/-- A register as a read shows it, from what holds its value. DEDUCED: assumption 24. -/
def State.regView (s : State) (a : Nat) : Word :=
  let put := fun (v : Word) (f : Fld) (x : Nat) => BitVec.ofNat 32 (bitsPut v.toNat f.lo f.width x)
  let v := s.rget a
  if (hiOf a).isSome then BitVec.ofNat 32 (s.pairValue a)
  else if 4 ≤ a ∧ (hiOf (a - 4)).isSome then tget 0 s.hiLatch a
  else if isCounter a then s.counterView a
  else if a = CLS_CFG 0 then put (put v (CLS_CFG_EN 0) 1) (CLS_CFG_N 0) 1
  else if a = WDG_STAT then put (put v WDG_STAT_RST24 s.rst24) WDG_STAT_PAUSE s.wdgPause
  else if a = RED_SETAGE then
    BitVec.ofNat 32 (s.setAge 0 + 2 ^ 8 * s.setAge 1 + 2 ^ 16 * s.setAge 2 + 2 ^ 24 * s.setAge 3)
  else if a = RED_STAT then
    put (put (put v RED_STAT_WITNESS_OK (if s.witnessOk then 1 else 0)) RED_STAT_DEGRADED (if 0 < s.weight then 1 else 0))
      RED_STAT_PARTNER_DEG (if s.partnerDegraded then 1 else 0)
  else if a = RED_TKOCNT then put v RED_TKOCNT_TB_HOUR (min 3 s.takebacksHour)
  else if a = RED_DWELLREM then put v RED_DWELLREM_REM_S s.dwellRem
  else if a = UPD_TRIAL then put v UPD_TRIAL_REM_S s.trialRem
  else if a = INT_LOG_A then ((s.int.log[s.fget INT_LOG_IDX_IDX]?).map (·.1)).getD 0
  else if a = INT_LOG_B then ((s.int.log[s.fget INT_LOG_IDX_IDX]?).map (·.2.1)).getD 0
  else if a = INT_LOG_T then ((s.int.log[s.fget INT_LOG_IDX_IDX]?).map (·.2.2)).getD 0
  else if a = INT_SERED then put v INT_SERED_FAILED (s.fget SE_STAT_FAILED)
  else if a = RET_QS_VAL then BitVec.ofNat 32 (s.qsc (s.fget RET_QS_IDX_IDX)).value
  else if a = RET_QS_INFO then
    let q := s.qsc (s.fget RET_QS_IDX_IDX)
    put (put (put v RET_QS_INFO_WORN (if q.worn then 1 else 0)) RET_QS_INFO_ACTIVE q.active) RET_QS_INFO_ERASES
      (q.erasesOf q.active)
  else if a = QUE_STAT 30 then put (put v (QUE_STAT_FULLCNT 30) (s.qFull 30)) (QUE_STAT_PIDX 30)
      ((s.evOut + s.evq.length) % s.fget (QUE_CFG_DEPTH 30))
  else if a = QUE_CIDX 30 then put v (QUE_CIDX_CIDX 30) (s.evOut % s.fget (QUE_CFG_DEPTH 30))
  else if a = QUE_STAT 31 then put (put v (QUE_STAT_FULLCNT 31) (s.qFull 31)) (QUE_STAT_PIDX 31)
      ((s.obs.sent + s.obsFull) % s.fget (QUE_CFG_DEPTH 31))
  else if a = QUE_CIDX 31 then put v (QUE_CIDX_CIDX 31) (s.obs.sent % s.fget (QUE_CFG_DEPTH 31))
  else
    match famIdx a (EVR_RD_D 0) 4 8, famIdx a (HDL_WIN_D 0) 4 8 with
    | some n, _ => BitVec.ofNat 32 (fieldAt s.recordShown (4 * n) 4)
    | _, some n => (tget 0 s.heddle (s.fget HDL_WIN_IDX_IDX)).extractLsb' (32 * n) 32
    | none, none => v

/-- The RC bits of the register at `a`. -/
def rcMask (a : Nat) : Word :=
  match regRow a with
  | some r => BitVec.ofNat 32 r.rc
  | none => 0

/-- A read of an RC register: the field is cleared, and `hw`, the value that a hardware update of the same clock leaves in
a cleared field, stays in it whole (R4). -/
def State.rcClear (s : State) (a : Nat) (hw : Word) : State :=
  let m := rcMask a
  if m = 0 then s else s.rset a ((s.rget a &&& ~~~m) ||| (hw &&& m))

/-- The mailbox register at `a`: its port, its mailbox and its offset in the mailbox. -/
def mbReg (a : Nat) : Option (Nat × Nat × Nat) :=
  if CAN_PCFG 0 ≤ a ∧ a < CAN_PCFG 0 + 0x10000 then
    let o := (a - CAN_PCFG 0) % 0x4000
    if 0x1000 ≤ o ∧ o < 0x3000 then some ((a - CAN_PCFG 0) / 0x4000, (o - 0x1000) / 0x80, (o - 0x1000) % 0x80) else none
  else none

/-- A read of the register at `a` by an agent, strand 0 to 15 or the steward 16: the value and what the read changes
(R4, R26, R76, R400). -/
def State.regRead (s : State) (agent a : Nat) (hw : Word) : State × Word :=
  if (regRow a).isNone then (s, 0)
  else
    match mbReg a with
    | some (p, m, 0x0C) => s.mbReadHdr p m agent
    | some (p, m, o) => if 0x40 ≤ o then s.mbReadData p m ((o - 0x40) / 4) agent else (s, s.rget a)
    | none =>
      let v := s.regView a
      match hiOf a with
      | some h => ({ s with hiLatch := tset 0 s.hiLatch h (BitVec.ofNat 32 (s.pairValue a / 2 ^ 32)) }, v)
      | none => (s.rcClear a hw, v)

/-! ## Writes -/

/-- The bits that a write sets: RW, and LK until the configuration lock (R3). -/
def State.writeMask (s : State) (r : RegRow) : Word :=
  BitVec.ofNat 32 (if s.flag SYS_CFGLOCK_LOCK then r.rw else r.rw ||| r.lk)

/-- A write of `v` by the access codes of the register's fields; `hw` are W1C bits that hardware sets in the same clock
(R3, R5, R6, R27). -/
def State.plainWrite (s : State) (a : Nat) (v hw : Word) : State :=
  match regRow a with
  | none => s
  | some r =>
    let m := s.writeMask r
    let w := BitVec.ofNat 32 r.w1c
    s.rset a ((((s.rget a &&& ~~~m) ||| (v &&& m)) &&& ~~~(v &&& w)) ||| (hw &&& w))

/-- The queue whose descriptors include descriptor `d` of the table (R384). -/
def State.queueOfDesc (s : State) (d : Nat) : Option Nat :=
  (List.range 32).find? (fun q => decide (s.qFirst q ≤ d ∧ d < s.qFirst q + s.fget (QUE_CFG_DEPTH q)))

/-- A write to word 0 of a descriptor: FIRST, LAST, TC, STATUS and LEN as its owner writes them; FULL changes by posts and
retires alone, and the writes of others are ignored (R387). DEDUCED: assumption 24. -/
def State.descWrite (s : State) (agent d : Nat) (v : Word) : State :=
  match s.queueOfDesc d with
  | some q =>
    if ownsDesc agent q (s.dFull d) then
      s.rset (QUE_DESC0 d) ((s.rget (QUE_DESC0 d) &&& 0x80000000) ||| (v &&& 0x7CFF0FFF))
    else s
  | none => s

/-- A write to a mailbox register: identifier and data of an idle TX_SOFT mailbox, launch time of one without a pending
frame, the command register (R406, R414). -/
def State.mbWrite (s : State) (p m o a : Nat) (v hw : Word) : State :=
  let pend := (s.mb p m).pend.isSome
  if o = 0x24 then
    let x := v.toNat
    let s := if bitAt x 30 then s.txAbort p m else s
    if bitAt x 31 then s.txRequest p m (bitAt x 29) (bitAt x 19) (bitAt x 18) (bitAt x 17) (bitAt x 16) (bitsAt x 0 4)
    else s
  else if o = 0x1C ∨ o = 0x20 then (if pend then s else s.plainWrite a v hw)
  else if o = 0x10 ∨ 0x40 ≤ o then
    if s.fget (CAN_MB_CFG_KIND p m) = mbTxSoft ∧ pend = false then s.plainWrite a v hw else s
  else s.plainWrite a v hw

/-- A write of the register at `a` by an agent, for the registers that are no command of the steward's own: the command
registers of QUE, CAN and PMC act, the others follow their access codes (R3, R142, R387, R406, R517, R520). -/
def State.regWrite (s : State) (agent a : Nat) (v hw : Word) : State :=
  match mbReg a with
  | some (p, m, o) => s.mbWrite p m o a v hw
  | none =>
    match famIdx a (QUE_POST 0) 0x20 32, famIdx a (QUE_RETIRE 0) 0x20 32, famIdx a (QUE_DESC0 0) 8 4096 with
    | some q, _, _ => if ownsDesc agent q false then s.postFrames q (bitsAt v.toNat 0 11) else s
    | _, some q, _ => if ownsDesc agent q true then s.queRetire q (bitsAt v.toNat 0 11) else s
    | _, _, some d => s.descWrite agent d v
    | none, none, none =>
      if a = PMC_CTRL then
        let s := s.plainWrite a v hw
        let s := if bitAt v.toNat 3 then s.snapshot else s
        if bitAt v.toNat 4 then s.clearCounters else s
      else if a = OBS_RT_CFG then
        let s := s.plainWrite a v hw
        let s := if bitAt v.toNat 30 then s.traceEnd 1 else s
        if bitAt v.toNat 31 && agent == 16 then s.traceBegin else s
      else s.plainWrite a v hw

end Sys2Proof.Machine
end

