-- ==== Sys2Proof/Machine/Mirror.lean ====
section
/-!
DEFINITION. Mirror sets: what a set of a class holds, its layout and its CRC, how long it takes, and what the standby makes of
a held set (R81, R316 to R324, R329).
-/
namespace Sys2Proof.Machine

/-! ## CRC-32 (R81) -/

def crc32Bits : Nat → Nat → Nat
  | 0, r => r
  | n + 1, r => crc32Bits n (if r % 2 = 1 then r / 2 ^^^ 0xEDB88320 else r / 2)

/-- The CRC-32 of a list of bytes. -/
def crc32 (l : List Byte) : Word :=
  BitVec.ofNat 32 (l.foldl (fun r b => crc32Bits 8 (r ^^^ b.toNat)) 0xFFFFFFFF ^^^ 0xFFFFFFFF)

/-! ## Contents of a set (R316, R318) -/

/-- t0 of the cycle whose results the beam of class `k` carries. -/
def State.beamT0 (s : State) (k : Nat) : Nat :=
  let c := s.cls k
  c.t0.toNat - (c.cyc - c.beamCyc).toNat * s.period k

/-- The MIRROR entries of class `k`: those of the own strands, and shared markers. -/
def State.mirrorEntries (s : State) (k : Nat) : List (Nat × HEntry) :=
  s.validEntries.filter (fun e => !hInput e.2 && hMirror e.2 && hClass e.2 == k && (hShared e.2 || hOwner e.2 / 16 == s.member))

/-- Insert into a rising list without repeats. -/
def insertUp (x : Nat) : List Nat → List Nat
  | [] => [x]
  | a :: l => if x < a then x :: a :: l else if x = a then a :: l else a :: insertUp x l

/-- The image granules that entries touch. -/
def granulesOf (es : List (Nat × HEntry)) : List Nat :=
  es.foldl (fun l e =>
    let r := entryBytes e.2
    (List.range ((r.1 + r.2 + 31) / 32 - r.1 / 32)).foldl (fun l i => insertUp (r.1 / 32 + i) l) l) []

def State.imgGranule (s : State) (g : Nat) : List Byte := (List.range 32).map (fun i => imgGet s.img (32 * g + i))

/-- The declared regions of a class: instance data of timers and counters, or DMEM regions. -/
def State.mirrorRegions (s : State) (k : Nat) (inst : Bool) : List MirrorRegion :=
  match s.config with
  | none => []
  | some c => c.mirror.filter (fun r => r.inst == inst && (s.cfg r.strand).cls == k)

/-- The bytes of a region that are sent: its current length, rounded up to a granule and limited to MAX; an instance block
whole. -/
def State.regionLen (s : State) (r : MirrorRegion) : Nat :=
  if r.inst then r.nom
  else min r.max ((leNat (s.mgetN (keyDmem r.strand r.base) 4) + 31) / 32 * 32)

def State.regionData (s : State) (r : MirrorRegion) : Fin 16 × Nat × List Byte :=
  (r.strand, r.base, s.mgetN (keyDmem r.strand r.base) (s.regionLen r))

/-- The mirror set of class `k` (R316). -/
def State.buildSet (s : State) (k : Nat) (final : Bool) (ext : Option ProofExt) : MirrorSet :=
  let es := s.mirrorEntries k
  { cls := Fin.ofNat 4 k, cycle := (s.cls k).beamCyc, t0 := BitVec.ofNat 64 (s.beamT0 k), final := final, align := false,
    marker := s.keep.editMarker, values := (granulesOf es).map (fun g => (g, s.imgGranule g)),
    sw := es.map (fun e => (hSwidx e.2, s.swGet (hSwidx e.2))),
    retentive := (tget [] s.red.unacked k).map (fun g => (g, s.mgetN (keyKeep (32 * g)) 32)),
    insts := (s.mirrorRegions k true).map s.regionData, regions := (s.mirrorRegions k false).map s.regionData, ext := ext }

/-! ## Layout (R316, R317) -/

/-- Bytes padded with 0 to whole granules. -/
def padGranule (l : List Byte) : List Byte := l ++ List.replicate ((32 - l.length % 32) % 32) 0

/-- The descriptor granule of a section. The codes of the kinds are the model's (the spec numbers none). -/
def sectionDesc (kind strand granules addr : Nat) : List Byte :=
  padGranule (leBytes 1 kind ++ [0] ++ leBytes 1 strand ++ [0] ++ leBytes 4 granules ++ leBytes 4 addr)

def sectionOf (kind strand addr : Nat) (data : List Byte) : List Byte :=
  sectionDesc kind strand ((data.length + 31) / 32) addr ++ padGranule data

/-- Retentive granules with an address granule before every eight of them. -/
def retentiveData : Nat → List (Nat × List Byte) → List Byte
  | 0, _ => []
  | n + 1, l =>
    if l.isEmpty then []
    else padGranule ((l.take 8).flatMap (fun g => leBytes 4 (32 * g.1))) ++ (l.take 8).flatMap (fun g => padGranule g.2) ++
      retentiveData n (l.drop 8)

def extData (x : ProofExt) : List Byte :=
  x.shed.flatMap (fun b => leBytes 4 b.1 ++ [b.2]) ++ x.sw.flatMap (fun w => leBytes 4 w.1 ++ leBytes 2 w.2.toNat) ++
    x.outputs.flatMap (fun b => leBytes 4 b.1 ++ [b.2])

/-- The sections of a set after its header, without the proof extension. DEDUCED: assumption 50. -/
def setSections (m : MirrorSet) : List Byte :=
  let addr := fun (l : List (Nat × List Byte)) => match l with
    | [] => 0
    | g :: _ => 0x20000000 + 32 * g.1
  sectionOf 1 0 (addr m.values) (m.values.flatMap (fun g => padGranule g.2)) ++
    sectionOf 2 0 0 (m.sw.flatMap (fun w => leBytes 2 w.2.toNat)) ++
    sectionOf 3 0 0 (retentiveData m.retentive.length m.retentive) ++
    sectionOf 4 0 0 (m.insts.flatMap (fun r => padGranule r.2.2)) ++
    m.regions.flatMap (fun r => sectionOf 5 r.1 (0x80000 + r.2.1) r.2.2)

def extSection (m : MirrorSet) : List Byte :=
  match m.ext with
  | none => []
  | some x => sectionOf 6 0 0 (extData x)

/-- Every byte of a set before its trailer (R317). DEDUCED: assumption 50. -/
def setBytes (m : MirrorSet) : List Byte :=
  let body := setSections m ++ extSection m
  let len := 2 + body.length / 32
  padGranule (leBytes 8 m.cycle.toNat ++ leBytes 8 m.t0.toNat ++ leBytes 4 len ++ leBytes 1 m.cls.val ++
    leBytes 1 ((if m.ext.isSome then 1 else 0) + (if m.final then 2 else 0) + (if m.align then 4 else 0)) ++
    leBytes 2 m.marker.toNat) ++ body

/-- The length of a set in granules, header and trailer included. -/
def setGranules (m : MirrorSet) : Nat := (setBytes m).length / 32 + 1

/-- The trailer of a set sent whole. -/
def trailerOf (m : MirrorSet) : SetTrailer := { crc := crc32 (setBytes m), granules := setGranules m - 1, complete := true }

/-- The trailer of a set that is closed incomplete after `n` granules. -/
def trailerCut (m : MirrorSet) (n : Nat) : SetTrailer :=
  let n := min n (setGranules m - 1)
  { crc := crc32 ((setBytes m).take (32 * n)), granules := n, complete := false }

/-- A received set is complete (R317). -/
def setComplete (m : MirrorSet) (t : SetTrailer) : Bool :=
  t.complete && t.crc == crc32 (setBytes m) && t.granules == setGranules m - 1

/-! ## Window and worst case (R319, R320) -/

def State.linkML4 (s : State) : Bool := s.flag RED_STAT_ML4_UP
def State.linkML5 (s : State) : Bool := s.flag RED_STAT_ML5_UP

/-- CK_FAB clocks to send `n` bytes: 5 bytes per clock over both links, 2.5 over one (R320). -/
def State.sendClocks (s : State) (n : Nat) : Nat := if s.linkML4 && s.linkML5 then (n + 4) / 5 else (2 * n + 4) / 5

/-- Granules that have been sent in `n` CK_FAB clocks (R320). -/
def State.sentIn (s : State) (n : Nat) : Nat := if s.linkML4 && s.linkML5 then 5 * n / 32 else 5 * n / 64

/-- The mirror window W in units of 10 ns (R319). -/
def State.mirrorWindow (s : State) : Nat := s.fget RED_CFG_MIRWIN_PCT * s.t0us

/-- The commit instant of a set plus W has passed (R321). -/
def State.windowOver (s : State) (t : MirrorTx) : Bool := decide (100 * t.commitAt + s.mirrorWindow ≤ 100 * s.tbNat)

/-- The worst-case set of class `k` in granules, with `regions` its DMEM regions and `insts` its instance blocks (R319). -/
def swcOf (entries : List (Nat × HEntry)) (regions insts : List MirrorRegion) (retnom : Nat) : Nat :=
  2 + (4 + regions.length) + (granulesOf entries).length + (entries.length + 15) / 16 + retnom + (retnom + 7) / 8 +
    (insts.map (fun r => (r.nom + 31) / 32)).sum + (regions.map (fun r => (r.nom + 31) / 32)).sum

def State.swc (s : State) (k : Nat) : Nat :=
  swcOf (s.mirrorEntries k) (s.mirrorRegions k false) (s.mirrorRegions k true) (s.fget RED_RETNOM_RETNOM)

def State.swcSum (s : State) : Nat := (s.classesOn.map s.swc).sum

/-- The worst-case set fits the window and the mirror buffer (R319). -/
def State.setsFit (s : State) : Bool :=
  decide (32 * s.swcSum ≤ 25 * s.mirrorWindow ∧ 32 * s.swcSum ≤ 8 * 2 ^ 20)

/-! ## Copy and transmission (R293, R320) -/

/-- Sets are copied one after the other from clock `t` on, in the order of the list. -/
def copyPlan : Nat → List (Nat × MirrorTx) → List (Nat × MirrorTx)
  | _, [] => []
  | t, x :: l =>
    let e := t + setGranules x.2.set
    (x.1, { x.2 with copyEnd := e }) :: copyPlan e l

/-- Copied sets are sent one after the other from clock `t` on: of those whose copy is complete the first of the list. -/
def State.sendPlan (s : State) : Nat → Nat → List (Nat × MirrorTx) → List (Nat × MirrorTx)
  | 0, _, _ => []
  | n + 1, t, l =>
    let t := max t (((l.map (fun x => x.2.copyEnd)).min?).getD t)
    match l.find? (fun x => decide (x.2.copyEnd ≤ t)) with
    | none => []
    | some x =>
      let e := t + s.sendClocks (32 * setGranules x.2.set)
      (x.1, { x.2 with sendAt := t, sendEnd := e }) :: s.sendPlan n e (l.filter (fun y => y.1 != x.1))

/-- The sets in the mirror buffer with a new one: what is being copied or sent goes on, and what waits follows in class order, C0
first (R320). -/
def State.shuttlePlan (s : State) (k : Nat) (x : MirrorTx) : Tab (Option MirrorTx) :=
  let all := (tset none s.red.tx k (some x)).filterMap (fun e => e.2.map (fun t => (e.1, t)))
  let waits := fun (e : Nat × MirrorTx) => e.1 == k || (!e.2.copied && decide (s.fab + setGranules e.2.set < e.2.copyEnd))
  let busy := all.foldl (fun m e => if waits e || e.2.copied then m else max m e.2.copyEnd) s.fab
  let copies := copyPlan busy (all.filter waits)
  let now := all.map (fun e => (copies.find? (fun c => c.1 == e.1)).getD e)
  let held := fun (e : Nat × MirrorTx) => e.1 == k || (!e.2.ended && decide (s.fab < e.2.sendAt))
  let sending := now.foldl (fun m e => if held e || e.2.ended then m else max m e.2.sendEnd) s.fab
  let sends := s.sendPlan now.length sending (now.filter held)
  now.foldl (fun t e => tset none t e.1 (some ((sends.find? (fun c => c.1 == e.1)).getD e).2)) []

/-! ## What a held set gives (R323, R329) -/

/-- The values and status words of the MIRROR entries of a held set, over the image. -/
def State.takeValues (s : State) (m : MirrorSet) : State :=
  let es := s.mirrorEntries m.cls
  let s := each es s (fun s e =>
    let r := entryBytes e.2
    each (List.range r.2) s (fun s i =>
      let off := r.1 + i
      match m.values.find? (fun g => g.1 == off / 32) with
      | some g => { s with img := imgMask s.img off (entryMask e.2 off) ((g.2[off % 32]?).getD 0) }
      | none => s))
  each m.sw s (fun s w => s.swSet w.1 (readStatus w.2))

/-- The instance data and DMEM regions of a held set. -/
def State.takeRegions (s : State) (m : MirrorSet) : State :=
  each (m.insts ++ m.regions) s (fun s r => s.msetN (keyDmem r.1 r.2.1) r.2.2)

/-- The retentive granules of a set go into the unit's own keep RAM (R322). -/
def State.takeRetentive (s : State) (m : MirrorSet) : State :=
  if m.retentive.isEmpty then s else (each m.retentive s (fun s g => s.keepWrite g.1 g.2)).showDirty

/-- The first executed cycles of a new primary start from the held sets: what they hold takes the held values, and all other
data its initial values (R329). A forced item of an output or marker kind keeps its forced value (R72). -/
def State.adoptHeld (s : State) : State :=
  let s := { s with integ := s.integ.filter (fun g => !isDataGranule g) }
  let s := s.initProgram.retRestore.initStatus
  let s := each s.classesOn s (fun s k =>
    match tget none s.red.held k with
    | some m => (s.takeValues m).takeRegions m
    | none => s)
  each s.forces s (fun s f => s.forceShow (f.1 / 2 ^ 24) (f.1 % 2 ^ 24))

/-- Whether channel output entry `e` takes a takeover command: a shared channel or a MIRROR entry (R323). -/
def State.takesOver (s : State) (n : Nat) (e : HEntry) : Bool := s.flag (UC_MODE_SHARED n) || hMirror e

/-- The output pipelines run on a held set, and the results go to the front ends as takeover commands (R323). -/
def State.takeoverCommands (s : State) (m : MirrorSet) : State :=
  let t := s.takeValues m
  let t := each (List.range 16) t (fun t n =>
    match t.ucOutEntry n with
    | some (_, e) => if hClass e = m.cls ∧ t.takesOver n e then t.ucOutputPipe n e else t
    | none => t)
  { t with img := s.img, sw := s.sw }

/-! ## READY (R324) -/

/-- Every enabled class has a held set no older than 3 of its cycles, and no alignment runs. -/
def State.readyHolds (s : State) : Bool :=
  s.mode == mTrack && s.role == 2 && !s.red.aligning && s.red.alignSets.isEmpty &&
    s.classesOn.all (fun k => (tget none s.red.held k).isSome && decide (s.setAge k ≤ 3))

/-- STATE of a standby follows its held sets; entering READY raises event 0x0B09 and starts the dwell (R324, R337). -/
def State.showReady (s : State) : State :=
  if s.mode = mTrack ∧ s.role = 2 then
    if s.readyHolds then
      if s.redState = stReady then s
      else
        let s := (s.fput RED_STAT_STATE stReady).raise 0x0B09 0 (leBytes 8 (s.cls 0).cyc.toNat)
        { s with red := { s.red with dwell := some s.fab } }
    else
      let s := s.fput RED_STAT_STATE (if s.red.aligning then stAligning else stNotReady)
      { s with red := { s.red with dwell := none } }
  else s

/-- An interruption of the dwell that leaves READY (R337). -/
def State.dwellAnew (s : State) : State :=
  { s with red := { s.red with dwell := if s.redState = stReady then some s.fab else none } }

end Sys2Proof.Machine
end

