-- ==== Sys2Proof/Machine/Heddle.lean ====
section
/-!
DEFINITION. The checks of the heddle table at LOAD and in an edit package (R79 to R87, R107, R214, R240, R241, R250, R374, R405).
The state they judge holds the table and the registers as the image or the edit would leave them.
-/
namespace Sys2Proof.Machine

/-- First index and end of the area of a kind (R80). -/
def areaOf (kind : Nat) : Nat × Nat :=
  match kind with
  | 0 => (0, 0x40000)
  | 1 => (0x40000, 0x80000)
  | 2 => (0x80000, 0x180000)
  | 3 => (0, 32768)
  | 4 => (0, 32768)
  | _ => (0, 262144)

/-- The CRC of words 0 to 6 (R81). -/
def entryCrc (e : HEntry) : Word := crc32 ((List.range 28).map (fun i => e.extractLsb' (8 * i) 8))

/-- The bits of words 0 to 6 that R79 lists. DEDUCED: assumption 26. -/
def entryListed : List Nat := [0xFCFFFF70, 0x00FFFFFF, 0x00FF1FFF, 0xFFFFFFFF, 0x0007FFFF, 0xFFFFFFFF, 0x0003FFFF]

/-- A reserved bit of words 0 to 6 is not 0. -/
def entryReserved (e : HEntry) : Bool :=
  (List.range 7).any (fun i =>
    e.extractLsb' (32 * i) 32 &&& ~~~(BitVec.ofNat 32 ((entryListed[i]?).getD 0)) != 0)

/-- Source types permitted for a kind (R83). -/
def kindSources (kind : Nat) : List Nat :=
  match kind with
  | 0 => [1, 2, 3, 4, 5, 6, 7]
  | 3 => [1, 2, 3, 4, 5, 6, 7]
  | 1 => [0, 2, 4, 5, 6]
  | 4 => [0, 1, 4, 5, 6]
  | _ => [0]

/-- First bit of the field of an entry in its record or frame, and the bit after its last. -/
def fieldBits (e : HEntry) : Nat × Nat :=
  let a := 8 * hByteofs e + hBitofs e
  (a, a + hCount e * itemWidth e)

/-- The field lies within a record of `n` bytes. DEDUCED: assumption 26. -/
def fieldWithin (e : HEntry) (n : Nat) : Bool := decide ((fieldBits e).2 ≤ 8 * n)

/-- Length of the record of an internal item, none for an item that R84 does not list or that is a disabled class's.
DEDUCED: assumption 26. -/
def State.internalLen (s : State) (item : Nat) : Option Nat :=
  if item = 0 ∨ item = 0x20 ∨ item = 0x30 then some 16
  else if 0x10 ≤ item ∧ item < 0x14 ∧ s.classOn (item - 0x10) then some 24
  else none

/-- The enabled streams that an entry names by port, identifier and direction (R374). -/
def State.entryStreams (s : State) (e : HEntry) : List Nat :=
  s.streamsWhere (fun j => s.fget (ETH_STR_CFG_STREAM j) == hStream e && s.fget (ETH_STR_CFG_PORT j) == hInstance e &&
    s.flag (ETH_STR_CFG_DIR j) == hOutput e)

/-- Whether the channel, engine, port, stream, mailbox or member of an entry is present and configured, with its field (reason
0x09: R84, R233, R240, R241, R246, R250, R358, R374, R405). -/
def State.sourceHeld (s : State) (e : HEntry) : Bool :=
  let i := hInstance e
  match hSrctype e with
  | 0 => true
  | 1 =>
    decide (i < 16) && s.ucMode i != 0 &&
      (if hInput e then fieldWithin e 16 && !(ucOutput (s.ucMode i) && decide (hByteofs e < 8))
       else ucOutput (s.ucMode i) && hCount e == 1)
  | 2 =>
    if i < 0x40 then
      decide (i + hCount e ≤ 32) &&
        (if hInput e then hBits e && decide ((fieldBits e).1 < 16)
         else (List.range (hCount e)).all (fun j => s.dioOut (i + j) && s.leader (i + j) == i + j))
    else
      decide (i < 0x48) && s.ctMode (i - 0x40) != 0 &&
        (if hInput e then fieldWithin e 8 else decide ((fieldBits e).2 ≤ 2))
  | 3 => decide (16 ≤ i) && s.flag (SE_PIPE_CFG_EN i) && fieldWithin e 8
  | 4 =>
    decide (i < 4) && (s.entryStreams e).any (fun j =>
      fieldWithin e (s.fget (ETH_STR_LEN_LEN j)) && !s.flag (ETH_STR_CFG_MSG j) &&
        s.fget (ETH_STR_CFG_CLASS j) == hClass e)
  | 5 =>
    let p := i
    let m := hStream e
    decide (p < 4 ∧ m < 64) && s.flag (CAN_PCFG_EN p) &&
      s.fget (CAN_MB_CFG_KIND p m) == (if hInput e then mbRxImage else mbTxImage) &&
      fieldWithin e (canSize (s.fget (CAN_MB_CFG_SIZE p m))) &&
      (hInput e || fieldWithin e (dlcLen (s.flag (CAN_MB_CFG_FDF p m)) (s.fget (CAN_MB_CFG_DLC p m)))) &&
      s.fget (CAN_MB_CFG_CLASS p m) == hClass e
  | 6 =>
    s.flag MEL_CFG_HEDGE && i != s.member && decide (i < s.fget MEL_CFG_NMOD ∧ hStream e < 64) && fieldWithin e 512
  | _ =>
    match s.internalLen i with
    | some n => fieldWithin e n
    | none => false

/-- OWNER breaks R83 or R85, or names an own strand outside CLASS. -/
def State.ownerBad (s : State) (e : HEntry) : Bool :=
  let o := hOwner e
  if hInput e then o != s.member * 16
  else if hShared e then hKind e != 2
  else if o / 16 = s.member then (s.cfg (o % 16)).cls != hClass e
  else !s.flag MEL_CFG_HEDGE || decide (s.fget MEL_CFG_NMOD ≤ o / 16)

/-- An owned BEAT-gated entry whose own strand is no producer of its beat (reason 0x0C). -/
def State.beatBad (s : State) (e : HEntry) : Bool :=
  hReadpol e == 1 && !hInput e && !hShared e && hOwner e / 16 == s.member &&
    !bitAt (s.fget (BEAT_PROD_PROD (hClass e) (hBeat e))) (hOwner e % 16)

/-- A field that must hold a fixed value does not hold it (reason 0x0D: R83, R84, R241, R374). -/
def fixedBad (e : HEntry) : Bool :=
  ((hInput e || hShared e) && (hReadpol e != 0 || hBeat e != 0)) ||
    (!hInput e && (hSubst e != 0 || hStale e != 0 || hSubval e != 0)) ||
    (hSrctype e == 7 && hStream e != 0) ||
    (hKind e == 1 && hSrctype e == 2 && decide (hInstance e < 32) && (hByteofs e != 0 || hBitofs e != 0)) ||
    (!hBits e && hSrctype e == 4 && hBitofs e != 0)

/-- Two entries cover a common image bit. -/
def entriesOverlap (e f : HEntry) : Bool :=
  let space := fun (x : HEntry) => if hBits x then 0 else hKind x
  space e == space f && decide (hBase e < hBase f + hCount f ∧ hBase f < hBase e + hCount e)

/-- The first earlier valid entry for which `p` holds. -/
def earlier (l : List (Nat × HEntry)) (i : Nat) (p : HEntry → Bool) : Option Nat :=
  (l.find? (fun x => decide (x.1 < i) && p x.2)).map (·.1)

/-- The lowest reason under which entry `i` fails, with the earlier entry of the pair for reasons 0x06 and 0x0B (R86, R87). `l`
holds the valid entries in index order. DEDUCED: assumption 26. -/
def State.entryFails (s : State) (l : List (Nat × HEntry)) (i : Nat) (e : HEntry) : Option (Nat × Nat) :=
  let past := earlier l i (entriesOverlap e)
  let share := earlier l i (fun f => hSwidx f == hSwidx e)
  let area := areaOf (hKind e)
  if e.extractLsb' 224 32 ≠ entryCrc e then some (0x01, 0)
  else if hValid e = false then none
  else if entryReserved e ∨ 5 < hKind e ∨ 1 < hReadpol e ∨ s.classOn (hClass e) = false then some (0x02, 0)
  else if hCount e = 0 then some (0x03, 0)
  else if 4096 < hCount e then some (0x04, 0)
  else if hBase e < area.1 ∨ area.2 < hBase e + hCount e then some (0x05, 0)
  else if past.isSome then some (0x06, past.getD 0)
  else if 8 ≤ hSrctype e then some (0x07, 0)
  else if (kindSources (hKind e)).contains (hSrctype e) = false then some (0x08, 0)
  else if s.sourceHeld e = false then some (0x09, 0)
  else if s.ownerBad e then some (0x0A, 0)
  else if share.isSome ∨ 16384 * (if s.flag MEL_CFG_HEDGE then s.fget MEL_CFG_NMOD else 1) ≤ hSwidx e then some (0x0B, share.getD 0)
  else if s.beatBad e then some (0x0C, 0)
  else if fixedBad e then some (0x0D, 0)
  else none

/-- The lowest entry that fails, with its reason and the earlier entry of the pair (R87); none when the table passes. -/
def State.heddleFails (s : State) : Option (Nat × Nat × Nat) :=
  let l := s.validEntries
  s.heddle.findSome? (fun x => (s.entryFails l x.1 x.2).map (fun r => (x.1, r.1, r.2)))

/-- Some two valid entries of a table of another module overlap, or share a status word (R85, R354).
DEDUCED: assumption 26. -/
def tableOverlaps (l : List (Nat × HEntry)) : Bool :=
  let v := l.filter (fun e => hValid e.2)
  v.any (fun x => (earlier v x.1 (fun f => entriesOverlap x.2 f || hSwidx f == hSwidx x.2)).isSome)

/-! ## The beam's worst case (R107) -/

/-- The granules that the owned entries of a strand overlap. -/
def State.strandGranules (s : State) (st : Nat) : Nat := (granulesOf (s.ownedBy st)).length

/-- The granules of the result regions of SE jobs that a strand declares (R195). -/
def State.regionGranules (s : State) (st : Nat) : Nat := ((s.cfg st).regions.map (fun r => (r.2 + 31) / 32)).sum

/-- The granules of the delivery buffers of the message streams of class `k` (R380). -/
def State.streamGranules (s : State) (k : Nat) : Nat :=
  ((s.streamsWhere (fun i => s.flag (ETH_STR_CFG_MSG i) && !s.flag (ETH_STR_CFG_DIR i) && s.fget (ETH_STR_CFG_CLASS i) == k)).map
    (fun i => (s.fget (ETH_STR_LEN_LEN i) + 31) / 32)).sum

/-- GMAX of class `k`: the granules that the entries of its strands overlap, of its result regions and of its delivery buffers. -/
def State.gmax (s : State) (k : Nat) : Nat :=
  ((s.strandsOf k).map (fun st => s.strandGranules st + s.regionGranules st)).sum + s.streamGranules k

/-- H of R107: the depth of the top-level hedge, 0 for a single module. -/
def State.hops (s : State) : Nat := if s.flag MEL_CFG_HEDGE then s.fget MEL_CFG_DEPTH else 0

/-- HDL_GMAX and HDL_BEAMWC of the enabled classes (R107). -/
def State.showBeam (s : State) : State :=
  each s.classesOn s (fun s k =>
    let g := s.gmax k
    (s.fput (HDL_GMAX_GMAX k) g).fput (HDL_BEAMWC_WC_NS k) (2000 + 4 * g + 8000 * s.hops))

/-- HDL_STAT shows the valid entries of a loaded table (R109). -/
def State.showTable (s : State) : State := (s.setFlag HDL_STAT_LOADED true).fput HDL_STAT_NVALID s.validEntries.length

end Sys2Proof.Machine
end

