-- ==== Sys2Proof/Machine/Update.lean ====
section
/-!
DEFINITION. Delivery, activation, trial, fallback, owner keys, privileged items, recovery and attestation (R489 to R511).
-/
namespace Sys2Proof.Machine

abbrev imageMax : Nat := 15724544

/-- Memory key of a byte of a slot's update image (R492). -/
def imageKey (slot i : Nat) : Nat := keyFlash slot (0x101000 + i)

/-- The owner key in force: the lowest entry that is enrolled and not revoked (R490). -/
def State.ownerInForce (s : State) : Option Nat :=
  findIdx s.upd.otp.keys.length (fun i => !bitAt s.upd.otp.revoked.toNat i)

def State.showOwner (s : State) : State :=
  let s := (s.fput UPD_OWNER_INFORCE (s.ownerInForce.getD 0xF)).fput UPD_OWNER_REVOKED s.upd.otp.revoked.toNat
  s.fput UPD_OWNER_ENROLLED (2 ^ s.upd.otp.keys.length - 1)

/-- The minimum SVN: the value of the highest burnt step (R496). -/
def State.minSvn (s : State) : Nat := (s.upd.otp.steps.getLast?).getD 0

/-- Both signatures are as R490 needs them. -/
def State.sigOk (s : State) (v : SigVerdict) : Bool := v.vendor && (s.ownerInForce.isNone || v.owner)

/-- A field of a manifest header. -/
def mfField (h : List Byte) (i n : Nat) : Nat := fieldAt h i n

/-- The header is a manifest of R495 with a KIND of it and an image of a permitted length. -/
def mfWf (h : List Byte) : Bool :=
  let len := mfField h 20 4
  mfField h 0 4 == 0x4D55524B && mfField h 4 2 == 1 && (mfField h 6 1 == 1 || mfField h 6 1 == 3 || mfField h 6 1 == 4) &&
    decide (8192 ≤ len ∧ len ≤ imageMax) && len % 4096 == 0

/-- The image may run on this unit (R496). -/
def State.mfAuth (s : State) (h : List Byte) (v : SigVerdict) : Bool :=
  let nuid := mfField h 13 1
  s.sigOk v && Binding.ok ⟨BitVec.ofNat 16 (mfField h 8 2), BitVec.ofNat 16 (mfField h 10 2), BitVec.ofNat 8 (mfField h 12 1)⟩ &&
    (nuid == 0 || (List.range (min nuid 64)).any (fun i => mfField h (1072 + 16 * i) 16 == Config.uid.toNat)) &&
    decide (s.minSvn ≤ mfField h 14 2)

/-- The header of a slot's image. -/
def State.slotHeader (s : State) (slot : Nat) : List Byte := s.mgetN (imageKey slot 0) 4096

/-- SHA-512 of a slot's manifest: of its chunk 0 (R501). PRESUMED: assumption 19. -/
def State.manifestHash (s : State) (slot : Nat) : List Byte := sha512 (s.slotHeader slot)

/-- Body bytes of segment `k` of an image of `len` bytes (R495). -/
def segLen (len k : Nat) : Nat := min (2 ^ 20) (len - 4096 - k * 2 ^ 20)
def segCount (len : Nat) : Nat := (len - 4096 + 2 ^ 20 - 1) / 2 ^ 20

/-- Segment `k` in the slot hashes to its entry of the manifest. -/
def State.segOk (s : State) (slot k : Nat) : Bool :=
  let len := s.manifest slot 20 4
  sha512 (s.mgetN (imageKey slot (4096 + k * 2 ^ 20)) (segLen len k)) == s.mgetN (imageKey slot (112 + 64 * k)) 64

/-- UPD shows versions and SVN of the slots. -/
def State.showVersions (s : State) : State :=
  let alt := s.inactiveSlot
  let empty := s.slotState alt == slEmpty
  let s := (s.fput UPD_VER_ACT_FWVER (s.manifest s.activeSlot 16 4)).fput UPD_VER_ALT_FWVER
    (if empty then 0 else s.manifest alt 16 4)
  s.fput UPD_SVN_IMG_SVN (if empty then 0 else s.manifest alt 14 2)

/-- Erase the state sector of a slot, and with it the image area. The factory mark of slot 0 is erased as well. With the image
area goes the edit journal that applies to its configuration (R303). DEDUCED: assumption 49. -/
def State.eraseSlot (s : State) (slot upTo : Nat) : State :=
  let s := { s with mem := s.mem.filter (fun c => !decide (keyFlash slot 0x100000 ≤ c.1 ∧ c.1 < keyFlash slot upTo)),
                    journal := s.journal.filter (fun r => r.slot != slot) }
  (s.mset (keyFlash slot (0x100000 + mkConfirmed)) 0xFF).showSlots

/-! ## The update chunk map (R499) -/

abbrev mapPage0 : Nat := 14 * 2048

/-- Row and bit of chunk bit `c` of the record at page `p`. -/
def chunkRow (p c : Nat) : Nat := 16 * p + 4 + c / 256

/-- A request of the store that clears a bit of a row and has not ended. -/
def State.bitAsked (s : State) (row bit : Nat) : Bool :=
  (s.store.running ++ s.store.waiting).any (fun q =>
    match q.op with
    | .bits r bytes => q.page * 16 + r == row && !(((bytes[bit / 8]?).getD 0xFF).getLsbD (bit % 8))
    | .row r bytes => q.page * 16 + r == row && !(((bytes[bit / 8]?).getD 0xFF).getLsbD (bit % 8))
    | _ => false)

/-- Chunk `c` of the open delivery is received: its bit is programmed, or its program is on its way. -/
def State.chunkGot (s : State) (d : Delivery) (c : Nat) : Bool :=
  let row := chunkRow d.page c
  !((s.mget (rowKey row + c % 256 / 8)).getLsbD (c % 8)) || s.bitAsked row (c % 256)

def rank5 (page : Nat) (op : StoreOp) : StoreReq := { rank := 5, page := page, op := op, tag := .none }

/-- Program chunk bit `c`. -/
def State.chunkMark (s : State) (d : Delivery) (c : Nat) : State :=
  let row := chunkRow d.page c
  let i := c % 256
  s.submit (rank5 (row / 16) (.bits (row % 16)
    ((List.range 32).map (fun j => if j = i / 8 then BitVec.ofNat 8 (255 - 2 ^ (i % 8)) else 0xFF))))

/-- The record sequence of the pair at page `p`, when its record is valid. -/
def State.mapSeq (s : State) (p : Nat) : Option Nat :=
  if s.mget (rowKey (16 * p + 3) + 31) = 0x69 then some (leNat (s.mgetN (rowKey (16 * p)) 4)) else none

/-- The valid records of the map: first page and sequence. -/
def State.mapRecords (s : State) : List (Nat × Nat) :=
  let pages := ((s.usedRows (16 * mapPage0) 0x8000).filter (fun r => r % 32 == 3)).map (fun r => r / 16)
  pages.filterMap (fun p => (s.mapSeq p).map (fun q => (p, q)))

def pickBy (better : Nat → Nat → Bool) (l : List (Nat × Nat)) : Option (Nat × Nat) :=
  l.foldl (fun b x => match b with
    | none => some x
    | some y => if better x.2 y.2 then some x else some y) none

/-- A page pair that holds a record, or that a request of the store is about. -/
def State.pairTaken (s : State) (p : Nat) : Bool :=
  !(s.usedRows (16 * p) 32).isEmpty || s.upd.dlv.map (·.page) == some p ||
    (s.store.running ++ s.store.waiting).any (fun q => q.page == p || q.page == p + 1)

/-- A page pair for a new record: the next free one; in a full partition the oldest, which is erased first. -/
def State.mapPlace (s : State) : State × Nat :=
  match findIdx 1024 (fun i => !s.pairTaken (mapPage0 + 2 * i)) with
  | some i => (s, mapPage0 + 2 * i)
  | none =>
    let old := pickBy (fun a b => decide (a < b))
      (s.mapRecords.filter (fun r => s.upd.dlv.map (·.page) != some r.1))
    let p := (old.map (·.1)).getD mapPage0
    ((s.submit (rank5 p .erase)).submit (rank5 (p + 1) .erase), p)

/-- Write a delivery record with the chunk bits `bits` (R499): its mark follows the rows that it covers. -/
def State.writeRecord (s : State) (length count : Nat) (hash : List Byte) (got : Nat → Bool) : State × Delivery :=
  let seq := ((pickBy (fun a b => decide (b < a)) s.mapRecords).map (·.2)).getD 0 + 1
  let r := s.mapPlace
  let p := r.2
  let row := fun (s : State) (i : Nat) (b : List Byte) => s.submit (rank5 (p + i / 16) (.row (i % 16) b))
  let s := row r.1 0 (leBytes 4 seq ++ leBytes 4 length ++ leBytes 2 count ++ leBytes 22 0)
  let s := row (row s 1 (slice hash 0 32)) 2 (slice hash 32 32)
  let s := each (List.range 15) s (fun s j =>
    if (List.range 256).any (fun b => got (256 * j + b)) then
      row s (4 + j) ((List.range 32).map (fun i =>
        BitVec.ofNat 8 (maskOf ((List.range 8).filter (fun b => !got (256 * j + 8 * i + b))))))
    else s)
  (row s 3 (leBytes 31 0 ++ [0x69]), { page := p, seq := seq, length := length, count := count })

/-! ## Delivery (R497 to R501) -/

/-- Where chunks may come from (R497): over Melber only when the configuration allows it, from the partner or the top
master; a member of a hedge takes them from its top master alone. -/
def State.sourceOk (s : State) (src : UpdSource) : Bool :=
  match src with
  | .session => !s.flag MEL_CFG_HEDGE || s.member == 0
  | .partner => s.flag UPD_CFG_MEL_DLV && (!s.flag MEL_CFG_HEDGE || s.member == 0)
  | .topMaster => s.flag UPD_CFG_MEL_DLV && s.flag MEL_CFG_HEDGE && s.member != 0
  | .member => false

def State.dlvEvent (s : State) (status : Nat) (h : List Byte) : State :=
  (s.fput UPD_STAT_LASTST status).raise 0x1101 0 (leBytes 1 status ++ leBytes 1 s.inactiveSlot ++
    leBytes 2 (mfField h 20 4 / 4096) ++ leBytes 4 (mfField h 16 4) ++ leBytes 2 (mfField h 14 2))

/-- UPD_DLV and DLVOPEN show the open delivery. -/
def State.showDlv (s : State) : State :=
  match s.upd.dlv with
  | none => ((s.fput UPD_DLV_TOTAL 0).fput UPD_DLV_RECEIVED 0).setFlag UPD_STAT_DLVOPEN false
  | some d =>
    let n := ((List.range d.count).filter (s.chunkGot d)).length
    ((s.fput UPD_DLV_TOTAL d.count).fput UPD_DLV_RECEIVED n).setFlag UPD_STAT_DLVOPEN true

/-- DELIVERY_START: chunk 0 is judged and opens a delivery into the inactive slot (R495 to R499).
DEDUCED: assumption 48. -/
def execDeliveryStart (src : UpdSource) (header : List (BitVec 8)) (sig : SigVerdict) (s : State) : Out :=
  if s.stewardOff || s.flag UPD_STAT_RECOVERY then .next s
  else
    let h := slice header 0 4096
    let slot := s.inactiveSlot
    let same := s.upd.dlv.isSome && s.slotHeader slot == h
    let st :=
      if s.sourceOk src = false then scPerm
      else if mfWf h = false then scRange
      else if s.mfAuth h sig = false then scAuth
      else if s.slotState slot = slTrial ∨ s.slotState slot = slStarted ∨ s.upd.trial.isSome then scState
      else if s.upd.dlv.isSome && !same then scConflict
      else scOk
    if st ≠ scOk then .next (s.dlvEvent st h)
    else if same then .next (s.fput UPD_STAT_LASTST scOk)
    else
      let s := (s.eraseSlot slot 0x1000000).markSlot slot mkReceiving
      let s := s.msetN (imageKey slot 0) h
      let len := mfField h 20 4
      let r := s.writeRecord len (len / 4096) (sha512 h) (fun c => c == 0)
      let s := { r.1 with upd := { r.1.upd with dlv := some r.2 } }
      let s := (s.fput UPD_SEG_VERIFIED 0).fput UPD_SEG_BADSEG 0
      .next ((s.showDlv.showVersions).dlvEvent scOk h)

/-- A segment of which every chunk is received is hashed (R500). -/
def State.segCheck (s : State) (d : Delivery) (k : Nat) : State :=
  let slot := s.inactiveSlot
  let mine := fun c => decide (256 * k + 1 ≤ c ∧ c ≤ 256 * (k + 1))
  if s.segOk slot k then
    let s := (s.setBit UPD_SEG_VERIFIED k true).raise 0x1102 k (leBytes 1 scOk ++ leBytes 1 k)
    if s.fget UPD_SEG_VERIFIED = 2 ^ segCount d.length - 1 then
      let s := (s.markSlot slot mkComplete).setFlag UPD_EVT_COMPLETE true
      let s := s.raise 0x1103 slot (leBytes 1 slot ++ leBytes 4 (s.manifest slot 16 4))
      { s with upd := { s.upd with dlv := none } }
    else s
  else
    let s := ((s.setBit UPD_SEG_BADSEG k true).setFlag UPD_EVT_SEGBAD true).raise 0x1102 k (leBytes 1 scInteg ++ leBytes 1 k)
    let r := s.writeRecord d.length d.count (s.manifestHash slot) (fun c => decide (c < d.count) && s.chunkGot d c && !mine c)
    { r.1 with upd := { r.1.upd with dlv := some r.2 } }

/-- CHUNK: a later chunk is written into the inactive slot, read back and marked received (R497, R500). What a chunk that
fails its read-back leaves in the slot is open. DEDUCED: assumption 48. -/
def execChunk (src : UpdSource) (n : BitVec 12) (bytes : List (BitVec 8)) (readBack : Bool) (s : State) : Out :=
  if s.stewardOff then .next s
  else
    match s.upd.dlv with
    | none => .next (s.fput UPD_STAT_LASTST scState)
    | some d =>
      let c := n.toNat
      if s.sourceOk src = false then .next (s.fput UPD_STAT_LASTST scPerm)
      else if d.count ≤ c then .next (s.fput UPD_STAT_LASTST scRange)
      else if s.chunkGot d c then .next s
      else
        let key := imageKey s.inactiveSlot (4096 * c)
        if readBack then
          let s := (s.msetN key (slice bytes 0 4096)).chunkMark d c
          let k := (c - 1) / 256
          let whole := (List.range 256).all (fun i => decide (d.count ≤ 256 * k + 1 + i) || s.chunkGot d (256 * k + 1 + i))
          .next (if whole then s.segCheck d k else s).showDlv
        else
          let f := s.free
          .next ({ s with free := f + 4096 }.msetN key
            ((List.range 4096).map (fun i => (Config.freeWord (f + i)).setWidth 8)))

/-- ABORT: the open delivery closes, and a pending activation is withdrawn (R501, R502). DEDUCED: assumption 48. -/
def execAbort (s : State) : Out :=
  if s.stewardOff then .next s
  else .next (({ s with upd := { s.upd with dlv := none } }.showDlv).fput UPD_STAT_LASTST scOk).withdrawActivation

/-- At a start the newest valid record of the map resumes its delivery, or the delivery is dropped (R501). -/
def State.deliveryStart (s : State) : State :=
  match pickBy (fun a b => decide (b < a)) s.mapRecords with
  | none => s
  | some (p, seq) =>
    let slot := s.inactiveSlot
    if s.slotState slot = slReceiving && s.manifestHash slot == s.mgetN (rowKey (16 * p + 1)) 64 then
      let d : Delivery := { page := p, seq := seq, length := leNat (s.mgetN (rowKey (16 * p) + 4) 4),
                            count := leNat (s.mgetN (rowKey (16 * p) + 8) 2) }
      let s := { s with upd := { s.upd with dlv := some d } }
      each (List.range (segCount d.length)) s.showDlv (fun s k =>
        if (List.range 256).all (fun i => decide (d.count ≤ 256 * k + 1 + i) || s.chunkGot d (256 * k + 1 + i)) &&
            s.segOk slot k then s.setBit UPD_SEG_VERIFIED k true else s)
    else s

/-! ## Activation (R502) -/

/-- The status of an ACTIVATE: the first case of R502 that applies. DEDUCED: assumption 48. -/
def State.activateStatus (s : State) (sig : SigVerdict) : Nat :=
  let m := s.mode
  let slot := s.inactiveSlot
  let h := s.slotHeader slot
  if m = mRunLocked then scPerm
  else if !(m == mStop || m == mProgram || m == mRun || m == mTrack) || s.upd.trial.isSome ||
      s.slotState slot != slComplete || s.manifest slot 6 1 != 1 then scState
  else if s.mfAuth h sig = false then scAuth
  else if bitAt (mfField h 7 1) 1 && decide (s.minSvn < mfField h 14 2) && decide (64 ≤ s.upd.otp.steps.length) then scWear
  else if s.edit.pkg.isSome then scConflict
  else if s.upd.act.isSome then scBusy
  else scOk

/-- The activation would restart cold: the new image does not accept the running LAYOUT. -/
def State.activateCold (s : State) : Bool :=
  let slot := s.inactiveSlot
  !(bitAt (s.manifest slot 7 1) 0 && s.manifest slot 36 4 == s.manifest s.activeSlot 32 4)

/-- At a beam boundary the retentive area is copied for the fallback copy; where no class executes, at once (R502). -/
def State.activationCopy (s : State) : State :=
  match s.upd.act with
  | none => s
  | some a =>
    if a.handover || a.copy.isSome then s
    else
      let copy := (List.range 16128).map (fun i => (256 + i, s.mgetN (keyKeep (32 * (256 + i))) 32))
      { s with upd := { s.upd with act := some { a with copy := some copy } } }

/-- FALLBACK_COPY_WRITTEN: the copy stands in the system area with its mark, and the inactive slot is marked TRIAL (R502).
The copy takes pages 0 to 1,007 of the system area, its mark row 0 of page 1,008. DEDUCED: assumption 48. -/
def execFallbackCopyWritten (s : State) : Out :=
  match s.upd.act with
  | none => .next s
  | some a =>
    match a.copy with
    | none => .next s
    | some c =>
      if s.ctl.held || a.trialAt.isSome then .next s
      else
        let s := each c s (fun s g => s.rowProgram (15 * 0x8000 + (g.1 - 256)) g.2)
        let s := s.rowProgram (15 * 0x8000 + 16128) (leBytes 31 0 ++ [0x5A])
        .next (({ s with upd := { s.upd with act := some { a with trialAt := some s.tbNat } } }).markSlot s.inactiveSlot mkTrial)

/-- The fallback copy is valid. -/
def State.copyValid (s : State) : Bool :=
  s.mget (rowKey (15 * 0x8000 + 16128) + 31) == 0x5A && !s.rowInteg (15 * 0x8000 + 16128) &&
    !(List.range 16128).any (fun i => s.rowInteg (15 * 0x8000 + i))

def State.copyVoid (s : State) : State := s.rowErase (15 * 0x8000 + 16128)

/-- The activation that is due at a C0 t0: 100 µs or more after the TRIAL mark (R502). -/
def State.activationDue (s : State) : Bool :=
  match s.upd.act with
  | some { trialAt := some t, .. } => decide (t + 100 ≤ s.tbNat)
  | _ => false

/-- The module resets into the new image (R278, R502). -/
def State.activationReset (s : State) : State :=
  let cold := (s.upd.act.map (·.cold)).getD true
  let s := s.moduleReset rcActivate
  { s with ctl := { s.ctl with resetKind := some cold } }

/-! ## Trial and fallback (R503, R504) -/

/-- The ports condition of R503. -/
def State.portsOk (s : State) : Bool :=
  let eth := (List.range 4).all (fun p => !s.flag (ETH_PCFG_EN p) || (s.flag (ETH_PSTAT_LINK p) && !s.flag (ETH_PSTAT_SLOW p)))
  let can := (List.range 4).all (fun p => !s.flag (CAN_PCFG_EN p) || s.fget (CAN_PSTAT_STATE p) == 0)
  eth && can && (!s.flag MEL_CFG_HEDGE || s.flag MEL_STAT_FORMED) && (!s.flag RED_CFG_PAIRED || s.paired)

def State.cycOk (s : State) : Bool := decide (1000 ≤ s.fget UPD_TRIAL_GOOD)

/-- The conditions of a trial as event 0x1106 codes them. -/
def State.trialMask (s : State) : Nat :=
  match s.upd.trial with
  | none => 0
  | some t => (if s.cycOk then 1 else 0) + (if t.slotFault then 0 else 2) + (if s.portsOk then 4 else 0)

/-- A confirmed package that says so raises the lowest security version to its own (R496, R503). -/
def State.raiseMinSvn (s : State) (slot : Nat) : State :=
  let svn := s.manifest slot 14 2
  if bitAt (s.manifest slot 7 1) 1 && decide (s.minSvn < svn) then
    let s := { s with upd := { s.upd with otp := { s.upd.otp with steps := s.upd.otp.steps ++ [svn] } } }
    (s.fput UPD_SVN_MIN_SVN svn).fput UPD_SVNSTEPS_STEPS s.upd.otp.steps.length
  else s

/-- A trial begun at `begun` confirms (R503). -/
def State.confirmTrial (s : State) (begun : Nat) : State :=
  let slot := s.activeSlot
  let s := (s.markSlot slot mkConfirmed).markSlot (1 - slot) mkRetired
  let s := ({ s.copyVoid with upd := { s.upd with trial := none } }).setFlag UPD_SLOT_TRIAL false
  let s := s.raiseMinSvn slot
  (s.setFlag UPD_EVT_CONFIRM true).raise 0x1105 slot (leBytes 1 slot ++ leBytes 4 (s.manifest slot 16 4) ++
    leBytes 2 s.minSvn ++ leBytes 4 ((s.fab - begun) / clocksPerSec))

/-- UPD_TRIAL shows the conditions, and a trial that meets them all confirms (R503). -/
def State.trialCheck (s : State) : State :=
  match s.upd.trial with
  | none => s
  | some t =>
    let s := ((s.setFlag UPD_TRIAL_CYC_OK s.cycOk).setFlag UPD_TRIAL_WDG_OK (!t.slotFault)).setFlag UPD_TRIAL_PORTS_OK s.portsOk
    if s.trialMask = 7 ∧ t.failed = none then s.confirmTrial t.begun else s

/-- A clean C0 cycle, or a complete C0 set held while READY, counts; a spoilt one starts the count again (R503). -/
def State.trialCount (s : State) (good : Bool) : State :=
  match s.upd.trial with
  | none => s
  | some t =>
    let s := if good && !t.spoilt then
        (if s.fget UPD_TRIAL_GOOD < 1000 then s.wrapBump UPD_TRIAL_GOOD 1 else s)
      else s.fput UPD_TRIAL_GOOD 0
    State.trialCheck { s with upd := { s.upd with trial := some { t with spoilt := false } } }

/-- The new slot is FAILED and keep RAM takes the fallback copy, or is left without a source for a restore (R504). -/
def State.fallBack (s : State) (slot cause resetCause mask : Nat) : State :=
  let ok := s.copyValid
  let s := s.markSlot slot mkFailed
  let s := if ok then
      let s := each (List.range 16128) s (fun s i => s.msetN (keyKeep (32 * (256 + i))) (s.rowBytes (15 * 0x8000 + i)))
      { s with keep := { s.keep with sealOpen := false } }
    else { s with keep := { s.keep with sealOpen := true, ringVoid := true } }
  (s.setFlag UPD_EVT_FALLBACK true).raise 0x1106 slot (leBytes 1 slot ++ leBytes 1 cause ++ leBytes 1 resetCause ++
    leBytes 1 mask ++ leBytes 1 (if ok then 1 else 0))

/-- The trial fails while the module runs: the fallback, and the reset with cause FALLBACK. In a hedge the failure is told
to every module, and the top master sends REJECT (R504). DEDUCED: assumption 48. -/
def State.trialFallback (s : State) (cause : Nat) : State :=
  let s := if s.flag MEL_STAT_FORMED then
      { s with tx := s.tx ++ [.fail (some s.member) 0] ++ (if s.member = 0 then [.updateCommand 3] else []) }
    else s
  (s.fallBack s.activeSlot cause 0 s.trialMask).moduleReset rcFallback

/-- REJECT: the trial fails (R504). -/
def execReject (s : State) : Out :=
  if s.stewardOff then .next s
  else if s.upd.trial.isSome then .next (s.trialFallback 2)
  else .next (s.fput UPD_STAT_LASTST scState)

/-- TRIAL_WINDOW_END: the window has ended without confirmation (R504). -/
def execTrialWindowEnd (s : State) : Out :=
  match s.upd.trial with
  | none => .next s
  | some t => if s.ctl.held || s.ctl.booting || decide (s.fab < t.begun + t.window * clocksPerSec) then .next s else .next (s.trialFallback 0)

/-! ## Owner keys (R491) -/

/-- The steward takes key commands only in SERVICE with the key at STOP. -/
def State.serviceStop (s : State) : Bool := !s.ctl.held && s.mode == mService && s.fget SYS_KEY_POS == 0

def State.updStatus (s : State) (st : Nat) : State := s.fput UPD_STAT_LASTST st

/-- ENROL: the next free entry is burnt with the hash of a public key (R491). -/
def execEnrol (key : List (BitVec 8)) (sigOk : Bool) (s : State) : Out :=
  if s.serviceStop = false then .next (if s.stewardOff then s else s.updStatus scState)
  else
    let n := s.upd.otp.keys.length
    if 4 ≤ n then .next (s.updStatus scSize)
    else if s.ownerInForce.isSome && !sigOk then .next (s.updStatus scAuth)
    else
      let s := { s with upd := { s.upd with otp := { s.upd.otp with keys := s.upd.otp.keys ++ [sha512 key] } } }
      .next ((s.showOwner.updStatus scOk).raise 0x1108 0 (leBytes 1 n ++ leBytes 1 0))

/-- REVOKE: the revoke bit of an entry is burnt (R491). -/
def execRevoke (entry : Fin 4) (sigOk : Bool) (s : State) : Out :=
  if s.serviceStop = false then .next (if s.stewardOff then s else s.updStatus scState)
  else
    let o := s.upd.otp
    let others := (List.range o.keys.length).filter (fun i => i != entry.val && !bitAt o.revoked.toNat i)
    if o.keys.length ≤ entry.val then .next (s.updStatus scRange)
    else if s.ownerInForce = some entry.val && others.isEmpty then .next (s.updStatus scState)
    else if s.ownerInForce.isSome && !sigOk then .next (s.updStatus scAuth)
    else
      let s := { s with upd := { s.upd with otp := { o with revoked := o.revoked ||| BitVec.ofNat 4 (2 ^ entry.val) } } }
      .next ((s.showOwner.updStatus scOk).raise 0x1108 0 (leBytes 1 entry ++ leBytes 1 1))

/-! ## Privileged items (R507) -/

/-- PRIV_UPDATE: the image of KIND 3 or 4 that the inactive slot holds begins to replace its item (R507). The front ends under
maintenance do not drive (R272). -/
def execPrivUpdate (holdOk : Bool) (s : State) : Out :=
  if s.stewardOff then .next s
  else
    let s := s.setFlag UPD_STAT_HOLDOK holdOk
    let kind := s.manifest s.inactiveSlot 6 1
    if s.serviceStop && holdOk && s.slotState s.inactiveSlot == slComplete && (kind == 3 || kind == 4) && s.upd.privKind.isNone
    then
      let s := if kind = 4 then each (List.range 16) s (fun s n => s.modUc n (fun u =>
          { u with out := s.ucIdle n, hold := if u.row = 2 then u.hold else u.out, row := 2, fade := none })) else s
      .next ({ s with upd := { s.upd with privKind := some kind } }.updStatus scOk)
    else .next (s.updStatus scState)

/-- PRIV_UPDATE_END: the write ends with a common status (R7); the anchor is the new one when it went well, and the inactive slot
reads EMPTY again (R507). -/
def execPrivUpdateEnd (status : Fin 12) (front : BitVec 4) (s : State) : Out :=
  match s.upd.privKind with
  | none => .next s
  | some kind =>
    if s.ctl.held then .next s
    else
      let slot := s.inactiveSlot
      let s := if kind = 3 ∧ status.val = 0 then
          s.msetN (keyFlash 0 0) (s.mgetN (imageKey slot 4096) (min 0x100000 (s.manifest slot 20 4 - 4096)))
        else s
      let s := (({ s with upd := { s.upd with privKind := none } }).eraseSlot slot 0x101000).showVersions
      .next (((s.setFlag UPD_EVT_PRIV true).updStatus status.val).raise 0x1109 0
        (leBytes 1 kind ++ leBytes 1 status.val ++ leBytes 1 (if kind = 4 then front.toNat else 0)))

/-! ## Recovery (R506) -/

/-- The image goes into the slot, and the module starts from it when its segments check (R506). -/
def State.recoverInto (s : State) (slot : Nat) (image : List (BitVec 8)) : State :=
  let s := (s.eraseSlot slot 0x1000000).msetN (imageKey slot 0) image
  if (List.range (segCount (mfField (slice image 0 4096) 20 4))).all (fun k => s.segOk slot k) then
    ((s.markSlot slot mkConfirmed).raise 0x1107 slot (leBytes 1 1 ++ leBytes 1 slot)).moduleReset rcService
  else s.updStatus scInteg

/-- RECOVERY_IMAGE: the anchor takes a slot image into the lowest slot that reads EMPTY or FAILED, and starts from it
(R506). -/
def execRecoveryImage (image : List (BitVec 8)) (sig : SigVerdict) (s : State) : Out :=
  if s.stewardOff || !s.flag UPD_STAT_RECOVERY || s.fget SYS_KEY_POS != 0 then .next s
  else
    let h := slice image 0 4096
    let len := mfField h 20 4
    match findIdx 2 (fun i => s.slotState i == slEmpty || s.slotState i == slFailed) with
    | none => .next (s.updStatus scState)
    | some slot =>
      if mfWf h = false ∨ mfField h 6 1 ≠ 1 ∨ image.length ≠ len then .next (s.updStatus scRange)
      else if s.mfAuth h sig = false then .next (s.updStatus scAuth)
      else .next (s.recoverInto slot image)

/-! ## Attestation (R508) -/

/-- The configuration hash, including the journal records applied at the last LOAD and committed since (R304). -/
def State.configHash (s : State) : List Byte :=
  let recs := (s.journal.filter (fun r => r.slot == s.activeSlot && r.mark == .committed)).map (·.pkg)
  let base := s.mgetN (imageKey s.activeSlot 48) 64
  if recs.isEmpty then base else Config.cfgHash base recs

/-- Bytes 0 to 267 of the report. DEDUCED: assumption 48. -/
def State.report (s : State) (nonce : BitVec 256) : List Byte :=
  let alt := s.inactiveSlot
  leBytes 4 0x5441524B ++ leBytes 2 0x4B52 ++ leBytes 2 0x3216 ++ [Config.hwRev] ++ leBytes 1 s.mode ++
    leBytes 1 s.activeSlot ++ leBytes 1 (s.slotState 0 + 16 * s.slotState 1) ++ leBytes 16 Config.uid.toNat ++
    leBytes 32 nonce.toNat ++ s.manifestHash s.activeSlot ++
    (if s.slotState alt = slEmpty then leBytes 64 0 else s.manifestHash alt) ++ s.configHash ++ leBytes 6 s.rtc.count ++
    leBytes 2 s.minSvn ++ leBytes 1 (s.ownerInForce.getD 0xFF) ++ leBytes 3 0 ++ leBytes 4 (s.manifest s.activeSlot 16 4)

/-- ATTESTATION_REQUEST: the report and its signature go to the session (R508). -/
def execAttestationRequest (nonce : BitVec 256) (s : State) : Out :=
  if s.stewardOff then .next s
  else
    let r := s.report nonce
    .next { s with tx := s.tx ++ [.attestation r (Config.sign r)] }

end Sys2Proof.Machine
end

