-- ==== Sys2Proof/Machine/Edit.lean ====
section
/-!
DEFINITION. Online edits: the checks of a package, staging, the swap of a class with its relocation, revert, and the end of an edit
(R285 to R304, R307).
-/
namespace Sys2Proof.Machine

/-! ## What a package touches -/

def editTouches (p : EditPkg) (k : Nat) : Bool := p.classes.getLsbD k

/-- The affected classes. -/
def State.affected (s : State) (p : EditPkg) : List Nat := s.classesOn.filter (editTouches p)

/-- The class that owns a byte of the image: that of the entry that covers it, C0 when none does. -/
def State.byteClass (s : State) (off : Nat) : Nat :=
  match (List.range 8).findSome? (fun b => s.entryAt off b) with
  | some (_, e) => hClass e
  | none => 0

/-- The class of a place of program data. -/
def State.placeClass (s : State) (x : DataPlace) : Nat :=
  match x.dmem with
  | some st => (s.cfg st).cls
  | none => s.byteClass x.off

/-- The class of an entry of the package: its own, or that of the entry it deletes. -/
def State.editClass (s : State) (x : Nat × HEntry) : Nat :=
  if hValid x.2 then hClass x.2 else hClass (tget 0 s.heddle x.1)

/-- A setting goes into the fields of its register that hold settings; what stands in reserved fields is ignored (R6). -/
def settingMask (a : Nat) : Word :=
  match regRow a with
  | some r => BitVec.ofNat 32 (r.rw ||| r.lk)
  | none => 0

def State.putSetting (s : State) (a : Nat) (v : Word) : State :=
  s.rset a ((s.rget a &&& ~~~(settingMask a)) ||| (v &&& settingMask a))

/-- The configuration as the package would leave it. -/
def State.edited (s : State) (p : EditPkg) : State :=
  let s := { s with heddle := each p.entries s.heddle (fun t x => tset 0 t x.1 x.2) }
  let s := each p.prods s (fun s x => s.fput (BEAT_PROD_PROD x.1.val x.2.1.val) x.2.2.toNat)
  each p.settings s (fun s x => s.putSetting x.1 x.2)

/-! ## What an edit may change (R207, R289) -/

def fldMask (f : Fld) : Nat := (2 ^ f.width - 1) * 2 ^ f.lo

/-- The bits of a register that an edit may change. -/
def editMask (a : Nat) : Nat :=
  if a = DIO_DISC then 0xFFFFFFFF
  else match (List.range 32).find? (fun n => a == DIO_CH_CFG n) with
    | some n => fldMask (DIO_CH_CFG_BADQ_SEL n) + fldMask (DIO_CH_CFG_SAFE_SEL n) + fldMask (DIO_CH_CFG_STOP_SEL n)
    | none =>
      if (List.range 16).any (fun n => a == UC_TRIM_OFS n || a == UC_TRIM_GAIN n || a == UC_FAILSEL n || a == UC_STOPVAL n ||
          a == UC_SAFEVAL n || a == UC_CMDTMO n || a == UC_CJC n) then 0xFFFFFFFF else 0

/-- A stage of the filter of a pipeline, which is no characteristic stage. -/
def isFilter : Stage → Bool
  | .dec _ _ => true
  | .fir _ => true
  | .iir _ => true
  | _ => false

/-- The package changes an item that R289 excludes. -/
def State.editExcluded (s : State) (p : EditPkg) : Bool :=
  p.other ||
    p.settings.any (fun x =>
      if editMask x.1 = 0 then s.rget x.1 != x.2
      else (s.rget x.1 ^^^ x.2) &&& settingMask x.1 &&& ~~~(BitVec.ofNat 32 (editMask x.1)) != 0) ||
    p.prods.any (fun x => !editTouches p x.1 && s.fget (BEAT_PROD_PROD x.1 x.2.1) != x.2.2.toNat) ||
    p.stages.any (fun x => (x.2.filter isFilter) != ((s.pipe x.1).stages.filter isFilter))

/-! ## The checks of R288 -/

/-- A place of `n` bytes lies in its strand's DMEM below DSL, or in the image outside the input areas. -/
def State.placeOk (s : State) (x : DataPlace) (n : Nat) : Bool :=
  match x.dmem with
  | some st => decide (x.off + n ≤ 0x40000 - (s.cfg st).stackSize)
  | none => decide (x.off + n ≤ 0x180000) && (List.range n).all (fun i => !inputArea (x.off + i))

/-- A place of `n` bytes lies in one retentive range. -/
def placeRetentive (map : List RetRange) (x : DataPlace) (n : Nat) : Bool :=
  map.any (fun r => r.dmem == x.dmem.map (·.val) && decide (r.off ≤ x.off ∧ x.off + n ≤ r.off + r.len))

/-- The retentive layout that the package leaves. -/
def State.newRetMap (s : State) (p : EditPkg) : List RetRange := p.retMap.getD s.retMap

/-- Bytes that the relocation of class `k` moves and writes. -/
def State.relocated (s : State) (p : EditPkg) (k : Nat) : Nat :=
  ((p.moves.filter (fun m => s.placeClass m.new == k)).map (·.len)).sum +
    ((p.inits.filter (fun i => s.placeClass i.place == k)).map (fun i => i.bytes.length)).sum

/-- The lowest time, in ns, that the beam of class `k` takes of its cycle at worst (R107). -/
def State.beamWorst (s : State) (k : Nat) : Nat := 2000 + 4 * s.gmax k + 8000 * s.hops

/-- The time from the shed of class `k` to its commit deadline, in ns. -/
def State.weaveRoom (s : State) (k : Nat) : Int := 1000 * ((s.dout k : Int) - eprep - s.dshed k)

/-- Status, reason, heddle entry and reason of R86 with which the package is refused; none when it is accepted. During a
rolling update every package conflicts with the configuration (R288, R340). DEDUCED: assumption 49. -/
def State.editRefusal (s : State) (p : EditPkg) : Option (Nat × Nat × Nat × Nat) :=
  let t := s.edited p
  let mine := s.journal.filter (fun r => r.slot == s.activeSlot)
  let held := (mine.map (fun r => r.pkg.size)).sum
  let count := (mine.filter (fun r => r.mark == .committed)).length
  let bad := t.heddleFails
  if s.sigOk { vendor := p.vendorOk, owner := p.ownerOk } = false then some (scAuth, 0x01, 0, 0)
  else if p.bind.ok = false then some (scAuth, 0x02, 0, 0)
  else if 8 * 2 ^ 20 < p.size ∨ 48 * 2 ^ 20 < held + p.size ∨ 256 ≤ count then some (scSize, 0x03, 0, 0)
  else if p.base ≠ s.configHash ∨ s.red.rolling then some (scConflict, 0x04, 0, 0)
  else if s.editExcluded p then some (scConflict, 0x05, 0, 0)
  else if bad.isSome then some (scRange, 0x06, (bad.getD (0, 0, 0)).1, (bad.getD (0, 0, 0)).2.1)
  else if p.code.any (fun c => decide (0x80000 < c.2.length)) || decide (4096 < p.moves.length) ||
      p.moves.any (fun m => m.len % 4 != 0 || !(t.placeOk m.old m.len && t.placeOk m.new m.len &&
        placeRetentive s.retMap m.old m.len && placeRetentive (s.newRetMap p) m.new m.len)) ||
      p.inits.any (fun i => !(t.placeOk i.place i.bytes.length && placeRetentive (s.newRetMap p) i.place i.bytes.length)) then some (scRange, 0x07, 0, 0)
  else if (s.affected p).any (fun k => decide (t.weaveRoom k < t.beamWorst k)) then some (scConflict, 0x08, 0, 0)
  else if s.paired ∧ t.setsFit = false then some (scConflict, 0x09, 0, 0)
  else if (s.affected p).any (fun k => decide (256 * 1024 < t.relocated p k)) then some (scSize, 0x0A, 0, 0)
  else none

/-- The status with which the mode refuses a package (R286, R287). DEDUCED: assumption 49. -/
def State.editModeStatus (s : State) (forwarded : Bool) : Nat :=
  let m := s.mode
  if s.ctl.held then scState
  else if m = mStop ∨ m = mProgram then (if s.edit.pkg.isSome then scBusy else scOk)
  else if m = mRun then
    if s.flag EDT_CFG_REMOTE_EDIT then (if s.edit.pkg.isSome then scBusy else scOk) else scPerm
  else if m = mRunLocked then scPerm
  else if m = mTrack then
    if forwarded then (if s.edit.pkg.isSome then scBusy else scOk) else scPerm
  else scState

/-! ## Staging -/

/-- The bank that strand `st` executes, and the other one. -/
def State.activeBank (s : State) (st : Nat) : Nat := tget 0 s.edit.banks st

/-- A code bank goes into the bank of its strand that is not active; what it does not fill holds ones (R547). -/
def State.stageCode (s : State) (st : Nat) (code : List Byte) : State :=
  let b := 1 - s.activeBank st
  let lo := keyImem st b 0
  let s := { s with mem := s.mem.filter (fun c => !decide (lo ≤ c.1 ∧ c.1 < lo + 0x80000)),
                    integ := s.integ.filter (fun g => !decide (lo ≤ 32 * g ∧ 32 * g < lo + 0x80000)) }
  s.msetN lo (code.take 0x80000)

/-- The results of a proof start from nothing. -/
def State.proofClear (s : State) : State :=
  (((s.rset EDT_PROOF 0).rset EDT_REP_ERR 0).rset EDT_REP_DIFF 0).rset EDT_REP_TIME 0

/-- The accepted package is staged: a STAGED record, its code in the staging banks, and its proof begins where the mode and the
settings call for one (R287, R288). -/
def State.editStage (s : State) (p : EditPkg) : State :=
  let rec_ : JournalRec := { slot := s.activeSlot, pkg := p, mark := .staged }
  let s : State := { s with journal := s.journal ++ [rec_],
                            edit := { EditSt.reset with pkg := some p, banks := s.edit.banks, slack := s.edit.slack } }
  let s := each p.code s (fun (s : State) c => s.stageCode c.1 c.2)
  let proving := s.mode == mTrack || ((s.mode == mProgram || s.mode == mRun) && (s.paired || s.flag EDT_CFG_DRYPROOF))
  let s := (s.proofClear.fput EDT_SEQ_SEQ p.seq.toNat).fput EDT_STAT_STATE (if proving then edProving else edChecked)
  s.raise 0x1141 p.seq.toNat (leBytes 2 p.seq.toNat ++ leBytes 2 p.classes.toNat)

/-- The package is refused (R288, R307). -/
def State.editRefuse (s : State) (p : EditPkg) (status reason entry r86 : Nat) : State :=
  (s.fput EDT_STAT_LASTSTAT status).raise 0x1140 p.seq.toNat
    (leBytes 2 p.seq.toNat ++ leBytes 1 status ++ leBytes 1 reason ++ leBytes 2 entry ++ leBytes 1 r86)

/-! ## Relocation (R301) -/

/-- The bytes at a place. -/
def State.placeGet (s : State) (x : DataPlace) (n : Nat) : List Byte :=
  match x.dmem with
  | some st => s.mgetN (keyDmem st x.off) n
  | none => (List.range n).map (fun i => imgGet s.img (x.off + i))

def State.placePut (s : State) (x : DataPlace) (l : List Byte) : State :=
  match x.dmem with
  | some st => s.msetN (keyDmem st x.off) l
  | none => { s with img := each l.zipIdx s.img (fun t b => imgSet t (x.off + b.2) b.1) }

/-- The items of the package that act when class `k` swaps: its own, and with the first class those of classes that the package
does not list. -/
def State.editNow (s : State) (p : EditPkg) (k c : Nat) : Bool :=
  c == k || (s.edit.swapped.isEmpty && !editTouches p c)

/-- The relocation of class `k`: the moves in map order, then the initial values. -/
def State.relocate (s : State) (p : EditPkg) (k : Nat) : State :=
  let now := fun x => s.editNow p k (s.placeClass x)
  let t := each (p.moves.filter (fun m => now m.new)) s (fun s m => s.placePut m.new (s.placeGet m.old m.len))
  each (p.inits.filter (fun i => now i.place)) t (fun s i => s.placePut i.place i.bytes)

/-! ## Swap and revert (R300 to R302) -/

/-- The bytes of a range that no range of the new layout holds and no move takes along: the edit deletes them (R301). -/
def State.deletedBytes (s : State) (p : EditPkg) (r : RetRange) : List (DataPlace × Nat) :=
  let place := fun (i : Nat) => ({ dmem := r.dmem.map (Fin.ofNat 16), off := r.off + i } : DataPlace)
  let moved := fun (x : DataPlace) => p.moves.any (fun m => m.old.dmem == x.dmem && decide (m.old.off ≤ x.off ∧ x.off < m.old.off + m.len))
  ((List.range r.len).filter (fun i => !placeRetentive (s.newRetMap p) (place i) 1 && !moved (place i))).map (fun i => (place i, 1))

/-- Places whose bytes a swap of class `k` overwrites or drops: deleted data of the class, the new places of moves and initial
values. -/
def State.swapPlaces (s : State) (p : EditPkg) (k : Nat) : List (DataPlace × Nat) :=
  let now := fun x => s.editNow p k (s.placeClass x)
  (s.retMap.filter (fun r => r.cls == k)).flatMap (s.deletedBytes p) ++
    (p.moves.filter (fun m => now m.new)).map (fun m => (m.new, m.len)) ++
    (p.inits.filter (fun i => now i.place)).map (fun i => (i.place, i.bytes.length))

/-- What class `k` keeps of the old code until the edit is final. -/
def State.keepOld (s : State) (p : EditPkg) (k : Nat) : EditKept :=
  let places := s.swapPlaces p k
  let entries := p.entries.filter (fun x => s.editNow p k (s.editClass x))
  let regs := (p.prods.filter (fun x => s.editNow p k x.1)).map (fun x => BEAT_PROD x.1 x.2.1) ++
    (if s.edit.swapped.isEmpty then p.settings.map (·.1) else [])
  { heddle := entries.map (fun x => (x.1, tget 0 s.heddle x.1)),
    regs := regs.map (fun a => (a, s.rget a)),
    mem := places.flatMap (fun x => match x.1.dmem with
      | some st => (List.range x.2).map (fun i => (keyDmem st (x.1.off + i), s.mget (keyDmem st (x.1.off + i))))
      | none => []),
    img := places.flatMap (fun x => match x.1.dmem with
      | some _ => []
      | none => (List.range x.2).map (fun i => (x.1.off + i, imgGet s.img (x.1.off + i)))),
    banks := (p.code.filter (fun c => s.editNow p k (s.cfg c.1).cls)).map (fun c => (c.1.val, s.activeBank c.1)),
    stages := if s.edit.swapped.isEmpty then p.stages.map (fun x => (x.1.val, (s.pipe x.1).stages)) else [],
    ranges := s.retMap.filter (fun r => r.cls == k),
    entries := entries.map (fun x => (x.1, tget EntrySt.reset s.entries x.1)) }

/-- A pipeline takes other characteristic stages. -/
def State.setStages (s : State) (n : Nat) (l : List Stage) : State :=
  (s.setPipe n { s.pipe n with stages := l, st := l.map (fun _ => StageSt.init) }).fput (SE_PIPE_CFG_NSTAGE n) (l.length - 1)

/-- The forced items of deleted entries are released, and those that no entry covers any more; `was` holds entries as they stood
before (R74, R289). -/
def State.dropForces (s : State) (was : List (Nat × HEntry)) : State :=
  let gone := was.filter (fun x => hValid x.2 && !hValid (tget 0 s.heddle x.1))
  each (s.forces.filter (fun f => (s.entryOf (f.1 / 2 ^ 24) (f.1 % 2 ^ 24)).isNone ||
      gone.any (fun x => entryHolds x.2 (f.1 / 2 ^ 24) (f.1 % 2 ^ 24)))) s
    (fun s f => s.unforce (f.1 / 2 ^ 24) (f.1 % 2 ^ 24))

/-- A changed heddle entry takes effect: an input has delivered nothing yet, an output or marker starts GOOD (R546, R552). -/
def State.putEntry (s : State) (i : Nat) (e : HEntry) : State :=
  let s := { s with heddle := tset 0 s.heddle i e, entries := tset EntrySt.reset s.entries i EntrySt.reset }
  if hValid e && !hInput e then s.swSet (hSwidx e) (swWord qGood false false false (s.entryForced e) false 0) else s

/-- Jobs with DELIVER = 1 of the class's strands are cancelled without delivery and their buffers unlocked (R300). -/
def State.cancelDeferred (s : State) (k : Nat) : State :=
  each (List.range 8) s (fun s n =>
    let gone := fun (j : Job) => (s.cfg j.strand).cls == k && j.defer == 1 && !j.late
    let jobs := (s.engine n).jobs
    let s := s.fput (SE_JOBSTAT_PENDING n) (s.fget (SE_JOBSTAT_PENDING n) - (jobs.filter gone).length)
    s.setEngine n { jobs := jobs.filter (fun j => !gone j) })

/-- Class `k` swaps to the new code (R300, R301). DEDUCED: assumption 49. -/
def State.editSwap (s : State) (k : Nat) : State :=
  match s.edit.pkg with
  | none => s
  | some p =>
    let kept := s.keepOld p k
    let now := s.editNow p k
    let first := s.edit.swapped.isEmpty
    let s := s.relocate p k
    let t := each (p.code.filter (fun c => now (s.cfg c.1).cls)) s (fun (t : State) c =>
      { t with edit := { t.edit with banks := tset 0 t.edit.banks c.1 (1 - t.activeBank c.1) } })
    let t := each (p.entries.filter (fun x => now (s.editClass x))) t (fun t x => t.putEntry x.1 x.2)
    let t := each (p.prods.filter (fun x => now x.1)) t (fun t x => t.fput (BEAT_PROD_PROD x.1 x.2.1) x.2.2.toNat)
    let t := if first then each p.settings t (fun t x => t.putSetting x.1 x.2) else t
    let t := if first then each p.stages t (fun t x => t.setStages x.1 x.2) else t
    let t : State := { t with retMap := t.retMap.filter (fun (r : RetRange) => r.cls != k) ++ (s.newRetMap p).filter (fun (r : RetRange) => r.cls == k) }
    let t := (t.cancelDeferred k).dropForces kept.heddle
    let t : State := { t with keep := { t.keep with editMarker := p.seq },
                              edit := { t.edit with swapped := t.edit.swapped ++ [k], kept := tset EditKept.reset t.edit.kept k kept } }
    let t := if t.role = 2 ∧ t.mode = mTrack ∧ t.paired then t.send (.swapAck k) else t
    (t.showLoad.showTable.showBeam).fput EDT_STAT_STATE edSwapping

/-- Class `k` returns to the old code. With `data`, moves are reversed and what was dropped returns (R302). -/
def State.editBack (s : State) (k : Nat) (data : Bool) : State :=
  match s.edit.pkg with
  | none => s
  | some p =>
    let o := tget EditKept.reset s.edit.kept k
    let moved := (p.moves.filter (fun m => s.placeClass m.new == k)).map (fun m => (m.old, s.placeGet m.new m.len))
    let s := if data then
        let s := each o.mem s (fun s b => s.mset b.1 b.2)
        let s := { s with img := each o.img s.img (fun t b => imgSet t b.1 b.2) }
        each moved s (fun s m => s.placePut m.1 m.2)
      else s
    let was := o.heddle.map (fun x => (x.1, tget 0 s.heddle x.1))
    let s := each o.banks s (fun s b => { s with edit := { s.edit with banks := tset 0 s.edit.banks b.1 b.2 } })
    let s := each o.heddle s (fun s x => s.putEntry x.1 x.2)
    let s := each o.entries s (fun s x => { s with entries := tset EntrySt.reset s.entries x.1 x.2 })
    let s := each o.regs s (fun s x => s.rset x.1 x.2)
    let s := each o.stages s (fun s x => s.setStages x.1 x.2)
    let s := { s with retMap := s.retMap.filter (fun (r : RetRange) => r.cls != k) ++ o.ranges }
    let s := { s with edit := { s.edit with swapped := s.edit.swapped.filter (· != k),
                                            revert := s.edit.revert.filter (· != k),
                                            kept := tset EditKept.reset s.edit.kept k EditKept.reset } }
    ((s.dropForces was).showLoad.showTable).showBeam

/-- EDIT_REVERT at a t0 of class `k`; when every swapped class is back, nothing is staged any more (R302). -/
def State.editRevert (s : State) (k : Nat) : State :=
  if s.edit.revert.contains k then
    let s := s.editBack k true
    if s.edit.revert.isEmpty then s.editClear else s
  else s

/-- The commit instant N as the registers hold it. -/
def State.editN (s : State) : Nat := s.rget64 EDT_NCYC_LO EDT_NCYC_HI

/-- Class `k` swaps at this t0: the edit is armed and t0(N) has come (R300). -/
def State.swapDue (s : State) (k : Nat) : Bool :=
  match s.edit.pkg with
  | none => false
  | some p =>
    (s.edState == edArmed || s.edState == edSwapping) && editTouches p k && !s.edit.swapped.contains k &&
      decide (s.editN ≤ (s.cls 0).cyc.toNat)

/-! ## The end of an edit (R302, R303) -/

/-- Committed edits in the journal of the active slot (R303). -/
def State.journalCount (s : State) : Nat := (s.journal.filter (fun r => r.slot == s.activeSlot && r.mark == .committed)).length

def State.showJournal (s : State) : State := s.fput EDT_STAT_JCOUNT s.journalCount

/-- EDIT_FINAL: every affected class has swapped and completed its first cycle under the new code, and on a pair the partner has
acknowledged every swap. -/
def State.editFinal (s : State) : State :=
  match s.edit.pkg with
  | none => s
  | some p =>
    let cs := s.affected p
    let alone := !s.paired || s.role == 0
    if s.edState = edSwapping ∧ cs.all (fun k => s.edit.swapped.contains k && s.edit.first.contains k &&
        (alone || s.edit.acks.contains k)) then
      let s := (s.journalMark p.seq .committed).showJournal
      let n := s.fget EDT_STAT_JCOUNT
      let s := s.raise 0x1144 p.seq.toNat (leBytes 2 p.seq.toNat ++ leBytes 2 n)
      let s := if n = 240 then s.raise 0x1146 0 (leBytes 2 n) else s
      s.editClear
    else s

/-- Class `k` has completed a cycle under the new code. -/
def State.editFirst (s : State) (k : Nat) : State :=
  if s.edit.swapped.contains k && !s.edit.first.contains k then
    ({ s with edit := { s.edit with first := s.edit.first ++ [k] } }).editFinal
  else s

/-- The partner has acknowledged the swap of class `k`. -/
def State.editAcked (s : State) (k : Nat) : State :=
  if s.edit.pkg.isSome && !s.edit.acks.contains k then
    ({ s with edit := { s.edit with acks := s.edit.acks ++ [k] } }).editFinal
  else s

/-! ## Commit (R298, R299) -/

def State.editArm (s : State) : State :=
  match s.edit.pkg with
  | none => s
  | some p =>
    (s.fput EDT_STAT_STATE edArmed).raise 0x1143 p.seq.toNat (leBytes 2 p.seq.toNat ++ leBytes 8 s.editN)

/-- N for a proposal at C0 cycle number `m` (R299). -/
def State.commitCycle (s : State) (m : Nat) : Nat := m + max 10 ((20000 + s.t0us - 1) / s.t0us) + 1

/-- The unit writes PREPARED for commit cycle `n`. -/
def State.editPrepare (s : State) (n : Nat) : State :=
  match s.edit.pkg with
  | none => s
  | some p =>
    let s := (s.rset64 EDT_NCYC_LO EDT_NCYC_HI n).journalMark p.seq .prepared
    { s with edit := { s.edit with ownMark := true } }

/-- COMMIT_PROPOSAL: N is proposed and the own PREPARED mark written. Without a standby the edit is armed at once.
DEDUCED: assumption 49. -/
def State.editPropose (s : State) : State :=
  match s.edit.pkg with
  | none => s
  | some p =>
    let n := s.commitCycle (s.cls 0).cyc.toNat
    let s := (s.stopTrial).editPrepare n
    let s := if s.flag MEL_STAT_FORMED then s.send (.commitProposal p.seq (BitVec.ofNat 64 n)) else s
    if s.paired && s.role == 1 then
      (s.fput EDT_STAT_STATE edProved).send (.commitProposal p.seq (BitVec.ofNat 64 n))
    else s.editArm

/-- The report shows no count but SKIPPED (R296). -/
def State.editClean (s : State) : Bool :=
  s.rget EDT_REP_ERR == 0 && s.fget EDT_REP_DIFF_DIFFCYC == 0

/-- The proof ends: kind 0 dry, 1 proof run, 2 incomplete; event 0x1142 (R291, R296). A clean report of a pair commits by itself
when AUTOCOMMIT is set (R298). -/
def State.proofEnds (s : State) (kind : Nat) : State :=
  match s.edit.pkg with
  | none => s
  | some p =>
    let s := (s.stopTrial).fput EDT_STAT_STATE (if kind = 2 then edChecked else edProved)
    let s := s.raise 0x1142 p.seq.toNat
      (leBytes 2 p.seq.toNat ++ leBytes 1 kind ++ leBytes 1 (if s.editClean then 1 else 0) ++
        leBytes 2 (s.fget EDT_REP_DIFF_DIFFCYC) ++ leBytes 4 (s.fget EDT_REP_TIME_EMAX_US) ++
        leBytes 2 (s.fget EDT_PROOF_SKIPPED))
    if kind = 1 ∧ s.role = 1 ∧ s.flag EDT_CFG_AUTOCOMMIT ∧ s.editClean then s.editPropose else s

end Sys2Proof.Machine
end

