-- ==== Sys2Proof/Machine/Trials.lean ====
section
/-!
DEFINITION. The start of a weave, forced and staged values over the image, the dry pass and the proof run of an edit, and the edit
commands (R48, R72, R112, R286 to R302).
-/
namespace Sys2Proof.Machine

/-! ## The weave (R48, R112, R114) -/

/-- The registers of strand `st` at the start of a cycle; it fetches from `bank`. -/
def State.weaveStrand (s : State) (st bank : Nat) : State :=
  let c := s.cfg st
  s.modStrand st (fun x =>
    { Strand.reset with fxm := c.fxmInit, dsl := BitVec.ofNat 32 (0xC0000 - c.stackSize),
                        bk := BitVec.ofNat 16 (s.member * 256), run := .weaving, bank := bank, why := x.why })

/-! ## Staged and forced values (R72, R102) -/

/-- Staged bytes over the image. -/
def overImage (img : List Host.Cell) (stg : Tab MByte) : List Host.Cell :=
  each stg img (fun m b => imgMask m b.1 b.2.mask b.2.val)

/-- The image bytes that the forced items of a list touch. -/
def forceOffs (l : Tab Word) : List Nat :=
  l.foldl (fun acc f =>
    let kind := f.1 / 2 ^ 24
    let off := itemOff kind (f.1 % 2 ^ 24)
    if kind < 3 then insertUp off acc else insertUp off (insertUp (off + 1) (insertUp (off + 2) (insertUp (off + 3) acc)))) []

/-- The forced items of the entries of class `k` that `p` selects go over the image. -/
def State.forceImage (s : State) (k : Nat) (p : HEntry → Bool) (img : List Host.Cell) : List Host.Cell :=
  let mine := s.forces.filter (fun f =>
    match s.entryOf (f.1 / 2 ^ 24) (f.1 % 2 ^ 24) with
    | some (_, e) => hClass e == k && p e
    | none => false)
  let t := { s with forces := mine }
  each (forceOffs mine) img (fun m off => imgMask m off (t.forceByte off).mask (t.forceByte off).val)

/-! ## Trial worlds (R290, R294) -/

/-- The bank in which strand `st` runs trial code: its staging bank where the package brings code for it. -/
def State.trialBank (s : State) (p : EditPkg) (st : Nat) : Nat :=
  if p.code.any (fun c => c.1.val == st) then 1 - s.activeBank st else s.activeBank st

/-- The scratch copies of the class's strands take the DMEM that state `t` holds. -/
def State.scratchFrom (s t : State) (k : Nat) : State :=
  let own := fun (base key : Nat) => (s.strandsOf k).any (fun st => decide (base + st * 0x40000 ≤ key ∧ key < base + (st + 1) * 0x40000))
  let s := { s with mem := s.mem.filter (fun c => !own (keyScratch 0 0) c.1) }
  each (t.mem.filter (fun c => own (keyDmem 0 0) c.1)) s (fun s c => s.mset (c.1 + (keyScratch 0 0 - keyDmem 0 0)) c.2)

/-- The trial world of class `k` over an image and status words. DEDUCED: assumption 49. -/
def State.trialWorld (s : State) (p : EditPkg) (k : Nat) (img : List Host.Cell) (sw : Tab (BitVec 16)) : World :=
  { World.reset with heddle := (s.edited p).heddle, img := img, sw := sw,
                     prods := (p.prods.filter (fun x => x.1.val == k)).map (fun x => (BEAT_PROD x.1 x.2.1, x.2.2.setWidth 32)),
                     snapImg := (s.cls k).snapImg, snapSw := (s.cls k).snapSw }

def State.proofOf (s : State) (k : Nat) : Proof := tget Proof.reset s.edit.proofs k

def State.setProof (s : State) (k : Nat) (x : Proof) : State :=
  { s with edit := { s.edit with proofs := tset Proof.reset s.edit.proofs k x } }

def State.worldFor (s : State) (k : Nat) : World := tget World.reset s.edit.worlds k

def State.setWorld (s : State) (k : Nat) (w : World) : State :=
  { s with edit := { s.edit with worlds := tset World.reset s.edit.worlds k w } }

/-- The strands of class `k` begin trial code in a shadow. -/
def State.trialStart (s : State) (p : EditPkg) (k : Nat) (sh : Shadow) : State :=
  let s := s.modCls k (fun c => { c with shadow := sh })
  each (s.strandsOf k) s (fun s st => s.weaveStrand st (s.trialBank p st))

/-- The strands of class `k` leave the trial. -/
def State.trialEnd (s : State) (k : Nat) : State :=
  let s := each (s.strandsOf k) s (fun s st => (s.dropStall st).modStrand st (fun x => { x with run := .idle, stg := [], answer := none }))
  s.modCls k (fun c => { c with shadow := .none })

/-- EDT_PROOF.DONE: what every affected class has done. -/
def State.showDone (s : State) (p : EditPkg) : State :=
  s.fput EDT_PROOF_DONE ((((s.affected p).map (fun k => (s.proofOf k).done)).min?).getD 0)

def State.showTime (s : State) (us : Nat) : State :=
  s.fput EDT_REP_TIME_EMAX_US (max (s.fget EDT_REP_TIME_EMAX_US) (min us 0xFFFFF))

/-! ## Dry pass (R290 to R292) -/

/-- The slack of the cycle that has just been committed, in µs, with those of the last executed cycles. -/
def State.noteSlack (s : State) (k : Nat) : State :=
  let next := (s.cls k).t0.toNat + s.period k
  { s with edit := { s.edit with slack := tput s.edit.slack k (((next - s.tbNat) :: tget [] s.edit.slack k).take 1024) } }

/-- DRY_PASS: after a commit of an affected class, when the slack allows. A proof that is not complete after 10 × DRYCYC cycles of a
class ends incomplete (R291). -/
def State.dryStart (s : State) (k : Nat) : State :=
  match s.edit.pkg with
  | none => s
  | some p =>
    let x := s.proofOf k
    let cyc := s.fget EDT_CFG_DRYCYC
    if s.edState = edProving ∧ s.paired = false ∧ s.flag EDT_CFG_DRYPROOF ∧ editTouches p k ∧ (s.cls k).shadow = .none ∧
        x.done < cyc then
      if 10 * cyc ≤ x.cycles then s.proofEnds 2
      else
        let s := s.setProof k { x with cycles := x.cycles + 1, began := s.fab }
        let slack := ((tget [] s.edit.slack k).min?).getD 0
        if (p.eest[k]?).getD 0 + 50 ≤ slack then
          let t := s.relocate p k
          let s := (s.scratchFrom t k).setWorld k (s.trialWorld p k t.img s.sw)
          s.trialStart p k .dry
        else s
    else s

/-- A dry pass is given up (R291). -/
def State.dryAbandon (s : State) (k : Nat) : State :=
  if (s.cls k).shadow = .dry then (s.trialEnd k).satBump EDT_PROOF_SKIPPED 1 else s

/-! ## Proof run (R293 to R296) -/

/-- The proof extension of the set of class `k`: its shed with the status words, and the committed output values. -/
def State.proofExt (s : State) (k : Nat) : ProofExt :=
  let bytes := fun (es : List (Nat × HEntry)) => es.flatMap (fun e =>
    (List.range (entryBytes e.2).2).map (fun i => ((entryBytes e.2).1 + i, imgGet s.img ((entryBytes e.2).1 + i))))
  let ins := s.validEntries.filter (fun e => hInput e.2 && hClass e.2 == k)
  { shed := bytes ins, sw := ins.map (fun e => (hSwidx e.2, s.swGet (hSwidx e.2))),
    outputs := bytes (s.validEntries.filter (fun e => hOutput e.2 && hClass e.2 == k)) }

/-- The inputs of class `k` as an extension brings them. -/
def State.takeShed (s : State) (k : Nat) (x : ProofExt) : State :=
  let s := each (s.validEntries.filter (fun e => hInput e.2 && hClass e.2 == k)) s (fun s e =>
    let r := entryBytes e.2
    each (List.range r.2) s (fun s i =>
      match x.shed.find? (fun b => b.1 == r.1 + i) with
      | some b => { s with img := imgMask s.img b.1 (entryMask e.2 b.1) b.2 }
      | none => s))
  each x.sw s (fun s w => s.swSet w.1 w.2)

/-- Inputs that have delivered nothing: their initial values, with the status words of R552. -/
def State.initInputs (s : State) : State :=
  let s := { s with img := s.img.filter (fun c => !inputArea c.1) }
  let s := each (s.initImage.filter (fun d => inputArea d.1)) s (fun s d => { s with img := imgSet s.img d.1 d.2 })
  each (s.validEntries.filter (fun e => hInput e.2)) s (fun s e =>
    s.swSet (hSwidx e.2) (swWord qBad false (hStale e.2 != 0) false (s.entryForced e.2) false 255))

/-- The proof state at the start of the proof: initial values, the mirrored regions with the relocation applied, and the mirrored
entries of unaffected classes. -/
def State.proofBase (s : State) (p : EditPkg) (m : MirrorSet) : State :=
  let t := s.initProgram.initStatus.initInputs
  let t := each (s.classesOn.filter (fun j => !editTouches p j)) t (fun t j =>
    match tget none s.red.held j with
    | some h => t.takeValues h
    | none => t)
  (t.takeRegions m).relocate p m.cls

/-- PROOF_CYCLE: the standby runs proof cycle `m.cycle` of an affected class (R294). A cycle whose extension was dropped is skipped
(R293). -/
def State.proofStart (s : State) (m : MirrorSet) : State :=
  match s.edit.pkg, m.ext with
  | some p, some x =>
    let k := m.cls.val
    if s.edState = edProving ∧ s.mode = mTrack ∧ editTouches p k then
      if (s.cls k).shadow ≠ .none then s.satBump EDT_PROOF_SKIPPED 1
      else
        let y := s.proofOf k
        let s := if y.cycles = 0 then
            let b := s.proofBase p m
            (s.scratchFrom b k).setWorld k (s.trialWorld p k b.img b.sw)
          else s
        let w := s.worldFor k
        let t := { s with heddle := w.heddle, img := w.img, sw := w.sw }.takeShed k x
        let s := s.setWorld k { w with img := t.img, sw := t.sw, sig := 0, frc := 0, beatDone := [], beatView := [],
                                       snapImg := t.img, snapSw := t.sw }
        let s := s.setProof k { y with cycles := y.cycles + 1, began := s.fab, expect := x.outputs, cyc := m.cycle }
        (s.trialStart p k .proof).setFlag SYS_MODE_PROOF true
    else s
  | some p, none =>
    if s.edState = edProving ∧ s.mode = mTrack ∧ editTouches p m.cls.val then s.satBump EDT_PROOF_SKIPPED 1 else s
  | none, _ => s

/-- Every strand of class `k` has ended its trial cycle. -/
def State.trialOver (s : State) (k : Nat) : Bool :=
  (s.cls k).shadow != .none &&
    (s.strandsOf k).all (fun st => (s.strand st).run == .ended || (s.strand st).run == .halted)

/-- The first output entry of class `k` outside the declared change set whose proof value differs from the primary's (R295). -/
def State.proofDiff (s : State) (p : EditPkg) (k : Nat) : Option Nat :=
  let w := s.worldFor k
  let want := (s.proofOf k).expect
  ((s.validEntries.filter (fun e => hOutput e.2 && hClass e.2 == k && !p.declared.contains e.1)).find? (fun e =>
    let r := entryBytes e.2
    (List.range r.2).any (fun i =>
      match want.find? (fun b => b.1 == r.1 + i) with
      | some b => (b.2 ^^^ imgGet w.img b.1) &&& entryMask e.2 b.1 != 0
      | none => false))).map (·.1)

/-- The results of a proof cycle stay in the proof image of its class, and those of other affected classes see them. -/
def State.proofCommit (s : State) (p : EditPkg) (k : Nat) : State :=
  let s := (s.deliverJobs k s.fab).1
  let w := s.worldFor k
  let t := { s with heddle := w.heddle }
  let img := each (s.strandsOf k) w.img (fun m st =>
    if (s.strand st).run = .ended then overImage m (s.strand st).stg else m)
  let img := t.forceImage k (fun e => !hInput e) img
  let s := s.setWorld k { w with img := img }
  let own := t.validEntries.filter (fun e => !hInput e.2 && hClass e.2 == k)
  each ((s.affected p).filter (· != k)) s (fun s j =>
    if (s.proofOf j).cycles = 0 then s
    else
      let v := s.worldFor j
      s.setWorld j { v with img := each own v.img (fun m e =>
        each (List.range (entryBytes e.2).2) m (fun m i =>
          let off := (entryBytes e.2).1 + i
          imgMask m off (entryMask e.2 off) (imgGet img off))) })

/-- The end of a dry pass or of a proof cycle, when every strand of the class has ended it (R291, R295, R296). -/
def State.proofCheck (s : State) (k : Nat) : State :=
  match s.edit.pkg with
  | none => s
  | some p =>
    if s.trialOver k then
      let x := s.proofOf k
      let clocks := s.fab - x.began
      let all := fun (s : State) (n : Nat) => (s.affected p).all (fun j => decide (n ≤ (s.proofOf j).done))
      if (s.cls k).shadow = .dry then
        let s := ((s.trialEnd k).setProof k { x with done := x.done + 1 }).showTime (clocks / 500)
        let s := s.showDone p
        if all s (s.fget EDT_CFG_DRYCYC) then s.proofEnds 0 else s
      else
        let s := ((s.proofCommit p k).trialEnd k).showTime (clocks / 500)
        let t := s.edited p
        let s := if t.weaveRoom k - t.beamWorst k < 2 * clocks then s.satBump EDT_REP_ERR_OVERBUDGET 1 else s
        if x.cycles ≤ s.fget EDT_WARM_WARMUP then s
        else
          let s := match s.proofDiff p k with
            | none => s
            | some i =>
              let s := if s.fget EDT_REP_DIFF_DIFFCYC = 0 then s.fput EDT_REP_DIFF_FIRSTENT i else s
              s.satBump EDT_REP_DIFF_DIFFCYC 1
          let s := (s.setProof k { x with done := x.done + 1 }).showDone p
          if all s (s.fget EDT_CFG_P) then s.proofEnds 1 else s
    else s

/-- What an acknowledgement of the standby says of the proof. -/
def State.editReport (s : State) : Option EditReport :=
  if s.edit.pkg.isSome && (s.edState == edProving || s.edState == edProved) then
    some { proof := s.rget EDT_PROOF, err := s.rget EDT_REP_ERR, diff := s.rget EDT_REP_DIFF, time := s.rget EDT_REP_TIME,
           ended := s.edState == edProved }
  else none

/-- The primary takes over the standby's report; the proof run ends with it on both (R296, R298). -/
def State.takeReport (s : State) (r : Option EditReport) : State :=
  match r with
  | none => s
  | some x =>
    if s.edState = edProving ∧ s.role = 1 then
      let s := (((s.rset EDT_PROOF x.proof).rset EDT_REP_ERR x.err).rset EDT_REP_DIFF x.diff).rset EDT_REP_TIME x.time
      if x.ended then s.proofEnds 1 else s
    else s

/-! ## The commands -/

/-- The refusal of a package: the unit's own, by its mode or by the checks, or that of the partner, with status, reason, heddle
entry and reason of R86 (R287, R288). -/
def State.packageRefusal (s : State) (pkg : EditPkg) (forwarded : Bool) (verdict : Option EditVerdict) : Option (Nat × Nat × Nat × Nat) :=
  let st := s.editModeStatus forwarded
  if st ≠ scOk then some (st, 0, 0, 0)
  else match s.editRefusal pkg with
    | some x => some x
    | none =>
      match verdict with
      | some v => if s.paired && (forwarded || s.role == 1) then some (v.status, v.reason, v.entry, v.r86) else none
      | none => none

/-- The primary forwards a package that its mode takes, and each unit tells the other what it makes of it (R287). -/
def State.packageTold (s : State) (pkg : EditPkg) (forwarded : Bool) (own : Option (Nat × Nat × Nat × Nat)) : State :=
  let told := Sent.editVerdict pkg.seq (own.map (fun x => { status := Fin.ofNat 12 x.1, reason := x.2.1, entry := x.2.2.1, r86 := x.2.2.2 }))
  if forwarded then s.send told
  else if s.paired && s.role == 1 && s.editModeStatus false == scOk then (s.send (.editPackage pkg)).send told
  else s

/-- EDIT_PACKAGE: messages of a package arrive, and with the last it is checked, refused or staged (R286 to R288); or the partner
tells that it has ended the edit of the package, which ends it here too (R297, R307). The bytes that the session and the partner
bring are not laid out in the spec: DESIGN CHOICE, assumption 49. -/
def execEditPackage (pkg : EditPkg) (via : PackageVia) (s : State) : Out :=
  let forwarded := via.forwarded
  if let some cause := via.ended then
    .next (if s.paired && s.edit.pkg.any (fun p => p.seq == pkg.seq) then s.editAbortFor cause else s)
  else if via.more then
    .next (if s.editModeStatus forwarded = scOk then s.fput EDT_STAT_STATE edReceiving else s)
  else
    let refusal := s.packageRefusal pkg forwarded via.verdict
    let s := s.packageTold pkg forwarded (s.packageRefusal pkg forwarded none)
    let s := if s.edState = edReceiving then s.fput EDT_STAT_STATE edIdle else s
    match refusal with
    | some (c, r, e, h) =>
      let t := s.editRefuse pkg c r e h
      .next (if forwarded then t else t.answer saEdit c)
    | none =>
      let t := s.editStage pkg
      .next (if forwarded then t else t.answer saEdit scOk)

/-- EDIT_CONFIRM: the operator confirms the staged edit (R298, R299). -/
def execEditConfirm (s : State) : Out :=
  let st := s.edState
  if s.edit.pkg.isSome ∧ (st = edChecked ∨ st = edProving ∨ st = edProved) ∧ s.edit.ownMark = false ∧ s.role ≠ 2 ∧
      (s.mode = mStop ∨ s.mode = mProgram ∨ s.mode = mRun) then
    .next (s.editPropose.answer saEdit scOk)
  else .next (s.answer saEdit scState)

/-- COMMIT_PROPOSAL_RECEIVED: the standby, or a member of a hedge, writes PREPARED and acknowledges (R299, R352). -/
def execCommitProposalReceived (seq : BitVec 16) (n : BitVec 64) (s : State) : Out :=
  match s.edit.pkg with
  | none => .next s
  | some p =>
    if p.seq = seq ∧ s.role ≠ 1 ∧ s.edState ≠ edSwapping ∧ s.edState ≠ edReverting then
      .next ((((s.stopTrial).editPrepare n.toNat).editArm).send (.preparedAck seq))
    else .next s

/-- PREPARED_ACK: with the own mark and the standby's acknowledgement the edit is ARMED (R299). -/
def execPreparedAck (seq : BitVec 16) (s : State) : Out :=
  match s.edit.pkg with
  | none => .next s
  | some p =>
    if p.seq = seq ∧ s.edit.ownMark ∧ s.edState = edProved ∧ (s.tbNat : Int) < s.epoch + (s.editN : Int) * s.t0us - s.t0us then
      .next ({ s with edit := { s.edit with acked := true } }).editArm
    else .next s

/-- The proposal of the staged edit has lapsed on this unit: it is PROVED again (R299). -/
def State.proposalLapses (s : State) (p : EditPkg) : State :=
  (({ s with edit := { s.edit with ownMark := false } }).fput EDT_STAT_STATE edProved).raise 0x1145 p.seq.toNat
    (leBytes 2 p.seq.toNat ++ leBytes 1 5 ++ leBytes 1 0)

/-- PROPOSAL_LAPSE: at t0(N) − T0 without the acknowledgement the edit returns to PROVED; the proposing unit tells the other one,
which has armed with its acknowledgement (R299). DEDUCED: assumption 49. -/
def execProposalLapse (s : State) : Out :=
  match s.edit.pkg with
  | none => .next s
  | some p =>
    if s.edit.ownMark ∧ s.epoch + (s.editN : Int) * s.t0us - s.t0us ≤ (s.tbNat : Int) then
      if s.edState = edProved then .next ((s.proposalLapses p).send (.editLapse p.seq))
      else if s.edState = edArmed ∧ s.role = 2 then .next (s.proposalLapses p)
      else .next s
    else .next s

/-- EDIT_ABORT: an ABORT from the session (R297). -/
def execEditAbort (s : State) : Out :=
  if s.edit.pkg.isSome ∧ s.edState ≠ edReverting then .next ((s.editAbortFor 0).answer saEdit scOk)
  else .next (s.answer saEdit scState)

/-- DRY_PASS_ABANDON: at t0(c + 1) − 10 µs (R291). -/
def execDryPassAbandon (k : Fin 4) (s : State) : Out :=
  if (s.cls k).t0.toNat + s.period k ≤ s.tbNat + 10 then .next (s.dryAbandon k) else .next s

/-- PROOF_CYCLE_ABANDON: a proof cycle that runs longer than Tk (R294). -/
def execProofCycleAbandon (k : Fin 4) (s : State) : Out :=
  if (s.cls k).shadow = .proof ∧ 500 * s.period k < s.fab - (s.proofOf k).began then
    .next ((s.trialEnd k).satBump EDT_REP_ERR_OVERBUDGET 1)
  else .next s

/-- SWAP_ACKNOWLEDGEMENT: the partner has swapped class `k` (R302). -/
def execSwapAcknowledgement (k : Fin 4) (s : State) : Out := .next (s.editAcked k)

end Sys2Proof.Machine
end

