-- ==== Sys2Proof/Machine/Pair.lean ====
section
/-!
DEFINITION. The pair: judging it, TRACK, held sets and alignment, takeover and planned handover (R308 to R341).
-/
namespace Sys2Proof.Machine

/-! ## Pairing (R308, R309, R340) -/

def State.prefUid (s : State) : Nat := ((List.range 4).map (fun n => s.fget (RED_PREF_UID_UID n) * 2 ^ (32 * n))).sum

/-- This unit is the preferred one (R310). -/
def State.preferred (s : State) : Bool := Config.uid.toNat == s.prefUid

/-- The status with which pairing with a partner is judged, in the order of R309. Configuration hashes that differ under one
RED_MLID are a rolling update (R340). -/
def State.pairStatus (s : State) (x : PartnerInfo) : Nat :=
  if x.mlid.toNat ≠ s.fget RED_MLID_MLID ∨ x.hwtype.toNat ≠ s.fget SYS_ID_HWTYPE then scConflict
  else if !x.paired || x.hedge != s.flag MEL_CFG_HEDGE || (x.hedge && x.nmod != s.fget MEL_CFG_NMOD) ||
      !(s.preferred || x.uid.toNat == s.prefUid) then scState
  else if s.setsFit = false then scSize
  else scOk

/-- A segment of every enabled class is to come. -/
def State.allSegments (s : State) : List (Nat × BitVec 64) := s.classesOn.map (fun k => (k, 0))

/-- PAIRING is judged while the partner is unpaired (R308, R309). DEDUCED: assumption 50. -/
def State.judgePair (s : State) (x : PartnerInfo) : State :=
  if !s.flag RED_CFG_PAIRED || s.paired then s
  else
    let st := s.pairStatus x
    let s := (s.setFlag RED_EVT_PAIRCHG true).fput RED_MIRWC_WC_G s.swcSum
    if st ≠ scOk then
      let keeps := s.role == 1
      let s := s.raise 0x0B02 0 (leBytes 1 st ++ leBytes 1 (if keeps then 1 else 0))
      if keeps then s.fput RED_STAT_STATE stAlone
      else
        let s := if s.mode = mTrack then s.enterStop 4 else s
        s.fput RED_STAT_STATE stRefused
    else
      let track := s.mode == mTrack
      let s : State := { s with red := { s.red with
                                           partner := some x.uid, rolling := x.cfgHash != s.configHash, beatAt := s.fab,
                                           aligning := track, alignSegs := if track then s.allSegments else [],
                                           alignSets := if track then s.classesOn else [] } }
      let s := s.raise 0x0B01 0 (leBytes 4 (x.uid.toNat % 2 ^ 32) ++ leBytes 1 s.role ++ leBytes 3 s.swcSum)
      s.fput RED_STAT_STATE
        (if s.role = 1 then stPrimary else if track then stAligning else stWaiting)

/-- The partner is gone; a primary runs alone, and the incoming unit of a handover goes on to its end. -/
def State.unpair (s : State) : State :=
  let left := if s.mode = mHandover then s.red.handover else none
  let s : State := { s with red := { s.red with
                                       partner := none, rolling := false, beacon := none, handover := left, aligning := false,
                                       agrees := true, agreeAt := s.fab } }
  if s.mode = mHandover then s
  else if s.role = 1 then s.fput RED_STAT_STATE stAlone
  else if s.role = 0 then s.fput RED_STAT_STATE stUnpaired else s

/-- SPLIT is set or cleared, with event 0x0B06 (R327). -/
def State.setSplit (s : State) (b : Bool) : State :=
  if s.flag RED_STAT_SPLIT = b then s
  else
    let s := (s.setFlag RED_STAT_SPLIT b).raise 0x0B06 0 (leBytes 1 (if b then 1 else 0))
    let s := if b then s.setFlag RED_EVT_SPLIT true else s
    s.dwellAnew

/-! ## The standby (R322, R324, R325) -/

/-- Entry into TRACK: the standby role, without held sets. Its alignment runs from here, or from the first segment on (R314,
R325). -/
def State.enterTrack (s : State) (cause : Nat) (aligning : Bool) : State :=
  let a := aligning && s.paired
  let s : State := { s with red := { s.red with
                                       held := [], aside := [], aligning := a, alignSegs := s.allSegments, alignSets := s.classesOn, dwell := none,
                                       tko := none, tkoLeft := [], tkoEmit := [], handover := none, stopAfter := false,
                                       beatAt := s.fab } }
  let s := (((s.refLost 1).fput RED_STAT_ROLE 2).setMode mTrack cause).traceEnd 3
  (s.fput RED_STAT_STATE (if a then stAligning else stNotReady)).batonUpdate

/-- One ordinary set of class `k` has followed the segments of an alignment. -/
def State.alignStep (s : State) (k : Nat) : State :=
  if s.red.aligning && s.red.alignSegs.isEmpty then
    let l := s.red.alignSets.filter (· != k)
    { s with red := { s.red with alignSets := l, aligning := !l.isEmpty } }
  else s

/-- A complete set becomes the held set of its class: its retentive data goes into keep RAM, it is acknowledged, its outputs
become takeover commands, and a proof cycle starts with its extension (R294, R302, R322, R323). One that was set aside has been
acknowledged. -/
def State.holdSet (s : State) (m : MirrorSet) (acked : Bool) : State :=
  let k := m.cls.val
  let s : State := { s with red := { s.red with held := tset none s.red.held k (some m) } }
  let s := s.takeRetentive m
  let s := if s.edit.swapped.contains k ∧ s.epoch + (s.editN : Int) * s.t0us ≤ (m.t0.toNat : Int) then
      (s.editFirst k).editAcked k
    else s
  let s := if acked then s else s.send (.setAck k m.cycle s.editReport)
  let s := s.takeoverCommands m
  let s := if k = 0 then s.trialCount true else s
  ((s.alignStep k).proofStart m).showReady

/-- Keep RAM granules of the retentive ranges of class `k`. -/
def State.retGranules (s : State) (k : Nat) : List Nat :=
  (s.retMap.filter (fun r => r.cls == k)).flatMap (fun r => (List.range ((r.len + 31) / 32)).map (fun i => r.granule + i))

/-- An alignment segment: the whole retentive data and every timer and counter state of a class (R325). -/
def State.alignSet (s : State) (k : Nat) : MirrorSet :=
  { cls := Fin.ofNat 4 k, cycle := (s.cls k).beamCyc, t0 := (s.cls k).t0, final := false, align := true,
    marker := s.keep.editMarker, values := [], sw := [],
    retentive := (s.retGranules k).map (fun g => (g, s.mgetN (keyKeep (32 * g)) 32)),
    insts := (s.mirrorRegions k true).map s.regionData, regions := [], ext := none }

/-- The primary sends alignment segments; each is awaited until it is acknowledged. -/
def State.sendSegments (s : State) (l : List (Nat × BitVec 64)) : State :=
  each l { s with red := { s.red with aligning := true, alignAt := s.fab,
                                      alignSegs := l.map (fun x => (x.1, (s.cls x.1).beamCyc)) } }
    (fun s x => s.send (.alignSegment (s.alignSet x.1)))

/-- The primary aligns the standby (R325). -/
def State.startAlign (s : State) : State := s.sendSegments s.allSegments

/-- What this unit tells its partner (R326). -/
def State.ownBeacon (s : State) : Beacon :=
  { role := Fin.ofNat 3 s.role, ready := s.redState == stReady, weight := s.weight,
    align := s.role == 2 && s.mode == mTrack && (s.red.aligning || !s.red.alignSets.isEmpty) }

/-! ## Takeover (R327 to R330) -/

/-- A new primary outside a hedge's lower modules no longer takes its reference over the links of the pair (R64). -/
def State.roleRef (s : State) : State := if s.hedgeBelow then s else s.refLost 2

/-- NO_TAKEOVER: the standby enters STOP (R328). -/
def State.noTakeover (s : State) : State :=
  let st := s.redState
  (s.enterStop 4).raise 0x0B0B 0 (leBytes 1 st)

/-- A staged edit ends at a takeover: swapped classes return to the old code, and their data comes from the held sets (R302). -/
def State.editTakeover (s : State) : State :=
  let s := s.editAbortFor 1
  if s.edState = edReverting then (each s.edit.revert s (fun s k => s.editBack k false)).editClear else s

/-- TAKEOVER at T_d: TB is slewed only from here on; a READY standby, one with SPLIT, or the outgoing unit of a handover takes the
primary role; every other one enters STOP; a pending activation is withdrawn (R328, R329, R335, R502). Causes: 0 baton, 1 links
and witness. -/
def State.takeover (s : State) (td cause : Nat) : State :=
  let split := s.flag RED_STAT_SPLIT
  let out := s.redState == stHandoverOut
  if s.redState = stReady ∨ split ∨ out then
    let cyc := match tget none s.red.held 0 with
      | some m => m.cycle.toNat
      | none => 0
    let age := s.setAge 0
    let s := s.editTakeover
    let s : State := { s with red := { s.red with
                                         tko := some td, tkoLeft := s.classesOn, tkoEmit := s.classesOn, aligning := false,
                                         alignSets := [], handover := none, ungated := false, downAt := [], dwell := none,
                                         stopAfter := false, roleAt := s.fab, aside := [] } }.roleRef
    let s := (s.fput RED_STAT_ROLE 1).fput RED_STAT_STATE (if s.paired then stPrimary else stAlone)
    let s := s.setFlag CYC_SYNC_STEPOPEN false
    let s := (if out then s else s.adoptHeld).cancelJobs.classesBegin.withdrawActivation
    let s := (s.satBump RED_TKOCNT_TAKEOVERS 1).setFlag RED_EVT_TAKEOVER true
    let s := s.raise 0x0B03 0 (leBytes 8 cyc ++ leBytes 1 cause ++ leBytes 1 age ++ leBytes 1 (if split then 1 else 0))
    (s.setSplit false).batonUpdate
  else s.noTakeover

/-- Failure of the primary is detected. In a hedge the top master sets T_d for every member, and a member reports to it (R341,
R366). -/
def State.primaryFailed (s : State) (cause : Nat) : State :=
  if s.hedgeBelow then s.send (.takeover s.tbNat)
  else
    let s := if s.flag MEL_CFG_HEDGE then s.send (.takeover s.tbNat) else s
    s.takeover s.tbNat cause

/-- The mode that a new primary enters at the latest 100 µs after T_d: the one that POS selects (R268, R329). -/
def State.takeoverMode (s : State) : State :=
  match s.red.tko with
  | some td =>
    if td + 100 ≤ s.tbNat ∧ (s.mode = mTrack ∨ s.mode = mHandover) then
      let m := keyMode (s.fget SYS_KEY_POS)
      if m = mStop ∨ s.execBarred then s.enterStop 4 else s.enterExec m 4
    else s
  | none => s

/-! ## Planned handover (R333 to R336) -/

/-- HANDOVER_START at t0(H). The incoming unit starts from its held sets; the outgoing one stays as if it held the sets of its
own last cycles, and sets that reach it wait beside them (R335). -/
def State.handoverStart (s : State) (x : Handover) : State :=
  if x.incoming then
    let s : State := { s with red := { s.red with tkoEmit := s.classesOn, aligning := false, alignSets := [], dwell := none } }
    let s := (s.roleRef.fput RED_STAT_ROLE 1).fput RED_STAT_STATE stHandoverIn
    ((s.adoptHeld.cancelJobs).classesBegin).setMode mHandover 4
  else
    let held := s.classesOn.foldl (fun t k => tset none t k (some (s.buildSet k false none))) []
    let s : State := { s with red := { s.red with
                                         tkoEmit := s.classesOn, held := held, aside := [], ungated := true, aligning := false,
                                         alignSets := [] } }
    let s := ((s.refLost 1).fput RED_STAT_ROLE 2).fput RED_STAT_STATE stHandoverOut
    ((s.stopAll).canStop).setMode mHandover 4

/-- Event 0x0B04 at the end of a handover. -/
def State.handoverDone (s : State) (x : Handover) : State :=
  let s := (s.satBump RED_TKOCNT_HANDOVERS 1).setFlag RED_EVT_HANDOVER true
  let s := s.raise 0x0B04 0 (leBytes 8 x.h.toNat ++ leBytes 1 x.trigger ++ leBytes 1 s.role)
  { s with red := { s.red with handover := none } }

/-- A key change that was read during HANDOVER acts on the mode reached (R261). -/
def State.keyAfter (s : State) : State :=
  match s.ctl.keyHeld with
  | none => s
  | some p => ({ s with ctl := { s.ctl with keyHeld := none } }).keyAct p

/-- The sets that have come during the handover become the held sets. -/
def State.takeAside (s : State) : State :=
  let l := s.red.aside
  each l { s with red := { s.red with aside := [] } } (fun s x => match x.2 with
    | some m => s.holdSet m true
    | none => s)

/-- The outgoing unit ends its HANDOVER in TRACK, or in STOP where a STOP started the handover; an activation that has waited for
it goes on (R333, R502). DEDUCED: assumption 50. -/
def State.outgoingEnd (s : State) (x : Handover) (ready : Bool) : State :=
  let stop := s.red.stopAfter
  let cause := match s.ctl.change with
    | some ch => ch.cause
    | none => 4
  let s : State := if stop then
      let s : State := { s with ctl := { s.ctl with change := none }, red := { s.red with stopAfter := false } }
      s.enterStop cause
    else if ready then
      let s := (s.fput RED_STAT_ROLE 2).setMode mTrack 4
      let s := s.takeAside
      let s := (s.fput RED_STAT_STATE stReady).raise 0x0B09 0 (leBytes 8 (s.cls 0).cyc.toNat)
      ({ s with red := { s.red with dwell := some s.fab, beatAt := s.fab } }).traceEnd 3
    else s.enterTrack 4 false
  let s := (s.handoverDone x).keyAfter
  match s.upd.act with
  | some a =>
    if a.handover then ({ s with upd := { s.upd with act := some { a with handover := false } } }).activationCopy else s
  | none => s

/-- HANDOVER_END at t0(H + 1), or for an outgoing unit without the set of H at t0(H + 2). DEDUCED: assumption 50. -/
def State.handoverEnd (s : State) (x : Handover) : State :=
  if x.incoming then
    let s := s.fput RED_STAT_STATE (if s.paired then stPrimary else stAlone)
    let s : State := { s with red := { s.red with
                                         roleAt := s.fab,
                                         takebacks := if x.trigger = 2 then s.fab :: s.red.takebacks.take 3 else s.red.takebacks } }
    let m := keyMode (s.fget SYS_KEY_POS)
    let s := if m = mStop then s.enterStop 4 else s.enterExec m 4
    (s.handoverDone x).keyAfter
  else
    let got : Bool := match tget none s.red.aside 0 with
      | some m => m.cycle == x.h
      | none => false
    if got ∧ (s.cls 0).cyc = x.h + 1 then s.outgoingEnd x true
    else if x.h + 2 ≤ (s.cls 0).cyc then s.outgoingEnd x false
    else s

/-- The standby holds the set of H − 1, and has acknowledged it (R336). -/
def State.finalHeld (s : State) (x : Handover) : Bool :=
  if x.incoming then
    s.redState == stReady && (match tget none s.red.held 0 with
      | some m => m.cycle + 1 == x.h
      | none => false)
  else s.standbyReady && s.red.finalAcked

/-- What a planned handover does at a C0 t0 (R335, R336). One whose partner has failed, is no longer READY or does not hold the
set of H − 1 does not start. DEDUCED: assumption 50. -/
def State.handoverStep (s : State) : State :=
  match s.red.handover with
  | none => s
  | some x =>
    let c := (s.cls 0).cyc
    if s.mode = mHandover then (if x.h < c then s.handoverEnd x else s)
    else if c = x.h ∧ x.armed then
      if s.finalHeld x then s.handoverStart x
      else ({ s with red := { s.red with handover := none } }).stopAlone
    else s

end Sys2Proof.Machine
end

