-- ==== Sys2Proof/Machine/Shed.lean ====
section
/-!
DEFINITION. The shed of a class: what the sources of its input entries deliver, the age and the substitute policy, the status
words, and the start of the weave (R44 to R49, R73, R84, R112, R551, R552).
-/
namespace Sys2Proof.Machine

/-! ## Records (R84, R187, R204, R240) -/

/-- What an entry's source delivers: one word per item, quality, OVR. -/
abbrev Delivered : Type := List Word × Nat × Bool

/-- The items that an entry reads from a record. -/
def itemsOf (e : HEntry) (rec_ : List Byte) : List Word :=
  let v := leNat rec_
  (List.range (hCount e)).map (fun j => BitVec.ofNat 32 (bitsAt v ((fieldBits e).1 + j * itemWidth e) (itemWidth e)))

def delivered (e : HEntry) (rec_ : List Byte) (q : Nat) (ovr : Bool) : Option Delivered :=
  some (itemsOf e rec_, readQuality q, ovr)

/-- An 8-byte pipeline record with its own quality and OVR (R184). -/
def fromRecord (e : HEntry) (rec_ : List Byte) : Option Delivered :=
  let b := fieldAt rec_ 5 1
  delivered e rec_ b (bitAt b 2)

/-- The record of an internal item as of now (R84). -/
def State.internalRec (s : State) (item : Nat) : List Byte :=
  let bits := fun (l : List Bool) => maskOf ((List.range l.length).filter (fun i => (l[i]?).getD false))
  if item = 0 then
    leBytes 1 s.mode ++ leBytes 1 (s.fget SYS_KEY_POS + (if s.flag SYS_KEY_KEYFAULT then 128 else 0)) ++
      leBytes 1 (s.role + 16 * s.redState) ++
      leBytes 1 (bits [s.flag CYC_SYNC_SYNC, !s.forces.isEmpty, s.unchecked != 0, decide (0 < s.weight),
        s.flag MEL_STAT_FORMED, s.flag RTC_STAT_VALID]) ++
      leBytes 2 s.forces.length ++ leBytes 2 0 ++ leBytes 2 (s.fget SYS_FAULT_EVCODE) ++ leBytes 2 0 ++
      leBytes 4 (s.fget EVR_SEQ_NEXT)
  else if item = 0x20 then
    leBytes 6 s.rtc.count ++ leBytes 2 (s.fget RTC_TAIOFS_TAIOFS) ++ leBytes 4 (s.fget CYC_OFFSET_OFFSET_NS) ++
      leBytes 1 (s.fget CYC_SYNC_SOURCE) ++ leBytes 3 0
  else if item = 0x30 then
    leBytes 2 (bits ((List.range 16).map (fun n => s.flag (UC_STAT_ONLINE n)))) ++ leBytes 1 (s.fget SE_STAT_FAILED) ++
      leBytes 1 ((List.range 4).map (fun g => s.fget (DIO_GRP_STAT_STATE g) * 4 ^ g)).sum ++
      leBytes 1 (bits ((List.range 4).map s.linkUp ++ (List.range 4).map (fun p => s.fget (CAN_PSTAT_STATE p) == 2))) ++
      leBytes 1 (bits ((List.range 4).map (fun n => bitAt (s.fget MEL_STAT_LINKUP) n) ++ [s.linkML4, s.linkML5])) ++
      leBytes 2 s.unchecked ++ leBytes 4 (s.fget EVR_LOST_LOST) ++ leBytes 4 0
  else
    let k := item % 4
    leBytes 8 (s.cls k).cyc.toNat ++ leBytes 8 (s.cls k).t0.toNat ++ leBytes 4 (s.fget (CLS_COMMIT_LAST_US k)) ++
      leBytes 1 (min 255 (s.cls k).consec) ++ [0] ++ leBytes 2 (s.fget (CLS_STAT_WINCNT k))

/-! ## Receive windows (R44, R376, R403) -/

/-- First TB µs after the receive window of the shed of class `k`. -/
def State.winEnd (s : State) (k : Nat) : Nat := (s.cls k).t0.toNat - s.guard k

/-- A stamp in ns lies in the window. -/
def State.inWindow (s : State) (k ns : Nat) : Bool :=
  decide (1000 * (s.cls k).winFrom.toNat ≤ ns ∧ ns < 1000 * s.winEnd k)

/-- The element with the greatest key; the later of equals. -/
def latestBy {α : Type} (key : α → Nat) : List α → Option α
  | [] => none
  | x :: l =>
    match latestBy key l with
    | some y => if key y < key x then some x else some y
    | none => some x

/-- The closed frame of a stream. -/
def State.closedFrame (s : State) (k i : Nat) : Option RxFrame :=
  latestBy (fun f => f.stamp) ((s.stream i).frames.filter (fun f => s.inWindow k f.stamp))

/-- The frame that a mailbox closes with. -/
def State.closedCan (s : State) (k p m : Nat) : Option (CanFrame × Nat) :=
  latestBy (fun (f : CanFrame × Nat) => f.2) ((s.mb p m).shadow.filter (fun f => s.inWindow k f.2))

/-- The quality of a field of a transfer record: that of the last sending field at or before its offset (R358). -/
def transferQuality (l : List (Nat × Nat)) (ofs : Nat) : Option Nat :=
  (latestBy (fun (q : Nat × Nat) => q.1) (l.filter (fun q => decide (q.1 ≤ ofs)))).map (·.2)

/-! ## Deliveries (R43, R44, R84, R358, R548) -/

def State.latched (s : State) (k key : Nat) : Option (List Byte) :=
  ((s.cls k).latch.find? (fun x => x.1 == key)).map (·.2)

/-- The record of universal channel `n` that a class which shares this t0 with class `k` and reads the channel has shed already:
both take the same latched value (R47). -/
def State.sharedUc (s : State) (k n : Nat) : Option (List Byte) :=
  ((List.range 4).find? (fun j => j != k && (s.cls j).started && (s.cls j).shedDone && (s.cls j).t0 == (s.cls k).t0 &&
    s.validEntries.any (fun e => hInput e.2 && hClass e.2 == j && hSrctype e.2 == 1 && hInstance e.2 == n))).bind (fun j =>
      s.latched j (latchKey 1 n))

/-- The record of universal channel `n` for the latch of class `k`: an input's value at t0, an output's last command with the
readback as of t0 (R187, R204, R224). An input without samples around t0 delivers BAD. -/
def State.ucLatch (s : State) (k n : Nat) : State :=
  let key := latchKey 1 n
  let now := leBytes 4 (s.fget (UC_RDBK_VALUE n))
  match s.sharedUc k n with
  | some r => (s.countG 0x45 (if ucInput (s.ucMode n) then 4 else 0)).setLatch k key r
  | none =>
    if ucInput (s.ucMode n) then
      match s.ucSample n k (s.cls k).t0.toNat with
      | some (t, x) => t.setLatch k key (t.ucRecord n (sampleRecord x) now)
      | none => s.setLatch k key (s.ucRecord n (leBytes 8 0) now)
    else
      let second := (s.latched k (latchKey 0x10 n)).getD now
      match (s.pipe n).samples with
      | x :: _ => s.setLatch k key (s.ucRecord n (sampleRecord x) second)
      | [] => s.setLatch k key (s.ucRecord n (leBytes 8 0) second)

/-- What the source of input entry `e` of class `k` delivers to this shed, if anything. -/
def State.deliveryOf (s : State) (k : Nat) (e : HEntry) : Option Delivered :=
  let n := hInstance e
  match hSrctype e with
  | 1 =>
    (s.latched k (latchKey 1 n)).bind (fun r =>
      if hByteofs e < 8 then fromRecord e r else delivered e r (fieldAt r 15 1) false)
  | 2 =>
    if n < 0x40 then
      let recs := (List.range (hCount e)).map (fun j => s.latched k (latchKey 2 (n + j)))
      if recs.any (·.isNone) then none
      else
        let rs := recs.map (fun r => r.getD [])
        some (rs.map (fun r => BitVec.ofNat 32 (bitsAt (leNat r) (fieldBits e).1 1)),
          rs.foldl (fun q r => worse q (fieldAt r 1 1)) qGood, false)
    else (s.latched k (latchKey 2 n)).bind (fun r => delivered e r (fieldAt r 5 1) false)
  | 3 =>
    (latestBy (fun (x : Sample) => x.stamp) ((s.pipe n).samples.filter (fun x =>
      decide (16 * (s.cls k).winFrom.toNat ≤ x.stamp ∧ x.stamp < 16 * s.winEnd k)))).bind (fun x =>
        fromRecord e (sampleRecord (if s.pipeRuns n then x else { x with quality := 0 })))
  | 4 =>
    ((s.entryStreams e).find? (fun i => s.fget (ETH_STR_CFG_CLASS i) == k && !s.flag (ETH_STR_CFG_MSG i))).bind (fun i =>
      (s.closedFrame k i).bind (fun f => delivered e f.data f.quality false))
  | 5 => (s.closedCan k n (hStream e)).bind (fun f => delivered e f.1.data qGood false)
  | 6 =>
    match tget none s.hedge.transfers (n * 64 + hStream e) with
    | some t =>
      if (s.cls k).winFrom.toNat + s.guard k + s.dshed k ≤ t.at_ ∧ t.at_ < (s.cls k).t0.toNat + s.dshed k then
        (transferQuality t.quality (hByteofs e)).bind (fun q => delivered e t.bytes q false)
      else none
    | none => none
  | 7 => delivered e (s.internalRec n) qGood false
  | _ => none

/-! ## Age, substitute policy and status words (R45, R46, R73, R548, R552) -/

/-- The initial value of an entry's items as the configuration image declares it, 0 where it declares none. -/
def State.initItems (s : State) (e : HEntry) : List Word :=
  let img := each s.initImage ([] : List Host.Cell) (fun m d => imgSet m d.1 d.2)
  (List.range (hCount e)).map (fun j =>
    let idx := hBase e + j
    if hBits e then (if (imgGet img (idx / 8)).getLsbD (idx % 8) then 1 else 0)
    else BitVec.ofNat 32 (leNat ((List.range 4).map (fun i => imgGet img (itemOff (hKind e) idx + i)))))

/-- Write one item of an entry into the image. -/
def State.putItem (s : State) (kind idx : Nat) (v : Word) : State :=
  if kind < 3 then
    let m := BitVec.ofNat 8 (2 ^ (idx % 8))
    { s with img := imgMask s.img (idx / 8) m (if v.toNat % 2 = 1 then m else 0) }
  else
    { s with img := each (leBytes 4 v.toNat).zipIdx s.img (fun m b => imgSet m (itemOff kind idx + b.2) b.1) }

/-- One input entry enters the shed: its delivery, its age, the substitute policy, forced items and the status word.
DEDUCED: assumption 38. -/
def State.shedEntry (s : State) (k i : Nat) (e : HEntry) : State :=
  let x := tget EntrySt.reset s.entries i
  let cyc := (s.cls k).cyc
  let x := match s.deliveryOf k e with
    | some (v, q, ovr) =>
      { value := v, quality := BitVec.ofNat 2 q, ovr := ovr, valid := if q = qBad then x.valid else v, window := cyc,
        delivered := true }
    | none => x
  let age := if x.delivered then min 255 (cyc - x.window).toNat else 255
  let stale := hStale e != 0 && (!x.delivered || decide (hStale e < age))
  let bad := !x.delivered || x.quality.toNat == qBad
  let act := stale || bad
  let valid := if x.valid.isEmpty then s.initItems e else x.valid
  let vals :=
    if !act then x.value
    else match hSubst e with
      | 1 => valid.map (fun _ => if hBits e then BitVec.ofNat 32 (hSubval e % 2) else BitVec.ofNat 32 (hSubval e))
      | 2 => valid.map (fun _ => 0)
      | _ => valid
  let q := if !act then x.quality.toNat else if bad || hSubst e == 3 then qBad else qUncertain
  let forced := s.entryForced e
  let s := { s with entries := tset EntrySt.reset s.entries i x }
  let s := each vals.zipIdx s (fun s v =>
    let idx := hBase e + v.2
    s.putItem (hKind e) idx ((s.forced (hKind e) idx).getD v.1))
  s.swSet (hSwidx e) (swWord (if forced then qGood else q) (!forced && act && hSubst e != 3) stale x.ovr forced false age)

/-! ## The shed (R47, R49) -/

/-- At a shed instant every class that sheds then takes the entries of other classes as they are before any of these sheds.
DEDUCED: assumption 8. -/
def State.takeSnap (s : State) (at_ : Nat) : State :=
  let r := s.released
  each s.classesOn s (fun s k =>
    let c := s.cls k
    if c.latched && !c.shedDone && decide (c.t0.toNat + s.dshed k = at_ ∧ c.snapAt ≠ some at_) then
      s.setCls k { c with snapImg := r.img, snapSw := r.sw, snapAt := some at_ }
    else s)

/-- The valid input entries of class `k`. -/
def State.inputsOf (s : State) (k : Nat) : List (Nat × HEntry) :=
  s.validEntries.filter (fun e => hInput e.2 && hClass e.2 == k)

/-- Entries write every bit of image granule `g`. -/
def coversGranule (es : List (Nat × HEntry)) (g : Nat) : Bool :=
  (List.range 32).all (fun i => es.foldl (fun (m : Byte) e => m ||| entryMask e.2 (32 * g + i)) 0 == 0xFF)

/-- Writes of `es` into image granules that read INTEG: a whole granule replaces it; a part of one is discarded, and the module
enters SAFE (R425, R426). -/
def State.imageInteg (s : State) (es : List (Nat × HEntry)) : State :=
  let hit := (granulesOf es).filter (fun g => s.integ.contains (0x1000000 + g))
  let whole := hit.filter (coversGranule es)
  let s := { s with integ := s.integ.filter (fun x => !whole.any (fun g => 0x1000000 + g == x)) }
  if hit.length = whole.length then s else s.enterSafe 0x0C04

/-- The receive windows of class `k` close: frames of them are taken, and the next window begins (R44). -/
def State.closeWindows (s : State) (k : Nat) : State :=
  let stop := s.winEnd k
  let s := each s.eth.streams s (fun (s : State) x =>
    if s.fget (ETH_STR_CFG_CLASS x.1) = k ∧ s.flag (ETH_STR_CFG_MSG x.1) = false then
      s.setStream x.1 { x.2 with frames := x.2.frames.filter (fun f => decide (1000 * stop ≤ f.stamp)) }
    else s)
  let s := each (s.mbsOf mbRxImage k) s (fun s x =>
    let p := x.1
    let m := x.2
    let s := match s.closedCan k p m with
      | some (f, ns) => s.mbStore p m f ns
      | none => s
    let y := s.mb p m
    let left := y.shadow.filter (fun f => decide (1000 * stop ≤ f.2))
    (s.setMb p m { y with shadow := left }).setFlag (CAN_MB_HDR_SHADOW p m) (!left.isEmpty))
  s.modCls k (fun c => { c with winFrom := BitVec.ofNat 64 stop })

/-- The beats of a class return to not signalled, and its beat views are cleared (R94). -/
def State.beatsClear (s : State) (k : Nat) : State :=
  let s := (s.rset64 (BEAT_SIG_LO k) (BEAT_SIG_HI k) 0).rset64 (BEAT_FRC_LO k) (BEAT_FRC_HI k) 0
  s.modCls k (fun c => { c with beatDone := [], beatView := [] })

/-- The strands of class `k` begin their partitions (R48). DEDUCED: assumption 39. -/
def State.weaveStart (s : State) (k : Nat) : State :=
  let c := s.cls k
  let s := (s.setCls k { c with beam := .weaving, beamCyc := c.cyc, weaveAt := s.fab }).fput (CLS_STAT_PHASE_NOW k) 2
  let s := each (s.strandsOf k) s (fun s st =>
    let why := (s.strand st).why
    let s := (s.weaveStrand st (s.activeBank st)).modStrand st (fun x => { x with why := 0 })
    s.btStart st why 0)
  s.checkLastEndc k

/-- The mirror copy of class `k` is in progress (R320). -/
def State.copying (s : State) (k : Nat) : Bool :=
  match tget none s.red.tx k with
  | some t => !t.copied
  | none => false

/-- What the shed of class `k` freezes. -/
def State.shedClass (s : State) (k : Nat) : State :=
  let s := s.takeSnap ((s.cls k).t0.toNat + s.dshed k)
  let ins := s.inputsOf k
  let chans := (List.range 16).filter (fun n => ins.any (fun e => hSrctype e.2 == 1 && hInstance e.2 == n))
  let s := each chans s (fun s n => s.ucLatch k n)
  let s := each ins s (fun s e => s.shedEntry k e.1 e.2)
  let s := ((s.closeWindows k).beatsClear k).modCls k (fun c => { c with shedDone := true })
  let s := if (s.cls k).executed then s else s.fput (CLS_STAT_PHASE_NOW k) 0
  s.imageInteg ins

/-- SHED: at t0 + Dshed the inputs of a latched cycle are frozen, and an executed cycle weaves, once the mirror copy of its class
is complete (R47, R48, R320, R551). -/
def execShed (k : Fin 4) (s : State) : Out :=
  let c := s.cls k
  if s.ctl.held || s.ctl.pfail || !c.latched || c.shedDone || decide (s.tbNat < c.t0.toNat + s.dshed k) || (c.executed && s.copying k) then
    .next s
  else
    let s := s.shedClass k
    .next (if (s.cls k).executed && modeExecutes s.mode then s.weaveStart k else s)

end Sys2Proof.Machine
end

