-- ==== Sys2Proof/Machine/Commit.lean ====
section
/-!
DEFINITION. The beam of a class and the instants after it: what a beam commits, the start of the mirror and of the output frames,
the commit deadline with its overruns, the emit, and the beat timeout (R50 to R61, R99, R102 to R106, R316, R320, R330, R449).
-/
namespace Sys2Proof.Machine

/-! ## The start of a beam (R50, R51) -/

/-- A beam of another class commits in this module, or a beam of a lower class is ready; that it holds back the others also while it
only waits for its mirror copy (R320) is the model's choice: DESIGN CHOICE, assumption 39. In a hedge a beam that has committed here
and waits for its release holds no beam of another class. DEDUCED: assumption 39. -/
def State.beamBlocked (s : State) (k : Nat) : Bool :=
  (List.range 4).any (fun j => j != k &&
    match (s.cls j).beam with
    | .running _ _ => (tget HedgeBeam.reset s.hedge.beams j).commitAt.isNone
    | .ready _ => decide (j < k)
    | _ => false)

/-- The keep RAM granules of class `k` whose content the class's data no longer equals, with what they take (R449).
DEDUCED: assumption 27. -/
def State.retChanges (s : State) (k : Nat) : List (Nat × List Byte) :=
  (s.retMap.filter (fun r => r.cls == k)).flatMap (fun r =>
    (List.range ((r.len + 31) / 32)).filterMap (fun i =>
      let g := r.granule + i
      let old := s.mgetN (keyKeep (32 * g)) 32
      let new := old.zipIdx.map (fun b => if 32 * i + b.2 < r.len then s.retByte r (32 * i + b.2) else b.1)
      if new = old then none else some (g, new)))

/-- BEAM_START: the ready beam of a class starts once no beam is before it and its mirror copy is complete. A beam that writes
retentive granules opens the seal of keep RAM (R50, R51, R320, R449). DEDUCED: assumption 39. -/
def execBeamStart (k : Fin 4) (s : State) : Out :=
  match (s.cls k).beam with
  | .ready endc =>
    if s.ctl.held || s.ctl.pfail || s.beamBlocked k || s.copying k then .next s
    else
      let s := (s.modCls k (fun c => { c with beam := .running endc s.fab })).fput (CLS_STAT_PHASE_NOW k) 3
      let ret := s.retMap.any (fun r => r.cls == k.val)
      .next (if ret then { s with keep := { s.keep with sealOpen := true } } else s)
  | _ => .next s

/-! ## What a beam commits (R72, R102 to R106, R199, R380) -/

/-- The strands of a class whose staging views the beam commits. -/
def State.sources (s : State) (k : Nat) : List Nat := (s.strandsOf k).filter (fun st => (s.strand st).run == .ended)

/-- The granules in which a staging view has staged a bit. -/
def dirtyGranules (stg : Tab MByte) : List Nat := stg.foldl (fun l b => if b.2.mask = 0 then l else insertUp (b.1 / 32) l) []

/-- The commits of a beam in the order of its rounds: granule and strand (R104). -/
def State.commitOrder (s : State) (k : Nat) : List (Nat × Nat) :=
  let srcs := (s.sources k).map (fun st => (st, dirtyGranules (s.strand st).stg))
  let rounds := (srcs.map (fun x => x.2.length)).foldl max 0
  (List.range rounds).flatMap (fun i => srcs.filterMap (fun x => (x.2[i]?).map (fun g => (g, x.1))))

/-- The staged part of one granule. -/
def granuleStage (stg : Tab MByte) (g : Nat) : Tab MByte := stg.filter (fun b => b.1 / 32 == g)

/-- The filters let image-write records of granule `g` pass (R516). DEDUCED: assumption 52. -/
def State.obsImage (s : State) (g : Nat) : Bool :=
  let a := 0x20000000 + 32 * g
  s.obsOn 4 && s.obs.filter.ranges.any (fun r => decide (r.2 ≠ 0 ∧ r.1 < a + 32 ∧ a < r.1 + r.2))

/-- Merge the staged granules into the image in commit order, with an image-write record for each that the filters let pass
(R103, R514). -/
def State.mergeStages (s : State) (k : Nat) : State :=
  each (s.commitOrder k) s (fun (s : State) x =>
    let img := s.forceImage k (fun e => !hInput e) (overImage s.img (granuleStage (s.strand x.2).stg x.1))
    let s := { s with img := img }
    if s.obsImage x.1 then
      s.obsPush 0x04 k (BitVec.ofNat 64 (0x20000000 + 32 * x.1 + x.2 * 2 ^ 40) ::
        (List.range 4).map (fun i => BitVec.ofNat 64 (leNat ((List.range 8).map (fun j => imgGet img (32 * x.1 + 8 * i + j))))))
    else s)

/-- Every commit writes forced values, where no source has a dirty granule too (R72, R102). -/
def State.commitForces (s : State) (k : Nat) : State :=
  { s with img := s.forceImage k (fun e => !hInput e) s.img }

/-- A staged granule reads INTEG and no source replaces it whole: the module enters SAFE (R425, R426). -/
def State.stageInteg (s : State) (k : Nat) : Bool :=
  (s.commitOrder k).any (fun x => s.integ.contains (0x1000000 + x.1) &&
    !(List.range 32).all (fun i => (tget ⟨0, 0⟩ (s.strand x.2).stg (32 * x.1 + i)).mask == 0xFF))

/-- Deliveries of a beam into DMEM would write a part of a granule that reads INTEG. -/
def State.jobInteg (s : State) (k : Nat) : Bool :=
  (List.range 8).any (fun n => (s.engine n).jobs.any (fun j =>
    (s.cfg j.strand).cls == k && j.defer == 0 && !j.late &&
      (s.partialHit (s.dkey j.strand (j.status - 0x80000)) 4 ||
        match j.state with
        | .done _ r => s.partialHit (s.dkey j.strand (j.dst - 0x80000)) r.length
        | _ => false)))

/-- The frame that message stream `i` delivers to a beam of a cycle shed at `shedNs` (R380). -/
def State.dueFrame (s : State) (i shedNs : Nat) : Option RxFrame :=
  (s.stream i).frames.find? (fun f => decide (f.stamp < shedNs))

/-- The message streams of class `k`, port by port as their receive queues go (R104, R380). -/
def State.msgStreams (s : State) (k : Nat) : List Nat :=
  (List.range 4).flatMap (fun p => s.streamsWhere (fun i =>
    s.flag (ETH_STR_CFG_MSG i) && !s.flag (ETH_STR_CFG_DIR i) && s.fget (ETH_STR_CFG_CLASS i) == k && s.fget (ETH_STR_CFG_PORT i) == p))

/-- Memory key of the delivery buffer of a message stream. -/
def State.msgKey (s : State) (i : Nat) : Nat :=
  let c := s.streamCf i
  keyDmem c.bufStrand (c.bufAddr - 0x80000)

/-- A message would be written into a part of a granule that reads INTEG. -/
def State.msgInteg (s : State) (k shedNs : Nat) : Bool :=
  (s.msgStreams k).any (fun i =>
    match s.dueFrame i shedNs with
    | some f => s.partialHit (s.msgKey i + 32) f.data.length
    | none => false)

/-- The own entries that the beams of class `k` commit. -/
def State.committed (s : State) (k : Nat) : List (Nat × HEntry) :=
  s.validEntries.filter (fun e => !hInput e.2 && !hShared e.2 && hClass e.2 == k && hOwner e.2 / 16 == s.member)

/-- Status words of the committed entries: GOOD with age 0, or BAD for the entries of a halted strand; OVERRUN stays as the last
emit left it (R56, R73, R101, R102). -/
def State.commitStatus (s : State) (k : Nat) : State :=
  each (s.committed k) s (fun s e =>
    let bad := (s.strand (hOwner e.2 % 16)).run == .halted
    let old := (s.swGet (hSwidx e.2)).toNat
    s.swSet (hSwidx e.2) (swWord (if bad then qBad else qGood) false false false (s.entryForced e.2) (bitAt old 6) 0))

/-- One message stream at a beam: the oldest pending frame received before the shed instant, and the first granule of its buffer
in any case; the granules written (R380). -/
def State.deliverStream (s : State) (i shedNs : Nat) : State × Nat :=
  let x := s.stream i
  let key := s.msgKey i
  match s.dueFrame i shedNs with
  | some f =>
    let s := s.setStream i { x with frames := x.frames.erase f }
    (s.hardPut key (padGranule (leBytes 4 f.data.length ++ leBytes 8 f.cycle ++ leBytes 8 (f.stamp / 1000)) ++ f.data),
      1 + (f.data.length + 31) / 32)
  | none => (s.hardPut key (leBytes 32 0), 1)

/-- The message streams of class `k` deliver (R380). -/
def State.deliverStreams (s : State) (k shedNs : Nat) : State × Nat :=
  (s.msgStreams k).foldl
    (fun (acc : State × Nat) i =>
      let r := acc.1.deliverStream i shedNs
      (r.1, acc.2 + r.2)) (s, 0)

/-- The retentive granules of class `k` that have changed go into keep RAM; a paired primary owes them to its standby (R316,
R321, R449). The seal closes with the last one. DEDUCED: assumption 27. -/
def State.commitRetentive (s : State) (k : Nat) : State :=
  let ch := s.retChanges k
  let s := each ch s (fun s g => s.keepWrite g.1 g.2)
  let s := { s with keep := { s.keep with sealOpen := false } }
  let s := if ch.isEmpty then s else s.showDirty
  if s.paired ∧ s.role = 1 then
    { s with red := { s.red with
      unacked := tset [] s.red.unacked k (ch.foldl (fun l g => insertUp g.1 l) (tget [] s.red.unacked k)) } }
  else s

/-- What the entries of class `k` held before a local commit, for the sheds until the hedge beam is complete (R359). -/
def oldCommit (s t : State) (k : Nat) : OldCommit :=
  let es := s.committed k
  { img := es.flatMap (fun e => (List.range (entryBytes e.2).2).filterMap (fun i =>
      let off := (entryBytes e.2).1 + i
      if imgGet s.img off = imgGet t.img off then none else some (off, entryMask e.2 off, imgGet s.img off))),
    sw := es.map (fun e => (hSwidx e.2, s.swGet (hSwidx e.2))) }

/-- The local commit of class `k` (R102, R359 step 1). -/
def State.commitClass (s : State) (k : Nat) : State :=
  let start := match (s.cls k).beam with
    | .running _ b => b
    | _ => s.fab
  let g := (s.commitOrder k).length
  let whole := (s.commitOrder k).map (fun x => 0x1000000 + x.1)
  let t := { s with integ := s.integ.filter (fun x => !whole.contains x) }
  let t := ((t.mergeStages k).commitForces k).commitStatus k
  let j := t.deliverJobs k start
  let m := j.1.deliverStreams k (1000 * (s.beamT0 k + s.dshed k))
  let t := m.1.commitRetentive k
  let n := g + j.2 + m.2
  let t := (t.fput (HDL_GLAST_GLAST k) n).countG 0x41 n
  let t := each (s.strandsOf k) t (fun t st => t.modStrand st (fun x => { x with run := .idle, stg := [] }))
  if s.flag MEL_STAT_FORMED then
    { t with hedge := { t.hedge with old := tput t.hedge.old k (some (oldCommit s t k)) } }
  else t

/-! ## The end of a beam (R52, R106, R291, R316, R320, R377) -/

/-- The set of class `k` goes into the mirror buffer: its copy, then its transmission, behind those of other classes (R320). The
last cycle before an armed handover carries the final flag (R336). A proof extension that does not fit the mirror window is dropped
(R293). -/
def State.shuttleStart (s : State) (k : Nat) : State :=
  if s.paired ∧ s.role = 1 then
    let final : Bool := match s.red.handover with
      | some x => x.armed && !x.incoming && (s.cls 0).cyc + 1 == x.h
      | none => false
    let proving : Bool := match s.edit.pkg with
      | some p => s.edState == edProving && editTouches p k
      | none => false
    let plan := fun (ext : Option ProofExt) => s.shuttlePlan k
      { set := s.buildSet k final ext, commitAt := s.tbNat, copyEnd := 0, copied := false, sendAt := 0, sendEnd := 0, ended := false }
    let full := plan (if proving then some (s.proofExt k) else none)
    let fits := full.all (fun e => match e.2 with
      | some t => e.1 != k || decide (t.sendEnd < s.fab + 5 * s.mirrorWindow)
      | none => true)
    { s with red := { s.red with tx := if fits then full else plan none } }
  else s

/-- The module sends the remote output frames of its class: it executes, and is not the outgoing unit of a handover (R322,
R377). -/
def State.drives (s : State) : Bool := modeExecutes s.mode && !(s.mode == mHandover && s.role == 2)

/-- The output frames of class `k` for the emit of cycle number `cyc` (R377, R409). -/
def State.buildFrames (s : State) (k : Nat) (cyc : BitVec 64) (launch : Nat) (ovr : Bool) : State :=
  (s.buildStreams k cyc.toNat launch ovr).canBuild k

/-- A captured cycle of the traced strand's class is over (R517, R518). DEDUCED: assumption 38. -/
def State.traceCycle (s : State) (k : Nat) : State :=
  if s.flag OBS_RT_STAT_CAPTURING ∧ (s.cfg (s.fget OBS_RT_CFG_STRAND)).cls = k then
    let s := { s with trace := { s.trace with left := s.trace.left - 1 } }
    if s.trace.left = 0 then s.traceEnd 0 else s
  else s

/-- The beam of class `k` is complete (R52). Its frames are built for the emit to come: that of the cycle number in progress, or
the next one where that emit has passed. Between a missed deadline and its emit the frames wait (R56). -/
def State.beamEnd (s : State) (k : Nat) : State :=
  let c := s.cls k
  let r := match c.beam with
    | .running endc start => (endc, start)
    | _ => (s.fab, s.fab)
  let us := s.tbNat - s.beamT0 k
  let s := (s.setCls k { c with beam := .none }).fput (CLS_COMMIT_LAST_US k) us
  let s := s.fput (CLS_COMMIT_MAX_MAX_US k) (max us (s.fget (CLS_COMMIT_MAX_MAX_US k)))
  let s := (s.fput (HDL_BEAMLAST_LAST_NS k) (2 * (s.fab - r.1))).fput (CLS_STAT_PHASE_NOW k) (if c.skipped then 5 else 0)
  let s := (s.countG 0x42 (s.fab - r.2)).noteSlack k
  let s := ((s.editFirst k).traceCycle k).activationCopy
  let s := if k = 0 then s.trialCount true else s
  let s := s.shuttleStart k
  let s := if s.drives then
      if c.emitDone then s.buildFrames k (c.cyc + 1) (c.t0.toNat + s.period k + s.dout k) true
      else if c.deadlineDone then s
      else s.buildFrames k c.cyc (c.t0.toNat + s.dout k) c.skipped
    else s
  s.dryStart k

/-! ## The commit deadline (R55 to R61, R186) -/

/-- CONSEC and WINCNT are shown (R59). -/
def State.showOverruns (s : State) (k : Nat) : State :=
  let c := s.cls k
  let l := c.ovrs.filter (fun x => decide ((c.cyc - x).toNat < 1024))
  ((s.setCls k { c with ovrs := l }).fput (CLS_STAT_CONSEC k) (min 15 c.consec)).fput (CLS_STAT_WINCNT k) l.length

/-- An overrun of class `k` at the deadline of the cycle number in progress: the next t0 is skipped, the outputs carry OVERRUN.
It counts in PROGRAM, RUN and RUN-LOCKED, where it may take the fault action (R56, R59 to R61).
DEDUCED: assumption 39. -/
def State.overrun (s : State) (k : Nat) : State :=
  let s := (s.modCls k (fun c => { c with skipNext := true, ovrEmit := true })).spoilTrial
  if s.mode ≠ mProgram ∧ s.mode ≠ mRun ∧ s.mode ≠ mRunLocked then s
  else
    let s := (s.modCls k (fun c => { c with consec := c.consec + 1, ovrs := c.cyc :: c.ovrs })).showOverruns k
    let c := s.cls k
    let s := ((s.satBump (CLS_OVRTOT_OVRTOT k) 1).setFlag (CLS_EVT_OVR k) true).countG 0x4F 1
    let s := s.raise 0x0201 k (leBytes 8 c.cyc.toNat ++ leBytes 1 k ++ leBytes 1 (min 255 c.consec) ++ leBytes 2 c.ovrs.length)
    let overC := decide (s.fget (CLS_OVRLIM_K_CONSEC k) < c.consec)
    let overW := decide (s.fget (CLS_OVRLIM_K_WINDOW k) < c.ovrs.length)
    if overC || overW then
      let act := s.fget (CLS_CFG_ACTION k)
      let s := (s.setFlag (CLS_STAT_FAULTED k) true).setFlag (CLS_EVT_FAULT k) true
      let s := s.raise 0x0202 k (leBytes 8 c.cyc.toNat ++ leBytes 1 k ++ leBytes 1 act ++
        leBytes 1 (if overC && overW then 2 else if overW then 1 else 0) ++ [0])
      if act = 0 then s.enterStop 2 else s.enterSafe 0x0202
    else s

/-- The beam of the cycle number in progress has missed its deadline; in a hedge the top master's LATE decides (R55, R58,
R361). -/
def State.missed (s : State) (k : Nat) : Bool :=
  let c := s.cls k
  let h := tget HedgeBeam.reset s.hedge.beams k
  (c.executed || c.skipped) && (c.beam != .none || (h.late && h.lateCyc == c.cyc))

/-- What the commit deadline decides: the overrun, or the cycle met it (R55, R59). -/
def State.judgeDeadline (s : State) (k : Nat) : State :=
  if s.missed k then s.overrun k
  else if (s.cls k).executed then (s.modCls k (fun c => { c with consec := 0, ovrEmit := false })).showOverruns k
  else s

/-- The output pipelines of the channels of class `k` run on the committed image (R186). -/
def State.outputPipes (s : State) (k : Nat) : State :=
  each (List.range 16) s (fun s n =>
    match s.ucOutEntry n with
    | some (_, e) => if hClass e = k then s.ucOutputPipe n e else s
    | none => s)

/-- An operation on the image and status words that the emit of class `k` applies; both stay as they are. -/
def State.onOutputs (s : State) (k : Nat) (f : State → State) : State :=
  let c := s.cls k
  let t := f { s with img := c.outImg, sw := c.outSw }
  { t with img := s.img, sw := s.sw }

/-- COMMIT_DEADLINE: at t0 + Δout − Eprep the beam is judged, the values that the emit applies are fixed, and the output
pipelines run on them; an overrun builds its frames anew (R55, R56, R186, R377). -/
def execCommitDeadline (k : Fin 4) (s : State) : Out :=
  let c := s.cls k
  if s.ctl.held || !s.live || !c.started || c.deadlineDone || decide (s.tbNat + eprep < c.t0.toNat + s.dout k) then .next s
  else
    let miss := s.missed k
    let s := (s.modCls k (fun c => { c with deadlineDone := true })).judgeDeadline k
    let r := s.released
    let s := s.modCls k (fun c => { c with outImg := r.img, outSw := r.sw })
    if s.drives && !(s.cls k).firstPend then
      let s := (s.onOutputs k (fun s => s.outputPipes k)).fput (CLS_STAT_PHASE_NOW k) 4
      .next (if miss then s.onOutputs k (fun s => s.buildFrames k c.cyc (c.t0.toNat + s.dout k) true) else s)
    else .next s

/-! ## The emit (R53, R54, R56, R330, R331, R336) -/

/-- OVERRUN in the status words of the output entries of class `k` (R56). -/
def State.showOverrun (s : State) (k : Nat) : State :=
  let set := fun (w : BitVec 16) => if (s.cls k).ovrEmit then w ||| 0x0040 else w &&& ~~~0x0040
  let es := (s.committed k).filter (fun e => hOutput e.2)
  let t := each es s (fun s e => s.swSet (hSwidx e.2) (set (s.swGet (hSwidx e.2))))
  let c := t.cls k
  t.setCls k { c with outSw := each es c.outSw (fun w e => tset 0 w (hSwidx e.2) (set (tget 0 w (hSwidx e.2)))) }

/-- The instant t_h of a handover that runs (R336). -/
def State.handoverAt (s : State) : Nat :=
  match s.red.handover with
  | some x => s.epoch + x.h.toNat * s.t0us + s.dout 0
  | none => 0

/-- How the shared outputs of a class leave or enter at this emit: as usual; held where they are; a takeover or the incoming side
of a handover, with the length of its ramp in µs; the outgoing side (R330). -/
inductive Shift where
  | none
  | hold
  | up (us : Nat)
  | down

def State.shiftOf (s : State) (k at_ : Nat) : Shift :=
  if s.red.tkoEmit.contains k then
    if s.mode = mHandover ∧ at_ < s.handoverAt then .hold
    else if s.role = 2 ∨ (s.red.ungated ∧ s.mode = mStop) then .down
    else if s.red.tko.isSome then .up 1000
    else .up (1000 * s.fget RED_RAMP_RAMP_MS)
  else if (s.red.downAt.find? (fun d => d.1 == k)).isSome then .hold
  else .none

/-- The universal channels that the emit of class `k` drives: those of its output entries, and with C0 those without one. -/
def State.emitUcs (s : State) (k : Nat) : List Nat :=
  (List.range 16).filter (fun n => ucOutput (s.ucMode n) &&
    match s.ucOutEntry n with
    | some (_, e) => hClass e == k
    | none => k == 0)

/-- The universal channels of class `k` at its emit. DEDUCED: assumption 38. -/
def State.emitUc (s : State) (k : Nat) (sh : Shift) : State :=
  each (s.emitUcs k) s (fun s n =>
    if s.flag (UC_MODE_SHARED n) = false then s.ucEmit n
    else match sh with
      | .none => s.ucEmit n
      | .hold => s
      | .up us => (s.modUc n (fun u => { u with fade := some { from_ := s.tbNat, dur := us, up := true, cmd := 0 } })).ucEmit n
      | .down => (s.modUc n (fun u => { u with fade := some { from_ := s.tbNat, dur := 1000 * s.fget RED_RAMP_RAMP_MS,
                                                              up := false, cmd := u.out } })).ucEmit n)

/-- The digital channels of class `k` at its emit; shared ones that hold keep their output. -/
def State.emitDio (s : State) (k : Nat) (sh : Shift) : State :=
  let held := match sh with
    | .hold => (List.range 32).filter s.dioShared
    | .down => (List.range 32).filter s.dioShared
    | _ => []
  let before := held.map (fun n => (n, s.dio n))
  each before (s.dioEmit k) (fun s d => s.setDio d.1 d.2)

/-- The changeover of class `k` has begun: a new primary or the incoming unit is done with it, the outgoing unit switches its
digital outputs off 1 ms later (R330). -/
def State.shiftDone (s : State) (k : Nat) (sh : Shift) : State :=
  let left := s.red.tkoEmit.filter (· != k)
  match sh with
  | .up _ => ({ s with red := { s.red with tkoEmit := left } }).takeoverOver
  | .down => { s with red := { s.red with tkoEmit := left, downAt := tput s.red.downAt k (s.tbNat + 1000) } }
  | _ => s

/-- EMIT: at t0 + Δout the local outputs of the class take effect, and its remote frames are launched (R53, R54, R272, R330). -/
def execEmit (k : Fin 4) (s : State) : Out :=
  let c := s.cls k
  if s.ctl.held || !s.live || !c.started || !c.deadlineDone || c.emitDone || decide (s.tbNat < c.t0.toNat + s.dout k) then .next s
  else
    let launch := c.t0.toNat + s.dout k
    let sh := s.shiftOf k launch
    let s := if s.red.tkoEmit.contains k.val ∧ s.red.tkoLeft.contains k.val then s.modCls k (fun c => { c with outImg := s.img, outSw := s.sw })
      else s
    let runs := s.drives && !c.firstPend
    let s := if runs then s.showOverrun k else s
    let s := s.onOutputs k (fun s => (s.emitDio k sh).emitUc k sh)
    let s := s.shiftDone k sh
    let s := if runs then (s.rioOpen k launch).canEmit k launch else s
    let late := c.skipNext && (s.cls k).beam == .none
    let s := if runs && late then s.buildFrames k (c.cyc + 1) (launch + s.period k) true else s
    let s := s.modCls k (fun c => { c with emitDone := true })
    .next (if s.fget (CLS_STAT_PHASE_NOW k) = 4 then s.fput (CLS_STAT_PHASE_NOW k)
        (match (s.cls k).beam with
         | .none => if c.skipped then 5 else 0
         | .running _ _ => 3
         | _ => 2)
      else s)

/-! ## The beat timeout (R99) -/

/-- The strands of class `k` that are stalled on beat `b`. -/
def State.stalledOn (s : State) (k b : Nat) : List Nat :=
  (s.strandsOf k).filter (fun st =>
    match (s.strand st).stall with
    | some w => w.on == .beat b
    | none => false)

/-- An instruction that stores to memory. -/
def isStore : Instr → Bool
  | .sw .. => true
  | .sh .. => true
  | .sby .. => true
  | _ => false

/-- The strands of class `k` that wait for the completion of a store at another member: the wait that FENCE, BEAT and ENDC would
make (R138). DEDUCED: assumption 40. -/
def State.storeWaits (s : State) (k : Nat) : List Nat :=
  (s.strandsOf k).filter (fun st =>
    match (s.strand st).stall with
    | some w => w.on == .member && isStore w.instr
    | none => false)

/-- Strands trap in one clock: each trap is recorded. Under SAFE the module enters SAFE once and the others count as halted
(R99, R164). -/
def State.trapAll (s : State) (k code : Nat) (strands : List Nat) : State :=
  let t := each strands s (fun s st => s.recordTrap st code)
  if strands.isEmpty then s
  else if s.trapHandling k code = 1 then (each strands.tail t (fun s st => s.haltStrand st 0)).enterSafe 0x0120
  else each strands t (fun s st => s.haltStrand st 0)

/-- Every strand of class `k` that is stalled on a beat traps, and so does one that waits for a store (R99, R138). Trial code counts
in the proof report (R290). The event carries the number of the cycle that weaves: DESIGN CHOICE, assumption 57. -/
def State.beatTimeout (s : State) (k : Nat) : State :=
  let beats := (List.range 64).filter (fun b => !(s.stalledOn k b).isEmpty)
  let strands := (List.range 16).filter (fun st => beats.any (fun b => (s.stalledOn k b).contains st) || (s.storeWaits k).contains st)
  let s := each beats s (fun s b =>
    if s.onTrial k then s.satBump EDT_REP_ERR_BEATTO 1
    else
      let s := (s.satBump BEAT_TOCNT_TOCNT 1).setBit BEAT_EVT_TIMEOUT k true
      s.raise 0x0401 (k * 64 + b) (leBytes 8 (s.cls k).beamCyc.toNat ++ leBytes 1 k ++ leBytes 1 b ++
        leBytes 2 (maskOf (s.stalledOn k b))))
  s.trapAll k trBeatTo strands

/-- BEAT_TIMEOUT: t0 + Dshed + TO_PCT % of Tk, by the cycle that weaves; of trial code, the same span after its begin (R99).
DEDUCED: assumption 40. -/
def execBeatTimeout (k : Fin 4) (s : State) : Out :=
  let c := s.cls k
  let span := s.fget (BEAT_TO_TO_PCT k) * s.period k / 100
  if s.ctl.held then .next s
  else if s.onTrial k then
    if 500 * span ≤ s.fab - (s.proofOf k).began then .next (((s.swapWorld k).beatTimeout k).swapWorld k) else .next s
  else if c.beam = .weaving ∧ c.beatToDone = false ∧ s.beamT0 k + s.dshed k + span ≤ s.tbNat then
    .next ((s.modCls k (fun c => { c with beatToDone := true })).beatTimeout k)
  else .next s

end Sys2Proof.Machine
end

