-- ==== Sys2Proof/Machine/Exchange.lean ====
section
/-!
DEFINITION. The hedge beam: exports and transfer records, DONE up the tree, RELEASE, LATE, and the completion of a beam in a
single module (R52, R358 to R361).
-/
namespace Sys2Proof.Machine

/-! ## Paths (R346) -/

def State.hedgeImage (s : State) : Option HedgeImage := s.config.map (fun c => c.hedge)

/-- The lowest module whose path begins with `q`. -/
def masterOf (paths : List (List Nat)) (q : List Nat) : Nat := (paths.findIdx? (fun p => p.take q.length == q)).getD 0

/-- A path without the zeros at its end: the hedges that the module is master of begin there. -/
def stripZeros (p : List Nat) : List Nat := (p.reverse.dropWhile (· == 0)).reverse

/-- The master to which module `m` sends DONE for everything below it; none for the top master (R359). -/
def doneTarget (paths : List (List Nat)) (m : Nat) : Option Nat :=
  match stripZeros ((paths[m]?).getD []) with
  | [] => none
  | p => some (masterOf paths p.dropLast)

/-- The modules whose DONE module `m` waits for. -/
def doneSources (paths : List (List Nat)) (m : Nat) : List Nat :=
  (List.range paths.length).filter (fun r => r != m && doneTarget paths r == some m)

/-! ## Exports (R358, R359) -/

def State.hbeam (s : State) (k : Nat) : HedgeBeam := tget HedgeBeam.reset s.hedge.beams k

def State.setHbeam (s : State) (k : Nat) (b : HedgeBeam) : State :=
  { s with hedge := { s.hedge with beams := tset HedgeBeam.reset s.hedge.beams k b } }

/-- The own entries of class `k` that send transfer fields to module `m`. -/
def State.transferEntries (s : State) (k m : Nat) : List (Nat × HEntry) :=
  (s.committed k).filter (fun e => hOutput e.2 && hSrctype e.2 == 6 && hInstance e.2 == m)

/-- The transfer records of class `k` for module `m`: channel, bytes, and the quality of each field. -/
def State.transferRecords (s : State) (k m : Nat) : List (Nat × List Byte × List (Nat × Nat)) :=
  let es := s.transferEntries k m
  (List.range 64).filterMap (fun c =>
    let mine := es.filter (fun e => hStream e.2 == c)
    if mine.isEmpty then none
    else
      let len := (mine.map (fun e => ((fieldBits e.2).2 + 7) / 8)).foldl max 0
      some (c, s.frameData mine len, mine.map (fun e => (hByteofs e.2, readQuality (s.swGet (hSwidx e.2)).toNat))))

/-- The export message of class `k` for module `m`; none when `m` takes nothing of the class. -/
def State.exportsFor (s : State) (h : HedgeImage) (k m : Nat) : Option Sent :=
  let es := (s.committed k).filter (fun e => h.exports.any (fun x => x.1 == e.1 && x.2.val == m))
  let recs := s.transferRecords k m
  if es.isEmpty && recs.isEmpty then none
  else some (.exports m k (s.cls k).beamCyc (es.flatMap (fun e => s.entryImage e.2 [])) (es.map (fun e => (hSwidx e.2, s.swGet (hSwidx e.2))))
    recs)

/-- The modules that send exports or transfer records of class `k` to this one. -/
def State.exporters (s : State) (h : HedgeImage) (k : Nat) : List Nat :=
  (List.range 16).filter (fun m => m != s.member &&
    (h.imports.any (fun x => x.owner.val == m && hClass x.remote == k) ||
      h.others.any (fun t => t.any (fun e => hValid e.2 && hOutput e.2 && hSrctype e.2 == 6 && hInstance e.2 == s.member &&
        hClass e.2 == k && hOwner e.2 / 16 == m && !hShared e.2))))

/-- Every export of the present beam of class `k` addressed to this module has arrived. -/
def State.exportsIn (s : State) (h : HedgeImage) (k : Nat) : Bool :=
  (s.exporters h k).all (fun m => (s.hbeam k).exports.any (fun x => x.sender.val == m && x.cycle == (s.cls k).beamCyc))

/-! ## RELEASE (R359) -/

/-- What arrived for the beam enters the image and the transfer records with the RELEASE. -/
def State.takeExports (s : State) (k : Nat) : State :=
  let cyc := (s.cls k).beamCyc
  each ((s.hbeam k).exports.filter (fun x => x.cycle == cyc)) s (fun (s : State) x =>
    let s : State := { s with img := each x.bytes s.img (fun m b => imgMask m b.1 b.2.1 b.2.2) }
    let s := each x.sw s (fun (s : State) w => s.swSet w.1 (readStatus w.2))
    each x.transfers s (fun (s : State) t =>
      { s with hedge := { s.hedge with transfers := tset none s.hedge.transfers (x.sender.val * 64 + t.1.val)
                                         (some { bytes := t.2.1, quality := t.2.2, at_ := s.tbNat }) } }))

/-- RELEASE completes the beam of class `k` on this module. -/
def State.releaseBeam (s : State) (k : Nat) : State :=
  let b := s.hbeam k
  match b.commitAt with
  | none => s
  | some t =>
    let s := s.takeExports k
    let s := s.setHbeam k { HedgeBeam.reset with late := b.late, lateCyc := b.lateCyc }
    let s : State := { s with hedge := { s.hedge with old := tset none s.hedge.old k none } }
    (s.fput (MEL_XLAST_LAST_NS k) (2 * (s.fab - t))).beamEnd k

/-- The LATE flag of the cycle whose beam is outstanding, or of a later cycle number that it has made late. -/
def State.beamLate (s : State) (k : Nat) : Bool :=
  (s.hbeam k).late && decide ((s.hbeam k).lateCyc - (s.cls k).beamCyc ≤ (s.cls k).cyc - (s.cls k).beamCyc)

/-- DONE goes up, or from the top master RELEASE down, once the local commit is complete, every export has arrived and every
member below has sent DONE. -/
def State.hedgeProgress (s : State) (k : Nat) : State :=
  match s.hedgeImage with
  | none => s
  | some h =>
    let b := s.hbeam k
    if b.commitAt.isSome && !b.sent && s.exportsIn h k && (doneSources h.paths s.member).all (fun m => b.done.contains m) then
      let s := s.setHbeam k { b with sent := true }
      match doneTarget h.paths s.member with
      | some m => s.send (.done m k)
      | none => (s.send (.release k (s.cls k).beamCyc (s.beamLate k))).releaseBeam k
    else s

/-! ## The commands -/

/-- COMMIT_COMPLETE: the beam has committed the class. A single module completes it; a module of a hedge sends its exports and
completes it with RELEASE (R52, R102, R359). -/
def execCommitComplete (k : Fin 4) (s : State) : Out :=
  match (s.cls k).beam with
  | .running _ _ =>
    if s.ctl.held || (s.hbeam k).commitAt.isSome then .next s
    else if s.stageInteg k || s.jobInteg k || s.msgInteg k (1000 * (s.beamT0 k + s.dshed k)) then .next (s.enterSafe 0x0C04)
    else
      let s := s.commitClass k
      match s.hedgeImage with
      | some h =>
        if s.flag MEL_STAT_FORMED then
          let s := s.setHbeam k { s.hbeam k with commitAt := some s.fab }
          let s := { s with tx := s.tx ++ (List.range 16).filterMap (fun m => s.exportsFor h k m) }
          .next (s.hedgeProgress k)
        else .next (s.beamEnd k)
      | none => .next (s.beamEnd k)
  | _ => .next s

/-- EXPORTS: exports of another module arrive (R359). DEDUCED: assumption 51. -/
def execExports (m : ExportMsg) (s : State) : Out :=
  if s.ctl.held || !s.flag MEL_STAT_FORMED then .next s
  else
    let b := s.hbeam m.cls
    .next ((s.setHbeam m.cls { b with exports := b.exports.filter (fun x => x.sender != m.sender) ++ [m] }).hedgeProgress m.cls)

/-- DONE: a member below sends DONE for its part of the hedge (R359). -/
def execDone (k : Fin 4) (member : Fin 16) (s : State) : Out :=
  if s.ctl.held || !s.flag MEL_STAT_FORMED then .next s
  else
    let b := s.hbeam k
    .next ((s.setHbeam k { b with done := insertUp member b.done }).hedgeProgress k)

/-- A cycle of class `k` is late in the hedge (R361). -/
def State.markLate (s : State) (k : Nat) (cyc : BitVec 64) : State :=
  let s := s.setHbeam k { s.hbeam k with late := true, lateCyc := cyc }
  ((s.setFlag MEL_EVT_LATE true).satBump (MEL_LATECNT_LATE k) 1).raise 0x0A06 k (leBytes 8 cyc.toNat ++ leBytes 1 k)

/-- RELEASE: the beam of a class is complete on this module; the late flag says that its cycle has missed its deadline (R359,
R361). -/
def execRelease (k : Fin 4) (cycle : BitVec 64) (late : Bool) (s : State) : Out :=
  if s.ctl.held || !s.flag MEL_STAT_FORMED || (s.cls k).beamCyc != cycle then .next s
  else
    let s := if late && !s.beamLate k then s.setHbeam k { s.hbeam k with late := true, lateCyc := cycle } else s
    .next (s.releaseBeam k)

/-- CUT_INSTANT: t0 + Δout − Eprep − 0.5 µs × Pm has passed without RELEASE, and the top master sends LATE (R361). -/
def execCutInstant (k : Fin 4) (s : State) : Out :=
  let c := s.cls k
  let cut := 1000 * (c.t0.toNat + s.dout k) - 1000 * eprep - 500 * s.fget MEL_PATH_PM
  if s.ctl.held || !s.flag MEL_STAT_FORMED || s.member != 0 || !(c.executed || c.skipped) || c.beam == .none ||
      decide (s.tbNs ≤ cut) || ((s.hbeam k).late && (s.hbeam k).lateCyc == c.cyc) then .next s
  else .next ((s.send (.late k c.cyc)).markLate k c.cyc)

/-- LATE: the top master says that a cycle number is late; it counts as an overrun at its commit deadline (R361). -/
def execLate (k : Fin 4) (cycle : BitVec 64) (s : State) : Out :=
  if s.ctl.held || !s.flag MEL_STAT_FORMED then .next s else .next (s.markLate k cycle)

end Sys2Proof.Machine
end

