-- ==== Sys2Proof/Machine/Supply.lean ====
section
/-!
DEFINITION. Supplies, RESET_n and the clock monitor (R20, R470, R527, R531), and what the LEDs show (R539).
-/
namespace Sys2Proof.Machine

/-- Every local output is de-energised: 0 V, 0 mA, off; a loop-powered output keeps its unregulated draw (R20, R216, R272). -/
def State.outputsOff (s : State) : State :=
  let s := each (List.range 32) s (fun s n => s.dioOff n)
  each (List.range 16) s (fun s n => s.modUc n (fun u => { u with out := s.ucIdle n, fade := none }))

/-- CLOCK_FAULT: the monitor asserts FAULT_n, drops the baton, de-energises the outputs and holds the die in reset; the
companion keeps the record for the next start (R20, R284). -/
def execClockFault (cause : Fin 3) (ppm : Int) (s : State) : Out :=
  if s.ctl.held || s.mode == mDormant then .next s
  else
    let record := leBytes 1 cause.val ++ leBytes 4 (intBits 32 (satInt 32 ppm)) ++ leBytes 6 s.rtc.count
    let s := (s.setFlag RED_STAT_BATON_OUT false).outputsOff
    let s := s.dieReset rcPor false
    .next { s with ctl := { s.ctl with held := true, faultN := true, clockFault := some record } }

/-- RESET_N_ASSERTED: RESET_n goes low, and the outputs are held as in POWER-UP while it stays low (R531). -/
def execResetNAsserted (s : State) : Out :=
  if s.supply.resetN.isSome then .next s
  else
    let s := { s with supply := { s.supply with resetN := some s.fab } }
    if s.ctl.pfail then .next s else .next s.outputsOff

/-- EXTERNAL_RESET: RESET_n is released. Asserted for 10 ms or more it resets the module with cause EXT; for less than
1 ms it is ignored; in between it is open whether it acts (assumption 4). After PFAIL it is ignored (R531). -/
def execExternalReset (s : State) : Out :=
  match s.supply.resetN with
  | none => .next s
  | some t =>
    let n := s.fab - t
    let s := { s with supply := { s.supply with resetN := none } }
    if s.ctl.pfail || s.ctl.held || s.mode == mDormant || decide (n < 500000) then .next s
    else if n < 5000000 then
      if Config.freeNat s.free % 2 = 0 then .next s.draw else .next (s.draw.moduleReset rcExt)
    else .next (s.moduleReset rcExt)

/-- CELL_SWITCH_OVER: without the logic supply the supercap has fallen below 2.8 V, and the companion runs from the cell
(R527). -/
def execCellSwitchOver (s : State) : Out :=
  if s.supply.cellBad then .next s else .next { s with supply := { s.supply with onCell := true } }

/-- What is left when the always-on domain has lost every supply: keep RAM, the RTC with its registers, the records and
flags of the companion are gone (R470, R487). The non-volatile memories stay. -/
def execAlwaysOnSupplyLoss (s : State) : Out :=
  let s := s.dieReset rcPor false
  let s := { s with rtc := Rtc.reset, seFailedKeep := 0, evq := [], recorder := { s.recorder with openRec := none },
                    mem := s.mem.filter (fun c => !decide (keyKeep 0 ≤ c.1 ∧ c.1 < keyStore 0)),
                    integ := s.integ.filter (fun g => !decide (keyKeep 0 / 32 ≤ g ∧ g < keyStore 0 / 32)),
                    keep := Keep.reset, supply := { s.supply with onCell := false },
                    ctl := { s.ctl with lockKeep := false, clockFault := none } }
  let s := each s.qs s (fun s e => { s with qs := tset Qs.reset s.qs e.1 { e.2 with pending := 0 } })
  let s := each [RTC_TRIM, RTC_ALARM_LO, RTC_ALARM_HI, RTC_ALM_CTRL, RTC_STAT, SYS_RSTCNT] s (fun s a => s.rset a 0)
  .next (s.setFlag SYS_LOCKOUT_FLAG s.ctl.lockStore)

/-! ## LEDs (R539) -/

/-- How an LED shows its state. -/
inductive Led where
  | off
  | on
  | slow
  | fast
  | double
  | brief
  deriving DecidableEq, Repr

/-- RUN, green. In SERVICE it flashes in turn with FAULT. DEDUCED: assumption 31. -/
def State.ledRun (s : State) : Led :=
  let m := s.mode
  if s.ctl.held then .off
  else if m = mDormant then .off
  else if m = mPowerUp ∨ m = mLoad then .fast
  else if m = mTrack then .double
  else if modeExecutes m then .on
  else if m = mStop ∨ m = mService then .slow
  else .off

/-- FAULT: the colour is red for true, yellow for false. -/
def State.ledFault (s : State) : Bool × Led :=
  let m := s.mode
  if m = mDormant then (true, .off)
  else if s.ctl.held ∨ (m = mPowerUp ∧ s.flag SYS_BOOT_FAIL) then (true, .fast)
  else if m = mService then (false, .slow)
  else if m = mLockout then (true, .slow)
  else if m = mSafe then (true, .on)
  else if m = mStop ∧ s.flag SYS_MODE_CFGFAULT then (false, .on)
  else if s.supply.cellBad then (false, .brief)
  else (true, .off)

/-- PAIR. -/
def State.ledPair (s : State) : Led :=
  let st := s.redState
  if s.mode = mDormant ∨ s.flag RED_CFG_PAIRED = false then .off
  else if s.role = 1 ∧ st = stPrimary ∧ s.red.beacon.any (fun b => b.ready) then .on
  else if st = stAlone ∨ st = stReady then .slow
  else if st = stAligning ∨ st = stNotReady ∨ s.flag RED_STAT_SPLIT ∨ s.flag RED_STAT_BATONFLT then .fast
  else .slow

/-- HEDGE. -/
def State.ledHedge (s : State) : Led :=
  match s.fget MEL_STAT_STATE with
  | 1 => .slow
  | 2 => .on
  | 3 => .fast
  | _ => .off

/-- SYNC. -/
def State.ledSync (s : State) : Led :=
  if s.flag CYC_SYNC_SYNC then .on else if s.fget CYC_SYNC_SOURCE = 0 then .off else .slow

end Sys2Proof.Machine
end

