-- ==== Sys2Proof/Machine/Cycle.lean ====
section
/-!
DEFINITION. The start of a cycle: its number and t0, what takes effect at a C0 t0 and at a t0 of a class, the latch, and the start
of an executed cycle (R36 to R43, R57, R262, R266 to R268, R300, R329, R336, R502, R516 to R520, R551); forces (R70 to R74); and
the admission of the image fabric (R28).
-/
namespace Sys2Proof.Machine

/-! ## A t0 of a class (R36, R37, R39) -/

/-- This TB instant is a t0 of class `k` at which its number has not advanced yet. At a shared t0, C0 comes first. -/
def State.t0Comes (s : State) (k : Nat) : Bool :=
  !s.ctl.held && (modeSheds s.mode || (s.mode == mLoad && s.ctl.booting)) && s.classOn k && s.isT0 k s.tbNat &&
    !((s.cls k).started && (s.cls k).t0 == s.tb) && (k == 0 || ((s.cls 0).started && (s.cls 0).t0 == s.tb))

/-- The cycle number advances; a dry pass that still runs is given up (R39, R291). A cycle marker record names both (R514). -/
def State.newCycle (s : State) (k : Nat) : State :=
  let s := (s.dryAbandon k).modCls k (fun c =>
    { c with cyc := s.cycAt k s.tbNat, t0 := s.tb, started := true, latched := false, executed := false, shedDone := false,
             deadlineDone := false, emitDone := false, skipped := false })
  let s := s.showOverruns k
  let s := if k = 0 then { s with obs := { s.obs with markerAt := s.fab } } else s
  s.obsPush 0x01 k [(s.cls k).cyc, (s.cls k).t0]

/-! ## Changes of mode that take effect (R40, R262, R266 to R268, R333, R352) -/

/-- A trial begins when step 8 completes (R503). -/
def State.trialBegins (s : State) : State :=
  match s.upd.trial with
  | some t => { s with upd := { s.upd with trial := some { t with begun := s.fab } } }
  | none => s

/-- Step 8 of the start-up is over (R276, R284). -/
def State.bootEnd (s : State) : State :=
  if s.ctl.booting then
    let s := s.trialBegins
    let s := s.fput SYS_BOOT_BOOT_MS (min (s.ctl.bootMs + (s.fab - s.ctl.bootAt) / 500000) 65535)
    ({ s with ctl := { s.ctl with booting := false } }).raise 0x0105 0
      (leBytes 4 (s.fget SYS_BOOT_BOOT_MS) ++ leBytes 1 (s.fget SYS_RSTCAUSE_CAUSE) ++ leBytes 1 (s.fget SYS_RSTCAUSE_COLD) ++
        leBytes 1 (s.fget SYS_RSTCAUSE_RETSRC))
  else s

/-- A unit that enters an executing mode from STOP or a start-up takes the primary role, when it is configured as paired (R314). -/
def State.takeRole (s : State) : State :=
  if s.flag RED_CFG_PAIRED then
    let s : State := { s with red := { s.red with roleAt := s.fab } }
    (s.fput RED_STAT_ROLE 1).fput RED_STAT_STATE (if s.paired then stPrimary else stAlone)
  else s

/-- An accepted change into an executing mode that has become barred is refused: the module stays in STOP (R261, R351, R418). -/
def State.refuseExec (s : State) (req cause : Nat) : State :=
  let s := if req < 0x10 then (s.setFlag SYS_EVT_REQREJ true).raiseRefusal req scState else s.raiseRefusal req scState
  if s.mode = mLoad then (s.enterStop cause).bootEnd else s

/-- Entry into PROGRAM, RUN or RUN-LOCKED, or into TRACK while the partner is primary, from STOP or from a start-up, after the
restart (R40, R268, R277). -/
def State.startExec (s : State) (target req cause : Nat) : State :=
  if s.execBarred then s.refuseExec req cause
  else if s.partnerPrimary then (((s.restart.classesBegin).enterTrack cause true).bootEnd)
  else (s.restart.classesBegin.takeRole).enterExec target cause

/-- Entry into STOP by key or request: no class starts a new cycle, and cycles that weave complete their beams (R267). -/
def State.stopAccepted (s : State) (cause : Nat) : State :=
  let s := (s.cancelJobs).canStop
  (({ s with ctl := { s.ctl with restartDue := true } }).setMode mStop cause).bootEnd

/-- Entry into DORMANT: everything stops and the outputs are off; the companion goes on (R267, R271, R272). -/
def State.enterDormant (s : State) (cause : Nat) : State :=
  ((((s.stopAll).cancelJobs).canStop).traceEnd 3).outputsOff.setMode mDormant cause

/-- A RESTART request resets the module with cause SERVICE. From SERVICE the restart is warm (R263, R278).
DEDUCED: assumption 31. -/
def State.serviceReset (s : State) (cold : Bool) : State :=
  let c := cold && s.mode != mService
  let s := s.moduleReset rcService
  { s with ctl := { s.ctl with resetKind := some c } }

/-- The mode changes to `target` at this C0 t0. -/
def State.applyMode (s : State) (target req cause : Nat) (cold : Bool) : State :=
  let m := s.mode
  if target = mPowerUp then s.serviceReset cold
  else if target = m then s
  else if target = mStop then s.stopAccepted cause
  else if target = mTrack then ((s.restart.classesBegin).enterTrack cause true).bootEnd
  else if target = mService then (s.setMode mService cause).traceEnd 3
  else if target = mDormant then s.enterDormant cause
  else if m = mProgram ∨ m = mRun ∨ m = mRunLocked then s.enterExec target cause
  else if m = mStop ∨ m = mLoad ∨ m = mSafe then s.startExec target req cause
  else s

/-- The accepted change takes effect at the first C0 t0 at least 100 µs after its acceptance; a STOP that waits for a planned
handover takes effect at its end (R267, R333). -/
def State.changeStep (s : State) : State :=
  match s.ctl.change with
  | none => s
  | some ch =>
    if ch.accepted + 100 ≤ s.tbNat ∧ s.red.stopAfter = false ∧ s.mode ≠ mHandover then
      ({ s with ctl := { s.ctl with change := none } }).applyMode ch.target ch.req ch.cause ch.cold
    else s

/-- A module below the top master follows the mode that it has announced, at the C0 cycle number named (R352). -/
def State.announcedStep (s : State) : State :=
  match s.hedge.announced with
  | some (m, n, cold) =>
    if n.toNat ≤ (s.cls 0).cyc.toNat then
      let s : State := { s with hedge := { s.hedge with announced := none } }
      s.applyMode m rqStop 1 cold
    else s
  | none => s

/-- RUN-LOCKED that an unchecked strand has blocked is entered once none is unchecked and POS is still RUN-LOCK (R262). -/
def State.lockStep (s : State) : State :=
  if s.flag SYS_MODE_LOCKBLK then
    if s.fget SYS_KEY_POS ≠ 3 then s.setFlag SYS_MODE_LOCKBLK false
    else if s.unchecked = 0 ∧ s.mode = mRun then (s.setMode mRunLocked 0).setFlag SYS_MODE_LOCKBLK false
    else s
  else s

/-! ## Observation at a t0 (R516 to R520) -/

/-- Filter writes take effect at the next C0 t0 (R516). -/
def State.takeFilters (s : State) : State :=
  { s with obs := { s.obs with filter :=
      { en := s.fget OBS_CFG_EN * 8, mask := (s.rget OBS_MASK).toNat,
        ranges := (List.range 8).map (fun n => ((s.rget (OBS_WRR_BASE n)).toNat, (s.rget (OBS_WRR_LEN n)).toNat)) } } }

/-- The strand of a trace that has ended is compared again from this t0 of its class (R518). -/
def State.traceChecked (s : State) (k : Nat) : State :=
  match s.trace.clear with
  | some st =>
    if (s.cfg st).cls = k then
      let s := (s.setBit OBS_RT_STAT_UNCHECKED st false).raise 0x1202 st
        (leBytes 1 st ++ leBytes 1 s.trace.cause ++ leBytes 4 (s.trace.used / 16))
      { s with trace := { s.trace with clear := none } }
    else s
  | none => s

/-- An accepted trace begins at its t0: capture runs, and the strand is no longer compared (R517). A cycle that still weaves from
an earlier t0 is none of its NCYC. -/
def State.traceStarts (s : State) (k : Nat) : State :=
  match s.trace.start with
  | some accepted =>
    let st := s.fget OBS_RT_CFG_STRAND
    let c := s.cls k
    let want := s.rget64 OBS_RT_CYC_LO OBS_RT_CYC_HI
    if (s.cfg st).cls = k ∧ ((want = 0 ∧ accepted + 100 ≤ s.tbNat) ∨ (want ≠ 0 ∧ c.cyc.toNat = want)) then
      let s := (s.setFlag OBS_RT_STAT_CAPTURING true).setBit OBS_RT_STAT_UNCHECKED st true
      let s := s.raise 0x1201 st (leBytes 1 st ++ leBytes 1 k ++ leBytes 8 c.cyc.toNat)
      { s with trace := { s.trace with start := none, used := 0,
                                       left := s.trace.left + (if c.beam = .none then 0 else 1) } }
    else s
  | none => s

/-! ## Forces (R70 to R74) -/

/-- Apply one force change; one that changes nothing raises no event. -/
def State.forceApply (s : State) (f : ForceChange) : State :=
  if (s.entryOf f.kind f.idx).isNone then s
  else match f.value with
    | none => s.unforce f.kind f.idx
    | some v =>
      if s.forced f.kind f.idx = some v then s
      else (({ s with forces := tput s.forces (forceKey f.kind f.idx) v }).forceShow f.kind f.idx).forceEvent f.kind f.idx false v

/-- The class at whose t0 a force change takes effect. -/
def State.forceClass (s : State) (f : ForceChange) : Nat :=
  match s.entryOf f.kind f.idx with
  | some (_, e) => hClass e
  | none => 0

/-- The force changes that are due take effect at this t0 of class `k` (R72, R74). DEDUCED: assumption 25. -/
def State.forceStep (s : State) (k : Nat) : State :=
  let due := fun (f : ForceChange) => s.forceClass f == k && decide (f.start.toNat ≤ (s.cls 0).cyc.toNat)
  let now := s.forceReq.filter due
  let s := { s with forceReq := s.forceReq.filter (fun f => !due f) }
  each now s (fun s f => s.forceApply f)

/-- The items forced now or by a waiting change; an item whose release waits for its t0 is still forced (R71, R72). -/
def State.forceKeys (s : State) : List Nat :=
  s.forceReq.foldl (fun l f => if f.value.isSome then insertUp (forceKey f.kind f.idx) l else l) (s.forces.map (·.1))

/-- The value of an item as it is forced: one bit of a bit item. -/
def forceValue (x : ForceItem) : Word := if x.kind.val < 3 then x.value &&& 1 else x.value

/-- The status of a force request of a session: PROGRAM only, at most 1,024 items, items that an entry covers.
DEDUCED: assumption 25. -/
def State.forceStatus (s : State) (items : List ForceItem) (release : Bool) : Nat :=
  let keys := items.foldl (fun l x => insertUp (forceKey x.kind.val x.idx.toNat) l) s.forceKeys
  if s.mode ≠ mProgram then scPerm
  else if !release && decide (1024 < keys.length) then scSize
  else if items.any (fun x => (s.entryOf x.kind.val x.idx.toNat).isNone) then scRange
  else scOk

/-- A force change waits for the t0 of each item's class from a C0 cycle number on. -/
def State.forceQueue (s : State) (items : List ForceItem) (release : Bool) (start : BitVec 64) : State :=
  { s with forceReq := s.forceReq ++ items.map (fun x =>
      { kind := x.kind.val, idx := x.idx.toNat, value := if release then none else some (forceValue x), start := start }) }

/-- A force request: of a session, which a primary forwards to its standby, or as the partner forwards it. -/
def State.forceRequest (s : State) (items : List ForceItem) (release : Bool) (forwarded : Option (BitVec 64)) : State :=
  match forwarded with
  | some n => if s.paired ∧ s.role = 2 then s.forceQueue items release n else s
  | none =>
    let st := s.forceStatus items release
    let s := s.answer saForce st
    if st ≠ scOk then s
    else
      let n := (s.cls 0).cyc + 1
      let s := s.forceQueue items release n
      if s.paired ∧ s.role = 1 then s.send (.force items release n) else s

/-- FORCE_SET (R70 to R74). -/
def execForceSet (items : List ForceItem) (forwarded : Option (BitVec 64)) (s : State) : Out :=
  if s.stewardOff then .next s else .next (s.forceRequest items false forwarded)

/-- FORCE_RELEASE (R70, R74). -/
def execForceRelease (items : List ForceItem) (forwarded : Option (BitVec 64)) (s : State) : Out :=
  if s.stewardOff then .next s else .next (s.forceRequest items true forwarded)

/-! ## What a C0 t0 does besides (R262, R336, R502) -/

/-- The steps of a C0 t0 before any class acts. An activation that is due resets the module, and nothing follows. -/
def State.c0Step (s : State) : State :=
  let s := s.takeFilters
  let s := if s.flag PMC_CTRL_AUTOSNAP then s.snapshot else s
  let s := s.handoverStep.lockStep
  if s.activationDue then s.activationReset else (s.changeStep).announcedStep

/-! ## The cycle (R40, R43, R57, R329, R551) -/

/-- The readback conversions that output channels have started at this t0 of the class `k` of their input entries, in µV or nA: what
they deliver is the readback as of t0 (R224). -/
def State.latchReadback (s : State) (k : Nat) (rdbk : List (Fin 16 × Int)) : State :=
  each (List.range 16) s (fun s n =>
    let mine := ucOutput (s.ucMode n) && s.flag (UC_STAT_ONLINE n) &&
      s.validEntries.any (fun e => hInput e.2 && hSrctype e.2 == 1 && hInstance e.2 == n && hClass e.2 == k)
    match rdbk.find? (fun x => x.1.val == n) with
    | some x =>
      if mine then
        (s.fput (UC_RDBK_VALUE n) (intBits 32 x.2)).setLatch k (latchKey 0x10 n) (leBytes 4 (intBits 32 x.2))
      else s
    | none => s.setLatch k (latchKey 0x10 n) [])

/-- The latch of class `k`: digital inputs and counters as of t0, the readback of its output channels, and what the comparison of
results on the signal engines finds (R43, R189, R224). -/
def State.latchClass (s : State) (k : Nat) (rb above9 : BitVec 32) (rdbk : List (Fin 16 × Int))
    (checks : List (Fin 8 × Nat × SeCheck)) : State :=
  let s := (s.modCls k (fun c => { c with latched := true })).fput (CLS_STAT_PHASE_NOW k) 1
  let s := (s.dioLatch k s.tbNat rb above9).latchReadback k rdbk
  each checks s (fun s x => (s.seCompare x.1.val x.2.1 (some x.2.2)).1)

/-- The first executed cycle of class `k` after a takeover (R329). -/
def State.tkoFirst (s : State) (k : Nat) : State :=
  match s.red.tko with
  | some td =>
    if s.red.tkoLeft.contains k then
      let s := if k = 0 then s.fput RED_TKOLAST_FIRST_US (s.tbNat - td) else s
      ({ s with red := { s.red with tkoLeft := s.red.tkoLeft.filter (· != k) } }).takeoverOver
    else s
  | none => s

/-- An executed cycle of class `k` begins: a swap that is due, then the latch. It closes the stepping of TB and, in C0, ends step 8
(R62, R276, R280, R300, R431). -/
def State.cycleExec (s : State) (k : Nat) (rb above9 : BitVec 32) (rdbk : List (Fin 16 × Int))
    (checks : List (Fin 8 × Nat × SeCheck)) : State :=
  let first := (s.cls k).firstPend
  let s := s.modCls k (fun c => { c with firstPend := false, executed := true, beatToDone := false })
  let s := if s.swapDue k then s.editSwap k else s
  let s := s.setFlag CYC_SYNC_STEPOPEN false
  let s := if k = 0 then s.bootEnd else s
  let s := (((s.timersContinue k).noteCycle k).wdgCycle k first).tkoFirst k
  s.latchClass k rb above9 rdbk checks

/-- This t0 of class `k` is skipped (R57). -/
def State.cycleSkip (s : State) (k : Nat) : State :=
  let s := s.modCls k (fun c => { c with skipNext := false, skipped := true })
  (s.setFlag (CLS_EVT_SKIP k) true).fput (CLS_STAT_PHASE_NOW k) 5

/-- A t0 of class `k` after a takeover, but before its first executed cycle (R329). -/
def State.tkoWaits (s : State) (k : Nat) : Bool :=
  match s.red.tko with
  | some td => s.red.tkoLeft.contains k && decide (s.tbNat < td + 200)
  | none => false

/-- In TRACK an affected class swaps at its t0; in STOP every affected class swaps at the C0 t0 and completes with it (R300). -/
def State.idleSwap (s : State) (k : Nat) : State :=
  if s.mode = mTrack then (if s.swapDue k then s.editSwap k else s)
  else if s.mode = mStop ∧ k = 0 then
    each ((List.range 4).filter s.swapDue) s (fun s j => (s.editSwap j).editFirst j)
  else s

/-- What the t0 of class `k` does by the mode: an executed cycle, a skipped one, one that executes nothing, or the latch alone. -/
def State.cycleBody (s : State) (k : Nat) (rb above9 : BitVec 32) (rdbk : List (Fin 16 × Int))
    (checks : List (Fin 8 × Nat × SeCheck)) : State :=
  let c := s.cls k
  if s.ctl.pfail then s
  else if modeExecutes s.mode && !(s.mode == mHandover && s.role == 2) then
    if s.tkoWaits k then s
    else if c.firstPend then (if c.beam = .none then s.cycleExec k rb above9 rdbk checks else s)
    else if c.skipNext || c.beam != .none then s.cycleSkip k
    else s.cycleExec k rb above9 rdbk checks
  else if modeSheds s.mode then
    let s := s.idleSwap k
    if c.beam = .none then s.latchClass k rb above9 rdbk checks else s
  else s

/-- CYCLE_START: a t0 of class `k` (R36 to R43). `rb` and `above9` are the read-back of the digital outputs and whether their
terminals are above 9 V, `found` the readback conversions of output channels and the comparisons of results computed for the
latch. DEDUCED: assumption 38. -/
def execCycleStart (k : Fin 4) (rb above9 : BitVec 32) (found : LatchFacts) (s : State) : Out :=
  if s.t0Comes k then
    let s := (s.newCycle k).showReady
    let s := if k.val = 0 then s.c0Step else s
    if (s.cls k).started then
      .next ((((((s.traceChecked k).traceStarts k).forceStep k).editRevert k)).cycleBody k rb above9 found.rdbk found.checks)
    else .next s
  else .next s

/-! ## Image fabric (R28) -/

/-- The strand that is admitted next: the first waiting one that has not been served in this round.
DESIGN CHOICE: assumption 41. -/
def State.fabricNext (s : State) : Option Nat :=
  match (List.range 16).find? (fun st => s.fabWait.contains st && !s.fabServed.contains st) with
  | some st => some st
  | none => (List.range 16).find? (fun st => s.fabWait.contains st)

/-- FABRIC_ADMISSION: a freed slot goes to the next waiting agent, which holds it and executes its instruction again at the next
clock. DEDUCED: assumption 40. DESIGN CHOICE: assumption 41. -/
def execFabricAdmission (s : State) : Out :=
  if s.ctl.held || s.fabricFull then .next s
  else match s.fabricNext with
    | none => .next s
    | some st =>
      let served := if s.fabServed.contains st then [st] else s.fabServed ++ [st]
      let s := { s with fabWait := s.fabWait.filter (· != st), fabServed := served, inflight := s.inflight + 1 }.countG 0x43 1
      .next (s.modStrand st (fun x => { x with stall := x.stall.map (fun w => { w with released := true }) }))

end Sys2Proof.Machine
end

