-- ==== Sys2Proof/Machine/DxSystem.lean ====
section
/-!
DEFINITION. The system group of the instruction set and the words that are no instruction (R96 to R101, R116, R119, R137,
R141, R143, R161, R169).
-/
namespace Sys2Proof.Machine

/-- ILLEGAL_INSTRUCTION: the word at the PC is no instruction (R161, R169). A word that is one raises no such trap. -/
def execIllegalInstruction (st : Fin 16) (word : Word) (s : State) : Out :=
  if (dxDecode st word).isSome then .next s
  else dx s st (.illegalInstruction st word) .other (fun t => .trap t trIllegal)

/-- NOP (R137). -/
def execNop (st : Fin 16) (s : State) : Out := dx s st (.nop st) .other (fun t => .ok t none)

/-- A BEAT of a strand that is no producer, or that has executed it in this cycle: no effect on the beat (R97). The event carries
the class's current cycle number, as a trap does: DESIGN CHOICE, assumption 57. -/
def State.strayBeat (s : State) (st k b : Nat) : State :=
  (s.setBit BEAT_EVT_STRAY k true).raise 0x0403 (k * 1024 + st * 64 + b)
    (leBytes 8 (s.cls k).cyc.toNat ++ leBytes 1 k ++ leBytes 1 st ++ leBytes 1 b ++
      leBytes 1 (if bitAt (s.fget (BEAT_PROD_PROD k b)) st then 1 else 0))

/-- BEAT: the strand's beat view is taken, and the last outstanding producer signals the beat (R96, R97). Every earlier
store has reached the staging view, since stores complete in their step. -/
def execBeat (st : Fin 16) (b : BitVec 6) (s : State) : Out :=
  dx s st (.beat st b) .other (fun t =>
    let k := (t.cfg st).cls
    if bitAt (t.fget (BEAT_PROD_PROD k b.toNat)) st && !(t.beatDoneMask k b.toNat).getLsbD st then
      .ok (t.produceBeat k st b.toNat (t.strand st).stg false) none
    else .ok (t.strayBeat st k b.toNat) none)

/-- ENDC: pending beats are force-signalled, the cycle of the strand ends, and a reservation it still holds is lost; with
the last strand of the class the beam becomes ready (R48, R50, R100, R137, R154). -/
def State.endCycle (s : State) (st : Nat) (pc : Word) : State :=
  let s := s.forceBeats st 2
  let s := s.modStrand st (fun x =>
    { x with run := .ended, why := 0, resv := match x.resv with
                                              | .valid _ _ => .lost
                                              | r => r })
  (s.btEnd st pc).checkLastEndc (s.cfg st).cls

/-- ENDC (R137). With the last strand a dry pass or a proof cycle of the class ends (R291, R294). -/
def execEndc (st : Fin 16) (s : State) : Out :=
  match dx s st (.endc st) .other (fun t => .ok (t.endCycle st (t.strand st).pc) none) with
  | .next t => .next (t.proofCheck (s.cfg st).cls)
  | o => o

/-- FENCE: every earlier access has completed, since each completes in its step or stalls the strand (R137, R138). -/
def execFence (st : Fin 16) (s : State) : Out := dx s st (.fence st) .other (fun t => .ok t none)

/-- The trap of a register access at an effective address, by the mask that governs it: the lowest code of those that
apply (R26, R141, R162). -/
def sysTrap (perm : BitVec 19) (a : Word) : Option Nat :=
  if a.toNat % 4 ≠ 0 then some trAlign
  else if a.toNat < 0x40000000 ∨ 0x40130000 ≤ a.toNat then some trAddr
  else if perm.getLsbD (a.toNat / 0x10000 - 0x4000) then none
  else some trSysPerm

/-- RDSYS: Wd := the register at Wb + imm (R26, R141, R143). -/
def execRdsys (st d b : Fin 16) (imm : BitVec 17) (s : State) : Out :=
  dx s st (.rdsys st d b imm) .other (fun t =>
    let x := t.strand st
    let a := x.w[b] + imm.signExtend 32
    match sysTrap (t.cfg st).permRd a with
    | some c => .trap t c
    | none =>
      let r := t.regRead st a.toNat 0
      .ok (r.1.modStrand st (fun y => y.setW d r.2)) (some r.2))

/-- WRSYS: the register at Wb + imm takes Ws; in trial code it has no effect (R26, R141, R143, R290, R294). -/
def execWrsys (st a b : Fin 16) (imm : BitVec 17) (s : State) : Out :=
  dx s st (.wrsys st a b imm) .other (fun t =>
    let x := t.strand st
    let at_ := x.w[b] + imm.signExtend 32
    match sysTrap (t.cfg st).permWr at_ with
    | some c => .trap t c
    | none =>
      if t.onTrial (t.cfg st).cls then .ok t none
      else .ok (t.regWrite st at_.toNat x.w[a] 0) none)

/-- RDCTX: strand, member and class indices (R137). -/
def execRdctx (st d : Fin 16) (s : State) : Out :=
  dx s st (.rdctx st d) .other (fun t =>
    let v : Word := BitVec.ofNat 32 (st.val + 2 ^ 8 * t.member + 2 ^ 16 * (t.cfg st).cls)
    .ok (t.modStrand st (fun x => x.setW d v)) (some v))

/-- TRAP n: software trap n; a code below 0x30 is ILLEGAL (R161). -/
def execTrap (st : Fin 16) (n : BitVec 6) (s : State) : Out :=
  dx s st (.trap st n) .other (fun t => .trap t (if n.toNat < 0x30 then trIllegal else n.toNat))

/-- RDFL: Wd := FL (R116). -/
def execRdfl (st d : Fin 16) (s : State) : Out :=
  dxReg s st (.rdfl st d) .other (fun x => regWrite x d (x.fl.setWidth 32))

/-- WRFL: Z, N, C, V and Q from Ws; B goes on mirroring BA (R116). -/
def execWrfl (st a : Fin 16) (s : State) : Out :=
  dxReg s st (.wrfl st a) .other (fun x =>
    let v := x.w[a]
    .ok { x with z := v.getLsbD 0, n := v.getLsbD 1, c := v.getLsbD 2, v := v.getLsbD 3, q := v.getLsbD 4 } none)

/-- CLRQ: the sticky flag is cleared (R116). -/
def execClrq (st : Fin 16) (s : State) : Out :=
  dxReg s st (.clrq st) .other (fun x => .ok { x with q := false } none)

/-- RDFXM: Wd := FXM (R119). -/
def execRdfxm (st d : Fin 16) (s : State) : Out :=
  dxReg s st (.rdfxm st d) .other (fun x => regWrite x d (x.fxm.setWidth 32))

/-- WRFXM: FXM := Ws; RND = 3 is ILLEGAL (R119). -/
def execWrfxm (st a : Fin 16) (s : State) : Out :=
  dxReg s st (.wrfxm st a) .other (fun x =>
    let v := x.w[a].setWidth 4
    if v.toNat % 4 = 3 then .trap trIllegal else .ok { x with fxm := v } none)

end Sys2Proof.Machine
end

