-- ==== Sys2Proof/Machine/Timebase.lean ====
section
/-!
DEFINITION. The reference of the time base: steps, slews and the synchronised state, IEEE 802.1AS messages, and the time messages of
a hedge or a pair (R62 to R64, R353, R370, R479).
-/
namespace Sys2Proof.Machine

/-! ## Following a reference (R62 to R64) -/

/-- A signed number limited to 32 bits. -/
def clamp32 (x : Int) : Int := max (-2147483648) (min 2147483647 x)

/-- The rate of a slew, in units of 10 ppb: a free value within ±100 ppm, which goes toward the reference while the offset is above
1 µs (R63, assumption 4). -/
def State.slewRate (s : State) (off : Int) : Int :=
  let x := max (-10000) (min 10000 (Config.freeInt s.free))
  if 1000 < off then -(x.natAbs : Int) else if off < -1000 then (x.natAbs : Int) else x

/-- TB is stepped forward to a reference in ns while stepping is open. It is never stepped back, since TB never decreases (R62).
DEDUCED: assumption 34. -/
def State.stepTb (s : State) (refNs : Nat) : State :=
  let us := refNs / 1000
  let step := us - s.tbNat
  let s := { s with tb := BitVec.ofNat 64 us, tbPhase := refNs % 1000 * 50000000 }
  (s.setFlag CYC_EVT_TB_STEPPED true).raise 0x0205 0 (leBytes 8 step)

/-- Synchronisation is gained within 1 µs and lost beyond 2 µs of the reference (R64). -/
def State.judgeSync (s : State) (off : Int) : State :=
  let pay := leBytes 4 (intBits 32 (clamp32 off)) ++ leBytes 1 (s.fget CYC_SYNC_SOURCE)
  if s.flag CYC_SYNC_SYNC = false ∧ off.natAbs ≤ 1000 then
    ((s.setFlag CYC_SYNC_SYNC true).setFlag CYC_EVT_SYNC_GAINED true).raise 0x0204 0 pay
  else if s.flag CYC_SYNC_SYNC ∧ 2000 < off.natAbs then
    ((s.setFlag CYC_SYNC_SYNC false).setFlag CYC_EVT_SYNC_LOST true).raise 0x0203 0 pay
  else s

/-- TB follows a reference value in ns: by a step while stepping is open and TB lies more than 1 µs behind, else by a slew.
DEDUCED: assumption 34. -/
def State.followRef (s : State) (source refNs : Nat) : State :=
  let s := s.fput CYC_SYNC_SOURCE source
  let behind := s.flag CYC_SYNC_STEPOPEN && decide (s.tbNs + 1000 < refNs ∧ s.tbNat < refNs / 1000 ∧ refNs / 1000 < 2 ^ 64)
  let s := if behind then s.stepTb refNs else s
  let off : Int := (s.tbNs : Int) - refNs
  let rate := s.slewRate off
  let s := (s.draw.fput CYC_SYNC_SLEW (intBits 16 rate)).setFlag CYC_SYNC_SLEWING (rate != 0)
  (s.fput CYC_OFFSET_OFFSET_NS (intBits 32 (clamp32 off))).judgeSync off

/-! ## IEEE 802.1AS (R64, R370, R479) -/

/-- This module takes its reference from IEEE 802.1AS: a single module, the top master of a hedge, the primary of a
pair, or a standby while both links of the pair are down (R64, R322). DEDUCED: assumption 34. -/
def State.usesGptp (s : State) : Bool :=
  !s.hedgeBelow && (s.role != 2 || !(s.flag RED_STAT_ML4_UP || s.flag RED_STAT_ML5_UP))

/-- The UTC offset of the grandmaster changes by n seconds: TAIOFS takes the new value, and the RTC is set by −n × 32,768 ticks. -/
def State.utcOffset (s : State) (seconds : Int) : State :=
  let n := seconds - s.taiofs
  if s.flag RTC_CFG_OFSSRC ∧ n ≠ 0 then
    (s.fput RTC_TAIOFS_TAIOFS (intBits 16 seconds)).rtcGo (some (-n * 32768))
  else s

/-- GPTP_MESSAGE: an announce on a port, a sync or the UTC offset of the grandmaster on the port that is slave to it. -/
def execGptpMessage (p : Fin 4) (m : GptpMsg) (s : State) : Out :=
  if s.ctl.held || s.mode == mPowerUp || s.mode == mDormant || !s.linkUp p || !s.flag (ETH_PCFG_AS p) then .next s
  else match m with
    | .announce gm => .next (s.announce p gm)
    | .sync refNs =>
      if s.fget (ETH_PSTAT_AS_ROLE p) == 2 && s.usesGptp then .next (s.followRef 1 refNs) else .next s
    | .utcOffset n => if s.fget (ETH_PSTAT_AS_ROLE p) == 2 then .next (s.utcOffset n) else .next s

/-! ## Time messages (R64, R353) -/

/-- TIME_MESSAGE: the top master of a hedge, or the primary of a pair, sends its TB every 125 µs. -/
def execTimeMessage (s : State) : Out :=
  let sends := (s.flag MEL_CFG_HEDGE && s.member == 0 && s.role != 2) || (s.paired && s.role == 1)
  if !s.ctl.held && s.mode != mDormant && sends && decide (s.hedge.timeAt + 62500 ≤ s.fab) then
    .next (({ s with hedge := { s.hedge with timeAt := s.fab } }).send (.timeMessage s.tbNs))
  else .next s

/-- The delay of a link in ns: half of the round trip that four stamps of 8 ns give (R353). -/
def linkDelay (m : TimeMsg) : Nat := 4 * ((m.t4 - m.t1) - (m.t3 - m.t2))

/-- TIME_MESSAGE_RECEIVED: a member below the top master, or the standby of a pair, follows the TB of the message, with the delay
of the link removed, and passes it on to the members below it. -/
def execTimeMessageReceived (m : TimeMsg) (s : State) : Out :=
  if s.ctl.held || s.mode == mPowerUp || s.mode == mDormant || !(s.hedgeBelow || s.role == 2) then .next s
  else
    let ref := m.topNs + linkDelay m
    let s := { s with hedge := { s.hedge with delay := tset 0 s.hedge.delay m.port (linkDelay m), timePort := m.port } }
    let s := s.followRef 2 ref
    let off := sgn 32 (s.fget CYC_OFFSET_OFFSET_NS)
    if s.flag MEL_CFG_HEDGE then
      let s := (s.fput MEL_TOFS_OFS_NS (intBits 32 off)).setFlag MEL_STAT_SYNC (s.flag CYC_SYNC_SYNC)
      let since := if 2000 < off.natAbs then some (s.hedge.offAt.getD s.fab) else none
      .next (({ s with hedge := { s.hedge with offAt := since } }).send (.timeMessage ref))
    else .next s

end Sys2Proof.Machine
end

