-- ==== Sys2Proof/Machine/Redundancy.lean ====
section
/-!
DEFINITION. The commands of a redundant pair: heartbeats, the baton, mirror sets, alignment, planned handovers and takeback (R311 to
R340).
-/
namespace Sys2Proof.Machine

/-- CK_FAB clocks of `n` µs. -/
abbrev micros (n : Nat) : Nat := n * 500

def State.pairLinks (s : State) : Bool := s.linkML4 || s.linkML5

/-- The steward exchanges messages with its partner: the die runs and has left LOAD. -/
def State.pairLive (s : State) : Bool := s.live && s.paired

/-! ## The baton (R311, R314, R315, R327) -/

/-- BATON_IN and the role that the partner reports over the links agree, or disagree, since when (R315). -/
def State.noteAgree (s : State) : State :=
  match s.red.beacon with
  | none => s
  | some b =>
    let a := s.flag RED_STAT_BATON_IN == (b.role.val == 1)
    if a = s.red.agrees then s else { s with red := { s.red with agrees := a, agreeAt := s.fab } }

/-- BATON_IN takes a level. -/
def State.batonIn (s : State) (b : Bool) : State :=
  if s.flag RED_STAT_BATON_IN = b then s
  else
    let s : State := { s with red := { s.red with batonAt := s.fab } }
    (s.setFlag RED_STAT_BATON_IN b).noteAgree

/-- The standby of the pair, or the outgoing unit of a handover. -/
def State.standsBy (s : State) : Bool := s.role == 2 && (s.mode == mTrack || s.mode == mHandover)

/-- BATON_IN_FALL: a standby detects the failure of the primary, unless BATONFLT is set (R327). -/
def execBatonInFall (s : State) : Out :=
  if s.ctl.held || !s.flag RED_STAT_BATON_IN then .next s
  else
    let s := s.batonIn false
    .next (if s.standsBy && !s.flag RED_STAT_BATONFLT then s.primaryFailed 0 else s)

/-- A unit that waits for its role takes up TRACK, or ends its start where the pair was refused (R311). -/
def State.roleFound (s : State) : State :=
  if s.red.waitRole.isSome then
    let s : State := { s with red := { s.red with waitRole := none } }
    if s.redState = stRefused then (s.setMode mStop 3).bootEnd
    else s.acceptChange mTrack (0x10 + s.fget SYS_KEY_POS) 3 false
  else s

/-- BATON_IN_RISE: a unit that waits for its role enters TRACK; a primary starts to time its yield (R311, R314). -/
def execBatonInRise (s : State) : Out :=
  if s.ctl.held || s.flag RED_STAT_BATON_IN then .next s else .next (s.batonIn true).roleFound

/-- ROLE_WAIT_EXPIRY: 3 s without a rise of BATON_IN; the unit takes the primary role in the mode that POS selects (R311). -/
def execRoleWaitExpiry (s : State) : Out :=
  match s.red.waitRole with
  | some t =>
    if s.ctl.held || decide (s.fab < t + secs 3) then .next s
    else
      let pos := s.fget SYS_KEY_POS
      .next (({ s with red := { s.red with waitRole := none } }).acceptChange (keyMode pos) (0x10 + pos) 3 false)
  | none => .next s

/-- DUAL_PRIMARY_YIELD: BATON_IN of a primary outside a planned handover has been high for 100 µs, or for 200 µs on the preferred
unit; it enters TRACK as NOT_READY (R314). DEDUCED: assumption 50. -/
def execDualPrimaryYield (s : State) : Out :=
  let since := max s.red.batonAt s.red.roleAt
  let span := micros (if s.preferred then 200 else 100)
  if s.live && s.role == 1 && s.mode != mHandover && s.flag RED_STAT_BATON_IN && decide (since + span ≤ s.fab) then
    let s := (((s.stopAll).cancelJobs).canStop).enterTrack 4 false
    .next ((s.setFlag RED_EVT_DUALPRI true).raise 0x0B08 0 (leBytes 1 1))
  else .next s

/-- BATONFLT is set or cleared, with event 0x0B0A. -/
def State.setBatonFault (s : State) (b : Bool) : State :=
  ((s.setFlag RED_STAT_BATONFLT b).raise 0x0B0A 0
    (leBytes 1 (if b then 1 else 0) ++ leBytes 1 (s.fget RED_STAT_BATON_IN))).dwellAnew

/-- BATON_FAULT: BATON_IN and the partner's role have disagreed for 10 ms (R315). -/
def execBatonFault (s : State) : Out :=
  if s.pairLive && !s.red.agrees && !s.flag RED_STAT_BATONFLT && decide (s.red.agreeAt + micros 10000 ≤ s.fab) then
    .next (s.setBatonFault true)
  else .next s

/-- BATON_FAULT_CLEAR: 10 s of agreement (R315). -/
def execBatonFaultClear (s : State) : Out :=
  if s.live && s.red.agrees && s.flag RED_STAT_BATONFLT && decide (s.red.agreeAt + secs 10 ≤ s.fab) then
    .next (s.setBatonFault false)
  else .next s

/-! ## Heartbeats (R326, R327, R339, R381) -/

/-- HEARTBEAT: every 50 µs on ML4 and ML5, from a primary alone as well. DEDUCED: assumption 50. -/
def execHeartbeat (s : State) : Out :=
  if s.live && (s.paired || s.role == 1) && s.pairLinks && decide (s.red.sentAt + micros 50 ≤ s.fab) then
    .next (({ s with red := { s.red with sentAt := s.fab } }).send (.heartbeat s.ownBeacon))
  else .next s

/-- The data of a witness heartbeat: UID, ROLE and STATE (R381). -/
def State.witnessData (s : State) : List Byte :=
  leBytes 8 Config.uid.toNat ++ leBytes 1 s.role ++ leBytes 1 s.redState ++ leBytes 6 0

/-- The witness heartbeat that port `p` sends next: the one that other ports have begun, or a new one (R381).
DEDUCED: assumption 50. -/
def State.witnessNext (s : State) (p : Nat) : State :=
  if tget 0 s.red.sentWitness p < s.red.witnessFrom ∧ s.fab < s.red.witnessFrom + micros 50 then s
  else { s with red := { s.red with witnessSeq := s.red.witnessSeq + 1, witnessFrom := s.fab } }

/-- WITNESS_HEARTBEAT: every 50 µs on each port that RED_WITNESS names, replicated under IEEE 802.1CB (R326, R381). -/
def execWitnessHeartbeat (p : Fin 4) (s : State) : Out :=
  if s.live && s.flag RED_CFG_PAIRED && bitAt (s.fget RED_WITNESS_PORTS) p && s.linkUp p &&
      decide (tget 0 s.red.sentWitness p + micros 50 ≤ s.fab) then
    let s := s.witnessNext p
    let s := { s with red := { s.red with sentWitness := tset 0 s.red.sentWitness p s.fab } }.countG 0x48 1
    .next (s.send (.witness p s.witnessData s.red.witnessSeq))
  else .next s

/-- A DEGRADED primary starts a planned handover when the standby is READY with a lower weight (R339). -/
def State.degradeHandover (s : State) : State :=
  let lower := match s.red.beacon with
    | some b => decide (b.weight < s.weight)
    | none => false
  if s.flag RED_CFG_DEGRADE_HO && !s.hedgeBelow && s.standbyReady && lower && s.red.handover.isNone && modeExecutes s.mode && s.mode != mHandover then
    s.proposeHandover 3
  else s

/-- A primary whose standby asks for an alignment starts one, and sends segments again that have not been acknowledged 2 ms later:
the spec gives no time for that (R325). DESIGN CHOICE: assumption 50. -/
def State.answerAlign (s : State) (b : Beacon) : State :=
  if s.role = 1 ∧ b.role.val = 2 then
    if b.align then
      if s.red.aligning = false then s.startAlign
      else if s.red.alignSegs.isEmpty ∨ s.fab < s.red.alignAt + micros 2000 then s
      else s.sendSegments s.red.alignSegs
    else { s with red := { s.red with aligning := false, alignSegs := [] } }
  else s

/-- A parked spare that a periodic wake has started rests again once it is READY beside a sound primary (R485). -/
def State.parkRest (s : State) : State :=
  if s.flag RTC_CFG_PARK && s.flag SYS_RSTCAUSE_WAKE && s.mode == mTrack && s.redState == stReady &&
      s.fget SYS_KEY_POS == 1 && !s.partnerDegraded && s.ctl.change.isNone then s.acceptChange mDormant 0x11 4 false
  else s

/-- HEARTBEAT_RECEIVED on ML4 or ML5 (R315, R325, R327, R339). -/
def execHeartbeatReceived (ml5 : Bool) (b : Beacon) (s : State) : Out :=
  if s.pairLive && (if ml5 then s.linkML5 else s.linkML4) then
    let s : State := { s with red := { s.red with beatAt := s.fab, beacon := some b } }
    .next (((s.noteAgree.setSplit false).answerAlign b).degradeHandover.parkRest)
  else .next s

/-- HEARTBEAT_TIMEOUT: no heartbeat on either link and no witness heartbeat for 150 µs. A standby detects the failure of the
primary; a primary runs alone (R327). -/
def execHeartbeatTimeout (s : State) : Out :=
  if !s.pairLive || s.witnessOk || decide (s.fab < s.red.beatAt + micros 150) then .next s
  else if s.standsBy then .next (s.primaryFailed 1)
  else .next ((s.setSplit false).unpair)

/-! ## Mirror sets (R320 to R322) -/

def State.mirrorTx (s : State) (k : Nat) : Option MirrorTx := tget none s.red.tx k

def State.setMirrorTx (s : State) (k : Nat) (t : MirrorTx) : State :=
  { s with red := { s.red with tx := tset none s.red.tx k (some t) } }

/-- MIRROR_COPY_COMPLETE: the set lies in the mirror buffer; a weave or beam that has waited may start (R320). -/
def execMirrorCopyComplete (k : Fin 4) (s : State) : Out :=
  match s.mirrorTx k with
  | some t => if t.copied || decide (s.fab < t.copyEnd) then .next s else .next (s.setMirrorTx k { t with copied := true })
  | none => .next s

/-- Why a set has not been sent within W: a region beyond its nominal length, retentive changes beyond RETNOM, or the window
alone. -/
def State.incompleteCause (s : State) (m : MirrorSet) : Nat :=
  let grown := (s.mirrorRegions m.cls false).any (fun r =>
    m.regions.any (fun x => x.1 == r.strand && x.2.1 == r.base && decide (r.nom < x.2.2.length)))
  if grown then 1 else if s.fget RED_RETNOM_RETNOM < m.retentive.length then 2 else 0

/-- The ordinary part of a set with a proof extension has been sent whole (R293). -/
def State.ordinarySent (s : State) (t : MirrorTx) : Bool :=
  t.set.ext.isSome && t.copied && decide (t.sendAt + s.sendClocks (32 * setGranules { t.set with ext := none }) ≤ s.fab)

/-- MIRROR_WINDOW_EXPIRY: the commit instant plus W has passed, and the set is closed incomplete; its retentive granules stay
dirty (R321). Of a set that misses only its proof extension, the extension is dropped (R293). -/
def execMirrorWindowExpiry (k : Fin 4) (s : State) : Out :=
  match s.mirrorTx k with
  | some t =>
    if t.ended || !s.windowOver t then .next s
    else if s.ordinarySent t then
      let bare := { t.set with ext := none }
      .next ((s.setMirrorTx k { t with ended := true }).send (.mirrorSet bare (trailerOf bare)))
    else
      let s := (s.setMirrorTx k { t with ended := true }).send
        (.mirrorSet t.set (trailerCut t.set (if t.copied then s.sentIn (s.fab - t.sendAt) else 0)))
      let s := (s.satBump RED_INCCNT_INCOMPLETE 1).setFlag RED_EVT_INCOMPLETE true
      .next (s.raise 0x0B05 k (leBytes 8 t.set.cycle.toNat ++ leBytes 1 k ++ leBytes 1 (s.incompleteCause t.set)))
  | none => .next s

/-- MIRROR_SET_RECEIVED: a standby holds a complete set and acknowledges it; it discards an incomplete one whole (R321, R322). The
outgoing unit of a handover keeps it beside its own last cycle until the handover ends (R335). -/
def execMirrorSetReceived (m : MirrorSet) (t : SetTrailer) (s : State) : Out :=
  if s.pairLive && s.standsBy then
    if setComplete m t = false then .next s.dwellAnew
    else if s.redState = stHandoverOut then
      .next ({ s with red := { s.red with aside := tset none s.red.aside m.cls (some m) } }.send (.setAck m.cls m.cycle none))
    else .next (s.holdSet m false).parkRest
  else .next s

/-- SET_ACKNOWLEDGED: the retentive granules of the set are no longer owed, and the report of a proof run is taken over (R296,
R316, R322). -/
def execSetAcknowledged (k : Fin 4) (cycle : BitVec 64) (report : Option EditReport) (s : State) : Out :=
  if s.pairLive && s.role == 1 then
    let s : State := match s.mirrorTx k with
      | some t =>
        if t.set.cycle = cycle then
          let left := (tget [] s.red.unacked k).filter (fun g => !t.set.retentive.any (fun r => r.1 == g))
          { s with red := { s.red with unacked := tset [] s.red.unacked k left,
                                       finalAcked := s.red.finalAcked || (k.val == 0 && t.set.final) } }
        else s
      | none => s
    let s := { s with red := { s.red with alignSegs := s.red.alignSegs.filter (fun x => x != (k.val, cycle)) } }
    .next (s.takeReport report)
  else .next s

/-! ## Alignment (R325) -/

/-- RESYNC: a primary aligns its standby; a standby asks for an alignment. -/
def State.resync (s : State) : State :=
  if s.pairLive then
    if s.role = 1 then s.startAlign
    else if s.role = 2 ∧ s.mode = mTrack then
      ({ s with red := { s.red with aligning := true, alignSegs := s.allSegments, alignSets := s.classesOn } }).showReady
    else s
  else s

/-- RESYNC through RED_CMD (R325). -/
def execResync (s : State) : Out := .next s.resync

/-- ALIGNMENT_SEGMENT on ML4 or ML5: the standby takes a complete segment and acknowledges it. The alignment is over once every segment has come
and one ordinary set of each class has followed. -/
def execAlignmentSegment (m : MirrorSet) (t : SetTrailer) (ml5 : Bool) (s : State) : Out :=
  if s.pairLive && (if ml5 then s.linkML5 else s.linkML4) && s.role == 2 && s.mode == mTrack then
    if setComplete m t then
      let s : State := if s.red.aligning then s
        else { s with red := { s.red with aligning := true, alignSegs := s.allSegments, alignSets := s.classesOn } }
      let s := ((s.takeRetentive m).takeRegions m).send (.setAck m.cls m.cycle none)
      .next (({ s with red := { s.red with alignSegs := s.red.alignSegs.filter (fun x => x.1 != m.cls.val) } }).showReady)
    else .next s.dwellAnew
  else .next s

/-! ## Planned handovers (R333 to R338) -/

/-- The status of a HANDOVER command (R333). In a hedge the top master alone starts a handover (R341). A unit that has one in
progress answers BUSY. -/
def State.handoverStatus (s : State) : Nat :=
  if s.mode = mRunLocked then scPerm
  else if s.hedgeBelow = true then scState
  else if (s.mode ≠ mProgram ∧ s.mode ≠ mRun) ∨ s.standbyReady = false then scState
  else if s.red.handover.isSome then scBusy
  else scOk

/-- The HANDOVER command is judged and answered. -/
def State.handoverCommand (s : State) : State :=
  let st := s.handoverStatus
  let s := s.answer saRed st
  if st = scOk then s.proposeHandover 0 else s

/-- HANDOVER through RED_CMD (R333). -/
def execHandover (s : State) : Out := if s.stewardOff then .next s else .next s.handoverCommand

/-- This instant lies before t0(H − 1). -/
def State.beforeLapse (s : State) (h : BitVec 64) : Bool := decide ((s.cls 0).cyc.toNat + 1 < h.toNat)

/-- The unit arms a handover. -/
def State.armHandover (s : State) (h : BitVec 64) (trigger : Nat) (incoming : Bool) : State :=
  { s with red := { s.red with handover := some { h := h, trigger := trigger, armed := true, incoming := incoming }, finalAcked := false } }

/-- A module below the top master takes up the handover that its hedge begins: it proposes the same H to its own partner (R333,
R341). DEDUCED: assumption 51. -/
def State.joinHandover (s : State) (h : BitVec 64) (trigger : Nat) : State :=
  if s.red.handover.isSome then s
  else if s.role = 1 ∧ modeExecutes s.mode ∧ s.mode ≠ mHandover then
    ({ s with red := { s.red with stopAfter := s.red.stopAfter || trigger == 1 } }).proposeAt h trigger
  else if s.role = 2 ∧ s.mode = mTrack ∧ s.redState = stReady then s.proposeAt h trigger
  else s

/-- HANDOVER_PROPOSAL from the partner, or from the own top master to a module below it: a READY standby acknowledges the proposal
of its primary; a primary acknowledges a takeback outside a rolling update (R334, R337, R340). -/
def execHandoverProposal (h : BitVec 64) (trigger : Fin 4) (s : State) : Out :=
  if !s.pairLive || !s.beforeLapse h then .next s
  else if s.hedgeBelow ∧ (s.role = 1 ↔ trigger.val ≠ 2) then .next (s.joinHandover h trigger)
  else if s.role = 2 ∧ s.mode = mTrack ∧ s.redState = stReady then
    .next ((s.armHandover h trigger true).send (.handoverAck h))
  else if s.role = 1 ∧ trigger.val = 2 ∧ modeExecutes s.mode ∧ s.mode ≠ mHandover ∧ s.red.rolling = false ∧
      s.red.handover.isNone then
    .next ((s.armHandover h trigger false).send (.handoverAck h))
  else .next s

/-- HANDOVER_ACK: the unit that has proposed arms the handover (R334). -/
def execHandoverAck (h : BitVec 64) (s : State) : Out :=
  match s.red.handover with
  | some x =>
    if s.pairLive && x.h == h && !x.armed && s.beforeLapse h then .next (s.armHandover h x.trigger x.incoming) else .next s
  | none => .next s

/-- What has waited for a handover that lapses proposes one again while the standby is READY, or goes on without (R333, R334,
R502). -/
def State.proposeAgain (s : State) : State :=
  if s.red.stopAfter then
    if s.standbyReady && !s.hedgeBelow then s.proposeHandover 1 else s.stopAlone
  else match s.upd.act with
    | some a =>
      if !a.handover then s
      else if s.standbyReady then s.proposeHandover 0
      else ({ s with upd := { s.upd with act := some { a with handover := false } } }).activationCopy
    | none => s

/-- HANDOVER_LAPSE: t0(H − 1) without the acknowledgement (R334). -/
def execHandoverLapse (s : State) : Out :=
  match s.red.handover with
  | some x =>
    if s.live && !x.armed && !s.beforeLapse x.h then .next (({ s with red := { s.red with handover := none } }).proposeAgain)
    else .next s
  | none => .next s

/-- The conditions of a takeback (R337, R340). -/
def State.takebackHolds (s : State) : Bool :=
  s.pairLive && s.flag RED_CFG_AUTOTB && !s.hedgeBelow && s.preferred && s.mode == mTrack && s.redState == stReady &&
    (match s.red.dwell with
     | some t => decide (t + secs (s.fget RED_DWELL_DWELL_S) ≤ s.fab)
     | none => false) &&
    !s.flag RED_STAT_SPLIT && !s.flag RED_STAT_BATONFLT && s.weight == 0 && !s.red.rolling && s.red.handover.isNone

/-- Seconds until the oldest of the three takebacks leaves the hour. -/
def State.takebackWait (s : State) : Nat :=
  match s.red.takebacks[2]? with
  | some t => (t + secs 3600 - s.fab + secs 1 - 1) / secs 1
  | none => 0

/-- TAKEBACK: the preferred unit proposes a handover to itself; a fourth within 60 minutes is suppressed and counted (R337,
R338). -/
def execTakeback (s : State) : Out :=
  if !s.takebackHolds || s.red.deferred then .next s
  else if s.takebacksHour < 3 then .next (s.proposeHandover 2)
  else
    let s := (s.satBump RED_TKOCNT_SUPPRESSED 1).raise 0x0B07 0 (leBytes 4 s.takebackWait)
    .next { s with red := { s.red with deferred := true } }

/-- TAKEBACK_DEFERRED: the oldest takeback has left the hour (R338). -/
def execTakebackDeferred (s : State) : Out :=
  if !s.red.deferred || decide (3 ≤ s.takebacksHour) then .next s
  else
    let s : State := { s with red := { s.red with deferred := false } }
    .next (if s.takebackHolds then s.proposeHandover 2 else s)

end Sys2Proof.Machine
end

