-- ==== Sys2Proof/Machine/Hedge.lean ====
section
/-!
DEFINITION. The commands of a hedge and of the Melber links: links, formation, announcements, beat messages, accesses of other
modules, failure of a member, and the takeover of a hedge (R341, R349 to R352, R356, R362 to R366).
-/
namespace Sys2Proof.Machine

/-! ## Formation (R351) -/

/-- A bit for every module of the structure. -/
def State.allModules (s : State) : Nat := 2 ^ s.fget MEL_CFG_NMOD - 1

/-- The modules that are absent or not ready. -/
def State.formMissing (s : State) (v : HedgeView) : Nat := s.allModules &&& (0xFFFF ^^^ (v.present.toNat &&& v.ready.toNat))

/-- Why the hedge does not form: ABSENT, CONFLICT or STATE; OK when it does. -/
def State.formStatus (s : State) (v : HedgeView) : Nat :=
  if s.allModules &&& (0xFFFF ^^^ v.present.toNat) ≠ 0 ∨ v.linksUp = false then scAbsent
  else if v.hashesEqual = false then scConflict
  else if s.allModules &&& (0xFFFF ^^^ v.ready.toNat) ≠ 0 then scState
  else scOk

/-- The hedge is formed (R351, R369). -/
def State.formed (s : State) : State :=
  let s : State := { s with hedge := { s.hedge with failed := false, step7At := none, offAt := none, announced := none } }
  let s := ((s.setFlag MEL_STAT_FORMED true).fput MEL_STAT_STATE 2).setFlag MEL_EVT_FORMCHG true
  s.raise 0x0A01 0 (leBytes 2 s.allModules ++ leBytes 1 (s.fget MEL_CFG_DEPTH) ++ leBytes 1 s.member)

/-- The top master, in STOP or at the end of step 7, judges formation and announces it. DEDUCED: assumption 51. -/
def State.judgeForm (s : State) (v : HedgeView) : State :=
  let mayForm := s.mode == mStop || (s.mode == mLoad && s.ctl.booting)
  if s.flag MEL_CFG_HEDGE && s.member == 0 && !s.flag MEL_STAT_FORMED && mayForm && !s.flag SYS_MODE_CFGFAULT &&
      s.formStatus v == scOk then
    s.formed.send (.announce .formed)
  else s

/-- FORMATION_TIMEOUT: FORM_S seconds after step 7 without formation. The top master judges it once more at every such command
(R351, R365). -/
def execFormationTimeout (v : HedgeView) (s : State) : Out :=
  if s.ctl.held || !s.flag MEL_CFG_HEDGE || s.flag MEL_STAT_FORMED then .next s
  else
    let s := s.judgeForm v
    match s.hedge.step7At with
    | some t =>
      if s.flag MEL_STAT_FORMED || decide (s.fab < t + secs (s.fget MEL_FORM_FORM_S)) then .next s
      else
        let s : State := { s with hedge := { s.hedge with step7At := none } }
        let st := s.formStatus v
        .next ((s.setFlag MEL_EVT_FORMCHG true).raise 0x0A02 0
          (leBytes 2 (s.formMissing v) ++ leBytes 1 (if st = scOk then scState else st)))
    | none => .next s

/-! ## Announcements (R351, R352, R365) -/

/-- MODE_ANNOUNCE: the top master's announcement to a module below it, or a member's request for STOP to the top master. -/
def execModeAnnounce (a : Announce) (s : State) : Out :=
  if s.ctl.held || !s.flag MEL_CFG_HEDGE || !modeSheds s.mode then .next s
  else match a with
    | .formed => .next (if s.hedgeBelow && !s.flag MEL_STAT_FORMED && !s.flag SYS_MODE_CFGFAULT then s.formed else s)
    | .mode m cycle cold =>
      if s.hedgeBelow && s.flag MEL_STAT_FORMED && hedgeMode m then
        .next { s with hedge := { s.hedge with announced := some (m.val, cycle, cold) } }
      else .next s
    | .stopRequest =>
      let m := s.mode
      let acts := m == mSafe || modeExecutes m || (m == mTrack && !s.hedgeBelow)
      if acts && m != mHandover then .next (s.acceptChange mStop 0x10 0 false) else .next s

/-! ## Member failure (R364) -/

/-- This module detects the failure of a member or a link: it sends FAIL and enters SAFE. -/
def State.detectFail (s : State) (member : Option Nat) (cause port : Nat) : State :=
  if s.flag MEL_STAT_FORMED then ((s.melFail member cause port).send (.fail member cause)).enterSafe 0x0A03 else s

/-- FAIL arrives: the module enters SAFE. DEDUCED: assumption 51. -/
def execFail (member : Option (Fin 16)) (cause : Fin 4) (s : State) : Out :=
  if s.ctl.held || !s.flag MEL_STAT_FORMED then .next s
  else .next ((s.melFail (member.map (·.val)) cause 0xFF).enterSafe 0x0A03)

/-- HEDGE_HEARTBEAT: every 250 µs the steward sends its heartbeat. -/
def execHedgeHeartbeat (s : State) : Out :=
  if s.live && s.flag MEL_CFG_HEDGE && decide (s.hedge.sentAt + micros 250 ≤ s.fab) then
    .next (({ s with hedge := { s.hedge with sentAt := s.fab } }).send .hedgeHeartbeat)
  else .next s

/-- HEDGE_HEARTBEAT_TIMEOUT: no heartbeat of a member for 1 ms. -/
def execHedgeHeartbeatTimeout (member : Fin 16) (s : State) : Out :=
  if s.ctl.held || member.val == s.member then .next s else .next (s.detectFail (some member.val) 3 0xFF)

/-- TB_OFFSET_FAULT: the offset from the top master has been above 2 µs for 1 ms. -/
def execTbOffsetFault (s : State) : Out :=
  match s.hedge.offAt with
  | some t => if s.ctl.held || decide (s.fab < t + micros 1000) then .next s else .next (s.detectFail (some s.member) 2 0xFF)
  | none => .next s

/-! ## Melber links (R327, R349) -/

/-- A port ML0 to ML3 changes its state, with event 0x0A04. -/
def State.setPort (s : State) (n st : Nat) : State :=
  let s := (s.fput (MEL_LINK_STATE n) st).setBit MEL_STAT_LINKUP n (st == 2)
  (s.setFlag MEL_EVT_LINKCHG true).raise 0x0A04 n (leBytes 1 n ++ leBytes 1 st ++ leBytes 1 (s.fget (MEL_LINK_PEER_MOD n)))

def pairFld (n : Nat) : Fld := if n = 4 then RED_STAT_ML4_UP else RED_STAT_ML5_UP

/-- MELBER_LINK_UP: a hedge port has trained, and the top master judges formation; or a link of the pair is up, and pairing is
judged while the partner is unpaired (R308, R349, R351). -/
def execMelberLinkUp (n : Fin 6) (partner : Option PartnerInfo) (v : HedgeView) (s : State) : Out :=
  if s.ctl.held || s.mode == mPowerUp || s.mode == mDormant then .next s
  else if n.val < 4 then
    if s.flag (MEL_LINK_EN n) && s.fget (MEL_LINK_STATE n) != 2 then .next (((s.setPort n 2).melberSend n (s.qFull (22 + n))).judgeForm v) else .next s
  else if s.flag (pairFld n) then .next s
  else
    let s := ((s.setFlag (pairFld n) true).setSplit false).melberSend n (s.qFull (22 + n))
    match partner with
    | some x => if s.live then .next (s.judgePair x) else .next s
    | none => .next s

/-- Both links of the pair are down: a staged edit aborts, and with the witness alive both units set SPLIT, the standby only while
its BATON_IN is high (R297, R327). -/
def State.pairCut (s : State) : State :=
  let s := s.editAbortFor 2
  if s.witnessOk && (s.role == 1 || (s.role == 2 && s.flag RED_STAT_BATON_IN)) then s.setSplit true else s

/-- MELBER_LINK_DOWN: of a formed hedge it is a failure of the hedge (R349, R364). -/
def execMelberLinkDown (n : Fin 6) (s : State) : Out :=
  if s.ctl.held || s.mode == mPowerUp || s.mode == mDormant then .next s
  else if n.val < 4 then
    if s.flag (MEL_LINK_EN n) && s.fget (MEL_LINK_STATE n) == 2 then
      let s := if s.hedgeBelow && s.hedge.timePort == n.val then s.refLost 2 else s
      .next (((s.setPort n 3).satBump (MEL_ERR_DOWNS n) 1).detectFail none 1 n)
    else .next s
  else if s.flag (pairFld n) then
    let s := s.setFlag (pairFld n) false
    let s := if s.role == 2 && !s.hedgeBelow && !s.pairLinks then s.refLost 2 else s
    .next (if s.pairLive && !s.pairLinks then s.pairCut else s)
  else .next s

/-- FRAME_RESEND: a frame that has failed its check at the far end is sent again (R349, R369). -/
def execFrameResend (n : Fin 6) (s : State) : Out :=
  let up := if n.val < 4 then s.fget (MEL_LINK_STATE n) == 2 else s.flag (pairFld n)
  if s.stewardOff || !up then .next s
  else
    let s := (s.send (.resend n)).countG 0x4D 1
    if n.val < 4 then
      let s := (s.satBump (MEL_ERR_RESENDS n) 1).setFlag MEL_EVT_RESEND true
      .next (s.raise 0x0A05 n (leBytes 1 n ++ leBytes 2 (s.fget (MEL_ERR_RESENDS n))))
    else .next s

/-! ## Beat messages (R356) -/

/-- The own import entries that beat `b` of class `k` on module `m` gates. -/
def State.gatedImports (s : State) (k m b : Nat) : List (Nat × HEntry) :=
  s.validEntries.filter (fun e => !hInput e.2 && !hShared e.2 && hClass e.2 == k && hOwner e.2 / 16 == m && hReadpol e.2 == 1 &&
    hBeat e.2 == b)

/-- BEAT_MESSAGE: the beat view of another module arrives and releases the strands that wait for it; with a force-signalled beat
the entries read BAD. -/
def execBeatMessage (m : BeatMsg) (s : State) : Out :=
  let k := m.cls.val
  let b := m.beat.val
  let from_ := m.owner.toNat / 16
  if s.ctl.held || !s.flag MEL_STAT_FORMED || from_ == s.member then .next s
  else
    let view := m.view.foldl (fun (t : Tab MByte) x => tset ⟨0, 0⟩ t x.1 { mask := x.2.1, val := x.2.2 }) []
    let s := s.modCls k (fun c => { c with beatDone := tset 0 c.beatDone (importKey from_ b) 1,
                                           beatView := tset [] c.beatView (viewKey b (16 * from_)) view })
    let s := if m.forced then
        each (s.gatedImports k from_ b) s (fun s e => s.swSet (hSwidx e.2) (s.swGet (hSwidx e.2) &&& 0xFFFC))
      else s
    .next (each (s.strandsOf k) s (fun s st =>
      s.modStrand st (fun x =>
        match x.stall with
        | some w => if w.on = .beat b then { x with stall := some { w with released := true } } else x
        | none => x)))

/-! ## Banked access to member memory (R156, R157, R362) -/

/-- Strand `st` waits for another member; with an SC, or with another access. -/
def State.waitsMember (s : State) (st : Nat) (sc : Bool) : Bool :=
  match (s.strand st).stall with
  | some w => w.on == .member && !w.released && (match w.instr with
    | .sc _ _ _ _ => sc
    | _ => !sc)
  | none => false

/-- The answer for a waiting strand; its instruction completes at the next clock. -/
def State.answerStrand (s : State) (st : Nat) (a : MemberAnswer) : State :=
  s.modStrand st (fun x => { x with answer := some a, stall := x.stall.map (fun w => { w with released := true }) })

/-- The access of a waiting strand ends in a trap, in the world in which the strand runs. -/
def State.memberTrap (s : State) (st code : Nat) : State :=
  let k := (s.cfg st).cls
  if s.onTrial k then ((s.swapWorld k).trap st code).swapWorld k else s.trap st code

/-- BANKED_ACCESS_COMPLETE: the value of a load or LR, the completion of a store, or a trap: the system permission trap when the
module is absent or its path down (R362). DEDUCED: assumption 51. -/
def execBankedAccessComplete (st : Fin 16) (answer : BankAnswer) (s : State) : Out :=
  if s.ctl.held then .next s
  else match answer with
    | .value v => .next (if s.waitsMember st false then s.answerStrand st { value := v, failed := false } else s)
    | .absent => .next (if s.waitsMember st false || s.waitsMember st true then s.memberTrap st trSysPerm else s)
    | .refused integ =>
      .next (if s.waitsMember st false || s.waitsMember st true then s.memberTrap st (if integ then trInteg else trAddr) else s)

/-- SC_ANSWER: the owning member has stored, or the SC has failed there (R157). -/
def execScAnswer (st : Fin 16) (failed : Bool) (s : State) : Out :=
  if s.ctl.held || !s.waitsMember st true then .next s else .next (s.answerStrand st { value := 0, failed := failed })

/-- The trap with which this module refuses an access of another module to its global memory, if any (R21, R179, R425). -/
def State.memberRefusal (s : State) (addr size : Nat) (store : Bool) : Option Nat :=
  if s.globOk addr size store = false then some trAddr else if s.integ.contains (addr / 32) then some trInteg else none

/-- This module answers an access. -/
def State.memberAnswer (s : State) (m st : Nat) (v : Word) (failed : Bool) (refused : Option Nat) : State :=
  s.send (.memberAnswer m st v failed refused)

/-- A store of strand `st` of module `m` into global memory. Its own reservation stays (R154). -/
def State.memberStore (s : State) (m st addr : Nat) (bytes : List Byte) : State :=
  let mine := s.remoteResv.filter (fun r => r.1 == 16 * m + st)
  let t := (s.msetN addr bytes).breakResv 16 addr bytes.length
  each mine t (fun t r => { t with remoteResv := tput t.remoteResv r.1 r.2 })

/-- MEMBER_ACCESS_REQUEST: an access of a strand of another module to this module's global memory or committed image (R23, R156,
R157, R362). -/
def execMemberAccessRequest (member st : Fin 16) (req : MemberReq) (s : State) : Out :=
  let m := member.val
  let g := fun (off : Nat) => 0x10000000 + off
  if s.stewardOff || !s.flag MEL_STAT_FORMED || m == s.member then .next s
  else match req with
    | .load region off size =>
      if region.val = 0 then
        match s.memberRefusal (g off) size false with
        | some c => .next ((if c = trInteg then s.integRead (g off / 32) else s).memberAnswer m st 0 false (some c))
        | none => .next (s.memberAnswer m st (BitVec.ofNat 32 (leNat (s.mgetN (g off) size))) false none)
      else if imgReserved off then .next (s.memberAnswer m st 0 false (some trAddr))
      else if s.integ.contains ((0x20000000 + off) / 32) then
        .next ((s.integRead ((0x20000000 + off) / 32)).memberAnswer m st 0 false (some trInteg))
      else
        match s.loadAt 0 (.bankImg off) size with
        | .ok bs => .next (s.memberAnswer m st (BitVec.ofNat 32 (leNat bs)) false none)
        | .error _ => .next s
    | .store off size value =>
      match s.memberRefusal (g off) size true with
      | some c => .next ((if c = trInteg then s.integRead (g off / 32) else s).memberAnswer m st 0 false (some c))
      | none => .next ((s.memberStore m st (g off) (leBytes size value.toNat)).memberAnswer m st 0 false none)
    | .lr off =>
      match s.memberRefusal (g off) 4 false with
      | some c => .next ((if c = trInteg then s.integRead (g off / 32) else s).memberAnswer m st 0 false (some c))
      | none =>
        let s := { s with remoteResv := tput s.remoteResv (16 * m + st) (g off / 32) }
        .next (s.memberAnswer m st (BitVec.ofNat 32 (leNat (s.mgetN (g off) 4))) false none)
    | .sc off value =>
      match s.memberRefusal (g off) 4 true with
      | some c => .next ((if c = trInteg then s.integRead (g off / 32) else s).memberAnswer m st 0 true (some c))
      | none =>
        let held := s.remoteResv.any (fun r => r.1 == 16 * m + st.val && r.2 == g off / 32)
        let s := { s with remoteResv := tdel s.remoteResv (16 * m + st) }
        if held then
          .next (((s.msetN (g off) (leBytes 4 value.toNat)).breakResv 16 (g off) 4).memberAnswer m st 0 false none)
        else .next (s.memberAnswer m st 0 true none)

/-! ## The takeover of a hedge (R341, R366) -/

/-- TAKEOVER_DISTRIBUTION: a member of a standby hedge acts with the T_d of its top master; at the top master the message is the
first report of a member, and its T_d is now. DEDUCED: assumption 51. -/
def execTakeoverDistribution (td : BitVec 64) (s : State) : Out :=
  let cause := if s.flag RED_STAT_BATON_IN then 1 else 0
  if !s.live || !s.standsBy || !s.flag MEL_CFG_HEDGE then .next s
  else if s.hedgeBelow then .next (s.takeover td.toNat cause)
  else .next (s.primaryFailed cause)

end Sys2Proof.Machine
end

