-- ==== Sys2Proof/Machine/Registers.lean ====
section
/-!
DEFINITION. The steward's accesses to the system registers: writes with the command registers that only the steward reaches, reads
that clear and reads that latch a high word (R3, R4, R76, R142, R263, R325, R333, R446, R458, R473, R478, R481, R483, R497, R504).
-/
namespace Sys2Proof.Machine

/-- A write of UPD_CMD. The commands that come with signatures or keys have rows of their own. DEDUCED: assumption 23. -/
def State.updWrite (s : State) (cmd : Nat) : State :=
  if cmd = 1 then ({ s with upd := { s.upd with dlv := none } }.showDlv.fput UPD_STAT_LASTST scOk).withdrawActivation
  else if cmd = 3 then (if s.upd.trial.isSome then s.trialFallback 2 else s.fput UPD_STAT_LASTST scState)
  else s

/-- The alarm is armed; one at or below the counter fires at the next edge, late (R481). -/
def State.arm (s : State) : State :=
  let s := ((s.setFlag RTC_STAT_ARMED true).setFlag RTC_STAT_FIRED false).setFlag RTC_STAT_LATE false
  { s with rtc := { s.rtc with late := decide (s.alarmAt ≤ s.rtc.count) } }

/-- A write of RTC_ALM_CTRL: one with K below 5 is ignored whole; otherwise NW starts anew, and ARM and DISARM act. What a write of
both leaves of ARMED is open (R481, R483). -/
def State.almWrite (s : State) (v : Nat) : State :=
  let k := bitsAt v 8 5
  if k < 5 then s
  else
    let s := (s.setFlag RTC_ALM_CTRL_WAKE_EN (bitAt v 2)).fput RTC_ALM_CTRL_K k
    let s := { s with rtc := { s.rtc with nw := s.rtc.count + 2 ^ k } }
    let s := if bitAt v 0 then s.arm else s
    if bitAt v 1 then
      if bitAt v 0 then s.draw.setFlag RTC_STAT_ARMED (bitAt (Config.freeNat s.free) 0) else s.setFlag RTC_STAT_ARMED false
    else s

/-- A write of the register at `a` by the steward: the command registers that strands cannot write act, RTC_TRIM takes a value only
without a reference, and every other register is written by its access codes (R3, R142). DEDUCED: assumption 23. -/
def State.stewardWrite (s : State) (a : Nat) (v hw : Word) : State :=
  let n := v.toNat
  if a = SYS_MODEREQ then s.modeRequest (bitsAt n 0 4) (bitAt n 4)
  else if a = RED_CMD then
    if bitsAt n 0 2 = 1 then s.handoverCommand else if bitsAt n 0 2 = 2 then s.resync else s
  else if a = RET_CMD_GO then (if bitAt n 0 then s.retCommand (s.fget RET_CMD_LEN_OP) else s)
  else if a = RET_QS_INC then s.qsAdd (s.fget RET_QS_IDX_IDX) (bitsAt n 0 16)
  else if a = RTC_SET_CTRL then (if bitAt n 0 then s.rtcGo none else s)
  else if a = RTC_TRIM then (if s.fget RTC_CFG_REFSRC = 0 then s.setTrim (sgn 32 n) else s)
  else if a = RTC_ALM_CTRL then s.almWrite n
  else if a = UPD_CMD then s.updWrite (bitsAt n 0 4)
  else s.regWrite 16 a v hw

/-- REGISTER_WRITE: a write by the steward. `hw` are the event bits that hardware sets in the same clock (R3, R5, R6). -/
def execRegisterWrite (addr v hw : Word) (s : State) : Out :=
  if s.stewardOff then .next s else .next (s.stewardWrite addr.toNat v hw)

/-- A read by the steward: what it changes, with the value in `readback`. -/
def State.stewardRead (s : State) (a : Nat) (hw : Word) : State :=
  let r := s.regRead 16 a hw
  { r.1 with readback := r.2 }

/-- READ_CLEAR: a read returns an RC field and clears it in one access. `hw` is what a hardware update of the same clock leaves in
the cleared field (R4). -/
def execReadClear (addr hw : Word) (s : State) : Out :=
  if s.stewardOff then .next s else .next (s.stewardRead addr.toNat hw)

/-- HIGH_WORD_LATCH: a read of a LO register returns the low word and latches the high word for the read of HI (R76). -/
def execHighWordLatch (addr : Word) (s : State) : Out :=
  if s.stewardOff then .next s else .next (s.stewardRead addr.toNat 0)

/-! ## Activation (R502) -/

/-- An accepted activation: a primary with a READY standby hands over first, the top master of a hedge tells its members, and
where no class executes the fallback copy is taken at once. -/
def State.activateBegin (s : State) (cold : Bool) : State :=
  let hand := s.standbyReady
  let s := { s with upd := { s.upd with act := some { cold := cold, copy := none, trialAt := none, handover := hand } } }
  let s := s.setFlag UPD_STAT_ACTPEND true
  let s := if s.flag MEL_STAT_FORMED && s.member == 0 then s.send (.updateCommand 2) else s
  let s := if hand && s.red.handover.isNone then s.proposeHandover 0 else s
  if modeExecutes s.mode then s else s.activationCopy

/-- ACTIVATE: UPD_CMD ACTIVATE is judged, and reported with its status (R502). -/
def execActivate (sig : SigVerdict) (s : State) : Out :=
  if s.stewardOff then .next s
  else
    let st := s.activateStatus sig
    let cold := s.activateCold
    let s := (s.fput UPD_STAT_LASTST st).raise 0x1104 s.inactiveSlot
      (leBytes 1 st ++ leBytes 1 0 ++ leBytes 1 (if cold then 1 else 0))
    .next (if st = scOk then s.activateBegin cold else s)

end Sys2Proof.Machine
end

