-- ==== Sys2Proof/Machine/LoadChecks.lean ====
section
/-!
DEFINITION. The checks of the configuration image at step 7 beside those of the heddle table (R549 and the rules that its table
names). Each judges the state that holds the image as LOAD would leave it.
-/
namespace Sys2Proof.Machine

def inRange (lo hi v : Nat) : Bool := decide (lo ≤ v ∧ v ≤ hi)

/-! ## Group 0x02: cycle classes (R32, R33, R41, R110) -/

/-- The settings of an enabled class that break their ranges. -/
def State.classBad (s : State) (k : Nat) : Bool :=
  let t := s.period k
  let n := s.fget (CLS_CFG_N k)
  (k != 0 && !(inRange 1 1000 n && decide (s.fget (CLS_CFG_PHASE k) < n))) ||
    decide (s.dshed k < 5 ∨ t < 2 * s.dshed k) || decide (t < 4 * s.guard k) ||
    decide (s.dout k < s.dshed k + 50 ∨ t < s.dout k + 20) || !inRange 1 100 (s.fget (BEAT_TO_TO_PCT k))

/-- D of a channel pipeline in µs: ceil of TAU + 1/f + 3 µs, with TAU in 62.5 ns (R188). -/
def State.pipeDelay (s : State) (p : Nat) : Nat :=
  let d := decProduct (s.pipe p).stages
  3 + (s.fget (SE_PIPE_TAU_TAU p) * 400000 + 16 * 1000000 * d + 16 * 400000 - 1) / (16 * 400000)

/-- An enabled pipeline of an input channel. -/
def State.inputPipe (s : State) (p : Nat) : Bool := decide (p < 16) && s.flag (SE_PIPE_CFG_EN p) && ucInput (s.ucMode p)

/-- The delivery delay of the readback of an output channel in µs (R224). -/
abbrev readbackDelay : Nat := 60

/-- A class reads a channel pipeline, or the readback of an output channel, whose delivery delay exceeds its Dshed (R41, R224). -/
def State.delayBad (s : State) : Bool :=
  (List.range 16).any (fun p => s.inputPipe p && (s.readers p).any (fun k => decide (s.dshed k < s.pipeDelay p))) ||
    s.validEntries.any (fun e => hInput e.2 && hSrctype e.2 == 1 && ucOutput (s.ucMode (hInstance e.2)) &&
      decide (s.dshed (hClass e.2) < readbackDelay))

def State.classesBad (s : State) : Bool :=
  !inRange 250 1000000 s.t0us || s.classesOn.any s.classBad || s.delayBad

/-! ## Group 0x03: strands (R34, R113, R142) -/

/-- The bits of PERM_WR that must be 0. -/
def permForbidden : BitVec 19 := 0x1FC01

def State.strandBad (s : State) (x : BitVec 4 × StrandCfg) : Bool :=
  popcount 4 x.1.toNat != 1 || (List.range 4).any (fun k => x.1.getLsbD k && !s.classOn k) ||
    !inRange 256 131072 x.2.stackSize || x.2.stackSize % 256 != 0 || x.2.permWr &&& permForbidden != 0

def State.strandsBad (s : State) (c : ConfigImage) : Bool := c.strands.length != 16 || c.strands.any s.strandBad

/-! ## Group 0x05: hedges (R345 to R360) -/

/-- The modules of a hedge, as the rest of their paths below it, numbered depth first (R345, R346). `fuel` bounds the levels. -/
def hedgePaths : Nat → List (List Nat) → Bool
  | 0, l => l == [[]]
  | fuel + 1, l =>
    l == [[]] ||
      (let m := (l.map (fun p => p.headD 0 + 1)).foldl max 0
       let part := fun j => (l.filter (fun p => p.headD 4 == j)).map (·.drop 1)
       !l.contains [] && inRange 2 4 m &&
         l == (List.range m).flatMap (fun j => (part j).map (j :: ·)) && (List.range m).all (fun j => hedgePaths fuel (part j)))

def pathDepth (paths : List (List Nat)) : Nat := (paths.map (·.length)).foldl max 0

def State.structureBad (s : State) (h : HedgeImage) : Bool :=
  !inRange 2 16 h.paths.length || h.paths.length != s.fget MEL_CFG_NMOD || !hedgePaths 4 h.paths ||
    pathDepth h.paths != s.fget MEL_CFG_DEPTH

/-- SLOT_ID names no module, or the UID bound to it is another one (R347). -/
def indexBad (h : HedgeImage) (slotId : Nat) : Bool :=
  decide (h.paths.length ≤ slotId) || h.uids.any (fun u => u.1.val == slotId && u.2 != Config.uid)

/-- The hedges of the structure, as paths. -/
def hedgesOf (paths : List (List Nat)) : List (List Nat) :=
  (paths.flatMap (fun p => (List.range p.length).map (p.take ·))).foldl (fun l q => if l.contains q then l else l ++ [q]) []

/-- A module lies in member `j` of the hedge at path `q`. -/
def liesIn (paths : List (List Nat)) (q : List Nat) (j m : Nat) : Bool := ((paths[m]?).getD []).take (q.length + 1) == q ++ [j]

/-- The members of the hedge at path `q`. -/
def memberCount (paths : List (List Nat)) (q : List Nat) : Nat :=
  ((List.range 4).filter (fun j => (List.range paths.length).any (liesIn paths q j))).length

/-- A link joins member `j` and member 0 of the hedge at path `q`. -/
def joins (paths : List (List Nat)) (q : List Nat) (j : Nat) (x : HedgeLink) : Bool :=
  (liesIn paths q j x.mod1 && liesIn paths q 0 x.mod2) || (liesIn paths q j x.mod2 && liesIn paths q 0 x.mod1)

/-- The ends of the links as module × 4 + port. -/
def linkEnds (l : List HedgeLink) : List Nat := l.flatMap (fun x => [4 * x.mod1.val + x.port1.val, 4 * x.mod2.val + x.port2.val])

def noRepeat : List Nat → Bool
  | [] => true
  | x :: l => !l.contains x && noRepeat l

/-- The link map breaks R348. -/
def linksBad (h : HedgeImage) : Bool :=
  h.links.length + 1 != h.paths.length || !noRepeat (linkEnds h.links) ||
    (linkEnds h.links).any (fun e => decide (h.paths.length ≤ e / 4)) ||
    (hedgesOf h.paths).any (fun q => (List.range (memberCount h.paths q)).any (fun j =>
      j != 0 && (h.links.filter (joins h.paths q j)).length != 1))

/-- The modules within `n` hops of a set of modules. -/
def reach (l : List HedgeLink) : Nat → List Nat → List Nat
  | 0, ms => ms
  | n + 1, ms =>
    reach l n (l.foldl (fun r x =>
      let a := ms.contains x.mod1.val
      let b := ms.contains x.mod2.val
      if a && !r.contains x.mod2.val then x.mod2.val :: r
      else if b && !r.contains x.mod1.val then x.mod1.val :: r else r) ms)

/-- The number of hops between two modules. -/
def hopCount (l : List HedgeLink) (a b : Nat) : Nat := ((List.range 16).find? (fun n => (reach l n [a]).contains b)).getD 15

/-- The largest number of hops from a module to any of `n` modules. -/
def hopsFrom (l : List HedgeLink) (n a : Nat) : Nat := ((List.range n).map (hopCount l a)).foldl max 0

/-- Pm and the largest hop count between two modules (R360, R368). -/
def hopsPm (h : HedgeImage) : Nat := hopsFrom h.links h.paths.length 0
def hopsMax (h : HedgeImage) : Nat := ((List.range h.paths.length).map (hopsFrom h.links h.paths.length)).foldl max 0

/-- An import entry carries what its owner entry carries (R354). -/
def importMatches (e o : HEntry) : Bool :=
  hKind e == hKind o && hClass e == hClass o && hOwner e == hOwner o && hReadpol e == hReadpol o && hBeat e == hBeat o &&
    hCount e == hCount o && hSwidx e == hSwidx o && !hMirror e

/-- A record whose owner entry is invalid or may not be imported, or whose entries do not match (R355). -/
def State.importBad (s : State) (r : ImportRec) : Bool :=
  let e := tget 0 s.heddle r.entry
  !hValid e || !hValid r.remote || !([1, 2, 4, 5].contains (hKind r.remote)) || hShared r.remote ||
    hOwner r.remote / 16 != r.owner.val || !importMatches e r.remote

/-- The valid entries that another module owns. -/
def State.imported (s : State) : List (Nat × HEntry) :=
  s.validEntries.filter (fun e => !hInput e.2 && !hShared e.2 && hOwner e.2 / 16 != s.member)

/-- Import records break R354 or R355, or the table of another module has entries that overlap (R85). -/
def State.importsBad (s : State) (h : HedgeImage) : Bool :=
  decide (4096 < h.imports.length) || h.imports.any s.importBad ||
    s.imported.any (fun e => !h.imports.any (fun r => r.entry == e.1)) || h.others.any tableOverlaps

/-- X of class `k` in ns (R360). -/
def exchangeBound (h : HedgeImage) (k : Nat) : Nat :=
  let x := (h.hops[k]?).getD (0, 0)
  500 * (x.1 + 2 * hopsPm h) + 22 * x.2

def State.exchangeBad (s : State) (h : HedgeImage) : Bool :=
  s.classesOn.any (fun k => decide (8000 * s.fget MEL_CFG_DEPTH < exchangeBound h k + 1000))

/-- The lowest hedge check that fails, as MEL_STAT.REASON codes it; 0 for none and for a single module (R368). -/
def State.hedgeReason (s : State) (c : ConfigImage) (slotId : Nat) : Nat :=
  let h := c.hedge
  if s.flag MEL_CFG_HEDGE = false then 0
  else if s.structureBad h then 1
  else if indexBad h slotId then 2
  else if linksBad h then 3
  else if s.importsBad h then 4
  else if s.exchangeBad h then 5
  else if decide (512 < h.transferMax) || !h.transferEnds then 6
  else 0

/-! ## Group 0x06: queues (R18, R30, R388, R410) -/

def State.queueBytes (s : State) (q : Nat) : Nat := 256 * 2 ^ s.fget (QUE_CFG_BUFSZ q)

/-- The buffer area of a queue: in DRAM or not, first address, bytes. -/
def State.queueArea (s : State) (q : Nat) : Bool × Nat × Nat :=
  (s.flag (QUE_BASE_DRAM q), 32 * s.fget (QUE_BASE_BASE q), s.fget (QUE_CFG_DEPTH q) * s.queueBytes q)

def areasMeet (a b : Bool × Nat × Nat) : Bool := a.1 == b.1 && decide (a.2.1 < b.2.1 + b.2.2 ∧ b.2.1 < a.2.1 + a.2.2)

/-- An area that leaves the general region, or for Q28 to Q31 the DRAM of the module. -/
def areaOut (q : Nat) (a : Bool × Nat × Nat) : Bool :=
  if a.1 then decide (q < 28 ∨ 0x80000000 < a.2.1 + a.2.2) else decide (a.2.1 < 0x10000000 ∨ 0x11A00000 < a.2.1 + a.2.2)

def State.queueBad (s : State) (q : Nat) : Bool :=
  let d := s.fget (QUE_CFG_DEPTH q)
  let m := s.fget (QUE_CFG_MAXFRAME q)
  let b := s.queueBytes q
  !inRange 16 1024 d || !inRange 64 65535 m || decide (d < (m + b - 1) / b) || (decide (q < 8) && m != 1522) ||
    areaOut q (s.queueArea q) || (List.range q).any (fun p => areasMeet (s.queueArea q) (s.queueArea p))

/-- An address of the DRAM window. -/
def inDram (a : Nat) : Bool := decide (0x80000000 ≤ a ∧ a < 0xC0000000)

/-- A result region of SE jobs or the delivery buffer of a message stream lies in DRAM (R18). -/
def bufferInDram (c : ConfigImage) : Bool :=
  c.strands.any (fun x => x.2.regions.any (fun r => inDram r.1 || inDram (r.1 + r.2 - 1))) ||
    c.streams.any (fun x => inDram x.2.bufAddr)

def State.queuesBad (s : State) (c : ConfigImage) : Bool :=
  bufferInDram c || decide (4096 < ((List.range 32).map (fun q => s.fget (QUE_CFG_DEPTH q))).sum) || (List.range 32).any s.queueBad

/-! ## Group 0x07: signal engines (R182, R192) -/

def decFactors (l : List Stage) : List Nat := l.filterMap (fun x => match x with
  | .dec d _ => some d
  | _ => none)

def beginsDec : List Stage → Bool
  | .dec _ _ :: _ => true
  | _ => false

/-- The pipeline of an input channel breaks R182. -/
def State.pipeBadRate (s : State) (p : Nat) : Bool :=
  let l := (s.pipe p).stages
  let d := decProduct l
  !beginsDec l || (decFactors l).any (fun x => !inRange 2 1000 x) || 400000 % d != 0 || !inRange 10 16000 (400000 / d)

def State.enginesBad (s : State) : Bool :=
  (List.range 16).any (fun p => s.inputPipe p && s.pipeBadRate p) ||
    (List.range 8).any (fun k => !withinLimit (s.engineLoad k))

/-! ## Group 0x08: universal and digital channels (R215, R217, R225, R226, R230, R233, R252, R253) -/

def ucModes : List Nat :=
  [0x00, 0x01, 0x02, 0x03, 0x04, 0x08, 0x09, 0x0A, 0x0B, 0x10, 0x11, 0x12, 0x13, 0x18, 0x20, 0x21, 0x22, 0x23, 0x24, 0x25, 0x26, 0x27,
   0x30, 0x38, 0x39, 0x3A]

def ucSharable : List Nat := [0x01, 0x02, 0x03, 0x04, 0x08, 0x0A, 0x20, 0x21, 0x22, 0x23, 0x24, 0x25, 0x26, 0x27, 0x38, 0x39]

def selBad (mode sel : Nat) : Bool := decide (4 < sel) || (decide (3 ≤ sel) && mode != 0x39 && mode != 0x3A)

/-- The x values of a table rise strictly: those of an output are the y values of its characteristic (R226). -/
def risesStrictly : List (Int × Int) → Bool
  | a :: b :: l => decide (a.1 < b.1) && risesStrictly (b :: l)
  | _ => true

def stageInverts : Stage → Bool
  | .table pts => risesStrictly pts
  | _ => true

/-- The output entries that name universal channel `n`. -/
def State.ucOutEntries (s : State) (n : Nat) : Nat :=
  (s.validEntries.filter (fun e => hOutput e.2 && hSrctype e.2 == 1 && hInstance e.2 == n)).length

/-- An output channel breaks a rule for outputs. -/
def State.ucOutputBad (s : State) (n : Nat) : Bool :=
  let r := ucRange (s.ucMode n)
  let inside := fun v => decide (r.1 ≤ sgn 32 v ∧ sgn 32 v ≤ r.2)
  let slow := match s.ucOutClass n with
    | some k => decide (1000 * s.fget (UC_CMDTMO_TMO_MS n) < 3 * s.period k)
    | none => false
  s.ucOutEntries n != 1 || slow || !inside (s.fget (UC_STOPVAL_STOPVAL n)) || !inside (s.fget (UC_SAFEVAL_SAFEVAL n)) ||
    (s.flag (SE_PIPE_CFG_EN n) && !(s.pipe n).stages.all stageInverts)

def State.ucBadSettings (s : State) (n : Nat) : Bool :=
  let m := s.ucMode n
  let w := s.fget (UC_MODE_WIRES n)
  !ucModes.contains m ||
    [s.fget (UC_FAILSEL_LOSS_SEL n), s.fget (UC_FAILSEL_BADQ_SEL n), s.fget (UC_FAILSEL_STOP_SEL n),
      s.fget (UC_FAILSEL_SAFE_SEL n)].any (selBad m) ||
    w == 3 || (w != 0 && !inRange 0x10 0x18 m) || !inRange 0x3999999A 0x46666666 (s.fget (UC_TRIM_GAIN_TRIM_GAIN n)) ||
    decide (42949673 < (sgn 32 (s.fget (UC_TRIM_OFS_TRIM_OFS n))).natAbs) || !inRange 10 10000 (s.fget (UC_CMDTMO_TMO_MS n)) ||
    (s.flag (UC_MODE_SHARED n) && !ucSharable.contains m) || (ucOutput m && s.ucOutputBad n)

/-- The output entries that cover digital channel `n`. -/
def State.dioOutEntries (s : State) (n : Nat) : Nat :=
  (s.validEntries.filter (fun e => hKind e.2 == 1 && hSrctype e.2 == 2 &&
    decide (hInstance e.2 ≤ n ∧ n < hInstance e.2 + hCount e.2))).length

def State.dioBad (s : State) (n : Nat) : Bool :=
  let g := s.fget (DIO_CH_CFG_GANG n)
  decide (1 < s.fget (DIO_CH_CFG_DIR n)) || g == 3 ||
    [s.fget (DIO_CH_CFG_BADQ_SEL n), s.fget (DIO_CH_CFG_SAFE_SEL n), s.fget (DIO_CH_CFG_STOP_SEL n)].any (fun x => decide (2 < x)) ||
    !inRange 1 400 (s.fget (DIO_CH_CFG_FILT n)) ||
    (g != 0 && (s.gang n).any (fun m => s.fget (DIO_CH_CFG_GANG m) != g || !s.dioOut m)) ||
    (s.dioOut n && s.leader n == n && s.dioOutEntries n != 1)

def State.ctBad (s : State) (k : Nat) : Bool :=
  let m := s.ctMode k
  let own := s.flag (CT_CFG_SRC k)
  decide (8 < m) || s.fget (CT_CFG_GLITCH k) == 3 || s.fget (CT_CFG_EDGE k) == 3 || !inRange 1 10000 (s.fget (CT_GATE_GATE_MS k)) ||
    (!own && m != 0 && s.dioOut k) ||
    (inRange 4 6 m && (k % 2 == 1 || s.dioOut k || s.dioOut (k + 1) || s.ctMode (k + 1) != 0)) ||
    (m == 3 && s.dioOut (k / 2 * 2 + 1 - k % 2)) ||
    (own && !([1, 2, 7, 8].contains m && s.dioOut k && s.leader k == k))

def State.channelsBad (s : State) : Bool :=
  (List.range 16).any s.ucBadSettings || (List.range 32).any s.dioBad || (List.range 8).any s.ctBad ||
    !inRange 1 1000 (s.fget DIO_DISC_DISC_DLY) || !inRange 1 15 (s.fget DIO_DISC_DISC_CNT)

/-! ## Group 0x09: Ethernet, streams and CAN (R371, R379, R382, R395, R397, R409, R410, R412) -/

def State.streamBad (s : State) (i : Nat) : Bool :=
  let id := s.fget (ETH_STR_CFG_STREAM i)
  id == 0 || id == 0xFFFF || decide (1464 < s.fget (ETH_STR_LEN_LEN i)) ||
    (s.flag (ETH_STR_CFG_CB i) && s.fget (ETH_STR_CFG_PORT i) % 2 == 1)

/-- Identifier and direction of a stream as one number. -/
def State.streamId (s : State) (i : Nat) : Nat := 2 * s.fget (ETH_STR_CFG_STREAM i) + s.fget (ETH_STR_CFG_DIR i)

/-- The time in ns from the opening of a window of class `j` to the next one of class `k` on a port. At one instant the lower class
is first (R379). -/
def State.windowGap (s : State) (j k : Nat) : Nat :=
  let n := fun c => if c = 0 then 1 else s.fget (CLS_CFG_N c)
  let f := fun c => if c = 0 then 0 else s.fget (CLS_CFG_PHASE c)
  let g := Nat.gcd (n j) (n k) * s.t0us
  let d := (((s.t0us * f k + s.dout k : Nat) : Int) - (s.t0us * f j + s.dout j : Nat)) % (g : Int)
  1000 * (if d.toNat = 0 ∧ k < j then g else d.toNat)

/-- The largest delay of the windows of each class, from the delays of the others: `n` rounds (R379). -/
def State.windowDelays (s : State) (p : Nat) (cs : List Nat) : Nat → List Nat
  | 0 => List.replicate 4 0
  | n + 1 =>
    let d := s.windowDelays p cs n
    (List.range 4).map (fun k =>
      ((cs.filter (· != k)).map (fun j => (d[j]?).getD 0 + s.rioWin p j - s.windowGap j k)).foldl max 0)

/-- A delay could carry the end of a window past its emit instant plus 10 % of T0. -/
def State.windowsBad (s : State) (p : Nat) : Bool :=
  let cs := s.classesOn.filter (fun k => !(s.portStreams p k).isEmpty)
  let d := s.windowDelays p cs 4
  cs.any (fun k => let x := (d[k]?).getD 0
    x != 0 && decide (100 * s.t0us < x + s.rioWin p k))

def State.ethPortBad (s : State) (p : Nat) : Bool :=
  let l := s.streamsWhere (fun i => (s.streamPorts i).contains p)
  decide (256 < l.length) || (!l.isEmpty && decide (2 ≤ s.fget (ETH_PCFG_SPEED_MIN p))) || !noRepeat (l.map s.streamId) || s.windowsBad p

/-- Time quanta of a bit, with the values of the fields plus 1 (R395). -/
def State.canQuanta (s : State) (brp t1 t2 : Fld) : Nat := (s.fget brp + 1) * (1 + (s.fget t1 + 1) + (s.fget t2 + 1))

def State.canTimingBad (s : State) (p : Nat) : Bool :=
  let n := s.canQuanta (CAN_NBT_NBRP p) (CAN_NBT_NTSEG1 p) (CAN_NBT_NTSEG2 p)
  let d := s.canQuanta (CAN_DBT_DBRP p) (CAN_DBT_DTSEG1 p) (CAN_DBT_DTSEG2 p)
  decide (n < 80 ∨ d < 10 ∨ n < d) || s.fget (CAN_NBT_NTSEG1 p) == 0 ||
    decide (s.fget (CAN_NBT_NTSEG2 p) < s.fget (CAN_NBT_NSJW p) ∨ s.fget (CAN_DBT_DTSEG2 p) < s.fget (CAN_DBT_DSJW p)) ||
    (decide (d < 80) && !s.flag (CAN_TDC_TDCEN p))

def State.filterBad (s : State) (p f : Nat) : Bool :=
  let t := s.fget (CAN_FLT_TGT_TARGET p f)
  s.flag (CAN_FLT_ID_EN p f) &&
    (decide (65 < t) || s.fget (CAN_FLT_TGT_FMT p f) == 3 ||
      (decide (t < 64) && (s.flag (CAN_FLT_ID_RTR p f) || !inRange mbRxSoft mbRxImage (s.fget (CAN_MB_CFG_KIND p t)))))

def State.mailboxBad (s : State) (p m : Nat) : Bool :=
  let kind := s.fget (CAN_MB_CFG_KIND p m)
  decide (4 < kind) ||
    (kind == mbTxImage && (s.flag (CAN_PCFG_LISTEN p) ||
      !inRange 10 (s.period (s.fget (CAN_MB_CFG_CLASS p m))) (s.fget (CAN_MB_DL_DL_US p m))))

def State.canPortBad (s : State) (p : Nat) : Bool :=
  s.canTimingBad p || (List.range 128).any (s.filterBad p) || (List.range 64).any (s.mailboxBad p) ||
    decide (s.fget (QUE_CFG_MAXFRAME (8 + p)) < 80 ∨ s.fget (QUE_CFG_MAXFRAME (12 + p)) < 80) ||
    (s.flag (CAN_PCFG_LISTEN p) && decide (16 < s.fget (QUE_CFG_DEPTH (12 + p))))

def State.portsBad (s : State) : Bool :=
  (s.streamsWhere s.streamBad).length != 0 || (List.range 4).any s.ethPortBad || (List.range 4).any s.canPortBad

/-! ## Group 0x0A: redundancy, watchdog and RTC (R318, R343, R429, R486) -/

def regionBad (r : MirrorRegion) : Bool :=
  !r.inst && (r.base % 32 != 0 || r.nom % 32 != 0 || r.max % 32 != 0 || decide (r.max < r.nom ∨ 65536 < r.max))

/-- An output entry of a shared channel without MIRROR. -/
def State.unmirrored (s : State) (e : HEntry) : Bool :=
  hOutput e && !hMirror e &&
    ((hSrctype e == 1 && s.flag (UC_MODE_SHARED (hInstance e))) ||
      (hSrctype e == 2 && decide (hInstance e < 32) &&
        (List.range (hCount e)).any (fun j => s.flag (DIO_CH_CFG_SHARED (s.leader (hInstance e + j))))))

def State.slotBad (s : State) (n : Nat) : Bool :=
  let k := s.fget (WDG_SLOT_CFG_CLASS n)
  s.flag (WDG_SLOT_CFG_EN n) &&
    (!s.classOn k || !inRange 1000 10000000 (s.fget (WDG_SLOT_P_PER n) * s.period k) ||
      !inRange 1 99 (s.fget (WDG_SLOT_CFG_OPEN_PCT n)) || s.fget (WDG_SLOT_SEED_SEED n) == 0)

def State.serviceBad (s : State) (c : ConfigImage) : Bool :=
  !inRange 5 25 (s.fget RED_CFG_MIRWIN_PCT) || !inRange 10 3600 (s.fget RED_DWELL_DWELL_S) || !inRange 2 50 (s.fget RED_RAMP_RAMP_MS) ||
    c.mirror.any regionBad || s.validEntries.any (fun e => s.unmirrored e.2) || (List.range 24).any s.slotBad ||
    s.fget RTC_CFG_REFSRC == 3

/-! ## The groups together (R549) -/

/-- The lowest check group that fails, 0 when all pass. Signature and binding come first; only when they pass do the others run.
DEDUCED: assumption 30. -/
def State.checkGroup (s : State) (c : ConfigImage) (authentic : Bool) (slotId : Nat) : Nat :=
  if authentic = false then 1
  else if s.classesBad then 2
  else if s.strandsBad c then 3
  else if s.heddleFails.isSome then 4
  else if s.hedgeReason c slotId ≠ 0 then 5
  else if s.queuesBad c then 6
  else if s.enginesBad then 7
  else if s.channelsBad then 8
  else if s.portsBad then 9
  else if s.serviceBad c then 10
  else 0

end Sys2Proof.Machine
end

