-- ==== Sys2Proof/Machine/StartUp.lean ====
section
/-!
DEFINITION. The start-up sequence: slot selection, LOAD of the configuration image, the edit journal, the restore of retentive data,
and the mode entered at step 8 (R274 to R281, R304, R311, R455, R494, R501, R505, R549).
-/
namespace Sys2Proof.Machine

/-! ## Steps 1 to 5 (R258, R259, R274, R275) -/

/-- The key switch as the start finds it: a valid position, or STOP while there is none (R259).
DEDUCED: assumption 32. -/
def State.readKey (s : State) (x : StartIn) : State :=
  let raw := x.contacts.toNat
  let s := s.fput SYS_KEY_RAW raw
  if x.keyFault then
    let s := (s.setFlag SYS_KEY_KEYFAULT true).setFlag SYS_EVT_KEYFLT true
    s.raise 0x0103 0 (leBytes 1 raw ++ leBytes 1 1)
  else if popcount 4 raw = 1 then s.fput SYS_KEY_POS ((findIdx 4 (bitAt raw)).getD 0)
  else s

/-- What the companion has kept for this start: a clock fault, a steward mismatch, an invalid clock, the state of the cell (R20,
R419, R470, R527). -/
def State.companionReports (s : State) (x : StartIn) : State :=
  let s := match s.ctl.clockFault with
    | some p => ({ s with ctl := { s.ctl with clockFault := none } }).raise 0x010A 0 p
    | none => s
  let s := match s.keep.stewardLane with
    | some l => ({ s with keep := { s.keep with stewardLane := none } }).raise 0x0C02 l (leBytes 1 l)
    | none => s
  let s := if s.keep.lost then s.raise 0x1004 0 (leBytes 6 s.rtc.count) else s
  { s with supply := { s.supply with cellBad := decide (x.cellMv < 2600), onCell := false } }

/-- A step of 2 to 6 fails: the module stays in POWER-UP. The spec gives no reasons within these steps, so REASON is open
(assumption 4). -/
def State.stepFails (s : State) (step : Nat) : State :=
  let reason := Config.freeNat s.free % 256
  let f := s.fget SYS_CMPFAIL_STRAND
  let s := ((s.draw.fput SYS_BOOT_STEP step).setFlag SYS_BOOT_FAIL true).fput SYS_BOOT_REASON reason
  let s := { s with ctl := { s.ctl with faultN := true } }
  s.raise 0x0106 0 (leBytes 1 step ++ leBytes 1 reason ++ leBytes 2 f ++ leBytes 1 (s.fget SYS_CMPFAIL_SE) ++
    leBytes 1 (s.fget SYS_CMPFAIL_STEWARD + 2 * s.fget SYS_CMPFAIL_PREDEC))

/-- The comparator test: its failures are shown, and one that passes at a start from POR clears the FAILED marks (R191, R275). -/
def State.comparatorTest (s : State) (fails : Word) : State :=
  let s := s.rset SYS_CMPFAIL (fails &&& 0x03FFFFFF)
  if fails &&& 0x03FFFFFF = 0 ∧ s.fget SYS_RSTCAUSE_CAUSE = rcPor then { s with seFailedKeep := 0 } else s

/-! ## Step 6 (R494, R506) -/

/-- Slot `i` verifies: the signatures, the binding and every segment (R494, R496). -/
def State.slotVerifies (s : State) (i : Nat) (c : SlotCheck) : Bool :=
  s.sigOk c.sig && c.bind.ok && c.segments && (c.uids.isEmpty || c.uids.contains Config.uid) && decide (s.minSvn ≤ s.manifest i 14 2)

/-- The anchor selects a slot: the one it starts, if any, and whether on trial. `n` bounds the repetitions: every one marks a slot
FAILED. Which conditions of R503 an interrupted trial had met is not kept, and open in the event. -/
def State.selectSlot (s : State) (x : StartIn) : Nat → State × Option (Nat × Bool)
  | 0 => (s, none)
  | n + 1 =>
    let has := fun st => findIdx 2 (fun i => s.slotState i == st)
    let ok := fun (i : Nat) => s.slotVerifies i (if i = 0 then x.verify0 else x.verify1)
    match has slStarted, has slTrial with
    | some i, _ =>
      let s := s.draw.fallBack i 3 (s.fget SYS_RSTCAUSE_CAUSE) (Config.freeNat s.free % 8)
      State.selectSlot (s.fput SYS_RSTCAUSE_CAUSE rcFallback) x n
    | none, some i =>
      let s := s.markSlot i mkStarted
      if ok i then (s, some (i, true)) else State.selectSlot (s.markSlot i mkFailed) x n
    | none, none =>
      match (List.range 2).filter (fun i => s.slotState i == slConfirmed) with
      | [] => (s, none)
      | i :: rest =>
        let i := match rest with
          | j :: _ => if s.manifest i 14 2 < s.manifest j 14 2 then j else i
          | [] => i
        if ok i then (s, some (i, false)) else State.selectSlot (s.markSlot i mkFailed) x n

/-- No slot can be started: recovery (R506). -/
def State.enterRecovery (s : State) : State :=
  let slot := (findIdx 2 (fun i => s.slotState i == slEmpty || s.slotState i == slFailed)).getD 0
  ((s.stepFails 6).setFlag UPD_STAT_RECOVERY true).raise 0x1107 slot (leBytes 1 0 ++ leBytes 1 slot)

/-- The selected slot is active; a trial runs from step 8 on (R494, R503). -/
def State.takeSlot (s : State) (slot : Nat) (trial : Bool) : State :=
  let s := (s.fput UPD_SLOT_ACTIVE slot).setFlag UPD_SLOT_TRIAL trial
  if trial then
    let w := s.manifest slot 28 4
    { s with upd := { s.upd with trial := some { begun := s.fab, window := if w = 0 then 600 else w, slotFault := false,
                                                 failed := none, spoilt := false } } }
  else s

/-! ## Step 7: the image (R274, R347, R349, R549) -/

/-- A setting of the image: the writable and the lockable fields of its register. The steward slots of the watchdog are not the
image's, and RTC_TRIM takes a value only without a reference (R3, R439, R487). -/
def State.imageReg (s : State) (a : Nat) (v : Word) : State :=
  match regRow a with
  | none => s
  | some r =>
    let m := BitVec.ofNat 32 (r.rw ||| r.lk)
    if a = RTC_TRIM ∨ (WDG_SLOT_CFG 24 ≤ a ∧ a ≤ WDG_SLOT_SEED 31) then s
    else if a = RTC_ALM_CTRL then s.almWrite v.toNat
    else s.rset a ((s.rget a &&& ~~~m) ||| (v &&& m))

/-- The link map gives each port of this module its far end (R348). -/
def State.imageLink (s : State) (x : HedgeLink) : State :=
  let put := fun (s : State) (m p : Nat) (fm fp : Nat) =>
    if m = s.member then ((s.setFlag (MEL_LINK_EN p) true).fput (MEL_LINK_PEER_MOD p) fm).fput (MEL_LINK_PEER_PORT p) fp else s
  put (put s x.mod1 x.port1 x.mod2 x.port2) x.mod2 x.port2 x.mod1 x.port1

/-- The hedge as the image lays it out (R345 to R360, R368). -/
def State.imageHedge (s : State) (h : HedgeImage) (slotId : Nat) : State :=
  if s.flag MEL_CFG_HEDGE then
    let s := each h.links (s.fput MEL_CFG_INDEX slotId) State.imageLink
    let path := (((h.paths[slotId]?).getD []).zipIdx.map (fun p => p.1 * 4 ^ p.2)).sum
    let s := ((s.fput MEL_PATH_PATH path).fput MEL_PATH_PM (hopsPm h)).fput MEL_PATH_HMAX (hopsMax h)
    let s := s.fput MEL_IMPORT_NIMPORT h.imports.length
    each s.classesOn s (fun s k =>
      let x := (h.hops[k]?).getD (0, 0)
      ((s.fput (MEL_XPARM_P k) x.1).fput (MEL_XPARM_GX k) x.2).fput (MEL_XBOUND_X_NS k) (exchangeBound h k))
  else s

/-- The class of a strand as its mask names it. -/
def maskClass (m : BitVec 4) : Nat := (findIdx 4 (bitAt m.toNat)).getD 0

/-- A pipeline with its stages, run by the engine that the image names. -/
def State.imagePipe (s : State) (p : Nat) (l : List Stage) : State :=
  s.setPipe p { s.pipe p with stages := l, st := l.map (fun _ => StageSt.init) }

/-- The settings that only an image gives are at their reset values before it loads (R16). The steward slots of the watchdog are the
firmware's, the RTC's fields the companion's (R439, R469). -/
def State.settingsReset (s : State) : State :=
  { s with regs := s.regs.filterMap (fun e =>
      if (WDG_SLOT_CFG 24 ≤ e.1 ∧ e.1 ≤ WDG_SLOT_SEED 31) ∨ (RTC_STAT / 0x10000 = e.1 / 0x10000) then some e
      else match regRow e.1 with
        | some r =>
          let m := BitVec.ofNat 32 r.lk
          let v := (e.2 &&& ~~~m) ||| (regReset e.1 &&& m)
          if v = regReset e.1 then none else some (e.1, v)
        | none => some e) }

/-- The state with the image in it, as the checks judge it and as LOAD leaves it when they pass. The data layout for the mirror
comes from the manifest (R495). -/
def State.withImage (s : State) (x : StartIn) : State :=
  let c := x.image
  let s := each c.regs s.settingsReset (fun s r => s.imageReg r.1 r.2)
  let s := if s.fget RTC_CFG_REFSRC = 0 then
      each (c.regs.filter (fun r => r.1 == RTC_TRIM)) s (fun s r => s.setTrim (sgn 32 r.2.toNat))
    else s
  let s := (s.fput RED_MLID_MLID (s.manifest s.activeSlot 24 4)).imageHedge c.hedge x.slotId.toNat
  let s := each c.strands.zipIdx s (fun (s : State) e =>
    { s with scfg := tset StrandCfg.default s.scfg e.2 { e.1.2 with cls := maskClass e.1.1 } })
  let s := each (c.heddle.filter (fun e => decide (e.1 < 16384))) s (fun (s : State) e =>
    { s with heddle := tset 0 s.heddle e.1 e.2 })
  let s := each c.code s (fun s e => s.msetN (keyImem e.1 0 0) (e.2.take 0x80000))
  let s := each (c.pipes.filter (fun p => decide (p.1 < 256))) s (fun s p => s.imagePipe p.1 p.2)
  let s := each (List.range 256) s (fun s p => s.fput (SE_PIPE_STAT_HOST p) (s.fget (SE_PIPE_CFG_ENGINE p)))
  let s := each c.pipeSrc s (fun (s : State) e => { s with pipeSrc := tset 0 s.pipeSrc e.1 e.2 })
  let s := each c.streams s (fun (s : State) e => { s with streamCfg := tset StreamCfg.reset s.streamCfg e.1 e.2 })
  { s with retMap := c.retMap, config := some c }

/-- The results that LOAD shows in registers (R107, R109, R188, R192, R195, R310, R378). -/
def State.showLoaded (s : State) : State :=
  let s := each ((List.range 16).filter s.inputPipe) s (fun s p => s.fput (SE_PIPE_DLY_DLY_US p) (s.pipeDelay p))
  let s := each (List.range 4) s (fun s p =>
    s.fput (ETH_PWIN_WIN_NS p)
      (((s.classesOn.filter (fun k => !(s.portStreams p k).isEmpty)).map (s.rioWin p)).foldl max 0))
  ((s.showLoad.showTable).showBeam).setFlag RED_STAT_PREFERRED s.preferred

/-- A configuration fault: nothing of the image is loaded, and the failing check groups report (R87, R549). `t` is the state with
the image, which is given up. Under reason 0x0B an entry whose SWIDX is only out of range has no earlier entry; that OTHER and the
payload then read 0 is the model's choice: DESIGN CHOICE, assumption 26. -/
def State.configFault (s t : State) (x : StartIn) (group : Nat) : State :=
  let s := (((s.fput SYS_BOOT_STEP 7).setFlag SYS_BOOT_FAIL true).fput SYS_BOOT_REASON group).setFlag SYS_MODE_CFGFAULT true
  let s := if group = 1 then s else
    let s := s.fput MEL_STAT_REASON (t.hedgeReason x.image x.slotId.toNat)
    match t.heddleFails with
    | some (i, reason, other) =>
      let pair := reason = 0x06 ∨ reason = 0x0B
      let s := ((s.fput HDL_LDERR_ENTRY i).fput HDL_LDERR_REASON reason).fput HDL_LDERR2_OTHER (if pair then other else 0)
      s.raise 0x0301 0 (leBytes 2 i ++ leBytes 1 reason ++ leBytes 1 0 ++ leBytes 2 (if pair then other else 0xFFFF))
    | none => s
  s.raise 0x0106 0 (leBytes 1 7 ++ leBytes 1 group)

/-! ## Step 7: front ends (R227 to R229, R505) -/

/-- Channel `n` boots its front end with the microcode of the slot. -/
def State.bootFront (s : State) (x : StartIn) (n : Nat) : State :=
  match x.fronts[n]? with
  | none => (s.setFlag (UC_EVT_LINKDOWN n) true).raise 0x0601 n (leBytes 1 n ++ leBytes 1 1)
  | some f =>
    if f.boots = false then (s.setFlag (UC_EVT_LINKDOWN n) true).raise 0x0601 n (leBytes 1 n ++ leBytes 1 1)
    else
      let sfmt := s.manifest s.activeSlot 40 1
      let want := ((x.image.sfmt[n]?).getD 0) % 256
      let s := (s.setFlag (UC_STAT_ONLINE n) true).setFlag (UC_EVT_LINKUP n) true
      let s := (s.setFlag (UC_STAT_CAL_OK n) f.calOk).setFlag (UC_STAT_FMT_OK n) (sfmt == want)
      let s := ((s.fput (UC_FWVER_UCODE n) x.ucode.toNat).fput (UC_FWVER_SFMT n) sfmt).fput (UC_FWVER_BOOT n) f.bootVer.toNat
      let s := (s.setFlag (UC_CALINFO_VALID n) f.calOk).fput (UC_CALINFO_CALDAY n) f.calDay.toNat
      let mode := s.ucMode n
      let s := s.setUc n { Uc.reset with calOk := f.calOk, running := true, gf := if f.calOk then Config.calGain n mode else 2 ^ 30,
                                         ofs := if f.calOk then Config.calOffset n mode else 0, out := s.ucIdle n,
                                         cjOfs := if f.calOk then Config.calJunction n else 0 }
      let s := if f.calOk then s else
        (s.setFlag (UC_EVT_CALBAD n) true).raise 0x0604 n (leBytes 1 n ++ leBytes 1 (s.ucMode n))
      let s := if f.sfmt % 256 = sfmt ∧ sfmt = want then s else s.setFlag (UC_EVT_FMTDEF n) true
      if sfmt = want then s
      else (s.fput (UC_MODE_MODE n) 0).raise 0x0605 n (leBytes 1 n ++ leBytes 1 want ++ leBytes 1 sfmt)

/-! ## Step 7: the edit journal (R303, R304) -/

/-- The configuration with an edit in it, and its code in the active banks. -/
def State.applyEdit (s : State) (p : EditPkg) : State :=
  let s := s.edited p
  let s := each p.code s (fun (s : State) c =>
    let lo := keyImem c.1 0 0
    ({ s with mem := s.mem.filter (fun m => !decide (lo ≤ m.1 ∧ m.1 < lo + 0x80000)) }).msetN lo (c.2.take 0x80000))
  let s := each p.stages s (fun s x => s.setStages x.1 x.2)
  { s with retMap := s.newRetMap p }

/-- A PREPARED record of the active slot is resolved by the edit marker of keep RAM. -/
def State.resolveMark (s : State) (r : JournalRec) : JournalRec :=
  if r.slot = s.activeSlot ∧ r.mark = .prepared then { r with mark := if s.keep.editMarker = r.pkg.seq then .committed else .void } else r

/-- The records of the active slot in sequence order. -/
def State.applyJournal (s : State) : State :=
  let t := { s with journal := s.journal.map s.resolveMark }
  (each (s.journal.filter (fun r => r.slot == s.activeSlot)) t (fun s r =>
    let seq := r.pkg.seq
    match r.mark with
    | .committed => s.applyEdit r.pkg
    | .prepared =>
      if s.keep.editMarker = seq then
        let s := (s.applyEdit r.pkg).raise 0x1147 seq.toNat (leBytes 2 seq.toNat ++ leBytes 1 1)
        if s.journalCount = 240 then s.raise 0x1146 0 (leBytes 2 240) else s
      else s.raise 0x1147 seq.toNat (leBytes 2 seq.toNat ++ leBytes 1 0)
    | .staged => s
    | .void => s)).showJournal

/-! ## Step 7: retentive data (R278, R279, R435, R455) -/

/-- Why keep RAM is no source of the restore: OK when it is one. -/
def State.keepStatus (s : State) : Nat :=
  if s.integ.any (fun g => decide (keyKeep 0 / 32 ≤ g ∧ g < keyKeep 0 / 32 + 16384)) then scInteg
  else if s.keep.sealOpen then scState
  else if s.keep.lost then scAbsent
  else scOk

/-- A page of the span from the checkpoint's number S to the newest page reads INTEG; the page of a number that is not among the
valid pages is the one in its slot (R279). -/
def State.spanInteg (s : State) (c : Consol) : Bool :=
  match c.ckpt, s.ringPages.getLast? with
  | some (n, _), some (newest, last) =>
    (List.range (min ringSlots (newest + 1 - n))).any (fun i =>
      let page := slotPage ((last.slot + ringSlots - i) % ringSlots)
      (List.range 16).any (fun r => s.rowInteg (16 * page + r)))
  | _, _ => false

/-- Why the coppice ring is no source of the restore (R279). What a ring that a failed trial has marked reports is open. -/
def State.ringStatus (s : State) (c : Consol) : Nat :=
  if s.keep.ringVoid then Config.freeNat s.free % 12
  else if c.complete then scOk
  else if s.spanInteg c then scInteg
  else if s.ringPages.isEmpty = false ∧ c.flushEnd = false then scState
  else scAbsent

/-- The kind of the first restart, by its occasion: true is cold (R278). DEDUCED: assumption 31. -/
def State.restartKind (s : State) : Bool :=
  let cause := s.fget SYS_RSTCAUSE_CAUSE
  match s.ctl.resetKind with
  | some cold => cause != rcFallback && cold
  | none => cause == rcPor && !s.flag SYS_RSTCAUSE_WAKE && s.flag SYS_RESTART_PWRRET

/-- Retentive data goes into the classes' data from the first complete source; without one the restart is cold.
DEDUCED: assumption 31. -/
def State.restoreData (s : State) : State :=
  let c := s.consolidate
  let k := s.keepStatus
  let r := s.ringStatus c
  let ring := !s.keep.ringVoid && c.complete
  let s := if s.keep.ringVoid then s.draw else s
  let s := s.consolShow c
  let s := if k = scOk then s else { s with keep := { s.keep with restarts := [] } }
  let s := s.initProgram.initStatus
  let kind := s.restartKind
  let put := fun (s : State) (cold : Bool) (src : Nat) =>
    { s.fput SYS_RSTCAUSE_RETSRC src with
        ctl := { s.ctl with resetKind := some cold, restartDue := true },
        keep := { s.keep with lost := false, ringVoid := false } }
  if kind then put s true 3
  else if k = scOk then put s.retRestore false 0
  else if ring then
    let s := s.consolApply c
    put ({ s with keep := { s.keep with sealOpen := false } }).retRestore false 1
  else put (s.raise 0x0107 0 (leBytes 1 k ++ leBytes 1 r)) true 2

/-! ## Step 7 as a whole -/

/-- The steward slots that the firmware registers (R429). DEDUCED: assumption 45. -/
def State.registerSlots (s : State) (l : List (Fin 8 × Word × Word × Word)) : State :=
  each l s (fun s x =>
    let n := 24 + x.1.val
    let s := (s.rset (WDG_SLOT_CFG n) (x.2.1 &&& 0x807F0000)).rset (WDG_SLOT_P n) (x.2.2.1 &&& 0x00FFFFFF)
    let s := s.rset (WDG_SLOT_SEED n) (x.2.2.2 &&& 0x0000FFFF)
    if s.wdgEnabled n then s.wdgArm n 0 else s)

/-- The ports that the link map names start training, whatever the other checks find: `t` is the state with the image, whose link
registers are taken (R349). -/
def State.trainPorts (s t : State) : State :=
  if t.flag MEL_CFG_HEDGE then
    each ((List.range 4).filter (fun n => t.flag (MEL_LINK_EN n))) (s.fput MEL_STAT_STATE 1) (fun s n =>
      (s.rset (MEL_LINK n) (t.rget (MEL_LINK n))).setPort n 1)
  else s

/-- The image loads: front ends boot and the journal is applied.
DESIGN CHOICE: assumption 29. -/
def State.loadImage (t : State) (x : StartIn) : State :=
  let t := each (List.range 16) t (fun t n => t.bootFront x n)
  let t := t.applyJournal.showLoaded.dioStart
  let t := if t.flag MEL_CFG_HEDGE then { t with hedge := { t.hedge with step7At := some t.fab } } else t
  { t with upd := { t.upd with recIp := t.rget (ETH_IPADDR 0) } }

/-- The clock reaches `ms` milliseconds after the start of step 1. DESIGN CHOICE: assumption 29. -/
def State.bootClock (s : State) (began ms : Nat) : State :=
  let d := (began + ms * 500000) - s.fab
  { s with fab := s.fab + d, tb := s.tb + BitVec.ofNat 64 (d / 500) }

/-- Step 7: forces are released; the configuration, the recorder, the counters, retentive data and the delivery; then the lock (R74,
R274, R281, R458, R462, R501). DESIGN CHOICE: assumption 29. -/
def State.step7 (s : State) (x : StartIn) : State :=
  let s := ((s.bootClock s.fab x.loadMs).setMode mLoad 3).fput SYS_BOOT_STEP 7
  let s := (s.fput SE_STAT_FAILED s.seFailedKeep).unforceAll
  let t := s.withImage x
  let group := t.checkGroup x.image (s.sigOk x.sig && x.bind.ok) x.slotId.toNat
  let s := if group = 0 then (t.trainPorts t).loadImage x
    else (if group = 1 then s else s.trainPorts t).configFault t x group
  let keepOk := s.keepStatus == scOk
  let s := ((s.restoreData.recorderStart keepOk).qsRestore).deliveryStart
  let s := if s.config.isNone then s.fput SYS_RSTCAUSE_RETSRC 3 else s
  let s := (s.fput WDG_RSTTOT_TOTAL (s.qsc 0).value).showVersions.showOwner
  s.setFlag SYS_CFGLOCK_LOCK true

/-! ## Step 8 (R276, R308 to R311, R351, R480) -/

/-- TB takes the reference that step 8 has acquired, or the value of the RTC without one (R62, R64, R274, R480). -/
def State.startTb (s : State) (x : StartIn) : State :=
  match x.refTime with
  | some ns => if s.flag ETH_CFG_AS_EN && s.usesGptp then s.followRef 1 ns.toNat else s
  | none =>
    let tb := s.tbOf s.rtc.count
    if s.fget CYC_SYNC_SOURCE = 0 ∧ s.flag RTC_STAT_VALID ∧ (s.tbNat : Int) < tb then s.stepTb (1000 * tb.toNat) else s

/-- STOP at step 8. -/
def State.bootStop (s : State) : State := ((({ s with ctl := { s.ctl with booting := true } }).setMode mStop 3)).bootEnd

/-- A unit configured as paired judges pairing and decides its role: TRACK, the primary role, or up to 3 s of waiting (R309,
R311). -/
def State.bootPaired (s : State) (x : StartIn) (target req : Nat) : State :=
  let takes := !x.batonIn && s.preferred
  let s := match x.partner with
    | some p =>
      if takes then ((s.fput RED_STAT_ROLE 1).judgePair p).fput RED_STAT_ROLE 0 else s.judgePair p
    | none => s
  if x.batonIn then
    if s.redState = stRefused then s.bootStop else s.acceptChange mTrack req 3 false
  else if takes then s.acceptChange target req 3 false
  else { s with red := { s.red with waitRole := some s.fab } }

/-- Step 8: the mode that R276 gives. DESIGN CHOICE: assumption 29. -/
def State.step8 (s : State) (x : StartIn) : State :=
  let s := ({ s with ctl := { s.ctl with bootAt := s.fab, bootMs := x.bootMs } }).startTb x
  let s := if s.flag SYS_BOOT_FAIL then s else s.fput SYS_BOOT_STEP 8
  let pos := s.fget SYS_KEY_POS
  let stop := s.flag SYS_KEY_KEYFAULT || pos == 0
  let held := s.ctl.lockKeep || s.ctl.lockStore
  let s := if held && stop && s.fget SYS_RSTCAUSE_CAUSE == rcPor then s.lockoutLeft 0 else s
  let s := { s with ctl := { s.ctl with booting := true } }
  if s.ctl.lockKeep || s.ctl.lockStore then ((s.setMode mLockout 3).fput SYS_FAULT_EVCODE 0x0D03).bootEnd
  else
    let s := s.judgeForm x.hedge
    if s.execBarred || stop || !s.flag SYS_RESTART_AUTOSTART then
      let s := match x.partner with
        | some p => s.judgePair p
        | none => s
      s.bootStop
    else if s.flag RED_CFG_PAIRED then s.bootPaired x (keyMode pos) (0x10 + pos)
    else s.acceptChange (keyMode pos) (0x10 + pos) 3 false

/-! ## The whole sequence -/

/-- The die as the start finds it: a return of the supply resets it with cause POR; when the supply has failed abruptly, running
operations of the store are torn (R12, R271, R443). -/
def State.supplyReturns (s : State) (abrupt : Bool) : State :=
  let wake := s.mode == mDormant && !s.ctl.held
  let s := if abrupt then let t := s.storeTorn; { t with store := { t.store with running := [] } } else s
  let s := { s with ctl := { s.ctl with held := false } }
  s.dieReset rcPor wake

/-- Steps 2 to 8. A step that fails ends the sequence. -/
def State.startUp (s : State) (x : StartIn) : State :=
  let s := ((s.readKey x).companionReports x).setFlag RED_STAT_BATON_IN x.batonIn
  let s := s.registerSlots x.stewardSlots
  if x.romOk = false then s.stepFails 2
  else if x.initOk = false then s.stepFails 3
  else
    let s := s.comparatorTest x.cmpFail
    if s.rget SYS_CMPFAIL ≠ 0 then s.stepFails 4
    else if x.anchorOk = false then s.stepFails 5
    else
      match s.selectSlot x 6 with
      | (s, none) => s.enterRecovery
      | (s, some (slot, trial)) => ((((s.takeSlot slot trial).step7 x).bootClock s.fab x.bootMs).step8 x)

/-- START_UP: the supply returns, or the die starts after a reset (R274). A die that is held, powered down or past its start needs a
reset first. DESIGN CHOICE: assumption 29. -/
def execStartUp (x : StartIn) (s : State) : Out :=
  match x.supply with
  | some abrupt => .next ((s.supplyReturns abrupt).startUp x)
  | none => if s.ctl.held || s.mode != mPowerUp || s.flag SYS_BOOT_FAIL then .next s else .next (s.startUp x)

end Sys2Proof.Machine
end

