-- ==== Sys2Proof/Machine/Dispatch.lean ====
section
/-!
DEFINITION. The dispatch: one arm per command, each the direct call of that command's meaning.
-/
namespace Sys2Proof.Machine

def exec (i : Instr) (s : State) : Host.Outcome State Fault Refusal :=
  match i with
  | .clockFault cause ppm => Sys2Proof.Machine.execClockFault cause ppm s
  | .fabricAdmission => Sys2Proof.Machine.execFabricAdmission s
  | .registerWrite addr v hw => Sys2Proof.Machine.execRegisterWrite addr v hw s
  | .readClear addr hw => Sys2Proof.Machine.execReadClear addr hw s
  | .highWordLatch addr => Sys2Proof.Machine.execHighWordLatch addr s
  | .cycleStart k rb above9 found => Sys2Proof.Machine.execCycleStart k rb above9 found s
  | .shed k => Sys2Proof.Machine.execShed k s
  | .beamStart k => Sys2Proof.Machine.execBeamStart k s
  | .commitComplete k => Sys2Proof.Machine.execCommitComplete k s
  | .commitDeadline k => Sys2Proof.Machine.execCommitDeadline k s
  | .emit k => Sys2Proof.Machine.execEmit k s
  | .gateClose p k => Sys2Proof.Machine.execGateClose p k s
  | .rioWindowEnd p => Sys2Proof.Machine.execRioWindowEnd p s
  | .beatTimeout k => Sys2Proof.Machine.execBeatTimeout k s
  | .gptpMessage p m => Sys2Proof.Machine.execGptpMessage p m s
  | .forceSet items forwarded => Sys2Proof.Machine.execForceSet items forwarded s
  | .forceRelease items forwarded => Sys2Proof.Machine.execForceRelease items forwarded s
  | .illegalInstruction st word => Sys2Proof.Machine.execIllegalInstruction st word s
  | .ldb st x => Sys2Proof.Machine.execLdb st x s
  | .ldbn st x => Sys2Proof.Machine.execLdbn st x s
  | .andb st x => Sys2Proof.Machine.execAndb st x s
  | .andbn st x => Sys2Proof.Machine.execAndbn st x s
  | .orb st x => Sys2Proof.Machine.execOrb st x s
  | .orbn st x => Sys2Proof.Machine.execOrbn st x s
  | .xorb st x => Sys2Proof.Machine.execXorb st x s
  | .ldbc st v => Sys2Proof.Machine.execLdbc st v s
  | .notb st => Sys2Proof.Machine.execNotb st s
  | .pshb st => Sys2Proof.Machine.execPshb st s
  | .andpb st => Sys2Proof.Machine.execAndpb st s
  | .orpb st => Sys2Proof.Machine.execOrpb st s
  | .xorpb st => Sys2Proof.Machine.execXorpb st s
  | .popb st => Sys2Proof.Machine.execPopb st s
  | .dupb st => Sys2Proof.Machine.execDupb st s
  | .outb st x => Sys2Proof.Machine.execOutb st x s
  | .setb st x => Sys2Proof.Machine.execSetb st x s
  | .rstb st x => Sys2Proof.Machine.execRstb st x s
  | .edgr st indexed field => Sys2Proof.Machine.execEdgr st indexed field s
  | .edgf st indexed field => Sys2Proof.Machine.execEdgf st indexed field s
  | .add st d a b => Sys2Proof.Machine.execAdd st d a b s
  | .addi st d a imm => Sys2Proof.Machine.execAddi st d a imm s
  | .adc st d a b => Sys2Proof.Machine.execAdc st d a b s
  | .sub st d a b => Sys2Proof.Machine.execSub st d a b s
  | .subi st d a imm => Sys2Proof.Machine.execSubi st d a imm s
  | .sbc st d a b => Sys2Proof.Machine.execSbc st d a b s
  | .cmp st a b => Sys2Proof.Machine.execCmp st a b s
  | .cmpi st a imm => Sys2Proof.Machine.execCmpi st a imm s
  | .neg st d a => Sys2Proof.Machine.execNeg st d a s
  | .and st d a b => Sys2Proof.Machine.execAnd st d a b s
  | .andi st d a imm => Sys2Proof.Machine.execAndi st d a imm s
  | .or st d a b => Sys2Proof.Machine.execOr st d a b s
  | .ori st d a imm => Sys2Proof.Machine.execOri st d a imm s
  | .xor st d a b => Sys2Proof.Machine.execXor st d a b s
  | .xori st d a imm => Sys2Proof.Machine.execXori st d a imm s
  | .not st d a => Sys2Proof.Machine.execNot st d a s
  | .tst st a b => Sys2Proof.Machine.execTst st a b s
  | .shl st d a amt => Sys2Proof.Machine.execShl st d a amt s
  | .shr st d a amt => Sys2Proof.Machine.execShr st d a amt s
  | .sar st d a amt => Sys2Proof.Machine.execSar st d a amt s
  | .ror st d a amt => Sys2Proof.Machine.execRor st d a amt s
  | .mul st d a b => Sys2Proof.Machine.execMul st d a b s
  | .mulu st d a b => Sys2Proof.Machine.execMulu st d a b s
  | .div st d a b => Sys2Proof.Machine.execDiv st d a b s
  | .divu st d a b => Sys2Proof.Machine.execDivu st d a b s
  | .rem st d a b => Sys2Proof.Machine.execRem st d a b s
  | .remu st d a b => Sys2Proof.Machine.execRemu st d a b s
  | .min st d a b => Sys2Proof.Machine.execMin st d a b s
  | .max st d a b => Sys2Proof.Machine.execMax st d a b s
  | .minu st d a b => Sys2Proof.Machine.execMinu st d a b s
  | .maxu st d a b => Sys2Proof.Machine.execMaxu st d a b s
  | .clz st d a => Sys2Proof.Machine.execClz st d a s
  | .mov st d a => Sys2Proof.Machine.execMov st d a s
  | .movl st d imm => Sys2Proof.Machine.execMovl st d imm s
  | .movh st d imm => Sys2Proof.Machine.execMovh st d imm s
  | .sxtb st d a => Sys2Proof.Machine.execSxtb st d a s
  | .sxth st d a => Sys2Proof.Machine.execSxth st d a s
  | .zxtb st d a => Sys2Proof.Machine.execZxtb st d a s
  | .zxth st d a => Sys2Proof.Machine.execZxth st d a s
  | .mpy st n a b => Sys2Proof.Machine.execMpy st n a b s
  | .mac st n a b => Sys2Proof.Machine.execMac st n a b s
  | .msu st n a b => Sys2Proof.Machine.execMsu st n a b s
  | .macp st n pa pb => Sys2Proof.Machine.execMacp st n pa pb s
  | .msup st n pa pb => Sys2Proof.Machine.execMsup st n pa pb s
  | .clra st n => Sys2Proof.Machine.execClra st n s
  | .adda st n m => Sys2Proof.Machine.execAdda st n m s
  | .suba st n m => Sys2Proof.Machine.execSuba st n m s
  | .asha st n sh => Sys2Proof.Machine.execAsha st n sh s
  | .accr st d n => Sys2Proof.Machine.execAccr st d n s
  | .rdal st d n => Sys2Proof.Machine.execRdal st d n s
  | .rdah st d n => Sys2Proof.Machine.execRdah st d n s
  | .rdag st d n => Sys2Proof.Machine.execRdag st d n s
  | .wral st n a => Sys2Proof.Machine.execWral st n a s
  | .wrah st n a => Sys2Proof.Machine.execWrah st n a s
  | .wrag st n a => Sys2Proof.Machine.execWrag st n a s
  | .fmul st d a b => Sys2Proof.Machine.execFmul st d a b s
  | .qadd st d a b => Sys2Proof.Machine.execQadd st d a b s
  | .qsub st d a b => Sys2Proof.Machine.execQsub st d a b s
  | .qneg st d a => Sys2Proof.Machine.execQneg st d a s
  | .qabs st d a => Sys2Proof.Machine.execQabs st d a s
  | .lw st r x => Sys2Proof.Machine.execLw st r x s
  | .lh st r x => Sys2Proof.Machine.execLh st r x s
  | .lhu st r x => Sys2Proof.Machine.execLhu st r x s
  | .lby st r x => Sys2Proof.Machine.execLby st r x s
  | .lbyu st r x => Sys2Proof.Machine.execLbyu st r x s
  | .sw st r x => Sys2Proof.Machine.execSw st r x s
  | .sh st r x => Sys2Proof.Machine.execSh st r x s
  | .sby st r x => Sys2Proof.Machine.execSby st r x s
  | .movp st n a => Sys2Proof.Machine.execMovp st n a s
  | .rdp st d n => Sys2Proof.Machine.execRdp st d n s
  | .wrl st n a => Sys2Proof.Machine.execWrl st n a s
  | .rdl st d n => Sys2Proof.Machine.execRdl st d n s
  | .lr st d b => Sys2Proof.Machine.execLr st d b s
  | .sc st d a b => Sys2Proof.Machine.execSc st d a b s
  | .tsb st d x => Sys2Proof.Machine.execTsb st d x s
  | .clb st d x => Sys2Proof.Machine.execClb st d x s
  | .b st cond disp => Sys2Proof.Machine.execB st cond disp s
  | .dbnz st n disp => Sys2Proof.Machine.execDbnz st n disp s
  | .jr st a => Sys2Proof.Machine.execJr st a s
  | .call st disp => Sys2Proof.Machine.execCall st disp s
  | .callr st a => Sys2Proof.Machine.execCallr st a s
  | .ret st => Sys2Proof.Machine.execRet st s
  | .push st a => Sys2Proof.Machine.execPush st a s
  | .pop st d => Sys2Proof.Machine.execPop st d s
  | .adjsp st imm => Sys2Proof.Machine.execAdjsp st imm s
  | .rddsp st d => Sys2Proof.Machine.execRddsp st d s
  | .rdrsp st d => Sys2Proof.Machine.execRdrsp st d s
  | .nop st => Sys2Proof.Machine.execNop st s
  | .beat st k => Sys2Proof.Machine.execBeat st k s
  | .endc st => Sys2Proof.Machine.execEndc st s
  | .fence st => Sys2Proof.Machine.execFence st s
  | .chkin st a => Sys2Proof.Machine.execChkin st a s
  | .sej st d a => Sys2Proof.Machine.execSej st d a s
  | .rdsys st d b imm => Sys2Proof.Machine.execRdsys st d b imm s
  | .wrsys st a b imm => Sys2Proof.Machine.execWrsys st a b imm s
  | .setbk st a => Sys2Proof.Machine.execSetbk st a s
  | .setbki st imm => Sys2Proof.Machine.execSetbki st imm s
  | .rdbk st d => Sys2Proof.Machine.execRdbk st d s
  | .rdctx st d => Sys2Proof.Machine.execRdctx st d s
  | .trap st n => Sys2Proof.Machine.execTrap st n s
  | .rdfl st d => Sys2Proof.Machine.execRdfl st d s
  | .wrfl st a => Sys2Proof.Machine.execWrfl st a s
  | .clrq st => Sys2Proof.Machine.execClrq st s
  | .rdfxm st d => Sys2Proof.Machine.execRdfxm st d s
  | .wrfxm st a => Sys2Proof.Machine.execWrfxm st a s
  | .pipelineSample p bits feQuality cj sec copies checks => Sys2Proof.Machine.execPipelineSample p bits feQuality cj sec copies checks s
  | .jobComplete k checks => Sys2Proof.Machine.execJobComplete k checks s
  | .ucLinkLoss n => Sys2Proof.Machine.execUcLinkLoss n s
  | .brownout n vt => Sys2Proof.Machine.execBrownout n vt s
  | .frontEndRestart n vt intact => Sys2Proof.Machine.execFrontEndRestart n vt intact s
  | .commandLoss n => Sys2Proof.Machine.execCommandLoss n s
  | .diagChange n a b c => Sys2Proof.Machine.execDiagChange n a b c s
  | .adcOverrange n x us => Sys2Proof.Machine.execAdcOverrange n x us s
  | .loopShort n vt atLimit us => Sys2Proof.Machine.execLoopShort n vt atLimit us s
  | .voltageOutputShort n atLimit us => Sys2Proof.Machine.execVoltageOutputShort n atLimit us s
  | .coldJunctionRestore n temp us => Sys2Proof.Machine.execColdJunctionRestore n temp us s
  | .groupSupplyMeasure g mv => Sys2Proof.Machine.execGroupSupplyMeasure g mv s
  | .groupCurrentTrip g ma => Sys2Proof.Machine.execGroupCurrentTrip g ma s
  | .overload n => Sys2Proof.Machine.execOverload n s
  | .thermalShutdown n => Sys2Proof.Machine.execThermalShutdown n s
  | .inputFilter n level => Sys2Proof.Machine.execInputFilter n level s
  | .counterEdge k a b => Sys2Proof.Machine.execCounterEdge k a b s
  | .noSignal k => Sys2Proof.Machine.execNoSignal k s
  | .keyPositionChange pos => Sys2Proof.Machine.execKeyPositionChange pos s
  | .keyFault raw => Sys2Proof.Machine.execKeyFault raw s
  | .stopRequest => Sys2Proof.Machine.execStopRequest s
  | .programRequest => Sys2Proof.Machine.execProgramRequest s
  | .runRequest => Sys2Proof.Machine.execRunRequest s
  | .serviceRequest => Sys2Proof.Machine.execServiceRequest s
  | .dormantRequest => Sys2Proof.Machine.execDormantRequest s
  | .restartRequest cold => Sys2Proof.Machine.execRestartRequest cold s
  | .startUp x => Sys2Proof.Machine.execStartUp x s
  | .roleWaitExpiry => Sys2Proof.Machine.execRoleWaitExpiry s
  | .externalReset => Sys2Proof.Machine.execExternalReset s
  | .pfail => Sys2Proof.Machine.execPfail s
  | .flushComplete => Sys2Proof.Machine.execFlushComplete s
  | .editPackage pkg via => Sys2Proof.Machine.execEditPackage pkg via s
  | .editConfirm => Sys2Proof.Machine.execEditConfirm s
  | .preparedAck seq => Sys2Proof.Machine.execPreparedAck seq s
  | .proposalLapse => Sys2Proof.Machine.execProposalLapse s
  | .editAbort => Sys2Proof.Machine.execEditAbort s
  | .dryPassAbandon k => Sys2Proof.Machine.execDryPassAbandon k s
  | .proofCycleAbandon k => Sys2Proof.Machine.execProofCycleAbandon k s
  | .melberLinkUp n partner hedge => Sys2Proof.Machine.execMelberLinkUp n partner hedge s
  | .melberLinkDown n => Sys2Proof.Machine.execMelberLinkDown n s
  | .frameResend n => Sys2Proof.Machine.execFrameResend n s
  | .mirrorCopyComplete k => Sys2Proof.Machine.execMirrorCopyComplete k s
  | .mirrorWindowExpiry k => Sys2Proof.Machine.execMirrorWindowExpiry k s
  | .mirrorSetReceived m t => Sys2Proof.Machine.execMirrorSetReceived m t s
  | .setAcknowledged k cycle report => Sys2Proof.Machine.execSetAcknowledged k cycle report s
  | .heartbeat => Sys2Proof.Machine.execHeartbeat s
  | .heartbeatReceived ml5 b => Sys2Proof.Machine.execHeartbeatReceived ml5 b s
  | .heartbeatTimeout => Sys2Proof.Machine.execHeartbeatTimeout s
  | .batonInFall => Sys2Proof.Machine.execBatonInFall s
  | .dualPrimaryYield => Sys2Proof.Machine.execDualPrimaryYield s
  | .batonFault => Sys2Proof.Machine.execBatonFault s
  | .batonFaultClear => Sys2Proof.Machine.execBatonFaultClear s
  | .handover => Sys2Proof.Machine.execHandover s
  | .resync => Sys2Proof.Machine.execResync s
  | .alignmentSegment m t ml5 => Sys2Proof.Machine.execAlignmentSegment m t ml5 s
  | .handoverProposal h trigger => Sys2Proof.Machine.execHandoverProposal h trigger s
  | .handoverAck h => Sys2Proof.Machine.execHandoverAck h s
  | .handoverLapse => Sys2Proof.Machine.execHandoverLapse s
  | .takeback => Sys2Proof.Machine.execTakeback s
  | .takebackDeferred => Sys2Proof.Machine.execTakebackDeferred s
  | .witnessHeartbeat p => Sys2Proof.Machine.execWitnessHeartbeat p s
  | .formationTimeout hedge => Sys2Proof.Machine.execFormationTimeout hedge s
  | .modeAnnounce a => Sys2Proof.Machine.execModeAnnounce a s
  | .timeMessage => Sys2Proof.Machine.execTimeMessage s
  | .timeMessageReceived m => Sys2Proof.Machine.execTimeMessageReceived m s
  | .beatMessage m => Sys2Proof.Machine.execBeatMessage m s
  | .exports m => Sys2Proof.Machine.execExports m s
  | .done k member => Sys2Proof.Machine.execDone k member s
  | .release k cycle late => Sys2Proof.Machine.execRelease k cycle late s
  | .cutInstant k => Sys2Proof.Machine.execCutInstant k s
  | .late k cycle => Sys2Proof.Machine.execLate k cycle s
  | .fail member cause => Sys2Proof.Machine.execFail member cause s
  | .hedgeHeartbeat => Sys2Proof.Machine.execHedgeHeartbeat s
  | .hedgeHeartbeatTimeout member => Sys2Proof.Machine.execHedgeHeartbeatTimeout member s
  | .tbOffsetFault => Sys2Proof.Machine.execTbOffsetFault s
  | .takeoverDistribution td => Sys2Proof.Machine.execTakeoverDistribution td s
  | .bankedAccessComplete st answer => Sys2Proof.Machine.execBankedAccessComplete st answer s
  | .scAnswer st failed => Sys2Proof.Machine.execScAnswer st failed s
  | .ethFrameReceived p f => Sys2Proof.Machine.execEthFrameReceived p f s
  | .ethLinkChange p up fullDuplex speed => Sys2Proof.Machine.execEthLinkChange p up fullDuplex speed s
  | .sessionConnect p client certOk => Sys2Proof.Machine.execSessionConnect p client certOk s
  | .sessionIdleTimeout j => Sys2Proof.Machine.execSessionIdleTimeout j s
  | .quePost q n => Sys2Proof.Machine.execQuePost q n s
  | .queRetire q n => Sys2Proof.Machine.execQueRetire q n s
  | .canFrameReceived p f stampNs => Sys2Proof.Machine.execCanFrameReceived p f stampNs s
  | .txreq p m launchAt fdf brs rtr ide dlc => Sys2Proof.Machine.execTxreq p m launchAt fdf brs rtr ide dlc s
  | .abortPendingFrame p m => Sys2Proof.Machine.execAbortPendingFrame p m s
  | .launchTime p m => Sys2Proof.Machine.execLaunchTime p m s
  | .transmitDeadline p m => Sys2Proof.Machine.execTransmitDeadline p m s
  | .arbitrationStart p wins => Sys2Proof.Machine.execArbitrationStart p wins s
  | .transmissionComplete p stampNs => Sys2Proof.Machine.execTransmissionComplete p stampNs s
  | .canError p kind => Sys2Proof.Machine.execCanError p kind s
  | .busOffRecovery p => Sys2Proof.Machine.execBusOffRecovery p s
  | .mailboxHeaderRead p m agent => Sys2Proof.Machine.execMailboxHeaderRead p m agent s
  | .lastDataWordRead p m agent => Sys2Proof.Machine.execLastDataWordRead p m agent s
  | .lockTimeout p m => Sys2Proof.Machine.execLockTimeout p m s
  | .lockstepMismatch st lane => Sys2Proof.Machine.execLockstepMismatch st lane s
  | .stewardMismatch lane => Sys2Proof.Machine.execStewardMismatch lane s
  | .stewardFaultReset => Sys2Proof.Machine.execStewardFaultReset s
  | .correctionWriteBack => Sys2Proof.Machine.execCorrectionWriteBack s
  | .scrub errors foldXor use => Sys2Proof.Machine.execScrub errors foldXor use s
  | .dramScrub granules => Sys2Proof.Machine.execDramScrub granules s
  | .keepRamScrub granules => Sys2Proof.Machine.execKeepRamScrub granules s
  | .watchdogPeriodEnd slot => Sys2Proof.Machine.execWatchdogPeriodEnd slot s
  | .stewardCheckIn slot token => Sys2Proof.Machine.execStewardCheckIn slot token s
  | .threadRestartTimeout slot => Sys2Proof.Machine.execThreadRestartTimeout slot s
  | .trickle => Sys2Proof.Machine.execTrickle s
  | .checkpointPage => Sys2Proof.Machine.execCheckpointPage s
  | .storeOperationEnd bank => Sys2Proof.Machine.execStoreOperationEnd bank s
  | .readCommand => Sys2Proof.Machine.execReadCommand s
  | .writeCommand => Sys2Proof.Machine.execWriteCommand s
  | .pageErase => Sys2Proof.Machine.execPageErase s
  | .rowProgram => Sys2Proof.Machine.execRowProgram s
  | .bitProgram => Sys2Proof.Machine.execBitProgram s
  | .qsIncrement x0 n => Sys2Proof.Machine.execQsIncrement x0 n s
  | .eventIntake => Sys2Proof.Machine.execEventIntake s
  | .sealTimeout => Sys2Proof.Machine.execSealTimeout s
  | .consolidationRequest => Sys2Proof.Machine.execConsolidationRequest s
  | .rtcSet => Sys2Proof.Machine.execRtcSet s
  | .rtcSetApply => Sys2Proof.Machine.execRtcSetApply s
  | .clockSetRequest value => Sys2Proof.Machine.execClockSetRequest value s
  | .arm => Sys2Proof.Machine.execArm s
  | .disarm => Sys2Proof.Machine.execDisarm s
  | .wakeConfig enable k => Sys2Proof.Machine.execWakeConfig enable k s
  | .alarmFire => Sys2Proof.Machine.execAlarmFire s
  | .periodicWake => Sys2Proof.Machine.execPeriodicWake s
  | .mainsWindow ticks inRange => Sys2Proof.Machine.execMainsWindow ticks inRange s
  | .tbLatch rho => Sys2Proof.Machine.execTbLatch rho s
  | .deliveryStart src header sig => Sys2Proof.Machine.execDeliveryStart src header sig s
  | .chunk src n bytes readBack => Sys2Proof.Machine.execChunk src n bytes readBack s
  | .abort => Sys2Proof.Machine.execAbort s
  | .activate sig => Sys2Proof.Machine.execActivate sig s
  | .fallbackCopyWritten => Sys2Proof.Machine.execFallbackCopyWritten s
  | .reject => Sys2Proof.Machine.execReject s
  | .trialWindowEnd => Sys2Proof.Machine.execTrialWindowEnd s
  | .privUpdate holdOk => Sys2Proof.Machine.execPrivUpdate holdOk s
  | .privUpdateEnd status front => Sys2Proof.Machine.execPrivUpdateEnd status front s
  | .enrol key sigOk => Sys2Proof.Machine.execEnrol key sigOk s
  | .revoke entry sigOk => Sys2Proof.Machine.execRevoke entry sigOk s
  | .recoveryImage image sig => Sys2Proof.Machine.execRecoveryImage image sig s
  | .attestationRequest nonce => Sys2Proof.Machine.execAttestationRequest nonce s
  | .obsLinkChange up => Sys2Proof.Machine.execObsLinkChange up s
  | .traceStart => Sys2Proof.Machine.execTraceStart s
  | .traceStop => Sys2Proof.Machine.execTraceStop s
  | .traceDrainEnd => Sys2Proof.Machine.execTraceDrainEnd s
  | .snap => Sys2Proof.Machine.execSnap s
  | .clear => Sys2Proof.Machine.execClear s
  | .freeze on => Sys2Proof.Machine.execFreeze on s
  | .rtcTick => Sys2Proof.Machine.execRtcTick s
  | .cellSwitchOver => Sys2Proof.Machine.execCellSwitchOver s
  | .alwaysOnSupplyLoss => Sys2Proof.Machine.execAlwaysOnSupplyLoss s
  | .resetNAsserted => Sys2Proof.Machine.execResetNAsserted s
  | .batonInRise => Sys2Proof.Machine.execBatonInRise s
  | .keyFaultClear pos => Sys2Proof.Machine.execKeyFaultClear pos s
  | .mainsRefAbsent => Sys2Proof.Machine.execMainsRefAbsent s
  | .sequenceRecoveryReset x0 => Sys2Proof.Machine.execSequenceRecoveryReset x0 s
  | .gptpSyncInterval p => Sys2Proof.Machine.execGptpSyncInterval p s
  | .ethFrameTransmitted p stamp => Sys2Proof.Machine.execEthFrameTransmitted p stamp s
  | .commitProposalReceived seq n => Sys2Proof.Machine.execCommitProposalReceived seq n s
  | .swapAcknowledgement k => Sys2Proof.Machine.execSwapAcknowledgement k s
  | .crossFadeStep n => Sys2Proof.Machine.execCrossFadeStep n s
  | .memberAccessRequest member st req => Sys2Proof.Machine.execMemberAccessRequest member st req s

end Sys2Proof.Machine
end

