-- ==== Sys2Proof/Machine/Tick.lean ====
section
/-!
DEFINITION. What happens at every CK_FAB clock whatever is commanded: the tick that a step with an empty queue makes. TB counts,
performance counters count clocks, released strands execute again, mirror sets end, outputs of an outgoing unit go off, trials and
proof runs are judged, and the observation port sends.
-/
namespace Sys2Proof.Machine

/-- TB advances by one clock at the rate of its slew; one count takes 500 clocks at the nominal rate (R19, R63). -/
def State.tickTb (s : State) : State :=
  let slew : Int := if s.flag CYC_SYNC_SLEWING then sgn 16 (s.fget CYC_SYNC_SLEW) else 0
  let phase := s.tbPhase + ((100000000 : Int) + slew).toNat
  let one := 500 * 100000000
  { s with tb := s.tb + BitVec.ofNat 64 (phase / one), tbPhase := phase % one }

/-- The counters of clocks: CK_FAB clocks of the fabric, two CK_CORE clocks of a strand (R19, R519).
DEDUCED: assumption 40. -/
def State.tickCounters (s : State) : State :=
  if s.counting then
    let s := s.countG 0x40 1
    let s := if s.fabricFull then s.countG 0x44 1 else s
    each (List.range 16) s (fun s st =>
      let x := s.strand st
      if x.run = .weaving then
        let s := s.countS st 0x01 2
        match x.stall with
        | none => s
        | some w =>
          match w.on with
          | .beat _ => s.countS st 0x08 2
          | .member => s.countS st 0x09 2
          | .fabric => s.countS st 0x09 2
      else s)
  else s

/-- A strand whose wait is over executes its instruction again (R98, R138). DESIGN CHOICE: assumption 5. -/
def State.resume (s : State) (st : Nat) : State :=
  match (s.strand st).stall with
  | none => s
  | some w =>
    if w.released then
      match exec w.instr (s.dropStall st) with
      | .next t => t
      | _ => s
    else s

/-- A set in the mirror buffer whose transmission has ended within the window is closed with a complete trailer (R317, R320). -/
def State.mirrorEnd (s : State) (k : Nat) : State :=
  match s.mirrorTx k with
  | none => s
  | some t =>
    if t.copied ∧ t.ended = false ∧ t.sendEnd ≤ s.fab ∧ s.pairLinks ∧ s.windowOver t = false then
      let us := (s.fab - t.sendAt) / 500
      let s := (s.setMirrorTx k { t with ended := true }).send (.mirrorSet t.set (trailerOf t.set))
      let s := (s.fput RED_MIRTIME_LAST_US (min us 0xFFFF)).fput RED_MIRTIME_MAX_US
        (max (s.fget RED_MIRTIME_MAX_US) (min us 0xFFFF))
      s.countG 0x4E (setGranules t.set)
    else s

/-- The shared digital outputs of class `k` on the outgoing unit of a handover go off 1 ms after their changeover (R330). -/
def State.outgoingOff (s : State) (k : Nat) : State :=
  match s.red.downAt.find? (fun d => d.1 == k) with
  | none => s
  | some d =>
    if d.2 ≤ s.tbNat then
      let s := s.onOutputs k (fun s => each (List.range 32) s (fun s n =>
        match s.dioEntry (s.leader n) with
        | some (e, _) => if s.dioOut n && s.dioShared n && hClass e == k then s.dioOff n else s
        | none => if s.dioOut n && s.dioShared n && k == 0 then s.dioOff n else s))
      { s with red := { s.red with downAt := s.red.downAt.filter (fun x => x.1 != k) } }
    else s

/-- A planned handover has changed every shared output over: the own baton gates them again (R313, R336). -/
def State.gateAgain (s : State) : State :=
  let fading := (List.range 16).any (fun n => s.flag (UC_MODE_SHARED n) && (s.uc n).fade.isSome)
  if s.red.ungated && s.red.tkoEmit.isEmpty && s.red.downAt.isEmpty && !fading then
    let s := { s with red := { s.red with ungated := false } }
    if s.flag RED_STAT_BATON_OUT then s else s.sharedOff
  else s

/-- An interruption restarts the dwell (R337). -/
def State.tickDwell (s : State) : State :=
  if s.red.dwell.isSome && (s.flag RED_STAT_SPLIT || s.flag RED_STAT_BATONFLT || decide (0 < s.weight)) then s.dwellAnew else s

/-- A trial that has failed falls back; else its conditions are judged (R503, R504). -/
def State.tickTrial (s : State) : State :=
  match s.upd.trial with
  | none => s
  | some t =>
    match t.failed with
    | some cause => s.trialFallback cause
    | none => if s.ctl.booting then s else s.trialCheck

/-- OBS sends the record at the head of Q31 when the link is free, at 1.515 GB/s (R512, R513). DEDUCED: assumption 52. -/
def State.tickObs (s : State) : State :=
  if s.flag OBS_CFG_LINK && decide (s.obs.freeAt ≤ s.fab) then
    match s.obs.queue with
    | [] => s
    | r :: rest =>
      let s : State := { s with obs := { s.obs with queue := rest, sent := s.obs.sent + s.obsDescs r.length,
                                                    freeAt := s.fab + (800 * r.length + 302) / 303 } }
      s.send (.obsRecord r)
  else s

/-- Classes in trial whose strands have all ended (R291, R295). -/
def State.tickProofs (s : State) : State :=
  each (List.range 4) s (fun s k => if (s.cls k).shadow = .none then s else s.proofCheck k)

/-- One CK_FAB clock of 2 ns. A module that is held or DORMANT only lets the time pass. Waits that end at this clock resume in
strand order: DESIGN CHOICE, assumptions 20 and 56. -/
def State.tick (s : State) : State :=
  let s := { s with fab := s.fab + 1 }
  if s.ctl.held || s.mode == mDormant then s
  else
    let s := s.tickTb.tickCounters
    let s := each (List.range 16) s State.resume
    let s := each (List.range 4) s State.mirrorEnd
    let s := each (List.range 4) s State.outgoingOff
    ((((s.gateAgain.takeoverMode).tickDwell).tickProofs).tickTrial).tickObs

end Sys2Proof.Machine
end

