-- ==== Sys2Proof/Safety.lean ====
section
/-!
DEFINITION. The words of the claims: when a strand runs its next instruction undisturbed, what an instruction leaves alone, and what
every command keeps.
-/
namespace Sys2Proof.Machine

/-- The memories and the image store are in canonical form: addresses rising, no entry equal to what an unlisted address reads as.
-/
def Memory.wf (s : State) : Bool := memWf s.mem && imgWf s.img

/-- What every command keeps: it takes nothing from the queue and puts nothing into it, it takes back nothing that has been sent,
and the memories stay canonical. -/
def Keeps (s t : State) : Prop :=
  t.pending = s.pending ∧ s.tx <+: t.tx ∧ (memWf s.mem = true → memWf t.mem = true) ∧ (imgWf s.img = true → imgWf t.img = true)

/-- Strand `st` executes the program of its class: it weaves and waits for nothing, its PC lies in the active bank on a granule that
reads, its class runs no trial, and no retirement trace captures (R22, R48, R138, R161, R290, R518). -/
def Ready (s : State) (st : Fin 16) : Prop :=
  s.issues st.val = true ∧ s.fetchTrap st.val = none ∧ s.onTrial (s.cfg st.val).cls = false ∧ s.flag OBS_RT_STAT_CAPTURING = false

/-- The registers of a performance counter: selection and count (R519). -/
abbrev pmcCounter (a : Nat) : Prop := (0x40110100 ≤ a ∧ a < 0x40110300) ∨ (0x40111000 ≤ a ∧ a < 0x40112000)

/-- Nothing but strand `st` and the registers of the performance counters differs between two states. -/
def OnlyStrand (s t : State) (st : Fin 16) : Prop :=
  { t with regs := s.regs, strands := s.strands } = s ∧ (∀ j, j ≠ st.val → t.strand j = s.strand j) ∧
    ∀ a, ¬ pmcCounter a → t.rget a = s.rget a

/-- Strand `st` has become `y` with the PC at `pc`, and nothing else has changed but performance counters. The age of a
reservation is left to its own rule (R154). -/
def RetiresTo (s t : State) (st : Fin 16) (y : Strand) (pc : Word) : Prop :=
  OnlyStrand s t st ∧
    { t.strand st.val with resv := y.resv, resvAge := y.resvAge } = { y with pc := pc, answer := none }

/-- As `RetiresTo`, with the PC behind the instruction (R115). -/
def Retires (s t : State) (st : Fin 16) (y : Strand) : Prop := RetiresTo s t st y ((s.strand st.val).pc + 4)

/-- Between two states nothing differs but the registers `as`, the queue of events, and what counts the events that were lost. -/
def OnlyRegs (as : List Nat) (s t : State) : Prop :=
  { t with regs := s.regs, evq := s.evq, recorder := { t.recorder with lost := s.recorder.lost } } = s ∧
    ∀ a, a ∉ as → a ∉ [EVR_LOST, EVR_EVT] → t.rget a = s.rget a

/-- A single module at work with nothing on its way: it is powered, no edit, activation, trial, mode change or trace is under way,
it is neither paired nor in a hedge, nothing is forced, and no granule reads INTEG. -/
def Quiet (s : State) : Prop :=
  (s.ctl.held = false ∧ s.ctl.pfail = false ∧ s.ctl.change = none ∧ s.ctl.booting = false) ∧
  (s.edit.pkg = none ∧ s.upd.act = none ∧ s.upd.trial = none ∧ ∀ k, (s.cls k).shadow = .none) ∧
  (s.red.partner = none ∧ s.red.tko = none ∧ s.red.handover = none ∧ s.red.stopAfter = false ∧ s.red.tkoEmit = [] ∧ s.red.downAt = []) ∧
  (s.hedge.announced = none ∧ s.hedge.old = [] ∧ s.hedge.beams = [] ∧ s.flag MEL_STAT_FORMED = false) ∧
  (s.trace = Trace.reset ∧ s.flag OBS_RT_STAT_CAPTURING = false) ∧
  (s.forces = [] ∧ s.forceReq = [] ∧ s.integ = [])

/-- No reset of the module has taken place in the present CK_FAB clock, so the cause of the next one is its own (R13). -/
def FreshClock (s : State) : Prop := ∀ x, s.ctl.resetAt = some x → x.1 ≠ s.fab

/-- The registers a write to which by the steward is a command, or has effects of its own: the command registers of R142,
descriptors and mailboxes, and RTC_TRIM, which takes a limited value (R387, R406, R477). -/
def CommandReg (a : Nat) : Prop :=
  a ∈ [SYS_MODEREQ, RED_CMD, RET_CMD_GO, RET_QS_INC, RTC_SET_CTRL, RTC_TRIM, RTC_ALM_CTRL, UPD_CMD, PMC_CTRL, OBS_RT_CFG] ∨
    (mbReg a).isSome = true ∨ (famIdx a (QUE_POST 0) 0x20 32).isSome = true ∨ (famIdx a (QUE_RETIRE 0) 0x20 32).isSome = true ∨
    (famIdx a (QUE_DESC0 0) 8 4096).isSome = true

/-- The memory key of a location in DMEM, in global memory or in DRAM. -/
def State.memKey (s : State) (st : Nat) : Loc → Option Nat
  | .dmem off => some (s.dkey st off)
  | .glob a => some a
  | .dram off => some (keyDram off)
  | _ => none

end Sys2Proof.Machine
end

