-- ==== Sys2Proof/Certificates/Slice0/Obligations.lean ====
section
/-!
DEFINITION. The claims about the module: what every command does, group by group, what reset leaves, and what every step keeps.
-/
open Sys2Proof Sys2Proof.Machine

/-! ## The machine as a whole -/

/-- Every step takes the command at the front of the queue and is that command's effect on the state with the rest of the queue. On an empty
queue one clock passes, which is the model's choice (assumption 20). -/
def Obligations.FrontCommandRuns : Prop :=
  (∀ (s : State) (c : Instr) (r : List Instr), s.pending = c :: r → step s = exec c { s with pending := r }) ∧
  ∀ s : State, s.pending = [] → step s = .next s.tick

/-- What reset leaves: the module in POWER-UP at step 1 of its start, with no command waiting, every strand idle, the memories in canonical form
and empty, no lock set, no trap recorded, and the cycle, heddle, beat, queue, watchdog, channel and redundancy settings at the values of
their register maps. -/
def Obligations.ResetState : Prop :=
  let s := State.reset
  (s.pending = [] ∧ s.mode = mPowerUp ∧ s.fget SYS_BOOT_STEP = 1 ∧ Memory.wf s = true ∧ s.mem = [] ∧ s.img = []) ∧
  (∀ st, st < 16 → (s.strand st).run = .idle) ∧ s.flag SYS_CFGLOCK_LOCK = false ∧ s.rget TRAP_SUM = 0 ∧ s.fget TRAP_POL_POL = 0 ∧
  (s.fget CYC_T0_T0_US = 1000 ∧ s.flag (CLS_CFG_EN 0) = true ∧ ∀ k, k < 4 → s.fget (CLS_DOUT_DOUT_US k) = 800 ∧
    s.fget (CLS_DSHED_DSHED_US k) = 5 ∧ s.fget (CLS_GUARD_GUARD_US k) = 10 ∧ s.fget (CLS_OVRLIM_K_WINDOW k) = 8 ∧
    s.fget (CLS_OVRLIM_K_CONSEC k) = 2 ∧ s.fget (BEAT_TO_TO_PCT k) = 50) ∧
  (s.fget HDL_OWNCFG_OWNV_TRAP = 0xF ∧ s.fget WDG_CFG_ESC_N = 3 ∧ s.fget WDG_CFG_ESC_WIN = 4 ∧ s.fget RED_CFG_MIRWIN_PCT = 25) ∧
  (∀ q, q < 32 → s.fget (QUE_CFG_DEPTH q) = 128 ∧ s.fget (QUE_CFG_BUFSZ q) = 2) ∧
  (∀ n, n < 16 → s.fget (UC_MODE_MODE n) = 0 ∧ s.fget (UC_CMDTMO_TMO_MS n) = 100 ∧ s.fget (UC_FAILSEL_BADQ_SEL n) = 1) ∧
  ∀ n, n < 32 → s.fget (DIO_CH_CFG_FILT n) = 60 ∧ s.dioOut n = false

/-- No command ends a run: on every state every command answers a next state (assumption 2). It takes nothing from the queue of the commands
that wait and puts nothing into it, and it takes back nothing that has been sent. -/
def Obligations.EveryCommandGoesOn : Prop :=
  ∀ (c : Instr) (s : State), ∃ t, exec c s = .next t ∧ t.pending = s.pending ∧ s.tx <+: t.tx

/-- Every step, of any command and of the clock alone, keeps the memories and the image store in the canonical form in which the model holds
them: addresses strictly rising, and no entry equal to what an unlisted address reads as. -/
def Obligations.StepsKeepMemoryCanonical : Prop :=
  ∀ (s t : State), Memory.wf s = true → step s = .next t → Memory.wf t = true

/-! ## Arithmetic of the strands -/

/-- R117, R126: ADD, ADDI, ADC, SUB, SUBI, SBC, CMP, CMPI and NEG of a ready strand. The result is the sum or difference modulo 2^32; C is the
carry out of bit 31 or, for a difference, "no borrow"; V says that the signed result is not the exact one; nothing else of the strand
changes. R117, R126: AND, ANDI, OR, ORI, XOR, XORI, NOT and TST: Z and N from the result, C and V cleared. -/
def Obligations.ArithmeticAndLogic : Prop :=
  (∀ (s : State) (st d a b : Fin 16) (imm : BitVec 18), Ready s st →
     let x := s.strand st.val
     let ci : Nat := if x.c then 1 else 0
     let i : Word := imm.signExtend 32
     let add := fun (p q : Word) (n : Nat) =>
       let r : Word := p + q + BitVec.ofNat 32 n
       ({ x with z := decide (r = 0), n := r.msb, c := decide (2 ^ 32 ≤ p.toNat + q.toNat + n),
                 v := decide (r.toInt ≠ p.toInt + q.toInt + n) }, r)
     let sub := fun (p q : Word) (n : Nat) =>
       let r : Word := p - q - BitVec.ofNat 32 n
       ({ x with z := decide (r = 0), n := r.msb, c := decide (q.toNat + n ≤ p.toNat),
                 v := decide (r.toInt ≠ p.toInt - q.toInt - n) }, r)
     let put := fun (y : Strand × Word) => { y.1 with w := x.w.set d y.2 }
     (∃ t, exec (.add st d a b) s = .next t ∧ Retires s t st (put (add x.w[a] x.w[b] 0))) ∧
     (∃ t, exec (.addi st d a imm) s = .next t ∧ Retires s t st (put (add x.w[a] i 0))) ∧
     (∃ t, exec (.adc st d a b) s = .next t ∧ Retires s t st (put (add x.w[a] x.w[b] ci))) ∧
     (∃ t, exec (.sub st d a b) s = .next t ∧ Retires s t st (put (sub x.w[a] x.w[b] 0))) ∧
     (∃ t, exec (.subi st d a imm) s = .next t ∧ Retires s t st (put (sub x.w[a] i 0))) ∧
     (∃ t, exec (.sbc st d a b) s = .next t ∧ Retires s t st (put (sub x.w[a] x.w[b] (1 - ci)))) ∧
     (∃ t, exec (.cmp st a b) s = .next t ∧ Retires s t st (sub x.w[a] x.w[b] 0).1) ∧
     (∃ t, exec (.cmpi st a imm) s = .next t ∧ Retires s t st (sub x.w[a] i 0).1) ∧
     (∃ t, exec (.neg st d a) s = .next t ∧ Retires s t st (put (sub 0 x.w[a] 0)))) ∧
  (∀ (s : State) (st d a b : Fin 16) (imm : BitVec 18), Ready s st →
     let x := s.strand st.val
     let i : Word := imm.setWidth 32
     let flags := fun (r : Word) => { x with z := decide (r = 0), n := r.msb, c := false, v := false }
     let put := fun (r : Word) => { flags r with w := x.w.set d r }
     (∃ t, exec (.and st d a b) s = .next t ∧ Retires s t st (put (x.w[a] &&& x.w[b]))) ∧
     (∃ t, exec (.andi st d a imm) s = .next t ∧ Retires s t st (put (x.w[a] &&& i))) ∧
     (∃ t, exec (.or st d a b) s = .next t ∧ Retires s t st (put (x.w[a] ||| x.w[b]))) ∧
     (∃ t, exec (.ori st d a imm) s = .next t ∧ Retires s t st (put (x.w[a] ||| i))) ∧
     (∃ t, exec (.xor st d a b) s = .next t ∧ Retires s t st (put (x.w[a] ^^^ x.w[b]))) ∧
     (∃ t, exec (.xori st d a imm) s = .next t ∧ Retires s t st (put (x.w[a] ^^^ i))) ∧
     (∃ t, exec (.not st d a) s = .next t ∧ Retires s t st (put (~~~x.w[a]))) ∧
     (∃ t, exec (.tst st a b) s = .next t ∧ Retires s t st (flags (x.w[a] &&& x.w[b]))))

/-- R117, R126: SHL, SHR, SAR and ROR by 0 to 31: C is the last bit shifted out, and unchanged for an amount of 0; V is cleared. R117, R126:
MIN, MAX, MINU and MAXU set Z and N alone; CLZ counts from the top, with N cleared; MOV, MOVL, MOVH and the extensions leave every flag. -/
def Obligations.ShiftsCountsAndMoves : Prop :=
  (∀ (s : State) (st d a : Fin 16) (amt : ShiftArg), Ready s st →
     let x := s.strand st.val
     let n := match amt with
       | .reg b => x.w[b].toNat % 32
       | .imm sh => sh.toNat
     let put := fun (r : Word) (out : Nat) =>
       { x with w := x.w.set d r, z := decide (r = 0), n := r.msb, v := false,
                c := if n = 0 then x.c else x.w[a].getLsbD out }
     (∃ t, exec (.shl st d a amt) s = .next t ∧ Retires s t st (put (x.w[a] <<< n) (32 - n))) ∧
     (∃ t, exec (.shr st d a amt) s = .next t ∧ Retires s t st (put (x.w[a] >>> n) (n - 1))) ∧
     (∃ t, exec (.sar st d a amt) s = .next t ∧ Retires s t st (put (x.w[a].sshiftRight n) (n - 1))) ∧
     (∃ t, exec (.ror st d a amt) s = .next t ∧ Retires s t st (put (x.w[a].rotateRight n) (n - 1)))) ∧
  (∀ (s : State) (st d a b : Fin 16) (imm : BitVec 16), Ready s st →
     let x := s.strand st.val
     let p := x.w[a]
     let q := x.w[b]
     let put := fun (r : Word) => { x with w := x.w.set d r }
     let zn := fun (r : Word) => { x with w := x.w.set d r, z := decide (r = 0), n := r.msb }
     (∃ t, exec (.min st d a b) s = .next t ∧ Retires s t st (zn (if p.toInt ≤ q.toInt then p else q))) ∧
     (∃ t, exec (.max st d a b) s = .next t ∧ Retires s t st (zn (if q.toInt ≤ p.toInt then p else q))) ∧
     (∃ t, exec (.minu st d a b) s = .next t ∧ Retires s t st (zn (if p.toNat ≤ q.toNat then p else q))) ∧
     (∃ t, exec (.maxu st d a b) s = .next t ∧ Retires s t st (zn (if q.toNat ≤ p.toNat then p else q))) ∧
     (∃ t n, exec (.clz st d a) s = .next t ∧ n ≤ 32 ∧ p.toNat < 2 ^ (32 - n) ∧ (n < 32 → 2 ^ (31 - n) ≤ p.toNat) ∧
       Retires s t st { x with w := x.w.set d (BitVec.ofNat 32 n), z := decide (n = 0), n := false }) ∧
     (∃ t, exec (.mov st d a) s = .next t ∧ Retires s t st (put p)) ∧
     (∃ t, exec (.movl st d imm) s = .next t ∧ Retires s t st (put (imm.setWidth 32))) ∧
     (∃ t, exec (.movh st d imm) s = .next t ∧ Retires s t st (put (imm ++ x.w[d].extractLsb' 0 16))) ∧
     (∃ t, exec (.sxtb st d a) s = .next t ∧ Retires s t st (put ((p.setWidth 8).signExtend 32))) ∧
     (∃ t, exec (.sxth st d a) s = .next t ∧ Retires s t st (put ((p.setWidth 16).signExtend 32))) ∧
     (∃ t, exec (.zxtb st d a) s = .next t ∧ Retires s t st (put ((p.setWidth 8).setWidth 32))) ∧
     (∃ t, exec (.zxth st d a) s = .next t ∧ Retires s t st (put ((p.setWidth 16).setWidth 32))))

/-- R117, R126, R127: MUL and MULU always; DIV, DIVU, REM and REMU with a divisor other than 0. V says that the result is not the exact one; the
quotient is rounded toward zero and the remainder has the sign of the dividend. A divisor of 0 traps. -/
def Obligations.MultiplyDivide : Prop :=
  ∀ (s : State) (st d a b : Fin 16), Ready s st →
    let x := s.strand st.val
    let p := x.w[a]
    let q := x.w[b]
    let put := fun (r : Word) (v : Bool) =>
      { x with w := x.w.set d r, z := decide (r = 0), n := r.msb, c := false, v := v }
    let past := decide (p = 0x80000000 ∧ q = 0xFFFFFFFF)
    (∃ t, exec (.mul st d a b) s = .next t ∧ Retires s t st (put (p * q) (decide ((p * q).toInt ≠ p.toInt * q.toInt)))) ∧
    (∃ t, exec (.mulu st d a b) s = .next t ∧ Retires s t st (put (p * q) (decide ((p * q).toNat ≠ p.toNat * q.toNat)))) ∧
    (q ≠ 0 →
      (∃ t, exec (.div st d a b) s = .next t ∧ Retires s t st (put (BitVec.ofInt 32 (p.toInt.tdiv q.toInt)) past)) ∧
      (∃ t, exec (.rem st d a b) s = .next t ∧ Retires s t st (put (BitVec.ofInt 32 (p.toInt.tmod q.toInt)) past)) ∧
      (∃ t, exec (.divu st d a b) s = .next t ∧ Retires s t st (put (BitVec.ofNat 32 (p.toNat / q.toNat)) false)) ∧
      (∃ t, exec (.remu st d a b) s = .next t ∧ Retires s t st (put (BitVec.ofNat 32 (p.toNat % q.toNat)) false))) ∧
    (p = 0x80000000 → q = 0xFFFFFFFF → (∃ t, exec (.div st d a b) s = .next t ∧ Retires s t st (put 0x80000000 true)) ∧
      ∃ t, exec (.rem st d a b) s = .next t ∧ Retires s t st (put 0 true)) ∧
    (q = 0 → ∀ i ∈ [Instr.div st d a b, .divu st d a b, .rem st d a b, .remu st d a b],
      exec i s = .next ((s.issue st .other).trap st 0x0B))

/-- R147: rounding gives the floor (TRUNC), the nearest integer with halves up (HALF_UP) or to even (HALF_EVEN) of v / 2^s; the limit keeps what
fits in n bits, and otherwise gives the nearer bound with the sticky flag, or the low n bits, with V either way. -/
def Obligations.RoundAndLimit : Prop :=
  (∀ (v : Int) (s : Nat), 1 ≤ s →
    let one : Int := 2 ^ s
    (roundShift 0 v s * one ≤ v ∧ v < (roundShift 0 v s + 1) * one) ∧
    (2 * roundShift 1 v s * one - one ≤ 2 * v ∧ 2 * v < 2 * roundShift 1 v s * one + one) ∧
    (2 * roundShift 2 v s * one - one ≤ 2 * v ∧ 2 * v ≤ 2 * roundShift 2 v s * one + one ∧
      (2 * v = 2 * roundShift 2 v s * one - one ∨ 2 * v = 2 * roundShift 2 v s * one + one → roundShift 2 v s % 2 = 0))) ∧
  ∀ (v : Int) (n : Nat) (sat : Bool), n = 16 ∨ n = 32 ∨ n = 72 →
    let lo : Int := -(2 ^ (n - 1))
    let hi : Int := 2 ^ (n - 1) - 1
    (lo ≤ v → v ≤ hi → limitTo sat v n = (v, false, false)) ∧
    (v < lo → limitTo true v n = (lo, true, true)) ∧
    (hi < v → limitTo true v n = (hi, true, true)) ∧
    (v < lo ∨ hi < v → ∃ r, limitTo false v n = (r, true, false) ∧ lo ≤ r ∧ r ≤ hi ∧ (v - r) % 2 ^ n = 0)

/-- R146, R148, R150: the register results of the group, and the results in an accumulator that need no memory. R148, R150: CLRA and the moves
between a register and the parts of an accumulator leave every flag. R131, R148, R149: MACP and MSUP load both operands as the format says,
accumulate, and advance each pointer once. -/
def Obligations.FixedPointResults : Prop :=
  (∀ (s : State) (st d a b : Fin 16) (n m : Fin 2) (sh : BitVec 6), Ready s st →
     let x := s.strand st.val
     let rnd := x.fxm.toNat % 4
     let sat := x.fxm.getLsbD 2
     let q31 := x.fxm.getLsbD 3
     let val : Word → Int := fun r => if q31 then r.toInt else (r.setWidth 16).toInt
     let p := x.w[a]
     let q := x.w[b]
     let prod : Int := val p * val q * (if q31 then 2 else 2 ^ 33)
     let w := if q31 then 32 else 16
     let e := if q31 then 32 else 48
     let acc := x.a[n].toInt
     let put := fun (r : Int × Bool × Bool) =>
       let v : Word := BitVec.ofInt 32 r.1
       { x with w := x.w.set d v, z := decide (v = 0), n := v.msb, v := r.2.1, q := x.q || r.2.2 }
     let putA := fun (r : Int × Bool × Bool) =>
       let v : Acc := BitVec.ofInt 72 r.1
       { x with a := x.a.set n v, z := decide (v = 0), n := v.msb, v := r.2.1, q := x.q || r.2.2 }
     (∃ t, exec (.fmul st d a b) s = .next t ∧ Retires s t st (put (limitTo sat (roundShift rnd prod e) w))) ∧
     (∃ t, exec (.qadd st d a b) s = .next t ∧ Retires s t st (put (limitTo sat (val p + val q) w))) ∧
     (∃ t, exec (.qsub st d a b) s = .next t ∧ Retires s t st (put (limitTo sat (val p - val q) w))) ∧
     (∃ t, exec (.qneg st d a) s = .next t ∧ Retires s t st (put (limitTo sat (0 - val p) w))) ∧
     (∃ t, exec (.qabs st d a) s = .next t ∧ Retires s t st (put (limitTo sat (max (val p) (-val p)) w))) ∧
     (∃ t, exec (.accr st d n) s = .next t ∧ Retires s t st (put (limitTo sat (roundShift rnd acc e) w))) ∧
     (∃ t, exec (.mpy st n a b) s = .next t ∧ Retires s t st (putA (prod, false, false))) ∧
     (∃ t, exec (.mac st n a b) s = .next t ∧ Retires s t st (putA (limitTo sat (acc + prod) 72))) ∧
     (∃ t, exec (.msu st n a b) s = .next t ∧ Retires s t st (putA (limitTo sat (acc - prod) 72))) ∧
     (∃ t, exec (.adda st n m) s = .next t ∧ Retires s t st (putA (limitTo sat (acc + x.a[m].toInt) 72))) ∧
     (∃ t, exec (.suba st n m) s = .next t ∧ Retires s t st (putA (limitTo sat (acc - x.a[m].toInt) 72))) ∧
     (∃ t, exec (.asha st n sh) s = .next t ∧ Retires s t st (putA
       (if 0 ≤ sh.toInt then limitTo sat (acc * 2 ^ sh.toInt.toNat) 72 else (roundShift rnd acc (-sh.toInt).toNat, false, false))))) ∧
  (∀ (s : State) (st d a : Fin 16) (n : Fin 2), Ready s st →
     let x := s.strand st.val
     let acc : Acc := x.a[n]
     let put := fun (r : Word) => { x with w := x.w.set d r }
     let putA := fun (hi : BitVec 8) (mid lo : Word) => { x with a := x.a.set n (hi ++ mid ++ lo) }
     (∃ t, exec (.clra st n) s = .next t ∧ Retires s t st (putA 0 0 0)) ∧
     (∃ t, exec (.rdal st d n) s = .next t ∧ Retires s t st (put (acc.extractLsb' 0 32))) ∧
     (∃ t, exec (.rdah st d n) s = .next t ∧ Retires s t st (put (acc.extractLsb' 32 32))) ∧
     (∃ t, exec (.rdag st d n) s = .next t ∧ Retires s t st (put ((acc.extractLsb' 64 8).signExtend 32))) ∧
     (∃ t, exec (.wral st n a) s = .next t ∧
       Retires s t st (putA (acc.extractLsb' 64 8) (acc.extractLsb' 32 32) x.w[a])) ∧
     (∃ t, exec (.wrah st n a) s = .next t ∧
       Retires s t st (putA (acc.extractLsb' 64 8) x.w[a] (acc.extractLsb' 0 32))) ∧
     (∃ t, exec (.wrag st n a) s = .next t ∧
       Retires s t st (putA (x.w[a].setWidth 8) (acc.extractLsb' 32 32) (acc.extractLsb' 0 32)))) ∧
  (∀ (s : State) (st : Fin 16) (n : Fin 2) (pa pb : Fin 4) (la lb : Loc) (na nb : Word) (ba bb : List Byte), Ready s st →
     let x := s.strand st.val
     let q31 := x.fxm.getLsbD 3
     let size := if q31 then 4 else 2
     let val : List Byte → Int := fun l => if q31 then (BitVec.ofNat 32 (leNat l)).toInt else (BitVec.ofNat 16 (leNat l)).toInt
     let prod : Int := val ba * val bb * (if q31 then 2 else 2 ^ 33)
     let put := fun (v : Int) =>
       let r := limitTo (x.fxm.getLsbD 2) v 72
       let acc : Acc := BitVec.ofInt 72 r.1
       { x with a := x.a.set n acc, z := decide (acc = 0), n := acc.msb, v := r.2.1, q := x.q || r.2.2,
                p := (x.p.set pa na).set pb nb }
     s.macpLoc st x.p[pa].toNat size = .ok la → s.macpLoc st x.p[pb].toNat size = .ok lb →
     s.integ.contains (s.granuleOf st la) = false → s.integ.contains (s.granuleOf st lb) = false →
     nextPtr x.p[pa] x.l[pa] size = some na → nextPtr x.p[pb] x.l[pb] size = some nb → s.fabricFull = false →
     s.loadAt st la size = .ok ba → s.loadAt st lb size = .ok bb →
     (∃ t, exec (.macp st n pa pb) s = .next t ∧ Retires s t st (put (x.a[n].toInt + prod))) ∧
     (∃ t, exec (.msup st n pa pb) s = .next t ∧ Retires s t st (put (x.a[n].toInt - prod))))

/-! ## Memory, image and pointers -/

/-- R129, R131: the five address forms. A post-modify form uses the old pointer and advances it by its step: linearly with wrap-around (MODE 0),
round a circle of LEN bytes whose base is the next lower multiple of the circle's size (MODE 1). R130, R131, R132: the pointer and length
registers and BK. WRL takes the values of R130, SETBK and SETBKI a region of R23 at a member that is present. -/
def Obligations.PointersAndBank : Prop :=
  (∀ (x : Strand) (b i : Fin 16) (n : Fin 4) (imm : BitVec 15) (stp : BitVec 14),
     x.eff (.base b imm) = .ok ⟨x.w[b] + imm.signExtend 32, none⟩ ∧
     x.eff (.index b i) = .ok ⟨x.w[b] + x.w[i], none⟩ ∧
     x.eff (.ptr n) = .ok ⟨x.p[n], none⟩ ∧
     (x.l[n].toNat / 2 ^ 30 = 0 →
       x.eff (.ptrImm n stp) = .ok ⟨x.p[n], some (n, x.p[n] + stp.signExtend 32)⟩ ∧
       x.eff (.ptrReg n i) = .ok ⟨x.p[n], some (n, x.p[n] + x.w[i])⟩) ∧
     (∀ k len base : Nat, x.l[n].toNat / 2 ^ 30 = 1 → x.l[n].toNat % 2 ^ 19 = len → 0 < len → len ≤ 2 ^ k →
       (∀ j, len ≤ 2 ^ j → k ≤ j) → k ≤ 18 → base = x.p[n].toNat / 2 ^ k * 2 ^ k →
       ∃ o : Nat, o < len ∧ ((x.p[n].toNat : Int) - base + stp.toInt - o) % len = 0 ∧
         x.eff (.ptrImm n stp) = .ok ⟨x.p[n], some (n, BitVec.ofNat 32 (base + o))⟩)) ∧
  (∀ (s : State) (st d a : Fin 16) (n : Fin 4) (imm : BitVec 16), Ready s st →
     let x := s.strand st.val
     (∃ t, exec (.movp st n a) s = .next t ∧ Retires s t st { x with p := x.p.set n x.w[a] }) ∧
     (∃ t, exec (.rdp st d n) s = .next t ∧ Retires s t st { x with w := x.w.set d x.p[n] }) ∧
     (∃ t, exec (.rdl st d n) s = .next t ∧ Retires s t st { x with w := x.w.set d x.l[n] }) ∧
     (∃ t, exec (.rdbk st d) s = .next t ∧ Retires s t st { x with w := x.w.set d (x.bk.setWidth 32) }) ∧
     (∀ mode len k : Nat, x.w[a].toNat = mode * 2 ^ 30 + len → len ≤ 262144 →
       mode = 0 ∨ mode = 1 ∧ 0 < len ∨ mode = 2 ∧ len = 2 ^ k →
       ∃ t, exec (.wrl st n a) s = .next t ∧ Retires s t st { x with l := x.l.set n x.w[a] }) ∧
     (let v := x.w[a].toNat
      v / 2 ^ 30 = 3 ∨ v / 2 ^ 19 % 2 ^ 11 ≠ 0 ∨ 262144 < v % 2 ^ 19 ∨ (v / 2 ^ 30 = 1 ∧ v % 2 ^ 19 = 0) ∨
        (v / 2 ^ 30 = 2 ∧ ∀ k, v % 2 ^ 19 ≠ 2 ^ k) →
      exec (.wrl st n a) s = .next ((s.issue st .other).trap st 0x02) ∧ (((s.issue st .other).trap st 0x02).strand st.val).l = x.l) ∧
     (s.bkValid (x.w[a].setWidth 16) = true →
       ∃ t, exec (.setbk st a) s = .next t ∧ Retires s t st { x with bk := x.w[a].setWidth 16 }) ∧
     (s.bkValid imm = true → ∃ t, exec (.setbki st imm) s = .next t ∧ Retires s t st { x with bk := imm }))

/-- R128, R129: a load writes the value at its effective address, extended as the mnemonic says, and the pointer of a post-modify form; no flag,
no memory. Where the destination lies with another member, the value is that of the answer (R133, R362). -/
def Obligations.LoadResults : Prop :=
  ∀ (s : State) (st r : Fin 16) (m : AddrArg) (e : Eff) (loc : Loc) (size : Nat) (bs : List Byte), Ready s st →
    let x := s.strand st.val
    x.eff m = .ok e → s.locate st e.addr.toNat size false = .ok loc → s.integ.contains (s.granuleOf st loc) = false →
    s.fabricFull = false → s.loadAt st loc size = .ok bs →
    let v := leNat bs
    let put := fun (u : Word) => { x.applyUpd e.upd with w := x.w.set r u }
    (size = 4 → ∃ t, exec (.lw st r m) s = .next t ∧ Retires s t st (put (BitVec.ofNat 32 v))) ∧
    (size = 2 → ∃ t, exec (.lh st r m) s = .next t ∧ Retires s t st (put ((BitVec.ofNat 16 v).signExtend 32))) ∧
    (size = 2 → ∃ t, exec (.lhu st r m) s = .next t ∧ Retires s t st (put ((BitVec.ofNat 16 v).setWidth 32))) ∧
    (size = 1 → ∃ t, exec (.lby st r m) s = .next t ∧ Retires s t st (put ((BitVec.ofNat 8 v).signExtend 32))) ∧
    (size = 1 → ∃ t, exec (.lbyu st r m) s = .next t ∧ Retires s t st (put ((BitVec.ofNat 8 v).setWidth 32)))

/-- R21, R22, R128, R154: a store to DMEM, to global memory or to DRAM writes the low bytes of its register, the least significant at the lowest
address, and no other byte; of the strand only the pointer of a post-modify form changes, of the other strands at most a reservation. R90: a
store into image bytes all of whose bits the strand owns goes to its staging view; the committed image and every other staged byte keep
their values. R129, R133, R362: a store to another member is asked of that member and waits; when the answer has come it completes. -/
def Obligations.Stores : Prop :=
  (∀ (s : State) (st r : Fin 16) (m : AddrArg) (e : Eff) (loc : Loc) (size key : Nat) (i : Instr), Ready s st →
     let x := s.strand st.val
     (i = .sw st r m ∧ size = 4 ∨ i = .sh st r m ∧ size = 2 ∨ i = .sby st r m ∧ size = 1) →
     x.eff m = .ok e → s.locate st e.addr.toNat size true = .ok loc → s.memKey st loc = some key →
     s.integ.contains (s.granuleOf st loc) = false → s.fabricFull = false →
     ∃ t, exec i s = .next t ∧
       (∀ j, j < size → t.mget (key + j) = (x.w[r].extractLsb' (8 * j) 8)) ∧
       (∀ a, a < key ∨ key + size ≤ a → t.mget a = s.mget a) ∧
       { t with regs := s.regs, strands := s.strands, mem := s.mem, remoteResv := s.remoteResv } = s ∧
       (∀ a, ¬ pmcCounter a → t.rget a = s.rget a) ∧
       (∀ j, j ≠ st.val → ∃ v, t.strand j = { s.strand j with resv := v }) ∧
       ∃ v n, t.strand st = { x.applyUpd e.upd with pc := x.pc + 4, answer := none, resv := v, resvAge := n }) ∧
  (∀ (s : State) (st r : Fin 16) (m : AddrArg) (e : Eff) (off size : Nat) (i : Instr), Ready s st →
     let x := s.strand st.val
     (i = .sw st r m ∧ size = 4 ∨ i = .sh st r m ∧ size = 2 ∨ i = .sby st r m ∧ size = 1) →
     x.eff m = .ok e → s.locate st e.addr.toNat size true = .ok (.img off) →
     s.integ.contains (s.granuleOf st (.img off)) = false → s.fabricFull = false →
     (∀ j, j < size → s.ownMask st (off + j) = 0xFF) →
     ∃ t stg, exec i s = .next t ∧ Retires s t st { x.applyUpd e.upd with stg := stg } ∧
       (∀ j, j < size → tget ⟨0, 0⟩ stg (off + j) = ⟨0xFF, x.w[r].extractLsb' (8 * j) 8⟩) ∧
       ∀ a, a < off ∨ off + size ≤ a → tget ⟨0, 0⟩ stg a = tget ⟨0, 0⟩ x.stg a) ∧
  (∀ (s : State) (st r : Fin 16) (m : AddrArg) (e : Eff) (mem reg off : Nat), Ready s st →
     let x := s.strand st.val
     x.eff m = .ok e → s.locate st e.addr.toNat 4 true = .ok (.remote mem reg off) → s.integ.contains 0 = false →
     (x.answer = none → s.fabricFull = false → ∃ t, exec (.sw st r m) s = .next t ∧
       t.tx = s.tx ++ [.memberAccess mem st.val true 0 off 4 x.w[r]] ∧ t.issues st = false ∧ t.mem = s.mem) ∧
     (∀ a, x.answer = some a → ∃ t, exec (.sw st r m) s = .next t ∧ Retires s t st (x.applyUpd e.upd)))

/-- R134: PUSH stores below the data stack pointer and lowers it, POP loads at it and raises it, ADJSP moves it by words, RDDSP reads it. No
other byte of memory changes. A pointer that would leave the stack traps and stays. -/
def Obligations.DataStack : Prop :=
  ∀ (s : State) (st d a : Fin 16) (imm : BitVec 18), Ready s st →
    let x := s.strand st.val
    let key := fun (p : Nat) => s.dkey st.val (p - 0x80000)
    (0x80000 ≤ x.dsl.toNat → x.dsl.toNat + 4 ≤ x.dsp.toNat → x.dsp.toNat ≤ 0xC0000 →
      s.integ.contains (key (x.dsp.toNat - 4) / 32) = false →
      ∃ t, exec (.push st a) s = .next t ∧
        (∀ j, j < 4 → t.mget (key (x.dsp.toNat - 4) + j) = x.w[a].extractLsb' (8 * j) 8) ∧
        (∀ k, k < key (x.dsp.toNat - 4) ∨ key (x.dsp.toNat - 4) + 4 ≤ k → t.mget k = s.mget k) ∧
        Retires s { t with mem := s.mem } st { x with dsp := x.dsp - 4 }) ∧
    (0x80000 ≤ x.dsp.toNat → x.dsp.toNat + 4 ≤ 0xC0000 → x.dsp.toNat % 4 = 0 →
      s.integ.contains (key x.dsp.toNat / 32) = false →
      ∃ t, exec (.pop st d) s = .next t ∧ Retires s t st
        { x with dsp := x.dsp + 4, w := x.w.set d (BitVec.ofNat 32 (leNat (s.mgetN (key x.dsp.toNat) 4))) }) ∧
    ((x.dsp.toNat : Int) + 4 * imm.toInt ≤ 0xC0000 → (x.dsl.toNat : Int) ≤ x.dsp.toNat + 4 * imm.toInt ∨ 0 ≤ imm.toInt →
      ∃ t, exec (.adjsp st imm) s = .next t ∧ Retires s t st { x with dsp := x.dsp + 4 * imm.signExtend 32 }) ∧
    (∃ t, exec (.rddsp st d) s = .next t ∧ Retires s t st { x with w := x.w.set d x.dsp }) ∧
    (x.dsp.toNat < x.dsl.toNat + 4 → exec (.push st a) s = .next ((s.issue st .store).trap st 0x07)) ∧
    (imm.toInt < 0 → (x.dsp.toNat : Int) + 4 * imm.toInt < x.dsl.toNat → (x.dsp.toNat : Int) + 4 * imm.toInt ≤ 0xC0000 →
      exec (.adjsp st imm) s = .next ((s.issue st .other).trap st 0x07)) ∧
    (0xC0000 < (x.dsp.toNat : Int) + 4 * imm.toInt → exec (.adjsp st imm) s = .next ((s.issue st .other).trap st 0x04)) ∧
    (x.dsp = 0xC0000 → exec (.pop st d) s = .next ((s.issue st .load).trap st 0x04)) ∧
    (∀ kind code, (((s.issue st kind).trap st code).strand st.val).dsp = x.dsp)

/-- R120: the effective bit index is the field, or a W register plus its low 20 bits without wrap-around; a reserved mode and an index of
0x18_0000 or above trap, in every instruction of the bit groups. R120, R121, R122: the bit logic instructions with an image operand, on a
bit that can be read now. R122, R123: the instructions on BA and the bit stack. A push needs a free place and a pop an entry; otherwise the
bit stack trap is raised and BA and the bit stack stay. -/
def Obligations.BitLogic : Prop :=
  (∀ (s : State) (st : Fin 16) (f : BitVec 24) (mode : BitVec 2) (n : Fin 16) (idx : Bool) (code : Nat), Ready s st →
     f.toNat / 2 ^ 20 = n.val →
     let x := s.strand st.val
     let m : BitArg := { mode := mode, field := f }
     let i := if mode = 0 then f.toNat else x.w[n].toNat + f.toNat % 2 ^ 20
     x.bitIndex m = (if 2 ≤ mode.toNat then .error 0x02 else if i < 0x180000 then .ok i else .error 0x04) ∧
     (x.bitIndex m = .error code → ∀ c ∈ [Instr.ldb st m, .ldbn st m, .andb st m, .andbn st m, .orb st m, .orbn st m, .xorb st m,
       .outb st m, .setb st m, .rstb st m], exec c s = .next ((s.issue st .bit).trap st code)) ∧
     (x.bitIndex { mode := if idx then 1 else 0, field := f } = .error code → ∀ c ∈ [Instr.edgr st idx f, .edgf st idx f],
       exec c s = .next ((s.issue st .bit).trap st code))) ∧
  (∀ (s : State) (st : Fin 16) (m : BitArg) (i : Nat) (v : Bool), Ready s st →
     let x := s.strand st.val
     x.bitIndex m = .ok i → s.imgInteg (i / 8) = false → s.fabricFull = false → s.imgBit st (i / 8) (i % 8) = .ok v →
     let put := fun (b : Bool) => { x with ba := b }
     (∃ t, exec (.ldb st m) s = .next t ∧ Retires s t st (put v)) ∧
     (∃ t, exec (.ldbn st m) s = .next t ∧ Retires s t st (put !v)) ∧
     (∃ t, exec (.andb st m) s = .next t ∧ Retires s t st (put (x.ba && v))) ∧
     (∃ t, exec (.andbn st m) s = .next t ∧ Retires s t st (put (x.ba && !v))) ∧
     (∃ t, exec (.orb st m) s = .next t ∧ Retires s t st (put (x.ba || v))) ∧
     (∃ t, exec (.orbn st m) s = .next t ∧ Retires s t st (put (x.ba || !v))) ∧
     (∃ t, exec (.xorb st m) s = .next t ∧ Retires s t st (put (xor x.ba v)))) ∧
  (∀ (s : State) (st : Fin 16) (v top : Bool) (bs : List Bool), Ready s st →
     let x := s.strand st.val
     let b := x.ba
     (∃ t, exec (.ldbc st v) s = .next t ∧ Retires s t st { x with ba := v }) ∧
     (∃ t, exec (.notb st) s = .next t ∧ Retires s t st { x with ba := !b }) ∧
     (x.bs.length < 16 → ∃ t, exec (.pshb st) s = .next t ∧ Retires s t st { x with bs := b :: x.bs }) ∧
     (x.bs = top :: bs →
       (∃ t, exec (.andpb st) s = .next t ∧ Retires s t st { x with ba := top && b, bs := bs }) ∧
       (∃ t, exec (.orpb st) s = .next t ∧ Retires s t st { x with ba := top || b, bs := bs }) ∧
       (∃ t, exec (.xorpb st) s = .next t ∧ Retires s t st { x with ba := xor top b, bs := bs }) ∧
       (∃ t, exec (.popb st) s = .next t ∧ Retires s t st { x with ba := top, bs := bs }) ∧
       (∃ t, exec (.dupb st) s = .next t ∧ Retires s t st { x with ba := top })) ∧
     (x.bs.length = 16 → exec (.pshb st) s = .next ((s.issue st .bit).trap st 0x0A)) ∧
     (x.bs = [] → ∀ i ∈ [Instr.andpb st, .orpb st, .xorpb st, .popb st, .dupb st],
       exec i s = .next ((s.issue st .bit).trap st 0x0A)) ∧
     (let y := ((s.issue st .bit).trap st 0x0A).strand st.val
      y.ba = x.ba ∧ y.bs = x.bs))

/-- R90, R124, R125: the bit outputs on a bit that the strand owns: the bit goes to the staging view and the committed image keeps its value;
SETB and RSTB with BA = 0 touch nothing; EDGR and EDGF stage BA and leave the edge in BA. R90, R111: a bit output to a bit that the strand does not own is discarded: nothing is staged, the
module records the strand, the address and the count, and the class's OWNV_TRAP bit decides between going on and the OWNV trap, which
halts the strand under HALT_STRAND. R91, R159:
TSB and CLB on a shared bit: the old value goes to the register and the committed bit takes the new one at once, or its forced value (R72); on
any other bit nothing is written, and the discarded store is recorded. -/
def Obligations.BitOutputs : Prop :=
  (∀ (s : State) (st : Fin 16) (m : BitArg) (i : Nat), Ready s st →
     let x := s.strand st.val
     x.bitIndex m = .ok i →
     (x.ba = false → (∃ t, exec (.setb st m) s = .next t ∧ Retires s t st x) ∧ ∃ t, exec (.rstb st m) s = .next t ∧ Retires s t st x) ∧
     (s.fabricFull = false → (s.ownMask st (i / 8)).getLsbD (i % 8) = true →
     let bit : Byte := BitVec.twoPow 8 (i % 8)
     let old := tget ⟨0, 0⟩ x.stg (i / 8)
     let put := fun (v : Bool) =>
       { x with stg := tset ⟨0, 0⟩ x.stg (i / 8)
                         ⟨old.mask ||| bit, (old.val &&& ~~~bit) ||| (if v then bit else 0)⟩ }
     (∃ t, exec (.outb st m) s = .next t ∧ Retires s t st (put x.ba)) ∧
     (∃ t, exec (.setb st m) s = .next t ∧ Retires s t st (if x.ba then put true else x)) ∧
     (∃ t, exec (.rstb st m) s = .next t ∧ Retires s t st (if x.ba then put false else x)) ∧
     (∀ idx, m = { mode := if idx then 1 else 0, field := m.field } → s.imgInteg (i / 8) = false →
       ∀ v, s.imgBit st (i / 8) (i % 8) = .ok v →
       (∃ t, exec (.edgr st idx m.field) s = .next t ∧ Retires s t st { put x.ba with ba := x.ba && !v }) ∧
       (∃ t, exec (.edgf st idx m.field) s = .next t ∧ Retires s t st { put x.ba with ba := !x.ba && v })))) ∧
  (∀ (s : State) (st : Fin 16) (m : BitArg) (i : Nat), Ready s st →
     let x := s.strand st.val
     x.bitIndex m = .ok i → s.fabricFull = false → (s.ownMask st (i / 8)).getLsbD (i % 8) = false →
     bitAt (s.fget HDL_OWNCFG_OWNV_TRAP) (s.cfg st).cls = false →
     ∃ t, exec (.outb st m) s = .next t ∧ t.img = s.img ∧ (t.strand st).pc = x.pc + 4 ∧ (t.strand st).ba = x.ba ∧
       (∀ off, (tget ⟨0, 0⟩ (t.strand st).stg off).mask = (tget ⟨0, 0⟩ x.stg off).mask) ∧
       bitAt (t.fget HDL_OWNV_OWNV) st = true ∧ t.fget (HDL_OWNV_ADDR_ADDR st) = 0x20000000 + i / 8 ∧
       t.fget HDL_OWNV_TOT_TOTAL = min 0xFFFFFFFF (s.fget HDL_OWNV_TOT_TOTAL + 1)) ∧
  (∀ (s : State) (st : Fin 16) (m : BitArg) (i : Nat), Ready s st →
     (s.strand st).bitIndex m = .ok i → s.fabricFull = false → (s.ownMask st (i / 8)).getLsbD (i % 8) = false →
     bitAt (s.fget HDL_OWNCFG_OWNV_TRAP) (s.cfg st).cls = true → bitAt (s.fget TRAP_POL_POL) (s.cfg st).cls = false →
     ∃ t, exec (.outb st m) s = .next t ∧ (t.strand st).run = .halted ∧ (t.strand st).stg = [] ∧ t.fget (TRAP_INFO_CODE st) = trOwnv ∧
       bitAt (t.fget HDL_OWNV_OWNV) st = true ∧ t.fget (HDL_OWNV_ADDR_ADDR st) = 0x20000000 + i / 8 ∧ t.img = s.img) ∧
  (∀ (s : State) (st d : Fin 16) (m : SharedBitArg) (i : Nat) (v : Bool), Ready s st →
     let x := s.strand st.val
     x.sharedBitIndex m = .ok i → s.bitShared i = true → s.imgInteg (i / 8) = false → s.fabricFull = false →
     (imgGet s.img (i / 8)).getLsbD (i % 8) = v →
     let becomes := fun (b : Bool) => match s.forced 2 i with
       | some f => bitAt f.toNat 0
       | none => b
     let bit : Byte := BitVec.twoPow 8 (i % 8)
     let old := imgGet s.img (i / 8)
     let y := { x with w := x.w.set d (if v then 1 else 0) }
     (∃ t, exec (.tsb st d m) s = .next t ∧ imgGet t.img (i / 8) = (if becomes true then old ||| bit else old &&& ~~~bit) ∧
       (∀ a, a ≠ i / 8 → imgGet t.img a = imgGet s.img a) ∧ Retires s { t with img := s.img } st y) ∧
     (∃ t, exec (.clb st d m) s = .next t ∧ imgGet t.img (i / 8) = (if becomes false then old ||| bit else old &&& ~~~bit) ∧
       (∀ a, a ≠ i / 8 → imgGet t.img a = imgGet s.img a) ∧ Retires s { t with img := s.img } st y)) ∧
  ∀ (s : State) (st d : Fin 16) (m : SharedBitArg) (i : Nat) (v : Bool), Ready s st →
     let x := s.strand st.val
     x.sharedBitIndex m = .ok i → s.bitShared i = false → s.imgInteg (i / 8) = false → s.fabricFull = false →
     s.imgBit st (i / 8) (i % 8) = .ok v → bitAt (s.fget HDL_OWNCFG_OWNV_TRAP) (s.cfg st).cls = false →
     let discarded := fun (c : Instr) => ∃ t, exec c s = .next t ∧ t.img = s.img ∧ (t.strand st).pc = x.pc + 4 ∧
       (t.strand st).w = x.w.set d (if v then 1 else 0) ∧ (t.strand st).stg = x.stg ∧
       bitAt (t.fget HDL_OWNV_OWNV) st = true ∧ t.fget (HDL_OWNV_ADDR_ADDR st) = 0x20000000 + i / 8
     discarded (.tsb st d m) ∧ discarded (.clb st d m)

/-- R152, R153, R154, R155: LR in the own module's global memory reserves the granule; SC with the reservation stores and writes 0, with a lost
one or another granule stores nothing and writes 1, and without any traps; the reservation is NONE after either. -/
def Obligations.LoadReservedStoreConditional : Prop :=
  ∀ (s : State) (st d a b : Fin 16), Ready s st →
    let x := s.strand st.val
    let addr := x.w[b].toNat
    0x10000000 ≤ addr → addr < 0x11A00000 → addr % 4 = 0 → s.integ.contains (addr / 32) = false → s.fabricFull = false →
    (∃ t, exec (.lr st d b) s = .next t ∧ (t.strand st).resv = .valid s.member (addr / 32) ∧
      Retires s t st { x with w := x.w.set d (BitVec.ofNat 32 (leNat (s.mgetN addr 4))) }) ∧
    (x.resv = .valid s.member (addr / 32) → ∃ t, exec (.sc st d a b) s = .next t ∧ (t.strand st).resv = .none ∧
      (t.strand st).w = x.w.set d 0 ∧ (∀ j, j < 4 → t.mget (addr + j) = x.w[a].extractLsb' (8 * j) 8) ∧
      (∀ k, k < addr ∨ addr + 4 ≤ k → t.mget k = s.mget k) ∧
      (∀ j g, j ≠ st.val → g = addr / 32 → (s.strand j).resv = .valid s.member g → j < 16 → (t.strand j).resv = .lost)) ∧
    ((x.resv = .lost ∨ ∃ m g, x.resv = .valid m g ∧ (m ≠ s.member ∨ g ≠ addr / 32)) →
      ∃ t, exec (.sc st d a b) s = .next t ∧ (t.strand st).resv = .none ∧
        Retires s t st { x with w := x.w.set d 1 }) ∧
    (x.resv = .none → exec (.sc st d a b) s = .next ((s.issue st .sc).trap st 0x0C))

/-! ## Control flow and system instructions -/

/-- R118: the condition of a code, from the flags, and what the first six say after CMP. R118, R136: B and DBNZ, while branches of the strand
are not traced. A taken branch goes to a target inside the bank, any other target traps at the branch; a branch that is not taken checks no
target. DBNZ counts down in either case. No flag changes. R135, R136: jumps, calls and returns, while branches of the strand are not traced.
A call pushes PC + 4 and a return pops it; both go on only inside the bank and, for a register or popped target, at a multiple of 4; a full
or an empty return stack traps. -/
def Obligations.Branches : Prop :=
  ((∀ (x : Strand) (cc : BitVec 4),
     x.cond cc = [some x.z, some !x.z, some (xor x.n x.v), some !(xor x.n x.v), some !x.c, some x.c, some x.v, some !x.v, some x.q,
       some x.ba, some !x.ba, none, none, none, none, some true][cc.toNat]?.join) ∧
   ∀ (s : State) (st a b : Fin 16), Ready s st → ∃ t, exec (.cmp st a b) s = .next t ∧
     let p := (s.strand st.val).w[a]
     let q := (s.strand st.val).w[b]
     let y := t.strand st.val
     y.cond 0 = some (p == q) ∧ y.cond 1 = some (p != q) ∧ y.cond 2 = some (decide (p.toInt < q.toInt)) ∧
       y.cond 3 = some (decide (q.toInt ≤ p.toInt)) ∧ y.cond 4 = some (decide (p.toNat < q.toNat)) ∧
       y.cond 5 = some (decide (q.toNat ≤ p.toNat))) ∧
  (∀ (s : State) (st n : Fin 16) (cc : BitVec 4) (disp : BitVec 22) (dest : Int), Ready s st → s.btOn st = false →
     let x := s.strand st.val
     dest = (x.pc.toNat : Int) + 4 * disp.toInt →
     let y := { x with w := x.w.set n (x.w[n] - 1) }
     (x.cond cc = some false → ∃ t, exec (.b st cc disp) s = .next t ∧ Retires s t st x) ∧
     (x.cond cc = some true → 0 ≤ dest → dest < 0x80000 →
       ∃ t, exec (.b st cc disp) s = .next t ∧ RetiresTo s t st x (BitVec.ofInt 32 dest)) ∧
     (x.cond cc = some true → dest < 0 ∨ 0x80000 ≤ dest → exec (.b st cc disp) s = .next ((s.issue st .other).trap st 0x04)) ∧
     (x.cond cc = none → exec (.b st cc disp) s = .next ((s.issue st .other).trap st 0x02)) ∧
     (x.w[n] = 1 → ∃ t, exec (.dbnz st n disp) s = .next t ∧ Retires s t st y) ∧
     (x.w[n] ≠ 1 → 0 ≤ dest → dest < 0x80000 →
       ∃ t, exec (.dbnz st n disp) s = .next t ∧ RetiresTo s t st y (BitVec.ofInt 32 dest)) ∧
     (x.w[n] ≠ 1 → dest < 0 ∨ 0x80000 ≤ dest → exec (.dbnz st n disp) s = .next ((s.issue st .other).trap st 0x04)) ∧
     (let y := ((s.issue st .other).trap st 0x04).strand st.val
      y.w = x.w ∧ y.rs = x.rs)) ∧
  (∀ (s : State) (st a d : Fin 16) (disp : BitVec 26) (dest : Int) (top : Word) (rs : List Word), Ready s st → s.btOn st = false →
     let x := s.strand st.val
     dest = (x.pc.toNat : Int) + 4 * disp.toInt →
     let good := fun (p : Word) => p.toNat % 4 = 0 ∧ p.toNat < 0x80000
     let pushed := { x with rs := (x.pc + 4) :: x.rs }
     (good x.w[a] → ∃ t, exec (.jr st a) s = .next t ∧ RetiresTo s t st x x.w[a]) ∧
     (0 ≤ dest → dest < 0x80000 → x.rs.length < 64 →
       ∃ t, exec (.call st disp) s = .next t ∧ RetiresTo s t st pushed (BitVec.ofInt 32 dest)) ∧
     (good x.w[a] → x.rs.length < 64 → ∃ t, exec (.callr st a) s = .next t ∧ RetiresTo s t st pushed x.w[a]) ∧
     (x.rs = top :: rs → good top → ∃ t, exec (.ret st) s = .next t ∧ RetiresTo s t st { x with rs := rs } top) ∧
     (∃ t, exec (.rdrsp st d) s = .next t ∧ Retires s t st { x with w := x.w.set d (BitVec.ofNat 32 x.rs.length) }) ∧
     (good x.w[a] → x.rs.length = 64 → exec (.callr st a) s = .next ((s.issue st .other).trap st 0x08)) ∧
     (0 ≤ dest → dest < 0x80000 → x.rs.length = 64 → exec (.call st disp) s = .next ((s.issue st .other).trap st 0x08)) ∧
     (x.rs = [] → exec (.ret st) s = .next ((s.issue st .other).trap st 0x09)) ∧
     (let code := fun (p : Word) => if p.toNat % 4 ≠ 0 then 0x03 else 0x04
      (¬ good x.w[a] → exec (.jr st a) s = .next ((s.issue st .other).trap st (code x.w[a])) ∧
        exec (.callr st a) s = .next ((s.issue st .other).trap st (code x.w[a]))) ∧
      (x.rs = top :: rs → ¬ good top → exec (.ret st) s = .next ((s.issue st .other).trap st (code top))) ∧
      (dest < 0 ∨ 0x80000 ≤ dest → exec (.call st disp) s = .next ((s.issue st .other).trap st 0x04)) ∧
      ∀ c, (((s.issue st .other).trap st c).strand st.val).rs = x.rs))

/-- R116, R119, R137: NOP, FENCE, the flag and fixed-point mode registers, RDCTX. R26, R141: RDSYS and WRSYS under the strand's permissions. A
read delivers the register at the effective address, a write acts on it; the lowest trap code of those that apply is raised otherwise. -/
def Obligations.ModesAndSystemRegisters : Prop :=
  (∀ (s : State) (st d a : Fin 16), Ready s st →
     let x := s.strand st.val
     let v := x.w[a]
     (∃ t, exec (.nop st) s = .next t ∧ Retires s t st x) ∧
     (∃ t, exec (.fence st) s = .next t ∧ Retires s t st x) ∧
     (∃ t r, exec (.rdfl st d) s = .next t ∧ Retires s t st { x with w := x.w.set d r } ∧ r.toNat < 64 ∧
       r.getLsbD 0 = x.z ∧ r.getLsbD 1 = x.n ∧ r.getLsbD 2 = x.c ∧ r.getLsbD 3 = x.v ∧ r.getLsbD 4 = x.q ∧ r.getLsbD 5 = x.ba) ∧
     (∃ t, exec (.wrfl st a) s = .next t ∧ Retires s t st
       { x with z := v.getLsbD 0, n := v.getLsbD 1, c := v.getLsbD 2, v := v.getLsbD 3, q := v.getLsbD 4 }) ∧
     (∃ t, exec (.clrq st) s = .next t ∧ Retires s t st { x with q := false }) ∧
     (∃ t, exec (.rdfxm st d) s = .next t ∧ Retires s t st { x with w := x.w.set d (x.fxm.setWidth 32) }) ∧
     (v.extractLsb' 0 2 ≠ 3 → ∃ t, exec (.wrfxm st a) s = .next t ∧ Retires s t st { x with fxm := v.extractLsb' 0 4 }) ∧
     (v.extractLsb' 0 2 = 3 → exec (.wrfxm st a) s = .next ((s.issue st .other).trap st 0x02) ∧
       (((s.issue st .other).trap st 0x02).strand st.val).fxm = x.fxm) ∧
     StrandCfg.default.fxmInit = 0xE ∧
     (∃ t, exec (.rdctx st d) s = .next t ∧ Retires s t st
       { x with w := x.w.set d (BitVec.ofNat 32 (st.val + 2 ^ 8 * s.member + 2 ^ 16 * (s.cfg st).cls)) })) ∧
  (∀ (s : State) (st d b : Fin 16) (imm : BitVec 17), Ready s st →
     let x := s.strand st.val
     let a := x.w[b] + imm.signExtend 32
     let perm := fun (p : BitVec 19) => p.getLsbD (a.toNat / 0x10000 - 0x4000)
     let inside := 0x40000000 ≤ a.toNat ∧ a.toNat < 0x40130000
     let u := s.issue st .other
     (a.toNat % 4 ≠ 0 → exec (.rdsys st d b imm) s = .next (u.trap st 0x03) ∧ exec (.wrsys st d b imm) s = .next (u.trap st 0x03)) ∧
     (a.toNat % 4 = 0 → ¬ inside →
       exec (.rdsys st d b imm) s = .next (u.trap st 0x04) ∧ exec (.wrsys st d b imm) s = .next (u.trap st 0x04)) ∧
     (a.toNat % 4 = 0 → inside → perm (s.cfg st).permRd = false → exec (.rdsys st d b imm) s = .next (u.trap st 0x05)) ∧
     (a.toNat % 4 = 0 → inside → perm (s.cfg st).permWr = false → exec (.wrsys st d b imm) s = .next (u.trap st 0x05)) ∧
     (a.toNat % 4 = 0 → inside → perm (s.cfg st).permRd = true → ∃ t, exec (.rdsys st d b imm) s = .next t ∧
       (t.strand st).w = x.w.set d (u.regRead st a.toNat 0).2 ∧ (t.strand st).pc = x.pc + 4 ∧ t.mem = s.mem ∧ t.img = s.img) ∧
     (a.toNat % 4 = 0 → inside → perm (s.cfg st).permWr = true → ∃ t, exec (.wrsys st d b imm) s = .next t ∧
       (t.strand st).pc = x.pc + 4 ∧ (t.strand st).w = x.w ∧
       ∀ r, ¬ pmcCounter r → r ≠ a.toNat → mbReg a.toNat = none → (∀ q, a.toNat ≠ QUE_POST q ∧ a.toNat ≠ QUE_RETIRE q) →
         a.toNat ≠ PMC_CTRL → a.toNat ≠ OBS_RT_CFG → (∀ n, n < 4096 → a.toNat ≠ QUE_DESC0 n) →
         t.rget a.toNat = (u.plainWrite a.toNat x.w[d] 0).rget a.toNat ∧ t.rget r = s.rget r))

/-- R96, R97: BEAT of a producer that has not executed it in this cycle takes the strand's beat view; the beat is signalled when it was the last
outstanding producer. BEAT of any other strand sets STRAY and leaves the beat as it is. R48, R50, R100, R137: ENDC ends the strand's cycle;
its pending beats are force-signalled; the beam of the class becomes ready with its last strand, and not before. -/
def Obligations.BeatsAndEndOfCycle : Prop :=
  (∀ (s : State) (st : Fin 16) (b : BitVec 6), Ready s st →
     let x := s.strand st.val
     let k := (s.cfg st).cls
     let prod := s.fget (BEAT_PROD_PROD k b.toNat)
     let due := bitAt prod st && !(s.beatDoneMask k b.toNat).getLsbD st
     k < 4 →
     (due = true → ∃ t, exec (.beat st b) s = .next t ∧ (t.strand st).pc = x.pc + 4 ∧ (t.strand st).stg = x.stg ∧ t.img = s.img ∧
       (t.beatDoneMask k b.toNat).getLsbD st = true ∧
       tget [] (t.cls k).beatView (viewKey b.toNat (s.ownerCode st)) = x.stg ∧
       (t.beatSig k b.toNat = true ↔ s.beatSig k b.toNat = true ∨
         ∀ j, j < 16 → j ≠ st.val → bitAt prod j = true → (s.beatDoneMask k b.toNat).getLsbD j = true)) ∧
     (due = false → ∃ t, exec (.beat st b) s = .next t ∧ (t.strand st).pc = x.pc + 4 ∧ t.img = s.img ∧ t.classes = s.classes ∧
       t.beatSig k b.toNat = s.beatSig k b.toNat ∧ bitAt (t.fget BEAT_EVT_STRAY) k = true)) ∧
  (∀ (s : State) (st : Fin 16), Ready s st →
     let k := (s.cfg st).cls
     k < 4 → (s.cls k).beam = .weaving →
     ∃ t, exec (.endc st) s = .next t ∧ (t.strand st).run = .ended ∧ t.img = s.img ∧
       (∀ b, b ∈ s.pendingBeats st → bitAt (t.fget (beatFld true k b)) (b % 32) = true) ∧
       ((∀ j, j < 16 → j ≠ st.val → (s.cfg j).cls = k → (s.strand j).run = .ended ∨ (s.strand j).run = .halted) →
         (t.cls k).beam = .ready s.fab) ∧
       (∀ j, j < 16 → j ≠ st.val → (s.cfg j).cls = k → (s.strand j).run = .weaving → (t.cls k).beam = .weaving))

/-- R127, R161, R162, R169: what raises a trap with which code: TRAP with its own code, or ILLEGAL for a code that no software trap has; a word
that is no instruction; a division by 0; a misaligned access before a reserved address, IMEM or the register space; a store to the status
words; a value that WRL refuses; the checks of the stacks and of BK. R163, R166, R167: a trap is recorded with its code, its PC and its
handling, counted up to 0xFFFF, and its bit in TRAP_SUM is set; event 0x0120 carries the PC first and the code. Under HALT_STRAND the strand
halts for the rest of its cycle with nothing staged; under SAFE, and for INTEG, the module enters SAFE. -/
def Obligations.Traps : Prop :=
  (∀ (s : State) (st d a b : Fin 16) (m : AddrArg) (e : Eff) (n : BitVec 6) (word : Word) (l : Fin 4), Ready s st →
     let x := s.strand st.val
     let traps := fun (i : Instr) (kind : DxKind) (code : Nat) => exec i s = .next ((s.issue st kind).trap st code)
     (0x30 ≤ n.toNat → traps (.trap st n) .other n.toNat) ∧
     (n.toNat < 0x30 → traps (.trap st n) .other 0x02) ∧
     (dxDecode st word = none → traps (.illegalInstruction st word) .other 0x02) ∧
     (x.w[b] = 0 → ∀ i ∈ [Instr.div st d a b, .divu st d a b, .rem st d a b, .remu st d a b], traps i .other 0x0B) ∧
     (x.eff m = .ok e →
       (e.addr.toNat % 4 ≠ 0 → traps (.lw st d m) .load 0x03 ∧ traps (.sw st d m) .store 0x03) ∧
       (e.addr.toNat % 2 ≠ 0 → traps (.lh st d m) .load 0x03 ∧ traps (.lhu st d m) .load 0x03 ∧ traps (.sh st d m) .store 0x03) ∧
       (let p := e.addr.toNat
        p < 0x80000 ∨ 0xC0000 ≤ p ∧ p < 0x10000000 ∨ 0x12000000 ≤ p ∧ p < 0x20000000 ∨ 0x20200000 ≤ p ∧ p < 0x80000000 ∨
          0xC0000000 ≤ p →
        traps (.lby st d m) .load 0x04 ∧ traps (.sby st d m) .store 0x04) ∧
       (0x20180000 ≤ e.addr.toNat → e.addr.toNat < 0x20200000 → traps (.sby st d m) .store 0x05)) ∧
     (x.w[a].toNat / 2 ^ 30 = 3 ∨ 262144 < x.w[a].toNat % 2 ^ 30 ∨ (x.w[a].toNat / 2 ^ 30 = 1 ∧ x.w[a].toNat % 2 ^ 19 = 0) →
       traps (.wrl st l a) .other 0x02) ∧
     (s.bkValid (x.w[a].setWidth 16) = false → traps (.setbk st a) .other 0x06) ∧
     (x.dsp.toNat < x.dsl.toNat + 4 → traps (.push st a) .store 0x07)) ∧
  (∀ (s : State) (st : Fin 16) (code : Nat), code < 64 → (s.cfg st).cls < 4 → s.onTrial (s.cfg st).cls = false →
     let t := s.trap st code
     let pc := (s.strand st).pc
     let safe := code = 0x01 ∨ bitAt (s.fget TRAP_POL_POL) (s.cfg st).cls = true
     t.fget (TRAP_INFO_CODE st) = code ∧ t.fget (TRAP_PC_PC st) = pc.toNat ∧
     t.fget (TRAP_INFO_COUNT st) = min 0xFFFF (s.fget (TRAP_INFO_COUNT st) + 1) ∧
     bitAt (t.fget TRAP_SUM_TRAPPED) st = true ∧
     (s.evq.length < s.fget (QUE_CFG_DEPTH 30) → ∃ ev, ev ∈ t.evq ∧ ev.code = 0x0120 ∧
       ev.payload.take 4 = leBytes 4 pc.toNat ∧ ev.payload.drop 8 = [BitVec.ofNat 8 (s.cfg st).cls, BitVec.ofNat 8 st, BitVec.ofNat 8 code,
         if safe then 1 else 0]) ∧
     (¬ safe → t.fget (TRAP_INFO_HANDLING st) = 0 ∧ (t.strand st).run = .halted ∧ (t.strand st).stg = [] ∧ t.img = s.img) ∧
     (safe → 2 ≤ s.mode → s.mode ≤ 7 → t.fget (TRAP_INFO_HANDLING st) = 1 ∧ t.mode = 8))

/-! ## Registers, resets and observation -/

/-- R3, R5, R6: what a write leaves in a register with a row in the maps: RW bits take the value, LK bits do so until the lock is set, W1C bits
go where a 1 is written unless hardware sets them in the same clock, all other bits stay. R3, R4, R76, R142: accesses of the steward. A
write of a register without a command follows the access codes and touches no other register; a read of an RC register returns its value and
clears the RC bits in one access; a read of CYC_TB_LO returns the low word of TB and latches the high word for the read of CYC_TB_HI. -/
def Obligations.RegisterAccesses : Prop :=
  (∀ (s : State) (a i : Nat) (r : RegRow) (v hw : Word), regRow a = some r → i < 32 →
     let new := ((s.plainWrite a v hw).rget a).getLsbD i
     let old := (s.rget a).getLsbD i
     let is := fun (m : Nat) => (BitVec.ofNat 32 m).getLsbD i
     let locked := s.flag SYS_CFGLOCK_LOCK
     (is r.w1c = true → is r.rw = false → is r.lk = false → new = ((old && !v.getLsbD i) || hw.getLsbD i)) ∧
     (is r.w1c = false → is r.rw = true → new = v.getLsbD i) ∧
     (is r.w1c = false → is r.rw = false → is r.lk = true → new = if locked then old else v.getLsbD i) ∧
     (is r.w1c = false → is r.rw = false → is r.lk = false → new = old) ∧
     ∀ b, b ≠ a → (s.plainWrite a v hw).rget b = s.rget b) ∧
  (∀ (s : State) (a v hw : Word), s.ctl.held = false → s.mode ≠ mDormant →
     (¬ CommandReg a.toNat → ∃ t, exec (.registerWrite a v hw) s = .next t ∧
       t.rget a.toNat = (s.plainWrite a.toNat v hw).rget a.toNat ∧ (∀ b, b ≠ a.toNat → t.rget b = s.rget b) ∧
       { t with regs := s.regs } = s) ∧
     (∀ r, regRow a.toNat = some r → mbReg a.toNat = none → hiOf a.toNat = none →
       let m : Word := BitVec.ofNat 32 r.rc
       ∃ t, exec (.readClear a hw) s = .next t ∧ t.readback = s.regView a.toNat ∧
         t.rget a.toNat = (s.rget a.toNat &&& ~~~m) ||| (hw &&& m) ∧ (∀ b, b ≠ a.toNat → t.rget b = s.rget b) ∧
         { t with regs := s.regs, readback := s.readback } = s) ∧
     (∃ t, exec (.highWordLatch (BitVec.ofNat 32 CYC_TB_LO)) s = .next t ∧ t.readback = s.tb.setWidth 32 ∧
       t.regView CYC_TB_HI = s.tb.extractLsb' 32 32 ∧ t.regs = s.regs))

/-- R12, R20, R527, R531: a clock fault holds the die in reset with FAULT_n asserted and the baton dropped; RESET_n takes the outputs off while
it is asserted, and resets the module with cause EXT after 10 ms; the companion changes to the cell. R470, R487: when the always-on domain
loses every supply, the RTC is back at its reset values, keep RAM reads 0 and the open event record is gone; the retain store and the
configuration store keep every byte, when no operation of the store runs. R274, R281, R494, R506: a start that passes steps 2 to 5 and finds
slot 0 confirmed and sound, and nothing in slot 1, comes to the end of step 7 and beyond, with the configuration lock set; one whose boot
ROM fails stays in POWER-UP with step 2 shown; one without a slot to start shows step 6 and recovery. A die that is held, or past its start,
starts only with the return of its supply (the model's choice, assumption 2). -/
def Obligations.ResetsAndStart : Prop :=
  (∀ (s : State) (cause : Fin 3) (ppm : Int) (t0 : Nat), s.ctl.held = false → s.mode ≠ mDormant → s.ctl.pfail = false →
     (∃ t, exec (.clockFault cause ppm) s = .next t ∧ t.ctl.held = true ∧ t.ctl.faultN = true ∧ t.flag RED_STAT_BATON_OUT = false ∧
       t.mode = mPowerUp ∧ t.strands = [] ∧ t.dios = [] ∧ (∀ n, n < 16 → s.ucMode n ≠ 0x3A → (t.uc n).out = 0) ∧
       ∃ rest, t.ctl.clockFault = some (BitVec.ofNat 8 cause :: rest)) ∧
     (s.supply.resetN = none → ∃ t, exec .resetNAsserted s = .next t ∧ t.supply.resetN = some s.fab ∧
       (∀ n, n < 32 → (t.dio n).out = false) ∧ (∀ n, n < 16 → s.ucMode n ≠ 0x3A → (t.uc n).out = 0) ∧ t.strands = s.strands ∧ t.regs = s.regs ∧
       t.mem = s.mem ∧ t.img = s.img) ∧
     (s.supply.resetN = some t0 → t0 + 5000000 ≤ s.fab → FreshClock s → ∃ t, exec .externalReset s = .next t ∧ t.mode = mPowerUp ∧
       t.fget SYS_RSTCAUSE_CAUSE = 1 ∧ t.strands = [] ∧ t.img = [] ∧ t.supply.resetN = none ∧ t.rtc.count = s.rtc.count) ∧
     (s.supply.resetN = some t0 → s.fab < t0 + 500000 →
       exec .externalReset s = .next { s with supply := { s.supply with resetN := none } }) ∧
     (s.supply.cellBad = false → exec .cellSwitchOver s = .next { s with supply := { s.supply with onCell := true } })) ∧
  (∀ (s : State), ∃ t, exec .alwaysOnSupplyLoss s = .next t ∧ t.rtc = Rtc.reset ∧ t.recorder.openRec = none ∧ t.evq = [] ∧
     t.flag RTC_STAT_VALID = false ∧ t.fget RTC_TRIM_TRIM = 0 ∧ t.mode = mPowerUp ∧
     (∀ key, keyKeep 0 ≤ key → key < keyStore 0 → t.mget key = 0) ∧
     (s.store.running = [] → ∀ key, keyStore 0 ≤ key → t.mget key = s.mget key)) ∧
  (∀ (s : State) (x : StartIn),
     (x.supply = none → (s.ctl.held = true ∨ s.mode ≠ mPowerUp ∨ s.flag SYS_BOOT_FAIL = true) → exec (.startUp x) s = .next s) ∧
     (x.supply = none → s.ctl.held = false → s.mode = mPowerUp → s.flag SYS_BOOT_FAIL = false →
       (x.romOk = false → ∃ t, exec (.startUp x) s = .next t ∧ t.mode = mPowerUp ∧ t.fget SYS_BOOT_STEP = 2 ∧
         t.flag SYS_BOOT_FAIL = true ∧ t.ctl.faultN = true) ∧
       (x.romOk = true → x.initOk = true → x.cmpFail = 0 → x.anchorOk = true →
         (s.slotState 0 = slConfirmed → s.slotState 1 = slEmpty → s.slotVerifies 0 x.verify0 = true →
           ∃ t, exec (.startUp x) s = .next t ∧ t.flag SYS_CFGLOCK_LOCK = true ∧ t.ctl.bootMs = x.bootMs) ∧
         (s.slotState 0 = slEmpty → s.slotState 1 = slEmpty → ∃ t, exec (.startUp x) s = .next t ∧ t.mode = mPowerUp ∧
           t.fget SYS_BOOT_STEP = 6 ∧ t.flag SYS_BOOT_FAIL = true ∧ t.ctl.faultN = true ∧ t.flag UPD_STAT_RECOVERY = true))))

/-- R512, R517, R518: the OBS link, and the life of a retirement trace: an accepted start waits with its number of cycles, a stop ends the
capture, and the end of the drain sends the captured granules and empties the buffer. R519, R520: SNAP keeps every count with TB, CLEAR sets
every count and OVF bit to 0 and keeps the selections, FREEZE changes its bit alone. The table of stored registers is assumed in its
canonical form. -/
def Obligations.Observation : Prop :=
  (∀ (s : State) (up : Bool), s.ctl.held = false → s.mode ≠ mDormant →
     (s.flag OBS_CFG_LINK ≠ up → ∃ t, exec (.obsLinkChange up) s = .next t ∧ t.flag OBS_CFG_LINK = up ∧ t.obs = s.obs ∧ t.mem = s.mem ∧
       t.strands = s.strands) ∧
     (s.fget OBS_RT_BUF_SIZE16 ≠ 0 → s.mode = mStop ∨ s.mode = mProgram ∨ s.mode = mRun → s.flag OBS_RT_STAT_CAPTURING = false →
       s.flag OBS_RT_STAT_DRAINING = false →
       exec .traceStart s = .next { s with
                                          tx := s.tx ++ [.sessionAnswer saTrace scOk],
                                          trace := { s.trace with start := some s.tbNat, left := s.fget OBS_RT_CFG_NCYC } }) ∧
     (s.fget OBS_RT_BUF_SIZE16 ≠ 0 → s.mode = mRunLocked →
       exec .traceStart s = .next { s with tx := s.tx ++ [.sessionAnswer saTrace scPerm] }) ∧
     (s.flag OBS_RT_STAT_CAPTURING = true → ∃ t, exec .traceStop s = .next t ∧ t.flag OBS_RT_STAT_CAPTURING = false ∧
       t.flag OBS_RT_STAT_DRAINING = true ∧ t.trace.clear = some (s.fget OBS_RT_CFG_STRAND) ∧ t.trace.used = s.trace.used) ∧
     (s.flag OBS_RT_STAT_DRAINING = true → s.flag OBS_CFG_LINK = true → s.trace.clear = none → ∃ t sent,
       exec .traceDrainEnd s = .next t ∧ t.tx = s.tx ++ sent ∧ sent.length = (s.trace.used + 31) / 32 ∧ t.trace.used = 0 ∧
       t.flag OBS_RT_STAT_DRAINING = false ∧ t.flag OBS_RT_STAT_FULL = false ∧ t.mem = s.mem)) ∧
  (∀ (s : State) (on : Bool), s.ctl.held = false → s.mode ≠ mDormant → tabWf regReset s.regs = true →
     (∃ t, exec .snap s = .next t ∧ t.rget64 PMC_SNAPT_LO PMC_SNAPT_HI = s.tbNat ∧
       (∀ i, i < 32 → tget 0 t.pmcSnap (PMC_GLO i) = s.rget (PMC_GLO i) ∧ tget 0 t.pmcSnap (PMC_GHI i) = s.rget (PMC_GHI i)) ∧
       (∀ st j, st < 16 → j < 8 → tget 0 t.pmcSnap (PMC_SLO st j) = s.rget (PMC_SLO st j) ∧
         tget 0 t.pmcSnap (PMC_SHI st j) = s.rget (PMC_SHI st j))) ∧
     (∃ t, exec .clear s = .next t ∧
       (∀ i, i < 32 → t.rget (PMC_GLO i) = 0 ∧ t.rget (PMC_GHI i) = 0 ∧ t.flag (PMC_GCFG_OVF i) = false ∧
         t.fget (PMC_GCFG_EVENT i) = s.fget (PMC_GCFG_EVENT i)) ∧
       (∀ st j, st < 16 → j < 8 → t.rget (PMC_SLO st j) = 0 ∧ t.rget (PMC_SHI st j) = 0 ∧ t.flag (PMC_SCFG_OVF st j) = false) ∧
       (∀ a, isCounter a = false → t.rget a = s.rget a) ∧ { t with regs := s.regs } = s) ∧
     (∃ t, exec (.freeze on) s = .next t ∧ t.flag PMC_CTRL_FREEZE = on ∧ (∀ a, a ≠ PMC_CTRL → t.rget a = s.rget a) ∧
       { t with regs := s.regs } = s))

/-! ## The cycle -/

/-- R36, R37, R39, R40, R57: at a t0 of its class the cycle number and t0 advance; in RUN an executed cycle begins, latched, when no beam of the
class is outstanding and the t0 is not to be skipped; otherwise the t0 is skipped and the SKIP event is set. Neither changes the image or a
strand. -/
def Obligations.CycleStart : Prop :=
  ∀ (s : State) (k : Fin 4) (rb above9 : BitVec 32) (found : LatchFacts),
    Quiet s → s.t0Comes k = true → s.mode = mRun → (s.cls k).firstPend = false →
    ∃ t, exec (.cycleStart k rb above9 found) s = .next t ∧
      (t.cls k).cyc = s.cycAt k s.tbNat ∧ (t.cls k).t0 = s.tb ∧ (t.cls k).started = true ∧ t.img = s.img ∧ t.strands = s.strands ∧
      ((s.cls k).skipNext = false → (s.cls k).beam = .none →
        (t.cls k).executed = true ∧ (t.cls k).latched = true ∧ (t.cls k).skipped = false) ∧
      ((s.cls k).skipNext = true ∨ (s.cls k).beam ≠ .none →
        (t.cls k).executed = false ∧ (t.cls k).skipped = true ∧ (t.cls k).skipNext = false ∧ t.flag (CLS_EVT_SKIP k) = true)

/-- R45, R46, R47: what a shed makes of a word entry of one item. A delivery that is not BAD gives its value, its quality and age 0. Without a
delivery the age in cycles grows to 255, and past STALE the substitute policy gives the value: the last valid one (0, and 3 with BAD),
SUBVAL (1), or 0 (2). R47, R48, R94, R112, R114: the shed of a latched cycle clears the beats of the class and, in an executed cycle of an
executing mode, starts every strand of the class at address 0 of its active bank with the registers of R112; where none is executed, no
strand starts. -/
def Obligations.ShedAndWeave : Prop :=
  (∀ (s : State) (k i : Nat) (e : HEntry) (v w : Word) (q : Nat) (ovr : Bool),
     let x := tget EntrySt.reset s.entries i
     let age := min 255 ((s.cls k).cyc - x.window).toNat
     let t := s.shedEntry k i e
     let word := BitVec.ofNat 32 (leNat ((List.range 4).map (fun j => imgGet t.img (itemOff 3 (hBase e) + j))))
     hKind e = 3 → hCount e = 1 → s.forces = [] →
     (s.deliveryOf k e = some ([v], q, ovr) → q = qGood ∨ q = qUncertain →
       word = v ∧ t.swGet (hSwidx e) = swWord q false false ovr false false 0) ∧
     (s.deliveryOf k e = none → x.delivered = true → x.quality.toNat = qGood → x.value = [v] → x.valid = [w] →
       (hStale e = 0 ∨ age ≤ hStale e → word = v ∧ t.swGet (hSwidx e) = swWord qGood false false x.ovr false false age) ∧
       (hStale e ≠ 0 → hStale e < age →
         word = (if hSubst e = 1 then BitVec.ofNat 32 (hSubval e) else if hSubst e = 2 then 0 else w) ∧
         t.swGet (hSwidx e) =
           swWord (if hSubst e = 3 then qBad else qUncertain) (decide (hSubst e ≠ 3)) true x.ovr false false age))) ∧
  (∀ (s : State) (k : Fin 4), s.ctl.held = false → s.ctl.pfail = false → s.integ = [] →
     (s.cls k).latched = true → (s.cls k).shedDone = false → (s.cls k).t0.toNat + s.dshed k ≤ s.tbNat →
     ((s.cls k).executed = true → s.copying k = false) →
     ∃ t, exec (.shed k) s = .next t ∧ (t.cls k).shedDone = true ∧
       t.rget64 (BEAT_SIG_LO k) (BEAT_SIG_HI k) = 0 ∧ t.rget64 (BEAT_FRC_LO k) (BEAT_FRC_HI k) = 0 ∧
       (s.inputsOf k = [] → t.img = s.img) ∧
       ((s.cls k).executed = false → ∀ st, t.strand st = s.strand st) ∧
       ((s.cls k).executed = true → modeExecutes s.mode = true → ∀ st, st < 16 → (s.cfg st).cls = k.val →
         (t.cls k).beam = .weaving ∧
         t.strand st = { Strand.reset with fxm := (s.cfg st).fxmInit, dsl := BitVec.ofNat 32 (0xC0000 - (s.cfg st).stackSize),
                                           bk := BitVec.ofNat 16 (s.member * 256), run := .weaving, bank := s.activeBank st }))

/-- R50, R51, R320: a ready beam starts when no beam of a lower class is ready, none of another class runs and its mirror copy is done; nothing is committed yet. R102,
R103: a running beam completes: it is over, and the strands of its class are idle with nothing staged, those of the others as they were. It
commits the staged bits of the strands that have ended, and those bits alone, where no engine has a result and no stream a message to deliver. -/
def Obligations.BeamStartAndCommit : Prop :=
  (∀ (s : State) (k : Fin 4) (endc : Nat), (s.cls k).beam = .ready endc → s.ctl.held = false → s.ctl.pfail = false → s.copying k = false →
     ((∀ j, j < 4 → j ≠ k.val → (s.cls j).beam = .none ∨ (s.cls j).beam = .weaving ∨ (k.val < j ∧ ∃ e, (s.cls j).beam = .ready e)) →
       ∃ t, exec (.beamStart k) s = .next t ∧ (t.cls k).beam = .running endc s.fab ∧ t.img = s.img ∧ t.strands = s.strands ∧
         t.fget (CLS_STAT_PHASE_NOW k) = 3) ∧
     (∀ j b c, j < 4 → j ≠ k.val → (s.cls j).beam = .running b c → (s.hbeam j).commitAt = none → exec (.beamStart k) s = .next s)) ∧
  (∀ (s : State) (k : Fin 4) (endc start : Nat), Quiet s → (s.cls k).beam = .running endc start →
     ∃ t, exec (.commitComplete k) s = .next t ∧ (t.cls k).beam = .none ∧ t.mode = s.mode ∧
       (∀ st, st < 16 → (s.cfg st).cls = k.val → (t.strand st).run = .idle ∧ (t.strand st).stg = []) ∧
       (∀ st, st < 16 → (s.cfg st).cls ≠ k.val → t.strand st = s.strand st)) ∧
  (∀ (s : State) (k : Fin 4) (endc start : Nat), Quiet s → (s.cls k).beam = .running endc start →
     (∀ n, n < 8 → s.engine n = Engine.reset) → s.eth.streams = [] → s.config = none → s.streamCfg = [] →
     (∀ st, tabWf (fun _ => (⟨0, 0⟩ : MByte)) (s.strand st).stg = true) →
     ∃ t, exec (.commitComplete k) s = .next t ∧
       (∀ off bit, bit < 8 →
         (∀ st, st < 16 → (s.cfg st).cls = k.val → (s.strand st).run = .ended →
           (tget ⟨0, 0⟩ (s.strand st).stg off).mask.getLsbD bit = false) →
         (imgGet t.img off).getLsbD bit = (imgGet s.img off).getLsbD bit) ∧
       (∀ off bit st, bit < 8 → st < 16 → (s.cfg st).cls = k.val → (s.strand st).run = .ended →
         (tget ⟨0, 0⟩ (s.strand st).stg off).mask.getLsbD bit = true →
         (∀ j, j < 16 → j ≠ st → (s.cfg j).cls = k.val → (tget ⟨0, 0⟩ (s.strand j).stg off).mask.getLsbD bit = false) →
         (imgGet t.img off).getLsbD bit = (tget ⟨0, 0⟩ (s.strand st).stg off).val.getLsbD bit))

/-- R55, R56, R59: at its deadline an executed cycle whose beam is over meets it and ends a row of overruns; one whose beam is outstanding
overruns: the next t0 is skipped, the overrun is counted and its event raised. The values of the emit are then fixed. R99: at the beat
timeout every strand of the class that is stalled on a beat traps with BEATTO and halts, under HALT_STRAND. -/
def Obligations.DeadlinesAndTimeouts : Prop :=
  (∀ (s : State) (k : Fin 4), Quiet s → s.mode = mStop ∨ s.mode = mRun → (s.cls k).started = true → (s.cls k).deadlineDone = false →
     (s.cls k).t0.toNat + s.dout k ≤ s.tbNat + eprep →
     ∃ t, exec (.commitDeadline k) s = .next t ∧ (t.cls k).deadlineDone = true ∧
       (s.mode = mRun → (s.cls k).executed = true → (s.cls k).beam = .none →
         (t.cls k).consec = 0 ∧ (t.cls k).ovrEmit = false ∧ (t.cls k).skipNext = (s.cls k).skipNext ∧ (t.cls k).outImg = s.img) ∧
       (s.mode = mRun → (s.cls k).executed = true → (s.cls k).beam ≠ .none →
         (s.cls k).consec < s.fget (CLS_OVRLIM_K_CONSEC k) → (s.cls k).ovrs.length < s.fget (CLS_OVRLIM_K_WINDOW k) →
         (t.cls k).consec = (s.cls k).consec + 1 ∧ (t.cls k).ovrEmit = true ∧ (t.cls k).skipNext = true ∧
         t.flag (CLS_EVT_OVR k) = true ∧ t.mode = mRun)) ∧
  (∀ (s : State) (k : Fin 4), s.ctl.held = false → s.onTrial k = false → (s.cls k).beam = .weaving → (s.cls k).beatToDone = false →
     s.beamT0 k + s.dshed k + s.fget (BEAT_TO_TO_PCT k) * s.period k / 100 ≤ s.tbNat → bitAt (s.fget TRAP_POL_POL) k = false →
     ∃ t, exec (.beatTimeout k) s = .next t ∧ (t.cls k).beatToDone = true ∧
       ∀ st b, st < 16 → b < 64 → (s.cfg st).cls = k.val → (∃ w, (s.strand st).stall = some w ∧ w.on = .beat b) →
         (t.strand st).run = .halted ∧ t.fget (TRAP_INFO_CODE st) = 0x0E ∧ bitAt (t.fget BEAT_EVT_TIMEOUT) k = true)

/-- R53, R54: at its emit instant the outputs of a class take effect once: the committed image and the strands stay, and a second EMIT of the
same cycle number changes nothing. R238, R242: rows of the table for a digital output that channel `n` leads, in RUN: its group off or
fused, an overload and an asserted RESET_n keep it off; BAD quality applies the selection of BADQ_SEL (off, hold, on); otherwise the
committed bit. -/
def Obligations.EmitAndOutputs : Prop :=
  (∀ (s : State) (k : Fin 4), Quiet s → s.mode = mRun → (s.cls k).started = true → (s.cls k).deadlineDone = true → (s.cls k).emitDone = false →
     (s.cls k).t0.toNat + s.dout k ≤ s.tbNat → (s.cls k).firstPend = false →
     ∃ t, exec (.emit k) s = .next t ∧ (t.cls k).emitDone = true ∧ t.img = s.img ∧ t.strands = s.strands ∧ exec (.emit k) t = .next t) ∧
  (∀ (s : State) (n : Nat) (e : HEntry) (b : Nat), n < 32 → Quiet s → s.mode = mRun → s.dioEntry n = some (e, b) →
     s.flag (DIO_CH_CFG_SHARED n) = false → s.gang n = [n] → s.red.tkoLeft = [] →
     let out := ((s.dioEmitOut n).dio n).out
     let blocked := s.fget (DIO_GRP_STAT_STATE (n / 8)) = 2 ∨ s.flag (DIO_GRP_STAT_FUSE (n / 8)) = true ∨ s.supply.resetN ≠ none
     let bad := (s.swGet (hSwidx e)).toNat % 4 = qBad
     let bit := (imgGet s.img (b / 8)).getLsbD (b % 8)
     (blocked → out = false) ∧ (s.recBit n recOverload = true → out = false) ∧
     (¬ blocked → s.recBit n recOverload = false → ¬ bad → out = bit) ∧
     (¬ blocked → s.recBit n recOverload = false → bad → out = (match s.fget (DIO_CH_CFG_BADQ_SEL n) with
       | 2 => true
       | 1 => if (s.dio n).row = 7 then (s.dio n).hold else (s.dio n).out
       | _ => false)))

/-- R70, R71, R72: in PROGRAM a force or a release of items that entries cover is accepted and waits for the t0 of each item's class, from the
next C0 cycle number on; the session is answered OK. Outside PROGRAM it is answered PERM and changes nothing else. R28: FABRIC_ADMISSION
lets the first waiting strand go on that has not been served in this round, and all in turn. -/
def Obligations.ForcesAndAdmissions : Prop :=
  (∀ (s : State) (items : List ForceItem), s.ctl.held = false → s.mode ≠ mDormant → s.red.partner = none →
     (s.mode = mProgram → (∀ x, x ∈ items → (s.entryOf x.kind.val x.idx.toNat).isSome = true) →
       s.forces.length + s.forceReq.length + items.length ≤ 1024 →
       (∃ t, exec (.forceSet items none) s = .next t ∧ t.tx = s.tx ++ [.sessionAnswer saForce scOk] ∧ t.forces = s.forces ∧
         t.forceReq = s.forceReq ++ items.map (fun x =>
           { kind := x.kind.val, idx := x.idx.toNat, value := some (if x.kind.val < 3 then x.value &&& 1 else x.value),
             start := (s.cls 0).cyc + 1 })) ∧
       (∃ t, exec (.forceRelease items none) s = .next t ∧ t.tx = s.tx ++ [.sessionAnswer saForce scOk] ∧ t.forces = s.forces ∧
         t.forceReq = s.forceReq ++ items.map (fun x =>
           { kind := x.kind.val, idx := x.idx.toNat, value := none, start := (s.cls 0).cyc + 1 }))) ∧
     (s.mode ≠ mProgram →
       exec (.forceSet items none) s = .next { s with tx := s.tx ++ [.sessionAnswer saForce scPerm] } ∧
       exec (.forceRelease items none) s = .next { s with tx := s.tx ++ [.sessionAnswer saForce scPerm] })) ∧
  (∀ (s : State) (st : Fin 16) (w : Stall), s.ctl.held = false → s.fabricFull = false → st.val ∈ s.fabWait → st.val ∉ s.fabServed →
     (∀ j, j < st.val → j ∈ s.fabWait → j ∈ s.fabServed) → (s.strand st).stall = some w →
     ∃ t, exec .fabricAdmission s = .next t ∧ (t.strand st).stall = some { w with released := true } ∧
       st.val ∉ t.fabWait ∧ st.val ∈ t.fabServed ∧ t.mem = s.mem ∧ t.img = s.img ∧
       ∀ j, j ≠ st.val → t.strand j = s.strand j ∧ (j ∈ s.fabWait ↔ j ∈ t.fabWait))

/-! ## Time -/

/-- R62, R63, R64, R370: a sync message of the grandmaster on the slave port. TB is stepped only forward, and only while stepping is open and it
lies more than 1 µs behind; otherwise it is slewed within ±100 ppm, toward the reference. Synchronisation is gained within 1 µs and lost
beyond 2 µs. R64, R353: the time messages. The primary of a pair, or the top master of a hedge, sends its TB every 125 µs; the standby
follows the one that it receives, and a module below the top master sends it on. -/
def Obligations.TimeReference : Prop :=
  (∀ (s : State) (p : Fin 4) (ref : Nat), s.ctl.held = false → s.mode ≠ mPowerUp → s.mode ≠ mDormant → s.linkUp p = true →
     s.flag (ETH_PCFG_AS p) = true → s.fget (ETH_PSTAT_AS_ROLE p) = 2 → s.usesGptp = true →
     let steps := s.flag CYC_SYNC_STEPOPEN = true ∧ s.tbNs + 1000 < ref ∧ s.tbNat < ref / 1000 ∧ ref / 1000 < 2 ^ 64
     ∃ t, exec (.gptpMessage p (.sync ref)) s = .next t ∧
       let off : Int := (t.tbNs : Int) - ref
       let rate := sgn 16 (t.fget CYC_SYNC_SLEW)
       (steps → t.tb = BitVec.ofNat 64 (ref / 1000) ∧ t.flag CYC_EVT_TB_STEPPED = true) ∧ (¬ steps → t.tb = s.tb) ∧
       -10000 ≤ rate ∧ rate ≤ 10000 ∧ (1000 < off → rate ≤ 0) ∧ (off < -1000 → 0 ≤ rate) ∧
       t.fget CYC_SYNC_SOURCE = 1 ∧ sgn 32 (t.fget CYC_OFFSET_OFFSET_NS) = max (-2147483648) (min 2147483647 off) ∧
       (off.natAbs ≤ 1000 → t.flag CYC_SYNC_SYNC = true) ∧ (2000 < off.natAbs → t.flag CYC_SYNC_SYNC = false) ∧
       (1000 < off.natAbs → off.natAbs ≤ 2000 → t.flag CYC_SYNC_SYNC = s.flag CYC_SYNC_SYNC)) ∧
  (∀ (s : State) (m : TimeMsg), s.ctl.held = false → s.mode ≠ mPowerUp → s.mode ≠ mDormant →
     ((s.paired = true ∧ s.role = 1) ∨ (s.flag MEL_CFG_HEDGE = true ∧ s.member = 0 ∧ s.role ≠ 2) →
       (s.hedge.timeAt + 62500 ≤ s.fab → ∃ t, exec .timeMessage s = .next t ∧ t.tx = s.tx ++ [.timeMessage s.tbNs] ∧
         t.hedge.timeAt = s.fab ∧ t.tb = s.tb ∧ t.regs = s.regs) ∧
       (s.fab < s.hedge.timeAt + 62500 → exec .timeMessage s = .next s)) ∧
     (s.hedgeBelow = true ∨ s.role = 2 → ∃ t, exec (.timeMessageReceived m) s = .next t ∧ t.fget CYC_SYNC_SOURCE = 2 ∧
       (t.tb = s.tb ∨ s.tb.toNat < t.tb.toNat) ∧
       t.tx = if s.flag MEL_CFG_HEDGE then s.tx ++ [.timeMessage (m.topNs + linkDelay m)] else s.tx))

/-- R469, R477: a tick edge adds to the counter as the trim says: one, or none or two when the phase accumulator reaches ±10^9; over any edge
the accumulator moves by the trim. The counter wraps modulo 2^48. R473, R474, R475: setting the clock. GO stages the value for the next tick
edge, a second GO is rejected; the edge takes the staged value in place of its own count and marks it VALID; a session's request is refused
in RUN-LOCKED. -/
def Obligations.ClockTicksAndSets : Prop :=
  (∀ (s : State), s.flag RTC_STAT_PEND = false → s.rtc.acc.natAbs < 1000000000 → s.rtc.count < 2 ^ 48 →
     let trim := sgn 32 (s.fget RTC_TRIM_TRIM)
     trim.natAbs ≤ 200000 →
     ∃ t, exec .rtcTick s = .next t ∧ t.rtc.acc.natAbs < 1000000000 ∧ t.rtc.count < 2 ^ 48 ∧
       (∃ n : Nat, n ≤ 2 ∧ t.rtc.count = (s.rtc.count + n) % 2 ^ 48 ∧
         t.rtc.acc + 1000000000 * ((n : Int) - 1) = s.rtc.acc + trim ∧
         (n ≠ 1 → 1000000000 ≤ (s.rtc.acc + trim).natAbs) ∧
         (2 ^ 48 ≤ s.rtc.count + n → t.flag RTC_STAT_WRAP = true)) ∧
       (∀ a, a ≠ RTC_STAT → t.rget a = s.rget a) ∧ t.tb = s.tb ∧ t.strands = s.strands ∧ t.mem = s.mem) ∧
  (∀ (s : State) (v : BitVec 48), s.ctl.held = false → s.mode ≠ mDormant →
     (s.flag RTC_STAT_PEND = false → ∃ t, exec .rtcSet s = .next t ∧ t.flag RTC_STAT_PEND = true ∧ t.rtc = { s.rtc with rel := none } ∧
       ∀ a, a ≠ RTC_STAT → t.rget a = s.rget a) ∧
     (s.flag RTC_STAT_PEND = true → ∃ t, exec .rtcSet s = .next t ∧ t.flag RTC_STAT_PEND = true ∧ t.flag RTC_EVT_SETREJ = true ∧
       t.rtc = s.rtc) ∧
     (s.flag RTC_STAT_PEND = true → s.rtc.rel = none → ∀ i, i ∈ [Instr.rtcSetApply, .rtcTick] → ∃ t, exec i s = .next t ∧
       t.rtc.count = s.fget RTC_SET_LO_SET + 2 ^ 32 * s.fget RTC_SET_HI_SET ∧ t.rtc.acc = s.rtc.acc ∧
       t.flag RTC_STAT_VALID = true ∧ t.flag RTC_STAT_PEND = false ∧ t.flag RTC_EVT_SET = true) ∧
     (s.mode ≠ mRunLocked → s.flag RTC_STAT_PEND = false → ∃ t, exec (.clockSetRequest v) s = .next t ∧
       t.tx = s.tx ++ [.sessionAnswer saClock scOk] ∧ t.flag RTC_STAT_PEND = true ∧ t.rtc.rel = none ∧
       t.fget RTC_SET_LO_SET + 2 ^ 32 * t.fget RTC_SET_HI_SET = v.toNat) ∧
     (s.mode = mRunLocked → exec (.clockSetRequest v) s = .next { s with tx := s.tx ++ [.sessionAnswer saClock scPerm] }))

/-- R481, R483, R484: the alarm and the periodic wake. An armed alarm fires once when the counter has reached it, a wake re-arms itself 2^K
ticks later; in DORMANT either starts the module, with WAKE = 1. R478: the trim references. A mains window in range gives the trim that
makes the rated time of its cycles come out, rounded to the nearest ppb and limited; one out of range, and a mains input that is absent,
clear REFOK; a latch of a counter that is in step trims by the rate error. -/
def Obligations.AlarmsAndTrim : Prop :=
  (∀ (s : State) (en : Bool) (k : BitVec 5),
     (s.ctl.held = false → s.mode ≠ mDormant → ∃ t, exec .arm s = .next t ∧ t.flag RTC_STAT_ARMED = true ∧ t.flag RTC_STAT_FIRED = false ∧ t.flag RTC_STAT_LATE = false ∧
       t.rtc.late = decide (s.alarmAt ≤ s.rtc.count) ∧ t.rtc.count = s.rtc.count) ∧
     (s.ctl.held = false → s.mode ≠ mDormant → ∃ t, exec .disarm s = .next t ∧ t.flag RTC_STAT_ARMED = false ∧ t.flag RTC_STAT_FIRED = s.flag RTC_STAT_FIRED ∧ t.rtc = s.rtc) ∧
     (s.ctl.held = false → s.mode ≠ mDormant → 5 ≤ k.toNat → ∃ t, exec (.wakeConfig en k) s = .next t ∧ t.flag RTC_ALM_CTRL_WAKE_EN = en ∧ t.fget RTC_ALM_CTRL_K = k.toNat ∧
       t.rtc = { s.rtc with nw := s.rtc.count + 2 ^ k.toNat }) ∧
     (k.toNat < 5 → exec (.wakeConfig en k) s = .next s) ∧
     (s.flag RTC_STAT_ARMED = true → s.alarmAt ≤ s.rtc.count → ∃ t, exec .alarmFire s = .next t ∧ t.flag RTC_STAT_ARMED = false ∧
       t.flag RTC_STAT_FIRED = true ∧ t.flag RTC_EVT_ALARM = true ∧ t.rtc.count = s.rtc.count ∧
       (s.mode = mDormant → t.mode = mPowerUp ∧ t.flag SYS_RSTCAUSE_WAKE = true)) ∧
     (s.flag RTC_STAT_ARMED = false → exec .alarmFire s = .next s) ∧
     (s.flag RTC_ALM_CTRL_WAKE_EN = true → s.rtc.nw ≤ s.rtc.count → ∃ t, exec .periodicWake s = .next t ∧
       t.rtc.nw = s.rtc.nw + 2 ^ s.fget RTC_ALM_CTRL_K ∧ t.flag RTC_EVT_WAKE = true ∧
       (s.mode = mDormant → t.mode = mPowerUp ∧ t.flag SYS_RSTCAUSE_WAKE = true))) ∧
  (∀ (s : State) (ticks : Nat) (rho : Int),
     (s.fget RTC_CFG_REFSRC = 1 → 0 < ticks → ∃ t, exec (.mainsWindow ticks true) s = .next t ∧ t.flag RTC_STAT_REFOK = true ∧ (
       let exact : Int := (327680000 - (ticks : Int)) * 1000000000
       let trim := sgn 32 (t.fget RTC_TRIM_TRIM)
       (-200000 ≤ trim ∧ trim ≤ 200000) ∧
       (-200000 * (ticks : Int) ≤ exact → exact ≤ 200000 * (ticks : Int) →
         -(ticks : Int) ≤ 2 * (trim * ticks - exact) ∧ 2 * (trim * ticks - exact) ≤ ticks))) ∧
     (s.fget RTC_CFG_REFSRC = 1 → 0 < ticks → ∃ t, exec (.mainsWindow ticks false) s = .next t ∧ t.flag RTC_STAT_REFOK = false ∧
       t.rtc = s.rtc ∧ t.fget RTC_TRIM_TRIM = s.fget RTC_TRIM_TRIM) ∧
     (s.fget RTC_CFG_REFSRC = 1 → ∃ t, exec .mainsRefAbsent s = .next t ∧ t.flag RTC_STAT_REFOK = false ∧
       t.fget RTC_TRIM_TRIM = s.fget RTC_TRIM_TRIM) ∧
     (s.fget RTC_CFG_REFSRC = 2 → s.tbSynced = true → (s.rtc.count : Int) = s.tickOf s.tbNat → s.rtc.latched = true →
       rho.natAbs ≤ 200000 → ∃ t, exec (.tbLatch rho) s = .next t ∧ sgn 32 (t.fget RTC_TRIM_TRIM) = -rho ∧
         t.flag RTC_STAT_REFOK = true ∧ t.rtc = s.rtc) ∧
     (s.fget RTC_CFG_REFSRC = 2 → s.tbSynced = false → ∃ t, exec (.tbLatch rho) s = .next t ∧ t.flag RTC_STAT_REFOK = false ∧
       t.fget RTC_TRIM_TRIM = s.fget RTC_TRIM_TRIM))

/-! ## Ethernet, queues and CAN -/

/-- R370, R371, R378, R379: a link is up when it is full duplex and not below SPEED_MIN; the gates close for a launch of the class; at the end
of a window its frames that are left are counted LATE and the next window starts. R373, R375, R376, R386: a frame that finds room. One with
a bad FCS is dropped and counted; a remote I/O frame of a local input stream with the right kind, length and a newer cycle number is kept
with its stamp, quality and data. -/
def Obligations.EthernetReceive : Prop :=
  (∀ (s : State) (p k : Fin 4) (full : Bool) (speed : Fin 3) (w : RioWindow) (rest : List RioWindow) (t0 : Nat),
     s.ctl.held = false → s.mode ≠ mDormant →
     (s.flag (ETH_PCFG_EN p) = true → s.linkUp p = false → s.flag (ETH_PSTAT_SLOW p) = false →
       let slow := decide (s.fget (ETH_PCFG_SPEED_MIN p) < speed.val)
       ∃ t, exec (.ethLinkChange p true full speed) s = .next t ∧ t.linkUp p = (full && !slow) ∧ t.strands = s.strands ∧ t.img = s.img ∧
         (full = true ∨ slow = true → t.flag (ETH_PSTAT_SLOW p) = slow ∧ t.fget (ETH_PSTAT_SPEED p) = speed.val)) ∧
     (s.flag (ETH_PCFG_EN p) = true → s.linkUp p = true →
       ∃ t, exec (.ethLinkChange p false full speed) s = .next t ∧ t.linkUp p = false) ∧
     (modeExecutes s.mode = true → s.portStreams p k ≠ [] → (s.cls k).started = true →
       1000 * ((s.cls k).t0.toNat + s.dout k) ≤ s.tbNs + s.rioGuard p → s.tbNs < 1000 * ((s.cls k).t0.toNat + s.dout k) →
       ∃ t, exec (.gateClose p k) s = .next t ∧ t.gatesClosed p = true ∧ { t with eth := s.eth } = s) ∧
     (s.portWindows p = w :: rest → w.start = some t0 → t0 + s.rioWin p w.cls ≤ s.tbNs →
       ∃ t, exec (.rioWindowEnd p) s = .next t ∧
         t.portWindows p = (match rest with
           | [] => []
           | n :: more => { n with start := some (t0 + s.rioWin p w.cls) } :: more) ∧
         (w.left.length + s.fget (ETH_PCNT_LATE_LATE p) < 2 ^ 16 →
           t.fget (ETH_PCNT_LATE_LATE p) = s.fget (ETH_PCNT_LATE_LATE p) + w.left.length) ∧
         t.img = s.img ∧ t.strands = s.strands ∧ t.tx = s.tx)) ∧
  (∀ (s : State) (p : Fin 4) (f : EthFrame) (i : Nat), s.ctl.held = false → s.mode ≠ mDormant → s.mode ≠ mPowerUp → s.linkUp p = true →
     f.etype.toNat = s.fget ETH_CFG_ETYPE → frameSize f ≤ s.fget (QUE_CFG_MAXFRAME p) → s.qNeeds p (frameSize f) ≤ s.qFree p →
     s.flag OBS_CFG_LINK = false → s.pipeSrc = [] →
     (f.fcsOk = false → s.fget (ETH_PCNT_DROP_DROP p) < 65535 → ∃ t, exec (.ethFrameReceived p f) s = .next t ∧ t.eth = s.eth ∧
       t.fget (ETH_PCNT_DROP_DROP p) = s.fget (ETH_PCNT_DROP_DROP p) + 1) ∧
     (f.fcsOk = true → fieldAt f.payload 0 1 = 1 → fieldAt f.payload 1 1 = 1 → f.rtag = none →
       s.inStream p (fieldAt f.payload 2 2) f = some i → s.flag (ETH_STR_CFG_MSG i) = false →
       fieldAt f.payload 20 2 = s.fget (ETH_STR_LEN_LEN i) → (∀ c, (s.stream i).last = some c → c < fieldAt f.payload 4 8) →
       ∃ t, exec (.ethFrameReceived p f) s = .next t ∧ (t.stream i).last = some (fieldAt f.payload 4 8) ∧
         (t.stream i).frames = (s.stream i).frames ++ [RxFrame.mk (8 * f.stamp) (fieldAt f.payload 4 8) (fieldAt f.payload 24 1 % 4)
           (slice f.payload 28 (s.fget (ETH_STR_LEN_LEN i)))] ∧
         (∀ j, j ≠ i → t.stream j = s.stream j) ∧ t.img = s.img ∧ t.strands = s.strands ∧ t.tx = s.tx))

/-- R370, R378, R383, R385: what a port sends, and the sessions: a frame of the window in stream order, sync messages of a master port; a
session opens up to MAXSESS with a certificate of the owner, and its idle timeout closes it; the vector recovery starts anew. R385, R387: a
post of free descriptors that form whole frames hands them to the consumer, a refused post hands over nothing, sets POSTREJ and says why in LASTST; a
retire returns FULL descriptors, and more than there are returns none. R29, R385: only the producer of a queue posts and only its consumer
retires, and the post or retire of another has no effect (assumption 37); a Melber port that is up sends what is posted to its queue. -/
def Obligations.EthernetSendAndQueues : Prop :=
  (∀ (s : State) (p j : Fin 4) (stamp : Nat) (w : RioWindow) (rest : List RioWindow) (t0 i : Nat) (more : List Nat) (o : OutFrame)
     (client : BitVec 32) (n : Fin 1024) (x : Session), s.ctl.held = false → s.mode ≠ mDormant → s.flag OBS_CFG_LINK = false →
     (modeExecutes s.mode = true → s.linkUp p = true → s.portWindows p = w :: rest → w.start = some t0 → w.left = i :: more →
       s.eth.outs.find? (fun y => y.1 == i) = some (i, o) →
       ∃ t, exec (.ethFrameTransmitted p stamp) s = .next t ∧ t.tx = s.tx ++ [.rioFrame p o] ∧
         t.portWindows p = { w with left := more } :: rest ∧ t.img = s.img ∧ t.mem = s.mem) ∧
     (s.linkUp p = true → s.fget (ETH_PSTAT_AS_ROLE p) = 1 →
       ∃ t, exec (.gptpSyncInterval p) s = .next t ∧ t.tx = s.tx ++ [.gptpSync p] ∧ t.tb = s.tb ∧ t.eth = s.eth) ∧
     (s.live = true → s.answersSessions p = true → s.linkUp p = true → s.eth.sessions.length < s.fget ETH_SESS_MAXSESS →
       (∃ t, exec (.sessionConnect p client true) s = .next t ∧
         t.eth.sessions = s.eth.sessions ++ [{ port := p, client := client }]) ∧
       (∃ t, exec (.sessionConnect p client false) s = .next t ∧ t.eth = s.eth)) ∧
     (s.live = true → s.answersSessions p = true → s.linkUp p = true → s.fget ETH_SESS_MAXSESS ≤ s.eth.sessions.length →
       ∃ t, exec (.sessionConnect p client true) s = .next t ∧ t.eth = s.eth) ∧
     (s.eth.sessions[j.val]? = some x →
       ∃ t, exec (.sessionIdleTimeout j) s = .next t ∧ t.eth.sessions = s.eth.sessions.eraseIdx j) ∧
     (s.flag (ETH_STR_CFG_EN n) = true → s.flag (ETH_STR_CFG_CB n) = true → (s.stream n).lastAt + 100000 ≤ s.tbNat →
       ∃ t, exec (.sequenceRecoveryReset n) s = .next t ∧ t.stream n = { s.stream n with takeAny := true, history := 0 } ∧
         { t with eth := s.eth } = s)) ∧
  (∀ (s : State) (q : Fin 32) (n : BitVec 11), s.ctl.held = false → s.mode ≠ mDormant →
     let posts := 4 ≤ q.val ∧ q.val < 8 ∨ 12 ≤ q.val ∧ q.val < 16 ∨ 22 ≤ q.val ∧ q.val < 30
     let retires := q.val < 4 ∨ 8 ≤ q.val ∧ q.val < 12 ∨ 16 ≤ q.val ∧ q.val < 22 ∨ 28 ≤ q.val ∧ q.val < 31
     let melber := 22 ≤ q.val ∧ q.val < 28
     (¬ posts → exec (.quePost q n) s = .next s) ∧ (¬ retires → exec (.queRetire q n) s = .next s) ∧
     (posts → (melber → s.melberUp (q.val - 22) = false) →
         (12 ≤ q.val ∧ q.val < 16 → (s.canPort (q.val - 12)).queueOnBus = true) →
       (s.postStatus q n.toNat = scOk → ∃ t, exec (.quePost q n) s = .next t ∧ t.fget (QUE_STAT_LASTST q) = scOk ∧
         t.fget (QUE_STAT_FULLCNT q) = (s.fget (QUE_STAT_FULLCNT q) + n.toNat) % 2 ^ (QUE_STAT_FULLCNT q).width ∧
         t.mem = s.mem ∧ t.img = s.img) ∧
       (s.postStatus q n.toNat ≠ scOk → ∃ t, exec (.quePost q n) s = .next t ∧ t.fget (QUE_STAT_LASTST q) = s.postStatus q n.toNat ∧
         t.fget (QUE_STAT_FULLCNT q) = s.fget (QUE_STAT_FULLCNT q) ∧ t.flag (QUE_EVT_POSTREJ q) = true) ∧
       (s.qFree q < n.toNat → s.postStatus q n.toNat = scBusy)) ∧
     (melber → s.melberUp (q.val - 22) = true → s.postStatus q n.toNat = scOk → ∃ t sent, exec (.quePost q n) s = .next t ∧
       t.fget (QUE_STAT_LASTST q) = scOk ∧ t.fget (QUE_STAT_FULLCNT q) = 0 ∧ t.tx = s.tx ++ sent ∧
       (∀ m, m ∈ sent → ∃ data, m = .melberFrame (q.val - 22) data) ∧ t.mem = s.mem ∧ t.img = s.img) ∧
     (s.fget (QUE_STAT_FULLCNT q) < n.toNat → exec (.queRetire q n) s = .next s) ∧
     (retires → q.val < 30 → n.toNat ≤ s.fget (QUE_STAT_FULLCNT q) → 0 < s.fget (QUE_CFG_DEPTH q) → ∃ t, exec (.queRetire q n) s = .next t ∧
       t.fget (QUE_STAT_FULLCNT q) = s.fget (QUE_STAT_FULLCNT q) - n.toNat ∧
       t.fget (QUE_CIDX_CIDX q) = (s.fget (QUE_CIDX_CIDX q) + n.toNat) % s.fget (QUE_CFG_DEPTH q) % 2 ^ (QUE_CIDX_CIDX q).width ∧
       t.mem = s.mem ∧ t.img = s.img))

/-- R397, R400, R401: a received frame in a RX_SOFT mailbox goes into the unlocked buffer with NEW set, and behind a lock into the shadow; a
header read takes the lock, and the read of the last data word or 20 µs release it, which lets a shadow in. -/
def Obligations.CanReceiveMailboxes : Prop :=
  ∀ (s : State) (p : Fin 4) (m : Fin 64) (f : CanFrame) (ns i : Nat) (agent : Fin 17), s.canOn p = true → f.fdf = false →
    (List.range 128).find? (fun j => s.filterHits p j f) = some i → s.fget (CAN_FLT_TGT_TARGET p i) = m.val →
    s.fget (CAN_MB_CFG_KIND p m) = mbRxSoft →
    ((s.mb p m).lock = none → ∃ t, exec (.canFrameReceived p f ns) s = .next t ∧ t.flag (CAN_MB_HDR_NEW p m) = true ∧
      t.fget (CAN_MB_ID_ID p m) = f.id.toNat ∧ t.fget (CAN_MB_HDR_DLC p m) = f.dlc.toNat ∧
      t.rget64 (CAN_MB_STAMP_LO p m) (CAN_MB_STAMP_HI p m) = ns / 1000 % 2 ^ 64 ∧
      t.rget (CAN_MB_DATA p m 0) = BitVec.ofNat 32 (fieldAt f.data 0 4)) ∧
    (∀ a, (s.mb p m).lock = some a → ∃ t, exec (.canFrameReceived p f ns) s = .next t ∧ (t.mb p m).shadow = [(f, ns)] ∧
      t.rget (CAN_MB_ID p m) = s.rget (CAN_MB_ID p m) ∧ t.rget (CAN_MB_DATA p m 0) = s.rget (CAN_MB_DATA p m 0)) ∧
    ((s.mb p m).lock = none → ∃ t, exec (.mailboxHeaderRead p m agent) s = .next t ∧ t.readback = s.rget (CAN_MB_HDR p m) ∧
      (t.mb p m).lock = some (agent.val, s.tbNat) ∧ t.flag (CAN_MB_HDR_LOCKED p m) = true) ∧
    (∀ t0, (s.mb p m).lock = some (agent.val, t0) → (s.mb p m).shadow = [] →
      (∃ t, exec (.lastDataWordRead p m agent) s = .next t ∧ (t.mb p m).lock = none ∧ t.flag (CAN_MB_HDR_NEW p m) = false ∧
        t.flag (CAN_MB_HDR_LOCKED p m) = false ∧
        t.readback = s.rget (CAN_MB_DATA p m (canSize (s.fget (CAN_MB_CFG_SIZE p m)) / 4 - 1))) ∧
      (t0 + 20 ≤ s.tbNat → ∃ t, exec (.lockTimeout p m) s = .next t ∧ (t.mb p m).lock = none ∧
        t.flag (CAN_MB_HDR_LOCKTO p m) = true)) ∧
    (∀ t0 g gs, (s.mb p m).lock = some (agent.val, t0) → (s.mb p m).shadow = [(g, gs)] →
      (∃ t, exec (.lastDataWordRead p m agent) s = .next t ∧ (t.mb p m).lock = none ∧ t.flag (CAN_MB_HDR_NEW p m) = true ∧
        t.fget (CAN_MB_ID_ID p m) = g.id.toNat) ∧
      (t0 + 20 ≤ s.tbNat → ∃ t, exec (.lockTimeout p m) s = .next t ∧ (t.mb p m).lock = none ∧ t.flag (CAN_MB_HDR_NEW p m) = true ∧
        t.flag (CAN_MB_HDR_LOCKTO p m) = true ∧ t.fget (CAN_MB_ID_ID p m) = g.id.toNat))

/-- R406, R408: a transmit request that no check refuses makes the frame pending with its deadline; ABORT withdraws one that has not started
arbitration; it is ready from its launch time on, and is withdrawn with TIMEOUT at its deadline unless it is on the bus. R407, R408, R411:
the ready frame that would win starts; it stays ready when it loses; on completion it has been sent with status OK. Errors move the
counters, a transmit error counter above 255 takes the port off the bus, and the recovery brings it back with both counters 0. -/
def Obligations.CanTransmission : Prop :=
  (∀ (s : State) (p : Fin 4) (m : Fin 64) (fdf brs rtr ide : Bool) (dlc : BitVec 4) (x : CanTx), s.ctl.held = false →
     s.mode ≠ mDormant →
     (s.txStatus p m s.tbNat fdf brs rtr dlc.toNat = scOk → ∃ t y, exec (.txreq p m false fdf brs rtr ide dlc) s = .next t ∧
       (t.mb p m).pend = some y ∧ y.launch = s.tbNat ∧ y.deadline = s.tbNat + s.fget (CAN_MB_DL_DL_US p m) ∧ y.started = false ∧
       y.frame.id.toNat = s.fget (CAN_MB_ID_ID p m) ∧ y.frame.dlc = dlc ∧ y.frame.fdf = fdf ∧ y.frame.rtr = rtr ∧ y.frame.ide = ide ∧
       t.flag (CAN_MB_HDR_PENDING p m) = true ∧ t.fget (CAN_MB_HDR_TXST p m) = scOk) ∧
     (s.txStatus p m s.tbNat fdf brs rtr dlc.toNat ≠ scOk → ∃ t, exec (.txreq p m false fdf brs rtr ide dlc) s = .next t ∧
       t.mbs = s.mbs ∧ t.fget (CAN_MB_HDR_TXST p m) = s.txStatus p m s.tbNat fdf brs rtr dlc.toNat) ∧
     ((s.mb p m).pend = some x →
       (x.started = false → ∃ t, exec (.abortPendingFrame p m) s = .next t ∧ (t.mb p m).pend = none ∧
         t.fget (CAN_MB_HDR_TXST p m) = scState ∧ t.flag (CAN_MB_HDR_PENDING p m) = false) ∧
       (x.started = true → exec (.abortPendingFrame p m) s = .next s) ∧
       (x.launch ≤ s.tbNat → ∃ t, exec (.launchTime p m) s = .next t ∧ (t.mb p m).pend = some { x with ready := true }) ∧
       (x.deadline ≤ s.tbNat → x.onBus = false → ∃ t, exec (.transmitDeadline p m) s = .next t ∧ (t.mb p m).pend = none ∧
         t.fget (CAN_MB_HDR_TXST p m) = scTimeout ∧ t.tx = s.tx) ∧
       (x.onBus = true → exec (.transmitDeadline p m) s = .next s))) ∧
  (∀ (s : State) (p : Fin 4) (wins : Bool) (m : Nat) (f : CanFrame) (x : CanTx) (ns : Nat), s.flag OBS_CFG_LINK = false →
     (s.canOn p = true → s.flag (CAN_PCFG_LISTEN p) = false → s.canBusy p = false →
       pickFrame (s.readyMbs p ++ s.readyQueue p) = some (m, f) → m < 64 → (s.mb p m).pend = some x →
       ∃ t, exec (.arbitrationStart p wins) s = .next t ∧ (t.mb p m).pend = some { x with started := true, onBus := wins } ∧
         { t with mbs := s.mbs } = s) ∧
     (s.canOn p = true → s.mbOnBus p = some (m, x) → m < 64 → ∃ t, exec (.transmissionComplete p ns) s = .next t ∧
       t.tx = s.tx ++ [.canFrame p x.frame] ∧ (t.mb p m).pend = none ∧ t.fget (CAN_MB_HDR_TXST p m) = scOk ∧
       t.rget64 (CAN_MB_STAMP_LO p m) (CAN_MB_STAMP_HI p m) = ns / 1000 % 2 ^ 64) ∧
     (s.canOn p = true → s.flag (CAN_PCFG_LISTEN p) = false →
       (∃ t, exec (.canError p .receive) s = .next t ∧ t.fget (CAN_PSTAT_REC p) = min 255 (s.fget (CAN_PSTAT_REC p) + 1) ∧
         t.fget (CAN_PSTAT_TEC p) = s.fget (CAN_PSTAT_TEC p)) ∧
       (∃ t, exec (.canError p .receiveDominant) s = .next t ∧ t.fget (CAN_PSTAT_REC p) = min 255 (s.fget (CAN_PSTAT_REC p) + 8)) ∧
       (∃ t, exec (.canError p .transmit) s = .next t ∧ t.fget (CAN_PSTAT_TEC p) = min 255 (s.fget (CAN_PSTAT_TEC p) + 8) ∧
         (255 < s.fget (CAN_PSTAT_TEC p) + 8 → t.fget (CAN_PSTAT_STATE p) = 2 ∧ t.flag (CAN_EVT_BUSOFF p) = true ∧
           t.canOn p = false))) ∧
     (s.fget (CAN_PSTAT_STATE p) = 2 → ∃ t, exec (.busOffRecovery p) s = .next t ∧ t.fget (CAN_PSTAT_STATE p) = 0 ∧
       t.fget (CAN_PSTAT_TEC p) = 0 ∧ t.fget (CAN_PSTAT_REC p) = 0 ∧ t.flag (CAN_EVT_RECOVERED p) = true))

/-! ## Signal engines and channels -/

/-- R181, R183, R184, R190, R203: the pre-decimator makes of every five modulator bits one sample, the weighted sum of the last 17 of them. A
sample of a channel pipeline is calibrated, runs through the stages, and joins the record newest first with its alarms, its quality and OVR;
bits that complete no sample are kept and change no record. Two copies of the pre-decimator that differ, or a difference that repeats, fail
the engine: its FAILED bit is set and the newest record is BAD; a difference that the repeat does not show is flagged as a retry. -/
def Obligations.SignalEngineSamples : Prop :=
  (∀ (u : Uc) (b : Bool), u.modCnt < 5 →
     let v := (preDecimate u [b]).1
     v.mod = (b :: u.mod).take 17 ∧ v.modCnt < 5 ∧ (v.modCnt = 0 ↔ u.modCnt = 4) ∧
     (u.modCnt < 4 → (preDecimate u [b]).2 = []) ∧ (u.modCnt = 4 → (preDecimate u [b]).2 = [sincOut v.mod])) ∧
  ∀ (s : State) (p : Fin 256) (bits : List Bool) (x y : BitVec 32) (q : BitVec 2) (c : SeCheck),
    s.ctl.held = false → s.mode ≠ mDormant → s.pipeRuns p = true → p.val < 16 → ucInput (s.ucMode p) = true → ucTc (s.ucMode p) = false →
    let d := preDecimate (s.uc p) bits
    let r := runStages (s.fget (SE_PIPE_CFG_RATE p)) (s.coldJunction p).1 (s.pipe p).stages (s.pipe p).st
      { x := s.calibrate p x, alarms := (s.pipe p).alarms, ovr := false }
    let k := s.hostOf p
    (∃ t, exec (.pipelineSample p bits q none none none []) s = .next t ∧ t.uc p = d.1 ∧ t.mem = s.mem ∧ t.img = s.img ∧
      t.strands = s.strands ∧ (∀ j, j ≠ p.val → t.pipe j = s.pipe j ∧ t.uc j = s.uc j) ∧
      (d.2 = [] → t.pipe p = s.pipe p) ∧
      (d.2 = [x] → (t.pipe p).st = r.1 ∧ (r.2.1 = none → (t.pipe p).samples = (s.pipe p).samples) ∧
        (∀ o, r.2.1 = some o → (t.pipe p).samples = (Sample.mk s.stampNow o.x o.alarms (BitVec.ofNat 2 (worse q.toNat (s.ucQuality p)))
          (o.ovr || (s.uc p).adcOver) :: (s.pipe p).samples).take 16))) ∧
    (∀ g e o, (s.pipe p).stages = [.scale g e o] → d.2 = [x] → ∃ t z rest, exec (.pipelineSample p bits q none none none []) s = .next t ∧
      (t.pipe p).samples = z :: rest ∧ z.value = seLimit (seRound (g * s.calibrate p x) (31 - e).toNat + o)) ∧
    (x ≠ y → ∃ t z rest, exec (.pipelineSample p bits q none none (some (x, y)) []) s = .next t ∧
      bitAt (t.fget SE_STAT_FAILED) k = true ∧ (t.pipe p).samples = z :: rest ∧ z.quality = 0 ∧ t.mem = s.mem ∧ t.img = s.img ∧
      t.strands = s.strands) ∧
    (differ c.stage c.r1 c.r2 = true → differ c.stage c.again1 c.again2 = true → ∃ t z rest,
      exec (.pipelineSample p bits q none none none [c]) s = .next t ∧ bitAt (t.fget SE_STAT_FAILED) k = true ∧
      (t.pipe p).samples = z :: rest ∧ z.quality = 0) ∧
    (differ c.stage c.r1 c.r2 = true → differ c.stage c.again1 c.again2 = false → ∃ t,
      exec (.pipelineSample p bits q none none none [c]) s = .next t ∧ t.fget SE_STAT_FAILED = s.fget SE_STAT_FAILED ∧
      bitAt (t.fget SE_EVT_RETRY) k = true ∧ (d.2 = [x] → (t.pipe p).st = r.1))

/-- R137, R195: SEJ takes the descriptor at Ws. A refused one gives its status in Wd and nothing else; an accepted one joins the jobs of its
engine behind the others, with the next ticket, which Wd returns in bits 31 to 16. R196, R197: the oldest waiting job of an engine
completes: its result is kept with the instant, or, when it was delivered late, the job is discarded. With no job waiting nothing happens. -/
def Obligations.SignalEngineJobs : Prop :=
  (∀ (s : State) (st d a : Fin 16), Ready s st → ((s.strand st).w.get a).toNat % 4 = 0 → inDmem ((s.strand st).w.get a).toNat 32 = true →
     (∀ j, j < 32 → s.integ.contains ((s.dkey st (((s.strand st).w.get a).toNat - 0x80000) + j) / 32) = false) →
     let desc := s.mgetN (s.dkey st (((s.strand st).w.get a).toNat - 0x80000)) 32
     let k := bitsAt (descWord desc 0) 0 3
     let ticket := k * 2 ^ 13 + s.fget (SE_JOBSTAT_NEXTSEQ k)
     (s.sejStatus st desc ≠ scOk → ∃ t, exec (.sej st d a) s = .next t ∧
       Retires s t st ((s.strand st).setW d (BitVec.ofNat 32 (s.sejStatus st desc)))) ∧
     (s.sejStatus st desc = scOk → ∃ t job, exec (.sej st d a) s = .next t ∧ (t.engine k).jobs = (s.engine k).jobs ++ [job] ∧
       job.strand = st.val ∧ job.ticket = BitVec.ofNat 16 ticket ∧ job.kind = bitsAt (descWord desc 0) 4 4 ∧
       job.src = descWord desc 1 ∧ job.srcLen = descWord desc 2 ∧ job.dst = descWord desc 3 ∧ job.dstLen = descWord desc 4 ∧
       job.param = descWord desc 5 ∧ job.status = descWord desc 7 ∧ job.defer = bitsAt (descWord desc 0) 8 1 ∧
       job.state = .waiting ∧ job.late = false ∧
       (t.strand st).w.get d = BitVec.ofNat 32 (ticket * 2 ^ 16) ∧ (t.strand st).pc = (s.strand st).pc + 4 ∧
       (∀ j, j ≠ st.val → t.strand j = s.strand j) ∧ (∀ j, j ≠ k → t.engine j = s.engine j) ∧ t.mem = s.mem ∧ t.img = s.img)) ∧
  (∀ (s : State) (k : Fin 8), s.ctl.held = false → s.mode ≠ mDormant → s.seFailed k = false →
     (∀ i j, (s.engine k).jobs.findIdx? (fun x => x.state == .waiting) = some i → (s.engine k).jobs[i]? = some j →
       ∃ t, exec (.jobComplete k []) s = .next t ∧
         (t.engine k).jobs = (if j.late then (s.engine k).jobs.eraseIdx i
           else (s.engine k).jobs.set i { j with state := .done s.fab (jobResult s j) }) ∧
         (∀ n, n ≠ k.val → t.engine n = s.engine n) ∧ t.mem = s.mem ∧ t.img = s.img ∧ t.strands = s.strands) ∧
     ((∀ j, j ∈ (s.engine k).jobs → j.state ≠ .waiting) → exec (.jobComplete k []) s = .next s))

/-- R202, R211, R212, R213: conditions of the inputs. A lost link makes the records BAD; the ADC at full scale for more than 1 ms makes them BAD
and stands as the overrange of the channel; an RTD or a thermocouple at +RFS is OPEN at once, and an RTD below 5 Ω is SHORT; an active loop supply at its limit below 1.0 V for 1 ms is SHORT; a
cold-junction sensor back in range for 10 s is used again. R239, R248, R249: a filtered level becomes the input; a counter counts the
selected edges up, down, by direction, or in quadrature, one way when A leads and the other when B does, and an edge of both inputs in one
sample counts nothing and sets QERR; a frequency counter without a period for 12 s reads 0 with NOSIG. -/
def Obligations.InputChannels : Prop :=
  (∀ (s : State) (n : Fin 16) (x : BitVec 32) (us : Nat) (vt temp : Int) (atLimit : Bool),
     let full := (x.toInt == 2 ^ 31 - 1 || x.toInt == -(2 ^ 31)) && decide (1000 < us)
     let rtd := 0x10 ≤ s.ucMode n ∧ s.ucMode n ≤ 0x13
     let tc := 0x20 ≤ s.ucMode n ∧ s.ucMode n ≤ 0x27
     (s.flag (UC_STAT_ONLINE n) = true → ∃ t y rest, exec (.ucLinkLoss n) s = .next t ∧ t.flag (UC_STAT_ONLINE n) = false ∧
       t.flag (UC_EVT_LINKDOWN n) = true ∧ t.fget (UC_STAT_RBQ n) = qBad ∧ (t.pipe n).samples = y :: rest ∧ y.quality = 0 ∧
       (t.uc n).word = s.mode ∧ OnlyRegs [UC_STAT n, UC_EVT n, SE_PIPE_STAT n] { s with pipes := t.pipes, ucs := t.ucs } t ∧
       ∀ j, j ≠ n.val → t.pipe j = s.pipe j ∧ t.uc j = s.uc j) ∧
     (ucInput (s.ucMode n) = true → (s.uc n).running = true → ∃ t, exec (.adcOverrange n x us) s = .next t ∧
       (t.uc n).adcOver = full ∧ (full = true → t.ucQuality n = qBad) ∧
       (rtd ∨ tc → (t.diagBit n 2 = true ↔ x.toInt = 2 ^ 31 - 1)) ∧
       (rtd → (t.diagBit n 3 = true ↔ x.toInt < rtdShortRaw (s.ucMode n)) ∧ (t.uc n).short = t.diagBit n 3) ∧
       (¬ rtd → (t.uc n).short = (s.uc n).short) ∧
       OnlyRegs [UC_STAT n, UC_EVT n] { s with ucs := t.ucs } t) ∧
     (s.ucMode n = 0x09 ∨ s.ucMode n = 0x0B → (s.uc n).running = true → s.flag (UC_STAT_ONLINE n) = true → ∃ t, exec (.loopShort n vt atLimit us) s = .next t ∧
       (t.diagBit n 3 = true ↔ atLimit = true ∧ vt < 1000 ∧ 1000 ≤ us) ∧ (t.uc n).short = t.diagBit n 3 ∧
       OnlyRegs [UC_STAT n, UC_EVT n, UC_VT n] { s with ucs := t.ucs } t) ∧
     (ucTc (s.ucMode n) = true → (s.uc n).cjBad = true → -40000 ≤ temp → temp ≤ 85000 → 10000000 ≤ us →
       ∃ t, exec (.coldJunctionRestore n temp us) s = .next t ∧ (t.uc n).cjBad = false ∧ (t.uc n).cj = temp + (s.uc n).cjOfs ∧
         t.diagBit n 7 = s.flag (UC_CJC_FIXED n) ∧ OnlyRegs [UC_STAT n, UC_EVT n] { s with ucs := t.ucs } t)) ∧
  (∀ (s : State) (n : Fin 32) (k : Fin 8) (level a b : Bool),
     let live := fun (t : State) => (BitVec.ofNat 32 (t.fget (CT_LIVE_LIVE k)))
     let edge := s.fget (CT_CFG_EDGE k)
     let rise := (s.ct k).a = false ∧ a = true
     let fall := (s.ct k).a = true ∧ a = false
     let counts := (rise ∧ edge ≠ 1) ∨ (fall ∧ edge ≠ 0)
     (s.measures = true → s.fget (DIO_CH_CFG_DIR n) = 0 → ∃ t, exec (.inputFilter n level) s = .next t ∧
       t.dio n = { s.dio n with filt := level } ∧ (∀ m, m ≠ n.val → t.dio m = s.dio m) ∧ { t with dios := s.dios } = s) ∧
     (s.live = true → (s.ct k).hold = false → 1 ≤ s.ctMode k → s.ctMode k ≤ 6 → ∃ t, exec (.counterEdge k a b) s = .next t ∧
       (t.ct k).a = a ∧ (t.ct k).b = b ∧
       (s.ctMode k = 1 → counts → live t = live s + 1) ∧ (s.ctMode k = 2 → counts → live t = live s - 1) ∧
       (s.ctMode k = 3 → counts → live t = if b then live s - 1 else live s + 1) ∧
       (s.ctMode k ≤ 3 → ¬ counts → live t = live s) ∧
       (4 < s.ctMode k → a ≠ (s.ct k).a → b = (s.ct k).b → live t = if a = b then live s - 1 else live s + 1) ∧
       (s.ctMode k = 6 → a = (s.ct k).a → b ≠ (s.ct k).b → live t = if a = b then live s + 1 else live s - 1) ∧
       (s.ctMode k = 5 → a = (s.ct k).a → live t = live s) ∧
       (4 ≤ s.ctMode k → a ≠ (s.ct k).a → b ≠ (s.ct k).b → live t = live s ∧ t.flag (CT_STAT_QERR k) = true) ∧
       t.mem = s.mem ∧ t.img = s.img ∧ t.strands = s.strands) ∧
     (s.live = true → s.ctMode k = 7 → 12 * 10 ^ 9 ≤ 8 * (s.fab / 4 - ((s.ct k).lastRise).getD 0) → ∃ t,
       exec (.noSignal k) s = .next t ∧ t.fget (CT_LIVE_LIVE k) = 0 ∧ t.flag (CT_STAT_NOSIG k) = true ∧
       OnlyRegs [CT_LIVE k, CT_STAT k] s t))

/-- R216 row 2, R217, R219 to R223: a passive output below 6.5 V browns out and draws at most 3.2 mA, the last command that it has received
retained, and runs again at 7.0 V with its held command when the retention register is intact, otherwise with 3.6 mA; no command for TMO_MS sets CMDLOSS, and an event only while the link is up;
LOW_COMPLIANCE, COMPLIANCE and OPEN follow three samples that lie past the rest after a step; a voltage output at its limit for 1 ms is SHORT. R330, R331: a front end in a
cross-fade drives its share in steps of 10 µs, the incoming unit of its command, the outgoing unit of its last one; at the end the fade is
over. -/
def Obligations.OutputChannels : Prop :=
  (∀ (s : State) (n : Fin 16) (a b c : LoopSample) (vt : Int) (intact atLimit : Bool) (us : Nat),
     let u := s.uc n
     let all := fun (p : LoopSample → Prop) => p a ∧ p b ∧ p c
     (s.ucMode n = 0x3A → u.running = true → vt < 6500 → ∃ t, exec (.brownout n vt) s = .next t ∧ (t.uc n).running = false ∧
       0 ≤ (t.uc n).out ∧ (t.uc n).out ≤ 3200000 ∧
       (t.uc n).retained = (match u.cmdNext with
         | some c => some c.1
         | none => u.cmd) ∧ t.fget (UC_STAT_RBQ n) = qBad ∧
       OnlyRegs [UC_STAT n, UC_VT n] { s with ucs := t.ucs } t ∧ ∀ j, j ≠ n.val → t.uc j = s.uc j) ∧
     (s.ctl.held = false → s.mode ≠ mPowerUp → s.mode ≠ mLoad → s.ucMode n = 0x3A → u.running = false →
       s.flag (UC_STAT_FMT_OK n) = true → 7000 ≤ vt → ∃ t, exec (.frontEndRestart n vt intact) s = .next t ∧
       (t.uc n).running = true ∧ t.flag (UC_STAT_ONLINE n) = true ∧ t.flag (UC_EVT_LINKUP n) = true ∧
       (∀ v, u.retained = some v → intact = true → (t.uc n).out = v ∧ t.flag (UC_STAT_RETAINED n) = true) ∧
       (intact = false ∨ u.retained = none → (t.uc n).out = 3600000 ∧ t.flag (UC_STAT_RETAINED n) = false) ∧
       ∀ j, j ≠ n.val → t.uc j = s.uc j) ∧
     (ucOutput (s.ucMode n) = true → u.running = true → s.diagBit n 6 = false →
       u.cmdAt + 1000 * s.fget (UC_CMDTMO_TMO_MS n) ≤ s.tbNat → ∃ t, exec (.commandLoss n) s = .next t ∧ t.diagBit n 6 = true ∧
       (s.flag (UC_STAT_ONLINE n) = false → t.evq = s.evq) ∧ OnlyRegs [UC_STAT n, UC_EVT n] s t) ∧
     (s.ucMode n = 0x38 ∨ s.ucMode n = 0x39 ∨ s.ucMode n = 0x3A → u.running = true → s.flag (UC_STAT_ONLINE n) = true →
       ∃ t, exec (.diagChange n a b c) s = .next t ∧
         (s.ucMode n = 0x3A → all (fun x => x.vt < 10000) → t.diagBit n 0 = true) ∧
         (s.ucMode n = 0x3A → all (fun x => 10200 ≤ x.vt) → t.diagBit n 0 = false) ∧
         (u.stepAt + 4000 < s.tbNat → s.ucMode n = 0x3A → all (fun x => 20000 < u.out - x.cur) → t.diagBit n 1 = true) ∧
         (u.stepAt + 4000 < s.tbNat → all (fun x => u.out - x.cur ≤ 10000) → t.diagBit n 1 = false) ∧
         (u.stepAt + 4000 < s.tbNat → s.ucMode n ≠ 0x3A → all (fun x => x.cur < 200000 ∧ 20000 < u.out - x.cur) →
           t.diagBit n 2 = true ∧ t.fget (UC_STAT_RBQ n) = qBad) ∧
         (s.tbNat ≤ u.stepAt + 4000 → t.diagBit n 1 = s.diagBit n 1 ∧ t.diagBit n 2 = s.diagBit n 2) ∧
         OnlyRegs [UC_STAT n, UC_EVT n, UC_RDBK n, UC_VT n] s t) ∧
     (s.ucMode n = 0x30 → u.running = true → s.flag (UC_STAT_ONLINE n) = true → ∃ t, exec (.voltageOutputShort n atLimit us) s = .next t ∧
       (t.diagBit n 3 = true ↔ atLimit = true ∧ 1000 ≤ us) ∧
       (t.fget (UC_STAT_RBQ n) = if atLimit = true ∧ 1000 ≤ us then qBad else if u.calOk = true then qGood else qUncertain) ∧ OnlyRegs [UC_STAT n, UC_EVT n] s t)) ∧
  (∀ (s : State) (n : Fin 16) (f : Fade), (s.uc n).fade = some f →
     (s.gated = true → s.flag (UC_MODE_SHARED n) = false) → ucOutput (s.ucMode n) = true → 0 < f.dur →
     let k := min f.dur ((s.tbNat - f.from_) / 10 * 10)
     ∃ t, exec (.crossFadeStep n) s = .next t ∧
       (f.up = true → (s.uc n).row = 8 → (t.uc n).out = (s.uc n).cmd.getD 0 * (k : Int) / (f.dur : Int)) ∧
       (f.up = false → (s.uc n).row = 5 → (t.uc n).out = f.cmd * ((f.dur - k : Nat) : Int) / (f.dur : Int)) ∧
       (t.uc n).fade = (if f.from_ + f.dur ≤ s.tbNat then none else some f) ∧ (∀ j, j ≠ n.val → t.uc j = s.uc j) ∧
       { t with ucs := s.ucs } = s)

/-- R237, R238, R242, R243, R247: the state of a group follows its supply with 0.5 V of hysteresis on the rising side, and OFF switches its
outputs off; a group current above 4.4 A switches them off and latches FUSE; an overload and a thermal shutdown switch off the output and
its gang, latch OVERLOAD for the leader, and make its record BAD. -/
def Obligations.OutputGroups : Prop :=
  ∀ (s : State) (g : Fin 4) (n : Fin 32) (mv ma : BitVec 16),
    let old := s.fget (DIO_GRP_STAT_STATE g)
    (s.measures = true → ∃ t, exec (.groupSupplyMeasure g mv) s = .next t ∧ t.fget (DIO_GRP_STAT_LPLUS_MV g) = mv.toNat ∧
      (mv.toNat < 15000 → t.fget (DIO_GRP_STAT_STATE g) = 2 ∧ ∀ m, m / 8 = g.val → (t.dio m).out = false) ∧
      (15000 ≤ mv.toNat → mv.toNat < 15500 → t.fget (DIO_GRP_STAT_STATE g) = if old = 2 then 2 else 1) ∧
      (15500 ≤ mv.toNat → mv.toNat < 18000 → t.fget (DIO_GRP_STAT_STATE g) = 1) ∧
      (18000 ≤ mv.toNat → mv.toNat < 18500 → t.fget (DIO_GRP_STAT_STATE g) = if old = 0 then 0 else 1) ∧
      (18500 ≤ mv.toNat → t.fget (DIO_GRP_STAT_STATE g) = 0) ∧
      (∀ m, m / 8 ≠ g.val → t.dio m = s.dio m) ∧ t.mem = s.mem ∧ t.img = s.img ∧ t.strands = s.strands) ∧
    (s.live = true → 4400 < ma.toNat → ∃ t, exec (.groupCurrentTrip g ma) s = .next t ∧ t.flag (DIO_GRP_STAT_FUSE g) = true ∧
      (∀ m, m / 8 = g.val → (t.dio m).out = false) ∧ (∀ m, m / 8 ≠ g.val → t.dio m = s.dio m) ∧
      OnlyRegs [DIO_GRP_STAT g] { s with dios := t.dios } t) ∧
    (s.live = true → s.dioOut n = true → (s.dio n).out = true → ∃ t, exec (.overload n) s = .next t ∧
      exec (.thermalShutdown n) s = .next t ∧ (∀ m, m ∈ s.gang n → (t.dio m).out = false) ∧
      (∀ m, m ∉ s.gang n → t.dio m = s.dio m) ∧ t.recBit (s.leader n) recOverload = true ∧
      t.fget (DIO_CH_STAT_QUALITY (s.leader n)) = qBad ∧ bitAt (t.fget DIO_EVT_OVL_OVL) n = true ∧
      OnlyRegs [DIO_EVT_OVL, DIO_CH_STAT (s.leader n)] { s with dios := t.dios } t)

/-! ## Modes and integrity -/

/-- R259, R260, R261, R267: a new key position is shown and, from PROGRAM, RUN and RUN-LOCKED of a module that stands alone, accepts the change
to its mode, which waits for its t0; the mode itself stays. A key fault keeps POS; its end shows the position read. R263 to R267: a request
shows its status in SYS_REQSTAT and counts. A refused one sets REQREJ and changes nothing else of the control; an accepted one for another
mode than the present waits for its t0. KEYFAULT refuses every request with PERM, and so does the position RUN-LOCKED; RUN
is accepted in STOP at the position RUN when nothing bars the executing modes. -/
def Obligations.KeyAndModeRequests : Prop :=
  (∀ (s : State) (pos : Fin 4) (raw : BitVec 4), s.ctl.held = false →
     (Quiet s → s.flag MEL_CFG_HEDGE = false → s.flag SYS_KEY_KEYFAULT = false → s.mode = mProgram ∨ s.mode = mRun ∨ s.mode = mRunLocked →
       ∃ t, exec (.keyPositionChange pos) s = .next t ∧ t.fget SYS_KEY_POS = pos.val ∧ t.fget SYS_KEY_RAW = 2 ^ pos.val ∧
         (s.fget SYS_KEY_POS = pos.val → t.ctl = s.ctl) ∧
         (s.fget SYS_KEY_POS ≠ pos.val → t.flag SYS_EVT_KEYCHG = true ∧
           t.ctl.change = if s.mode = keyMode pos then none
             else some { target := keyMode pos, req := 0x10 + pos.val, cause := 0, accepted := s.tbNat, cold := false }) ∧
         t.mode = s.mode ∧ OnlyRegs [SYS_KEY, SYS_EVT] { s with ctl := t.ctl } t) ∧
     (s.mode ≠ mDormant → popcount 4 raw.toNat ≠ 1 → ∃ t, exec (.keyFault raw) s = .next t ∧ t.flag SYS_KEY_KEYFAULT = true ∧
       t.fget SYS_KEY_RAW = raw.toNat ∧ t.fget SYS_KEY_POS = s.fget SYS_KEY_POS ∧ OnlyRegs [SYS_KEY, SYS_EVT] s t) ∧
     (s.mode ≠ mDormant → s.flag SYS_KEY_KEYFAULT = true → ∃ t, exec (.keyFaultClear pos) s = .next t ∧
       t.flag SYS_KEY_KEYFAULT = false ∧ t.fget SYS_KEY_POS = pos.val)) ∧
  (∀ (s : State) (cold : Bool) (rc : Nat × Instr), Quiet s → s.mode ≠ mDormant →
     rc ∈ [(1, Instr.stopRequest), (2, .programRequest), (3, .runRequest), (4, .serviceRequest), (5, .dormantRequest),
       (6, .restartRequest cold)] →
     let code := s.requestStatus rc.1
     (∃ t, exec rc.2 s = .next t ∧ t.fget SYS_REQSTAT_STATUS = code ∧ t.fget SYS_REQSTAT_REQ = rc.1 ∧
       t.fget SYS_REQSTAT_SEQ = (s.fget SYS_REQSTAT_SEQ + 1) % 2 ^ 16 ∧ t.mode = s.mode ∧ t.strands = s.strands ∧ t.mem = s.mem ∧
       t.img = s.img ∧
       (code ≠ scOk → t.flag SYS_EVT_REQREJ = true ∧ t.ctl = s.ctl) ∧
       (code = scOk → s.mode = requestMode rc.1 → t.ctl = s.ctl) ∧
       (code = scOk → s.mode ≠ requestMode rc.1 → s.mode ≠ mLockout →
         t.ctl.change = some { target := requestMode rc.1, req := rc.1, cause := 1, accepted := s.tbNat, cold := rc.1 = 6 && cold })) ∧
     (s.flag SYS_KEY_KEYFAULT = true → code = scPerm) ∧ (s.ctl.keyAt = none → s.fget SYS_KEY_POS = 3 → code = scPerm) ∧
     (s.flag SYS_KEY_KEYFAULT = false → s.ctl.keyAt = none → s.fget SYS_KEY_POS = 2 → s.mode = mStop → s.execBarred = false →
       s.requestStatus 3 = scOk))

/-- R417, R419, R420: a mismatch of a strand pair records the pair, where none stands recorded, and, from STOP to HANDOVER, enters SAFE at once with its event code; a
mismatch of the steward pair stops everything, asserts FAULT_n and drops the baton, and 10 ms later the die is reset with its cause, which
counts as a restart. R423 to R428: a scrub that finds a granule clean moves on to the next; one bit in error is corrected, recorded, and
written back later; in DRAM and in keep RAM a pattern that cannot be corrected makes the granule INTEG. No scrub changes a byte. -/
def Obligations.LockstepAndScrubbing : Prop :=
  (∀ (s : State) (st : Fin 16) (lane : Fin 7) (slane : Fin 8) (f : StewardFault),
     (s.compared st = true → mStop ≤ s.mode → s.mode ≤ mHandover → ∃ t, exec (.lockstepMismatch st lane) s = .next t ∧
       t.mode = mSafe ∧ t.fget SYS_FAULT_EVCODE = 0x0C01 ∧ bitAt (t.fget INT_LS_LSFAIL) st = true ∧ t.ctl.faultN = true ∧
       (∀ j, j < 16 → (t.strand j).run = .idle) ∧
       (s.flag INT_LSINFO_VALID = false → t.fget INT_LSINFO_STRAND = st.val ∧ t.fget INT_LSINFO_LANE = lane.val) ∧ t.mem = s.mem) ∧
     (s.ctl.held = false → s.mode ≠ mDormant → ∃ t, exec (.stewardMismatch slane) s = .next t ∧ t.ctl.held = true ∧
       t.ctl.faultN = true ∧ t.flag RED_STAT_BATON_OUT = false ∧ (∀ j, j < 16 → (t.strand j).run = .idle) ∧
       t.ctl.stewardFault = some { lane := slane.val, cause := rcLockstep, at_ := s.fab } ∧ t.mem = s.mem) ∧
     (s.ctl.stewardFault = some f → f.at_ + 5000000 ≤ s.fab → f.cause < 8 → FreshClock s → ∃ t, exec .stewardFaultReset s = .next t ∧
       t.mode = mPowerUp ∧ t.fget SYS_RSTCAUSE_CAUSE = f.cause ∧ t.ctl.held = false ∧ t.strands = [] ∧ t.img = [] ∧
       t.keep.restarts = (s.rtc.count :: s.keep.restarts).take 7 ∧ t.rtc.count = s.rtc.count) ∧
     (s.ctl.stewardFault = some f → s.fab < f.at_ + 5000000 → exec .stewardFaultReset s = .next s)) ∧
  (∀ (s : State) (e : Nat) (errs : List Nat) (i : Nat) (use : GranuleUse), s.ctl.held = false → s.mode ≠ mDormant →
     let g := scrubKey s.int.scrubAt
     (g ∉ s.integ → s.int.scrubAt + 1 < 1703936 → ∃ t, exec (.scrub [] 0 use) s = .next t ∧ t.int.scrubAt = s.int.scrubAt + 1 ∧
       t.int.log = s.int.log ∧ t.integ = s.integ ∧ t.mem = s.mem ∧ t.img = s.img ∧ t.strands = s.strands) ∧
     (g ∉ s.integ → selDecode (selSyndrome errs) = some [e] → ∃ t, exec (.scrub errs 0 use) s = .next t ∧ t.int.corrected = s.int.corrected ++ [g] ∧ t.integ = s.integ ∧
       t.flag INT_EVT_CORR = true ∧ t.int.log.length = min 16 (s.int.log.length + 1) ∧ t.mem = s.mem ∧ t.img = s.img) ∧
     (selDecode (selSyndrome errs) = none →
       (keyDram 0 / 32 + i ∉ s.integ → ∃ t, exec (.dramScrub [⟨i, errs, 0⟩]) s = .next t ∧ t.integ = s.integ ++ [keyDram 0 / 32 + i] ∧
         t.flag INT_EVT_INTEG = true ∧ t.mem = s.mem ∧ t.img = s.img ∧ t.strands = s.strands) ∧
       (keyKeep 0 / 32 + i ∉ s.integ → ∃ t, exec (.keepRamScrub [⟨i, errs, 0⟩]) s = .next t ∧
         t.integ = s.integ ++ [keyKeep 0 / 32 + i] ∧ t.flag INT_EVT_INTEG = true ∧ t.mem = s.mem ∧ t.img = s.img ∧
         t.strands = s.strands)) ∧
     exec .correctionWriteBack s = .next { s with int := { s.int with corrected := s.int.corrected.drop 1 } })

/-- R139, R431 to R435: an expected check-in of a strand or of a steward thread marks the slot and advances its token; a steward thread with
another token faults its slot, and so does a period that closes without a check-in; a thread whose restart is not confirmed within 10 ms
resets the module with its cause, or brings LOCKOUT once enough restarts are recorded. -/
def Obligations.WatchdogSlots : Prop :=
  ∀ (s : State) (n : Fin 32) (st a : Fin 16) (token : BitVec 16) (at_ : Nat),
    let x := s.wslot n
    let inWindow := x.seen = false ∧ s.wdgArmed n = true ∧ s.wdgClosed n = false ∧ s.wdgEnabled n = true ∧
      x.start + s.wdgPeriod n * s.fget (WDG_SLOT_CFG_OPEN_PCT n) / 100 ≤ s.wtick
    let fine := fun (t : State) => (t.wslot n).seen = true ∧ (t.wslot n).clean = true ∧
      (t.wslot n).expected = nextToken x.expected ∧ t.flag (WDG_SLOT_STAT_REARM n) = false
    let faulty := fun (t : State) (fault : Nat) => bitAt (t.fget WDG_FAULTSUM_FAULT) n = true ∧
      t.fget (WDG_SLOT_STAT_LASTFAULT n) = fault ∧ t.flag (WDG_SLOT_STAT_INRUN n) = true ∧ t.mode = s.mode
    (Ready s st → inWindow → n.val < 24 → s.fget (WDG_SLOT_CFG_CLASS n) = (s.cfg st).cls →
      ((s.strand st).w.get a).toNat = n.val * 2 ^ 16 + x.expected.toNat → ∃ t, exec (.chkin st a) s = .next t ∧ fine t ∧
        (t.strand st).pc = (s.strand st).pc + 4 ∧ (t.strand st).w = (s.strand st).w ∧ t.mem = s.mem ∧ t.img = s.img) ∧
    (s.ctl.held = false → s.mode ≠ mDormant → inWindow → 24 ≤ n.val →
      (token = x.expected → ∃ t, exec (.stewardCheckIn n token) s = .next t ∧ fine t ∧ OnlyRegs [WDG_SLOT_STAT n] { s with wdg := t.wdg } t) ∧
      (token ≠ x.expected → 24 < n.val → s.flag (WDG_SLOT_STAT_INRUN n) = false → ∃ t, exec (.stewardCheckIn n token) s = .next t ∧
        faulty t 3 ∧ t.strands = s.strands ∧ t.mem = s.mem ∧ t.img = s.img)) ∧
    (s.ctl.held = false → s.mode ≠ mDormant → 24 < n.val → s.wdgArmed n = true → s.wdgClosed n = true →
      (x.seen = false → s.flag (WDG_SLOT_STAT_INRUN n) = false → ∃ t, exec (.watchdogPeriodEnd n) s = .next t ∧ faulty t 1 ∧
        t.strands = s.strands ∧ t.mem = s.mem ∧ t.img = s.img) ∧
      (x.seen = true → ∃ t, exec (.watchdogPeriodEnd n) s = .next t ∧ (t.wslot n).seen = false ∧
        (t.wslot n).start = x.start + s.wdgPeriod n ∧ t.fget (WDG_SLOT_STAT_CLEAN n) = min 0xFFFF (s.fget (WDG_SLOT_STAT_CLEAN n) + 1) ∧
        OnlyRegs [WDG_SLOT_STAT n] { s with wdg := t.wdg } t)) ∧
    (s.ctl.held = false → s.mode ≠ mDormant → x.thread = some at_ → at_ + 10000 ≤ s.wtick →
      ∃ t, exec (.threadRestartTimeout n) s = .next t ∧
        (s.rst24 < s.fget WDG_CFG_ESC_N → FreshClock s → t.mode = mPowerUp ∧ t.fget SYS_RSTCAUSE_CAUSE = rcWdg ∧ t.strands = [] ∧ t.img = []) ∧
        (s.fget WDG_CFG_ESC_N ≤ s.rst24 → t.mode = mLockout ∧ t.flag SYS_LOCKOUT_FLAG = true ∧ t.fget SYS_FAULT_EVCODE = 0x0D03))

/-! ## Retain store and recorder -/

/-- R443, R445, R446: RET commands on an idle store. A command that is not permitted shows its status and touches nothing. A read of one row
copies it to the buffer; a program of a blank row, a bit program of a raw row, an erase and a write of a whole page start the operation in
their bank, with the content of the buffer; a program of a row that is not blank and a bit program of a coded row end with STATE. R443,
R444: the end of the one operation of a bank has its whole effect: an erase leaves the rows of its page blank, a row program the content it
was given, a bit program the bits that were 1 in both. No other row, and nothing outside the store, changes. -/
def Obligations.RetainStore : Prop :=
  (∀ (s : State) (oc : Nat × Instr), s.ctl.held = false → s.mode ≠ mDormant → s.ctl.pfail = false → s.store.running = [] → s.store.waiting = [] →
     s.store.cmd = none → s.flag RET_CMD_STAT_ACTIVE = false →
     oc ∈ [(0, Instr.readCommand), (1, .writeCommand), (2, .pageErase), (3, .rowProgram), (4, .bitProgram)] →
     let row := s.partRow0 + s.fget RET_CMD_ADDR_ROW
     let buf := (s.rget RET_CMD_BUF).toNat / 32 * 32
     let runs := fun (op : StoreOp) => ∃ t, exec oc.2 s = .next t ∧ t.flag RET_CMD_STAT_ACTIVE = true ∧
       t.store.running = [{ rank := partRank s.partOf, page := row / 16, op := op, tag := .command }] ∧ t.store.waiting = [] ∧
       t.mem = s.mem ∧ t.img = s.img
     let ends := fun (code : Nat) => ∃ t, exec oc.2 s = .next t ∧ t.fget RET_CMD_STAT_STATUS = code ∧
       t.flag RET_CMD_STAT_ACTIVE = false ∧ t.store = s.store ∧ t.mem = s.mem
     (s.cmdStatus oc.1 ≠ scOk → ends (s.cmdStatus oc.1)) ∧
     (s.cmdStatus oc.1 = scOk → s.fget RET_CMD_LEN_LEN = 1 →
       (oc.1 = 0 → s.rowInteg row = false → ∃ t, exec oc.2 s = .next t ∧ t.mgetN buf 32 = s.rowBytes row ∧
         t.fget RET_CMD_STAT_STATUS = scOk ∧ t.fget RET_CMD_STAT_DONE = 1 ∧ t.flag RET_CMD_STAT_ACTIVE = false ∧ t.store = s.store ∧
         ∀ key, key < buf ∨ buf + 32 ≤ key → t.mget key = s.mget key) ∧
       (oc.1 = 2 → runs .erase) ∧
       (oc.1 = 3 → s.rowBlank row = true → runs (.row (row % 16) (s.mgetN buf 32))) ∧ (oc.1 = 3 → s.rowBlank row = false → ends scState) ∧
       (oc.1 = 4 → rowCoded row = false → runs (.bits (row % 16) (s.mgetN buf 32))) ∧ (oc.1 = 4 → rowCoded row = true → ends scState)) ∧
     (s.cmdStatus oc.1 = scOk → s.fget RET_CMD_LEN_LEN = 16 → row % 16 = 0 → oc.1 = 1 →
       runs (.write ((List.range 16).map (fun r => (r, s.mgetN (buf + 32 * r) 32)))))) ∧
  (∀ (s : State) (bank : Fin 16) (q : StoreReq) (r i : Nat) (bytes : List Byte), s.ctl.held = false → s.ctl.pfail = false →
     s.store.running = [q] → s.store.waiting = [] → s.store.cmd = none → q.tag = .none → q.page < 32768 → q.page / 2048 = bank.val → r < 16 →
     i < 32 → (q.op = .erase ∨ q.op = .row r bytes ∨ q.op = .bits r bytes) →
     ∃ t, exec (.storeOperationEnd bank) s = .next t ∧ t.store.running = [] ∧
       (q.op = .erase → t.rowBlank (16 * q.page + r) = true ∧ t.mget (rowKey (16 * q.page + r) + i) = 0xFF) ∧
       (q.op = .row r bytes → t.rowBlank (16 * q.page + r) = false ∧ t.mget (rowKey (16 * q.page + r) + i) = (bytes[i]?).getD 0) ∧
       (q.op = .bits r bytes → t.rowBlank (16 * q.page + r) = false ∧
         t.mget (rowKey (16 * q.page + r) + i) = s.mget (rowKey (16 * q.page + r) + i) &&& (bytes[i]?).getD 0) ∧
       (∀ row, row < 0x80000 → row / 16 ≠ q.page → t.rowBlank row = s.rowBlank row ∧ t.rowBytes row = s.rowBytes row) ∧
       (∀ key, key < keyStore 0 → t.mget key = s.mget key) ∧ t.img = s.img ∧ t.strands = s.strands)

/-- R450, R451, R452: on an idle store the trickle writes up to 14 dirty granules as the next journal page of the ring, once 14 are dirty and
the pace permits, and a checkpoint its next page; the number and the slot advance. With nothing dirty and no checkpoint neither does
anything. R454: at PFAIL with nothing dirty only the mark is set. When no beam runs and nothing is left to write, the flush-end page of kind
3 is written under the next number, and the module is reset with cause POR. R455 to R457: in SERVICE a consolidation shows whether the ring
is complete, closes the seal, and writes the retentive area of keep RAM alone; in every other mode it does nothing. -/
def Obligations.RingAndConsolidation : Prop :=
  (∀ (s : State), s.live = true → s.ctl.pfail = false → s.store.running = [] → s.store.waiting = [] →
     let page := slotPage s.store.slot
     let placed := fun (t : State) (rows : List (Nat × List Byte)) (tag : StoreTag) =>
       t.store.running = [{ rank := 2, page := page, op := .write rows, tag := tag }] ∧ t.store.waiting = [] ∧
         t.store.seq = s.store.seq + 1 ∧ t.store.slot = (s.store.slot + 1) % ringSlots ∧ t.mem = s.mem ∧ t.img = s.img
     (14 ≤ s.store.dirty.length → s.store.journalAt = none → ∃ t, exec .trickle s = .next t ∧ t.store.dirty = s.store.dirty.drop 14 ∧
       placed t (ringRows s.store.seq 0 0 s.store.ckptS ((s.store.dirty.take 14).map (fun e => (e.1, s.mgetN (keyKeep (32 * e.1)) 32)))) .ring) ∧
     (s.store.dirty = [] → exec .trickle s = .next s) ∧
     (∀ c, s.store.ckpt = some c → s.store.ckptAt = none → ∃ t, exec .checkpointPage s = .next t ∧
       t.store.ckpt = (if c.next + 1 = 2304 then none else some { c with next := c.next + 1 }) ∧
       placed t (ringRows s.store.seq (1 + c.next / 1152) (c.next % 1152) c.s ((List.range 14).map (fun j =>
         (256 + 14 * (c.next % 1152) + j, tget (leBytes 32 0) c.copy (256 + 14 * (c.next % 1152) + j))))) .ckpt) ∧
     (s.store.ckpt = none → exec .checkpointPage s = .next s)) ∧
  (∀ (s : State), s.ctl.held = false → s.store.dirty = [] →
     (s.ctl.pfail = false → exec .pfail s = .next { s with ctl := { s.ctl with pfail := true } }) ∧
     (s.ctl.pfail = true → s.beamRuns = false → s.store.running = [] → s.store.waiting = [] → s.recorder.openRec = none →
       s.store.slot < ringSlots → ∃ t, exec .flushComplete s = .next t ∧ t.mode = mPowerUp ∧ t.fget SYS_RSTCAUSE_CAUSE = rcPor ∧
         t.ctl.pfail = false ∧ t.strands = [] ∧ t.img = [] ∧ t.mget (rowKey (16 * slotPage s.store.slot) + 8) = 3 ∧
         t.mgetN (rowKey (16 * slotPage s.store.slot)) 8 = leBytes 8 s.store.seq ∧
         ∀ key, keyKeep 0 ≤ key → key < keyStore 0 → t.mget key = s.mget key)) ∧
  (∀ (s : State), s.ctl.held = false →
     (s.mode = mService → ∃ t, exec .consolidationRequest s = .next t ∧ t.keep.sealOpen = false ∧
       t.flag RET_STAT_RINGOK = s.consolidate.complete ∧ t.rget64 RET_SEQ_LO RET_SEQ_HI = s.consolidate.newest % 2 ^ 64 ∧
       (s.consolidate.pages = [] → t.mem = s.mem) ∧ t.img = s.img ∧ t.strands = s.strands ∧ t.mode = s.mode ∧
       ∀ key, key < keyKeep (32 * 256) ∨ keyKeep (32 * 16384) ≤ key → t.mget key = s.mget key) ∧
     (s.mode ≠ mService → exec .consolidationRequest s = .next s))

/-- R458, R459: increments of a quickset counter raise its value by their number, as far as its pages are not worn; those beyond are refused
with WEAR. The other counters and the memories stay. R461 to R463: the oldest event enters the recorder. One of the code and element of the
open record is counted in it; another repeat-counted event opens a record; any other is written at once under the next number. A record that
has been open for 60 s is sealed. -/
def Obligations.CountersAndRecorder : Prop :=
  (∀ (s : State) (i : BitVec 8) (n : BitVec 16), s.ctl.held = false → s.mode ≠ mDormant →
     ∃ t, exec (.qsIncrement i n) s = .next t ∧
       (t.qsc i.toNat).value = (s.qsc i.toNat).value + min n.toNat (s.qsc i.toNat).room ∧
       ((s.qsc i.toNat).room < n.toNat → t.fget RET_CMD_STAT_STATUS = scWear) ∧
       (∀ j, j ≠ i.toNat → t.qsc j = s.qsc j) ∧ t.mem = s.mem ∧ t.img = s.img ∧ t.strands = s.strands) ∧
  (∀ (s : State) (e : Event) (rest : List Event) (o : OpenRecord), s.ctl.held = false → s.ctl.pfail = false →
     s.mode ≠ mDormant → s.mode ≠ mPowerUp → s.store.running = [] → s.store.waiting = [] → s.recorder.lost = 0 → s.recorder.ff < 1023 →
     let row := recRow0 + s.recorder.ff
     let written := fun (t : State) (seq code tick count : Nat) (payload : List Byte) => t.recorder.ff = s.recorder.ff + 1 ∧
       t.store.running = [{ rank := 3, page := row / 16, op := .record (row % 16) (s.recordBytes seq code tick count payload), tag := .none }]
     (s.evq = e :: rest →
       (s.recorder.openRec = some o → o.code = e.code → o.elem = e.elem → o.count + 1 < 0xFFFF → ∃ t, exec .eventIntake s = .next t ∧
         t.recorder = { s.recorder with openRec := some { o with count := o.count + 1 } } ∧ t.evq = rest ∧ t.store = s.store) ∧
       (s.recorder.openRec = none → repeatCounted e.code.toNat = true → ∃ t, exec .eventIntake s = .next t ∧ t.evq = rest ∧
         t.store = s.store ∧ t.recorder = { s.recorder with
                                              next := s.recorder.next + 1,
                                              openRec := some { seq := s.recorder.next, code := e.code, elem := e.elem,
                                                                payload := e.payload, tick := e.tick, count := 0,
                                                                openedAt := s.fab } }) ∧
       (s.recorder.openRec = none → repeatCounted e.code.toNat = false → ∃ t, exec .eventIntake s = .next t ∧ t.evq = rest ∧
         t.recorder.next = s.recorder.next + 1 ∧ written t s.recorder.next e.code.toNat e.tick.toNat 0 e.payload)) ∧
     (s.recorder.openRec = some o → o.openedAt + 60 * 500000000 ≤ s.fab → ∃ t, exec .sealTimeout s = .next t ∧
       t.recorder.openRec = none ∧ t.evq = s.evq ∧ written t o.seq o.code.toNat o.tick.toNat o.count o.payload) ∧
     (s.recorder.openRec = some o → s.fab < o.openedAt + 60 * 500000000 → exec .sealTimeout s = .next s))

/-! ## Update and security -/

/-- R495 to R497, R501: chunk 0 of a delivery is refused with PERM, RANGE or AUTH in this order and changes no memory; accepted while no
delivery is open and no trial runs, it opens the delivery, leaves the inactive slot RECEIVING, and stands in its image. R497, R500, R501,
R502: a chunk without a delivery, from another source, or beyond the image is refused; a received one changes nothing; a new one that reads
back stands in the image. ABORT closes the delivery, with OK when no activation is withdrawn. -/
def Obligations.Deliveries : Prop :=
  (∀ (s : State) (src : UpdSource) (header : List (BitVec 8)) (sig : SigVerdict), s.ctl.held = false → s.mode ≠ mDormant →
     s.flag UPD_STAT_RECOVERY = false →
     let h := slice header 0 4096
     let slot := s.inactiveSlot
     let refused := fun (code : Nat) => ∃ t, exec (.deliveryStart src header sig) s = .next t ∧ t.fget UPD_STAT_LASTST = code ∧
       t.mem = s.mem ∧ t.upd = s.upd ∧ t.store = s.store
     (s.sourceOk src = false → refused scPerm) ∧
     (s.sourceOk src = true → mfWf h = false → refused scRange) ∧
     (s.sourceOk src = true → mfWf h = true → s.mfAuth h sig = false → refused scAuth) ∧
     (s.sourceOk src = true → mfWf h = true → s.mfAuth h sig = true → s.slotState slot ≠ slTrial → s.slotState slot ≠ slStarted →
       s.upd.trial = none → s.upd.dlv = none → ∃ t d, exec (.deliveryStart src header sig) s = .next t ∧ t.upd.dlv = some d ∧
         d.length = mfField h 20 4 ∧ d.count = mfField h 20 4 / 4096 ∧ t.fget UPD_STAT_LASTST = scOk ∧
         t.flag UPD_STAT_DLVOPEN = true ∧ t.slotState slot = slReceiving ∧ t.slotHeader slot = h ∧
         (∀ key, key < keyFlash slot 0x100000 ∨ keyFlash slot 0x1000000 ≤ key → t.mget key = s.mget key))) ∧
  (∀ (s : State) (src : UpdSource) (n : BitVec 12) (bytes : List (BitVec 8)) (rb : Bool), s.ctl.held = false → s.mode ≠ mDormant →
     (s.upd.dlv = none → exec (.chunk src n bytes rb) s = .next (s.fput UPD_STAT_LASTST scState)) ∧
     (∀ d, s.upd.dlv = some d →
       (s.sourceOk src = false → exec (.chunk src n bytes rb) s = .next (s.fput UPD_STAT_LASTST scPerm)) ∧
       (s.sourceOk src = true → d.count ≤ n.toNat → exec (.chunk src n bytes rb) s = .next (s.fput UPD_STAT_LASTST scRange)) ∧
       (s.sourceOk src = true → n.toNat < d.count → s.chunkGot d n.toNat = true → exec (.chunk src n bytes rb) s = .next s) ∧
       (s.sourceOk src = true → n.toNat < d.count → s.chunkGot d n.toNat = false →
         (∃ t, exec (.chunk src n bytes true) s = .next t ∧ t.mgetN (imageKey s.inactiveSlot (4096 * n.toNat)) 4096 = slice bytes 0 4096 ∧
           t.strands = s.strands ∧ t.img = s.img) ∧
         (∃ t, exec (.chunk src n bytes false) s = .next t ∧ t.upd = s.upd ∧ t.store = s.store ∧ t.regs = s.regs ∧
           ∀ key, key < imageKey s.inactiveSlot (4096 * n.toNat) ∨ imageKey s.inactiveSlot (4096 * n.toNat) + 4096 ≤ key →
             t.mget key = s.mget key))) ∧
     (∃ t, exec .abort s = .next t ∧ t.upd.dlv = none ∧ t.upd.act = none ∧ t.flag UPD_STAT_DLVOPEN = false ∧
       t.fget UPD_STAT_LASTST = (if s.upd.act = none then scOk else scState) ∧ t.mem = s.mem ∧ t.slotState s.inactiveSlot = s.slotState s.inactiveSlot))

/-- R502: ACTIVATE shows its status; accepted it pends, in an executing mode until the copy of the retentive area is taken. The written copy is
marked valid, holds the granules, and the inactive slot is marked TRIAL. R504: a trial that is rejected, or that its window ends, makes the
running slot FAILED and resets the module with cause FALLBACK; a valid fallback copy stands in the retentive area again. Without a trial
REJECT is answered STATE. -/
def Obligations.ActivationAndTrial : Prop :=
  (∀ (s : State) (sig : SigVerdict) (a : Activation) (c : List (Nat × List Byte)), s.ctl.held = false → s.mode ≠ mDormant →
     (∃ t, exec (.activate sig) s = .next t ∧ t.fget UPD_STAT_LASTST = s.activateStatus sig ∧ t.mem = s.mem ∧ t.strands = s.strands ∧
       (s.activateStatus sig ≠ scOk → t.upd = s.upd) ∧
       (s.activateStatus sig = scOk → t.flag UPD_STAT_ACTPEND = true ∧
         ∃ b, t.upd.act = some b ∧ b.cold = s.activateCold ∧ b.trialAt = none ∧ b.handover = s.standbyReady ∧
           (modeExecutes s.mode = true → b.copy = none) ∧
           (modeExecutes s.mode = false → s.standbyReady = false →
             b.copy = some ((List.range 16128).map (fun i => (256 + i, s.mgetN (keyKeep (32 * (256 + i))) 32)))))) ∧
     (s.upd.act = some a → a.copy = some c → a.trialAt = none → ∃ t, exec .fallbackCopyWritten s = .next t ∧
       t.upd.act = some { a with trialAt := some s.tbNat } ∧ t.mget (rowKey (15 * 0x8000 + 16128) + 31) = 0x5A ∧
       t.markSet s.inactiveSlot mkTrial = true ∧ t.img = s.img ∧
       (∀ g b, c = [(g, b)] → 256 ≤ g → g < 16384 → t.rowBytes (15 * 0x8000 + (g - 256)) = slice b 0 32) ∧
       (∀ key, key < keyStore 0 → t.mget key = s.mget key)) ∧
     (s.mode = mRunLocked → s.activateStatus sig = scPerm) ∧ (s.upd.act = none → exec .fallbackCopyWritten s = .next s)) ∧
  (∀ (s : State), s.ctl.held = false → s.mode ≠ mDormant → FreshClock s → s.store.running = [] →
     (∀ tr, s.upd.trial = some tr →
       let back := fun (c : Instr) => ∃ t, exec c s = .next t ∧ t.mode = mPowerUp ∧ t.fget SYS_RSTCAUSE_CAUSE = rcFallback ∧
         t.slotState s.activeSlot = slFailed ∧ t.strands = [] ∧ t.img = [] ∧
         (s.copyValid = true → ∀ i, i < 16128 → t.mgetN (keyKeep (32 * (256 + i))) 32 = s.rowBytes (15 * 0x8000 + i))
       back .reject ∧
       (s.ctl.booting = false → tr.begun + tr.window * 500000000 ≤ s.fab → back .trialWindowEnd) ∧
       (s.fab < tr.begun + tr.window * 500000000 → exec .trialWindowEnd s = .next s)) ∧
     (s.upd.trial = none → exec .reject s = .next (s.fput UPD_STAT_LASTST scState)))

/-- R490, R491: in SERVICE at the position STOP the next free entry is burnt with the hash of a key, and an entry is revoked, when the owner key
in force has signed it, or none is in force; revoking an entry that is not in force leaves the one in force. R507: in SERVICE at the position
STOP with the hold, a complete image of KIND 3 or 4 begins to replace its item; at its end the inactive slot reads EMPTY, the status is
shown, and after a write without error the anchor is the image's body. -/
def Obligations.KeysAndPrivilegedUpdates : Prop :=
  (∀ (s : State) (key : List (BitVec 8)) (entry : Fin 4) (sigOk : Bool), s.ctl.held = false → s.mode ≠ mDormant →
     (s.mode = mService → s.fget SYS_KEY_POS = 0 →
       (s.upd.otp.keys.length < 4 → s.ownerInForce = none ∨ sigOk = true → ∃ t, exec (.enrol key sigOk) s = .next t ∧
         t.upd = { s.upd with otp := { s.upd.otp with keys := s.upd.otp.keys ++ [sha512 key] } } ∧ t.fget UPD_STAT_LASTST = scOk ∧
         OnlyRegs [UPD_OWNER, UPD_STAT] { s with upd := t.upd } t) ∧
       (s.upd.otp.keys.length < 4 → s.ownerInForce ≠ none → sigOk = false →
         exec (.enrol key sigOk) s = .next (s.fput UPD_STAT_LASTST scAuth)) ∧
       (4 ≤ s.upd.otp.keys.length → exec (.enrol key sigOk) s = .next (s.fput UPD_STAT_LASTST scSize)) ∧
       (entry.val < s.upd.otp.keys.length → s.ownerInForce ≠ some entry.val → s.ownerInForce = none ∨ sigOk = true →
         ∃ t, exec (.revoke entry sigOk) s = .next t ∧ t.upd.otp.revoked.getLsbD entry = true ∧ t.upd.otp.keys = s.upd.otp.keys ∧
           t.ownerInForce = s.ownerInForce ∧ t.fget UPD_STAT_LASTST = scOk ∧ OnlyRegs [UPD_OWNER, UPD_STAT] { s with upd := t.upd } t) ∧
       (s.upd.otp.keys.length ≤ entry.val → exec (.revoke entry sigOk) s = .next (s.fput UPD_STAT_LASTST scRange))) ∧
     (s.mode ≠ mService ∨ s.fget SYS_KEY_POS ≠ 0 → exec (.enrol key sigOk) s = .next (s.fput UPD_STAT_LASTST scState) ∧
       exec (.revoke entry sigOk) s = .next (s.fput UPD_STAT_LASTST scState))) ∧
  (∀ (s : State) (holdOk : Bool) (status : Fin 12) (front : BitVec 4) (kind : Nat), s.ctl.held = false → s.mode ≠ mDormant →
     (s.mode = mService → s.fget SYS_KEY_POS = 0 → s.slotState s.inactiveSlot = slComplete → s.upd.privKind = none →
       s.manifest s.inactiveSlot 6 1 = 3 ∨ s.manifest s.inactiveSlot 6 1 = 4 →
       ∃ t, exec (.privUpdate holdOk) s = .next t ∧ t.flag UPD_STAT_HOLDOK = holdOk ∧
         t.fget UPD_STAT_LASTST = (if holdOk then scOk else scState) ∧
         t.upd = (if holdOk then { s.upd with privKind := some (s.manifest s.inactiveSlot 6 1) } else s.upd) ∧
         (holdOk = true → s.manifest s.inactiveSlot 6 1 = 4 → ∀ n, n < 16 → s.ucMode n ≠ 0x3A → (t.uc n).out = 0) ∧
         OnlyRegs [UPD_STAT] { s with upd := t.upd, ucs := t.ucs } t) ∧
     (s.upd.privKind = some kind → ∃ t, exec (.privUpdateEnd status front) s = .next t ∧ t.upd.privKind = none ∧
       t.slotState s.inactiveSlot = slEmpty ∧ t.fget UPD_STAT_LASTST = status.val ∧ t.flag UPD_EVT_PRIV = true ∧
       (kind ≠ 3 ∨ status.val ≠ 0 → ∀ key, key < keyFlash s.inactiveSlot 0x100000 ∨ keyFlash s.inactiveSlot 0x101000 ≤ key →
         t.mget key = s.mget key) ∧
       (kind = 3 → status.val = 0 → ∀ i, i < 0x100000 → i + 4096 < s.manifest s.inactiveSlot 20 4 →
         t.mget (keyFlash 0 i) = s.mget (imageKey s.inactiveSlot (4096 + i))) ∧ t.strands = s.strands ∧ t.img = s.img) ∧
     (s.upd.privKind = none → exec (.privUpdateEnd status front) s = .next s))

/-- R506: in recovery at the position STOP an authentic slot image of KIND 1, every segment of which hashes to its entry, fills the lowest slot
that reads EMPTY or FAILED, which is CONFIRMED, and the module is reset with cause SERVICE. An image that is not well formed is refused with
RANGE and one that is not authentic with AUTH; without a slot it is refused with STATE. R508: an attestation request is answered with a
report and its signature, and changes nothing else. The report names the mode, carries the nonce in bytes 28 to 59 and the hash of the
active slot's manifest in bytes 60 to 123. -/
def Obligations.RecoveryAndAttestation : Prop :=
  (∀ (s : State) (image : List (BitVec 8)) (sig : SigVerdict), s.ctl.held = false → s.mode ≠ mDormant → s.flag UPD_STAT_RECOVERY = true →
     s.fget SYS_KEY_POS = 0 → s.store.running = [] →
     let h := slice image 0 4096
     let len := mfField h 20 4
     let fit := mfWf h = true ∧ mfField h 6 1 = 1 ∧ image.length = len
     let free := fun (i : Nat) => s.slotState i = slEmpty ∨ s.slotState i = slFailed
     (¬ free 0 → ¬ free 1 → exec (.recoveryImage image sig) s = .next (s.fput UPD_STAT_LASTST scState)) ∧
     (free 0 ∨ free 1 → ¬ fit → exec (.recoveryImage image sig) s = .next (s.fput UPD_STAT_LASTST scRange)) ∧
     (free 0 ∨ free 1 → fit → s.mfAuth h sig = false → exec (.recoveryImage image sig) s = .next (s.fput UPD_STAT_LASTST scAuth)) ∧
     (free 0 ∨ free 1 → fit → s.mfAuth h sig = true →
       (∀ k, k < segCount len → sha512 (slice image (4096 + k * 2 ^ 20) (segLen len k)) = slice image (112 + 64 * k) 64) →
       ∃ t slot, exec (.recoveryImage image sig) s = .next t ∧ t.mode = mPowerUp ∧
         (FreshClock s → t.fget SYS_RSTCAUSE_CAUSE = rcService) ∧
         t.slotState slot = slConfirmed ∧ free slot ∧ (free 0 → slot = 0) ∧ slot < 2 ∧
         ∀ i, i < len → t.mget (imageKey slot i) = (image[i]?).getD 0)) ∧
  (∀ (s : State) (nonce : BitVec 256), s.ctl.held = false → s.mode ≠ mDormant →
     ∃ report, exec (.attestationRequest nonce) s = .next { s with tx := s.tx ++ [.attestation report (Config.sign report)] } ∧
       slice report 0 9 = [0x4B, 0x52, 0x41, 0x54, 0x52, 0x4B, 0x16, 0x32, Config.hwRev] ∧ slice report 9 1 = leBytes 1 s.mode ∧
       slice report 28 32 = leBytes 32 nonce.toNat ∧ slice report 60 64 = slice (s.manifestHash s.activeSlot) 0 64)

/-! ## Online edits -/

/-- R286 to R288, R307: a package that the mode or a check refuses changes nothing staged, and the session has the status. An accepted one is
staged: its STAGED record joins the journal, the proof begins where the mode and the settings call for one, and its code goes into the bank
that is not active, with the active bank unchanged. A package of which more is to come is being received. A primary of a pair forwards the
package to its standby, and a refusal of the standby is the package's. R297: an edit that the partner has ended is ended here too; classes that
have swapped revert. -/
def Obligations.EditPackages : Prop :=
  ∀ (s : State) (p : EditPkg) (v : EditVerdict),
    (s.editModeStatus false = scOk → ∃ t, exec (.editPackage p { more := true }) s = .next t ∧ t.fget EDT_STAT_STATE = edReceiving ∧
      OnlyRegs [EDT_STAT] s t) ∧
    (s.editModeStatus false = scOk → s.editRefusal p = none → s.paired = true → s.role = 1 →
      ∃ t, exec (.editPackage p { verdict := some v }) s = .next t ∧ t.edit = s.edit ∧ t.journal = s.journal ∧
        t.tx = s.tx ++ [.editPackage p, .editVerdict p.seq none, .sessionAnswer saEdit v.status] ∧
        t.fget EDT_STAT_LASTSTAT = v.status.val ∧ t.mem = s.mem ∧ t.img = s.img ∧ t.heddle = s.heddle) ∧
    (s.editModeStatus false ≠ scOk → ∃ t, exec (.editPackage p {}) s = .next t ∧ t.edit = s.edit ∧ t.journal = s.journal ∧
      t.tx = s.tx ++ [.sessionAnswer saEdit (s.editModeStatus false)] ∧ t.fget EDT_STAT_LASTSTAT = s.editModeStatus false ∧
      t.mem = s.mem ∧ t.img = s.img ∧ t.heddle = s.heddle) ∧
    (∀ c r e h, s.editModeStatus false = scOk → s.editRefusal p = some (c, r, e, h) → s.red.partner = none →
      ∃ t, exec (.editPackage p {}) s = .next t ∧ t.edit = s.edit ∧ t.journal = s.journal ∧ t.tx = s.tx ++ [.sessionAnswer saEdit c] ∧ t.fget EDT_STAT_LASTSTAT = c % 256 ∧
      t.mem = s.mem ∧ t.img = s.img ∧ t.heddle = s.heddle) ∧
    (s.editModeStatus false = scOk → s.editRefusal p = none → s.red.partner = none →
      ∃ t, exec (.editPackage p {}) s = .next t ∧ t.edit.pkg = some p ∧ t.journal = s.journal ++ [⟨s.activeSlot, p, .staged⟩] ∧
        t.tx = s.tx ++ [.sessionAnswer saEdit scOk] ∧ t.fget EDT_SEQ_SEQ = p.seq.toNat ∧
        t.fget EDT_STAT_STATE = (if s.mode = mTrack ∨ (s.mode = mProgram ∨ s.mode = mRun) ∧ s.flag EDT_CFG_DRYPROOF = true
          then edProving else edChecked) ∧
        t.img = s.img ∧ t.heddle = s.heddle ∧ t.strands = s.strands ∧
        ∀ (st : Fin 16) (code : List (BitVec 8)) (i : Nat), p.code = [(st, code)] → s.activeBank st < 2 → i < code.length → i < 0x80000 →
          t.mget (keyImem st (1 - s.activeBank st) i) = (code[i]?).getD 0 ∧
          t.mget (keyImem st (s.activeBank st) i) = s.mget (keyImem st (s.activeBank st) i)) ∧
    (∀ c : Fin 6, s.paired = true → s.edit.pkg = some p → s.edState ≠ edReverting →
      ∃ t, exec (.editPackage p { ended := some c }) s = .next t ∧ t.fget EDT_STAT_LASTSTAT = scState ∧
        t.tx = s.tx ++ [.editAbort p.seq c.val] ∧ t.mem = s.mem ∧ t.img = s.img ∧ t.heddle = s.heddle ∧
        (s.edit.swapped = [] → t.fget EDT_STAT_STATE = edIdle ∧ t.edit.pkg = none) ∧
        (s.edit.swapped ≠ [] → t.fget EDT_STAT_STATE = edReverting ∧ t.edit.revert = s.edit.swapped ∧ t.edit.pkg = some p))

/-- R297 to R299: a confirmed edit of a single module writes PREPARED for its commit cycle and is ARMED at once; a standby and a member that
receive a proposal write PREPARED, are ARMED, and acknowledge; an acknowledgement in time arms the proposing unit, and a proposal without
one lapses; an abort before the first swap leaves nothing staged, later it reverts the classes that have swapped. R291, R294, R302: a dry
pass that is due is given up and counted as skipped, a proof cycle that runs longer than its period counts as over budget; in both the
strands of the class leave the trial with nothing staged. The acknowledgement of a swap is noted, and the last one, once every affected
class has swapped and completed its first cycle, commits the edit. -/
def Obligations.EditCommitsAndTrials : Prop :=
  (∀ (s : State) (p : EditPkg) (seq : BitVec 16) (n : BitVec 64), s.edit.pkg = some p →
     let st := s.fget EDT_STAT_STATE
     let late := s.epoch + (s.editN : Int) * s.t0us - s.t0us ≤ (s.tbNat : Int)
     (st = edChecked ∨ st = edProving ∨ st = edProved → s.edit.ownMark = false → s.role ≠ 2 →
       s.mode = mStop ∨ s.mode = mProgram ∨ s.mode = mRun → s.red.partner = none → s.flag MEL_STAT_FORMED = false →
       s.commitCycle (s.cls 0).cyc.toNat < 2 ^ 64 → ∃ t, exec .editConfirm s = .next t ∧ t.fget EDT_STAT_STATE = edArmed ∧
         t.editN = s.commitCycle (s.cls 0).cyc.toNat ∧ t.edit.ownMark = true ∧ t.edit.pkg = some p ∧
         t.tx = s.tx ++ [.sessionAnswer saEdit scOk] ∧ t.mem = s.mem ∧ t.img = s.img ∧ t.heddle = s.heddle) ∧
     (p.seq = seq → s.role ≠ 1 → st ≠ edSwapping → st ≠ edReverting → ∃ t, exec (.commitProposalReceived seq n) s = .next t ∧
       t.fget EDT_STAT_STATE = edArmed ∧ t.editN = n.toNat ∧ t.edit.ownMark = true ∧ t.tx = s.tx ++ [.preparedAck seq] ∧ t.mem = s.mem ∧
       t.img = s.img) ∧
     (p.seq = seq → s.edit.ownMark = true → st = edProved → ¬ late → ∃ t, exec (.preparedAck seq) s = .next t ∧
       t.fget EDT_STAT_STATE = edArmed ∧ t.edit = { s.edit with acked := true } ∧ t.tx = s.tx ∧ t.mem = s.mem ∧ t.img = s.img) ∧
     (s.edit.ownMark = true → late → ∃ t, exec .proposalLapse s = .next t ∧
       (st = edProved → t.edit = { s.edit with ownMark := false } ∧ t.fget EDT_STAT_STATE = edProved ∧ t.tx = s.tx ++ [.editLapse p.seq] ∧
         OnlyRegs [] { s with edit := t.edit, tx := t.tx } t) ∧
       (st = edArmed → s.role = 2 → t.edit = { s.edit with ownMark := false } ∧ t.fget EDT_STAT_STATE = edProved ∧
         OnlyRegs [EDT_STAT] { s with edit := t.edit } t)) ∧
     (st ≠ edReverting → ∃ t, exec .editAbort s = .next t ∧ t.fget EDT_STAT_LASTSTAT = scState ∧ t.mem = s.mem ∧ t.img = s.img ∧
       t.heddle = s.heddle ∧
       (s.edit.swapped = [] → t.fget EDT_STAT_STATE = edIdle ∧ t.edit.pkg = none) ∧
       (s.edit.swapped ≠ [] → t.fget EDT_STAT_STATE = edReverting ∧ t.edit.revert = s.edit.swapped ∧ t.edit.pkg = some p) ∧
       (s.red.partner = none → t.tx = s.tx ++ [.sessionAnswer saEdit scOk]))) ∧
  (∀ (s : State) (k : Fin 4) (p : EditPkg),
     let left := fun (t : State) => (t.cls k).shadow = .none ∧ t.mem = s.mem ∧ t.img = s.img ∧ t.mode = s.mode ∧
       (∀ st, st < 16 → (s.cfg st).cls = k.val → (t.strand st).run = .idle ∧ (t.strand st).stg = [] ∧ (t.strand st).stall = none) ∧
       (∀ st, (s.cfg st).cls ≠ k.val → t.strand st = s.strand st)
     ((s.cls k).shadow = .dry → (s.cls k).t0.toNat + s.period k ≤ s.tbNat + 10 → ∃ t, exec (.dryPassAbandon k) s = .next t ∧ left t ∧
       t.fget EDT_PROOF_SKIPPED = min 0xFFFF (s.fget EDT_PROOF_SKIPPED + 1)) ∧
     ((s.cls k).shadow = .proof → 500 * s.period k < s.fab - (s.proofOf k).began → ∃ t, exec (.proofCycleAbandon k) s = .next t ∧ left t ∧
       t.fget EDT_REP_ERR_OVERBUDGET = min 0xFF (s.fget EDT_REP_ERR_OVERBUDGET + 1)) ∧
     (s.edit.pkg = some p → k.val ∉ s.edit.acks → s.edState ≠ edSwapping →
       exec (.swapAcknowledgement k) s = .next { s with edit := { s.edit with acks := s.edit.acks ++ [k.val] } }) ∧
     (s.edit.pkg = some p → k.val ∉ s.edit.acks → s.edState = edSwapping →
       (∀ j, j ∈ s.affected p → j ∈ s.edit.swapped ∧ j ∈ s.edit.first ∧ (j = k.val ∨ j ∈ s.edit.acks)) →
       ∃ t, exec (.swapAcknowledgement k) s = .next t ∧ t.edit.pkg = none ∧ t.fget EDT_STAT_STATE = edIdle ∧
         t.journal = (s.journalMark p.seq .committed).journal ∧ t.mem = s.mem ∧ t.img = s.img ∧ t.heddle = s.heddle))

/-! ## The pair and the hedge -/

/-- R311, R314, R315, R327: edges of BATON_IN, and what follows them. A fall on a unit that does not stand by only shows the level; a READY standby of a
module outside a hedge takes the primary role and the baton. A rise ends the wait for a role in TRACK; 3 s without one accept the mode of the key. A primary that sees the
baton for 100 µs (200 µs on the preferred unit) yields; a disagreement of 10 ms sets BATONFLT and 10 s of agreement clear it. -/
def Obligations.BatonAndRoles : Prop :=
  ∀ (s : State) (at_ : Nat), s.ctl.held = false →
    (s.flag RED_STAT_BATON_IN = true →
      (s.standsBy = false → ∃ t, exec .batonInFall s = .next t ∧ t.flag RED_STAT_BATON_IN = false ∧ t.mode = s.mode ∧ t.role = s.role ∧
        t.strands = s.strands ∧ t.img = s.img ∧ t.mem = s.mem) ∧
      (s.standsBy = true → s.redState = stReady → s.flag RED_STAT_BATONFLT = false → s.flag MEL_CFG_HEDGE = false →
        ∃ t, exec .batonInFall s = .next t ∧ t.flag RED_STAT_BATON_IN = false ∧ t.role = 1 ∧ t.red.tko = some s.tbNat ∧
          t.flag RED_STAT_BATON_OUT = true ∧ t.flag RED_EVT_TAKEOVER = true)) ∧
    (s.flag RED_STAT_BATON_IN = false → s.red.waitRole = some at_ → s.redState ≠ stRefused → ∃ t, exec .batonInRise s = .next t ∧
      t.flag RED_STAT_BATON_IN = true ∧ t.red.waitRole = none ∧ t.ctl.change.map (·.target) = some mTrack ∧ t.mode = s.mode) ∧
    (s.red.waitRole = some at_ → at_ + 3 * 500000000 ≤ s.fab → ∃ t, exec .roleWaitExpiry s = .next t ∧ t.red.waitRole = none ∧
      t.ctl.change.map (·.target) = some (keyMode (s.fget SYS_KEY_POS)) ∧ t.mode = s.mode ∧ t.strands = s.strands) ∧
    (s.red.waitRole = some at_ → s.fab < at_ + 3 * 500000000 → exec .roleWaitExpiry s = .next s) ∧
    (s.live = true → s.role = 1 → s.mode ≠ mHandover → s.flag RED_STAT_BATON_IN = true →
      max s.red.batonAt s.red.roleAt + (if s.preferred then 200 else 100) * 500 ≤ s.fab → ∃ t, exec .dualPrimaryYield s = .next t ∧
        t.mode = mTrack ∧ t.role = 2 ∧ t.redState = stNotReady ∧ t.flag RED_STAT_BATON_OUT = false ∧ t.flag RED_EVT_DUALPRI = true ∧
        ∀ st, st < 16 → (t.strand st).run = .idle) ∧
    (s.pairLive = true → s.red.agrees = false → s.flag RED_STAT_BATONFLT = false → s.red.agreeAt + 5000000 ≤ s.fab →
      ∃ t, exec .batonFault s = .next t ∧ t.flag RED_STAT_BATONFLT = true ∧ OnlyRegs [RED_STAT] { s with red := t.red } t) ∧
    (s.live = true → s.red.agrees = true → s.flag RED_STAT_BATONFLT = true → s.red.agreeAt + 5000000000 ≤ s.fab →
      ∃ t, exec .batonFaultClear s = .next t ∧ t.flag RED_STAT_BATONFLT = false ∧ OnlyRegs [RED_STAT] { s with red := t.red } t)

/-- R326, R327, R328, R381: a heartbeat is sent every 50 µs over the links and over each witness port; a received one is kept with its instant
and ends SPLIT; after 150 µs without any, a READY standby takes over, another one without SPLIT enters STOP, and a primary runs alone. R333
to R338: a HANDOVER command answers its status, and when it is OK proposes H three cycles ahead; a READY standby arms a proposal and
acknowledges it, the proposing unit arms with the acknowledgement, and a proposal without one lapses; R341: the top master of a hedge tells its members; a takeback is proposed unless three
have been made within the hour, and then is counted as suppressed and waits. -/
def Obligations.HeartbeatsAndHandovers : Prop :=
  (∀ (s : State) (p : Fin 4) (ml5 : Bool) (b : Beacon),
     (s.live = true → s.paired = true ∨ s.role = 1 → s.pairLinks = true → s.red.sentAt + 25000 ≤ s.fab → exec .heartbeat s =
       .next { s with red := { s.red with sentAt := s.fab }, tx := s.tx ++ [.heartbeat s.ownBeacon] }) ∧
     (s.live = true → s.flag RED_CFG_PAIRED = true → bitAt (s.fget RED_WITNESS_PORTS) p = true → s.linkUp p = true →
       tget 0 s.red.sentWitness p + 25000 ≤ s.fab → ∃ t seq, exec (.witnessHeartbeat p) s = .next t ∧
         t.tx = s.tx ++ [.witness p (leBytes 8 Config.uid.toNat ++ leBytes 1 s.role ++ leBytes 1 s.redState ++ leBytes 6 0) seq] ∧ tget 0 t.red.sentWitness p = s.fab ∧ t.mem = s.mem ∧ t.img = s.img ∧
         t.strands = s.strands) ∧
     (s.pairLive = true → (if ml5 then s.linkML5 else s.linkML4) = true → ∃ t, exec (.heartbeatReceived ml5 b) s = .next t ∧
       t.red.beacon = some b ∧ t.red.beatAt = s.fab ∧ t.flag RED_STAT_SPLIT = false ∧ t.mode = s.mode ∧ t.strands = s.strands ∧
       t.mem = s.mem ∧ t.img = s.img) ∧
     (s.pairLive = true → s.witnessOk = false → s.red.beatAt + 75000 ≤ s.fab → s.flag MEL_CFG_HEDGE = false →
       (s.standsBy = true → s.redState = stReady → ∃ t, exec .heartbeatTimeout s = .next t ∧ t.role = 1 ∧ t.red.tko = some s.tbNat) ∧
       (s.standsBy = true → s.redState ≠ stReady → s.redState ≠ stHandoverOut → s.flag RED_STAT_SPLIT = false →
         ∃ t, exec .heartbeatTimeout s = .next t ∧ t.mode = mStop) ∧
       (s.role = 1 → s.mode ≠ mHandover → ∃ t, exec .heartbeatTimeout s = .next t ∧ t.red.partner = none ∧ t.redState = stAlone ∧
         t.role = 1 ∧ t.mode = s.mode ∧ t.strands = s.strands ∧ t.mem = s.mem ∧ t.img = s.img))) ∧
  (∀ (s : State) (h : BitVec 64) (trigger : Fin 4) (x : Handover), s.ctl.held = false → s.mode ≠ mDormant →
     let told := fun (tr : Nat) =>
       (if s.flag MEL_CFG_HEDGE = true then [Sent.hedgeHandover ((s.cls 0).cyc + 3) tr] else []) ++ [.handoverProposal ((s.cls 0).cyc + 3) tr]
     let proposed := fun (tr : Nat) => some { h := (s.cls 0).cyc + 3, trigger := tr, armed := false, incoming := s.role == 2 }
     (s.handoverStatus ≠ scOk → exec .handover s = .next { s with tx := s.tx ++ [.sessionAnswer saRed s.handoverStatus] }) ∧
     (s.handoverStatus = scOk → ∃ t, exec .handover s = .next t ∧
       t.tx = s.tx ++ .sessionAnswer saRed scOk :: told 0 ∧ t.red.handover = proposed 0 ∧
       { t with red := s.red, tx := s.tx } = s) ∧
     (s.mode = mRunLocked → s.handoverStatus = scPerm) ∧
     (s.pairLive = true → (s.cls 0).cyc.toNat + 1 < h.toNat → s.role = 2 → s.mode = mTrack → s.redState = stReady →
       s.hedgeBelow = false ∨ trigger.val ≠ 2 → ∃ t, exec (.handoverProposal h trigger) s = .next t ∧ t.tx = s.tx ++ [.handoverAck h] ∧
         t.red.handover = some { h := h, trigger := trigger.val, armed := true, incoming := true } ∧ { t with red := s.red, tx := s.tx } = s) ∧
     (s.red.handover = some x → x.armed = false →
       (s.pairLive = true → x.h = h → (s.cls 0).cyc.toNat + 1 < h.toNat → exec (.handoverAck h) s =
         .next { s with red := { s.red with handover := some { x with armed := true }, finalAcked := false } }) ∧
       (s.live = true → x.h.toNat ≤ (s.cls 0).cyc.toNat + 1 → s.red.stopAfter = false → s.upd.act = none →
         exec .handoverLapse s = .next { s with red := { s.red with handover := none } })) ∧
     (s.takebackHolds = true → s.red.deferred = false →
       (s.takebacksHour < 3 → ∃ t, exec .takeback s = .next t ∧ t.red.handover = proposed 2 ∧
         t.tx = s.tx ++ told 2) ∧
       (3 ≤ s.takebacksHour → ∃ t, exec .takeback s = .next t ∧ t.red.deferred = true ∧ t.red.handover = s.red.handover ∧
         t.fget RED_TKOCNT_SUPPRESSED = min (2 ^ RED_TKOCNT_SUPPRESSED.width - 1) (s.fget RED_TKOCNT_SUPPRESSED + 1) ∧
         OnlyRegs [RED_TKOCNT] { s with red := t.red } t)) ∧
     (s.red.deferred = true → s.takebacksHour < 3 → ∃ t, exec .takebackDeferred s = .next t ∧ t.red.deferred = false ∧
       (s.takebackHolds = true → t.red.handover = proposed 2) ∧ (s.takebackHolds = false → t.tx = s.tx)))

/-- R293, R316, R317, R320 to R322, R325, R335: a copied set frees its class to go on; one whose window has passed is closed incomplete, its
trailer telling the granules sent and their CRC, and flagged; of one that misses only its proof extension that is dropped. A standby holds a
complete set and acknowledges it, and takes nothing from an incomplete one; the outgoing unit of a handover keeps it aside. An acknowledged
set owes its retentive granules no more; an alignment starts on the primary with a segment for each class, on the standby with every class
to follow, and a segment that has come is no longer awaited. -/
def Obligations.MirrorSets : Prop :=
  ∀ (s : State) (k : Fin 4) (x : MirrorTx) (m : MirrorSet) (tr : SetTrailer) (cyc : BitVec 64),
    (s.mirrorTx k = some x →
      (x.copied = false → x.copyEnd ≤ s.fab → exec (.mirrorCopyComplete k) s = .next (s.setMirrorTx k { x with copied := true })) ∧
      (x.ended = false → 100 * x.commitAt + s.mirrorWindow ≤ 100 * s.tbNat → x.set.ext ≠ none → x.copied = true →
        x.sendAt + s.sendClocks (32 * setGranules { x.set with ext := none }) ≤ s.fab → exec (.mirrorWindowExpiry k) s =
          .next { s.setMirrorTx k { x with ended := true } with
                  tx := s.tx ++ [.mirrorSet { x.set with ext := none } (trailerOf { x.set with ext := none })] }) ∧
      (x.ended = false → 100 * x.commitAt + s.mirrorWindow ≤ 100 * s.tbNat → x.set.ext = none → ∃ t cut,
        exec (.mirrorWindowExpiry k) s = .next t ∧ t.mirrorTx k = some { x with ended := true } ∧
        t.tx = s.tx ++ [.mirrorSet x.set cut] ∧ cut.complete = false ∧ cut.granules + 1 ≤ setGranules x.set ∧
        cut.crc = crc32 ((setBytes x.set).take (32 * cut.granules)) ∧ (x.copied = false → cut.granules = 0) ∧
        t.flag RED_EVT_INCOMPLETE = true ∧ OnlyRegs [RED_INCCNT, RED_EVT] { s with red := t.red, tx := t.tx } t) ∧
      (s.pairLive = true → s.role = 1 → x.set.cycle = cyc → ∃ t, exec (.setAcknowledged k cyc none) s = .next t ∧
        tget [] t.red.unacked k = (tget [] s.red.unacked k).filter (fun g => !x.set.retentive.any (fun r => r.1 == g)) ∧
        { t with red := s.red } = s)) ∧
    (s.pairLive = true → s.standsBy = true →
      (setComplete m tr = true → s.redState ≠ stHandoverOut → ∃ t r rest, exec (.mirrorSetReceived m tr) s = .next t ∧
        tget none t.red.held m.cls = some m ∧ t.tx = s.tx ++ .setAck m.cls m.cycle r :: rest ∧ t.img = s.img) ∧
      (setComplete m tr = true → s.redState = stHandoverOut → ∃ t, exec (.mirrorSetReceived m tr) s = .next t ∧
        tget none t.red.aside m.cls = some m ∧ t.red.held = s.red.held ∧ t.tx = s.tx ++ [.setAck m.cls m.cycle none] ∧
        { t with red := s.red, tx := s.tx } = s) ∧
      (setComplete m tr = false → exec (.mirrorSetReceived m tr) s = .next s.dwellAnew)) ∧
    (s.pairLive = true → s.role = 2 → s.mode = mTrack →
      (∀ ml5 : Bool, (if ml5 then s.linkML5 else s.linkML4) = true → setComplete m tr = true → ∃ t, exec (.alignmentSegment m tr ml5) s = .next t ∧
        t.tx = s.tx ++ [.setAck m.cls m.cycle none] ∧ t.red.aligning = true ∧ (∀ c, (m.cls.val, c) ∉ t.red.alignSegs) ∧ t.img = s.img) ∧
      (∃ t, exec .resync s = .next t ∧ t.red.aligning = true ∧ t.red.alignSegs = s.classesOn.map (fun j => (j, 0)) ∧
        t.red.alignSets = s.classesOn ∧
        t.redState = stAligning ∧ t.tx = s.tx)) ∧
    (s.pairLive = true → s.role = 1 → ∃ t segs, exec .resync s = .next t ∧ t.red.aligning = true ∧ t.tx = s.tx ++ segs ∧
      segs.length = s.classesOn.length ∧ t.red.alignSegs.map (·.1) = s.classesOn ∧ { t with red := s.red, tx := s.tx } = s)

/-- R351, R352, R364 to R366: a top master forms a hedge that is whole; FORM_S without formation is reported; an announcement reaches the
modules below, of which none changes its mode by a request of its own (log entry 51); a failure that is told or detected enters SAFE with event code 0x0A03, and one that is detected is told; a heartbeat goes out
every 250 µs; a member of a READY standby hedge takes over at the T_d of its top master. -/
def Obligations.HedgeMembers : Prop :=
  ∀ (s : State) (v : HedgeView) (at_ : Nat) (m : Fin 16) (cause : Fin 4) (target : Fin 16) (cyc td : BitVec 64) (cold : Bool),
    s.ctl.held = false →
    let inSafe := fun (t : State) => t.mode = mSafe ∧ t.fget SYS_FAULT_EVCODE = 0x0A03 ∧ t.flag MEL_STAT_FORMED = false ∧
      ∀ st, st < 16 → (t.strand st).run = .idle
    (s.flag MEL_CFG_HEDGE = true → s.flag MEL_STAT_FORMED = false →
      (s.member = 0 → s.mode = mStop → s.flag SYS_MODE_CFGFAULT = false → s.formStatus v = scOk →
        ∃ t, exec (.formationTimeout v) s = .next t ∧ t.flag MEL_STAT_FORMED = true ∧ t.tx = s.tx ++ [.announce .formed] ∧
          t.strands = s.strands ∧ t.mem = s.mem ∧ t.img = s.img) ∧
      (s.formStatus v ≠ scOk → s.hedge.step7At = some at_ → at_ + s.fget MEL_FORM_FORM_S * 500000000 ≤ s.fab →
        ∃ t, exec (.formationTimeout v) s = .next t ∧ t.flag MEL_STAT_FORMED = false ∧ t.flag MEL_EVT_FORMCHG = true ∧
          t.hedge.step7At = none ∧ OnlyRegs [MEL_EVT] { s with hedge := t.hedge } t) ∧
      (s.member ≠ 0 → modeSheds s.mode = true → s.flag SYS_MODE_CFGFAULT = false → ∃ t, exec (.modeAnnounce .formed) s = .next t ∧
        t.flag MEL_STAT_FORMED = true ∧ t.fget MEL_STAT_STATE = 2 ∧ t.mode = s.mode ∧ t.strands = s.strands)) ∧
    (s.flag MEL_CFG_HEDGE = true → s.flag MEL_STAT_FORMED = true → s.member ≠ 0 → modeSheds s.mode = true →
      target.val ∈ [mStop, mProgram, mRun, mRunLocked, mService, mDormant, mPowerUp] → exec (.modeAnnounce (.mode target cyc cold)) s =
        .next { s with hedge := { s.hedge with announced := some (target.val, cyc, cold) } }) ∧
    (s.flag MEL_CFG_HEDGE = true → s.flag MEL_STAT_FORMED = true → s.member ≠ 0 → s.mode ≠ mDormant → s.requestStatus 1 = scOk →
      ∃ t, exec .stopRequest s = .next t ∧ t.fget SYS_REQSTAT_STATUS = scState ∧ t.ctl = s.ctl ∧ t.mode = s.mode) ∧
    (s.flag MEL_CFG_HEDGE = true → s.member = 0 → modeExecutes s.mode = true ∨ s.mode = mTrack ∨ s.mode = mSafe → s.mode ≠ mHandover →
      ∃ t, exec (.modeAnnounce .stopRequest) s = .next t ∧ t.ctl.change.map (·.target) = some mStop ∧ t.mode = s.mode) ∧
    (s.flag MEL_STAT_FORMED = true → mStop ≤ s.mode → s.mode ≤ mHandover →
      (∃ t, exec (.fail (some m) cause) s = .next t ∧ inSafe t ∧ t.fget MEL_STAT_FAILMOD = m.val) ∧
      (m.val ≠ s.member → ∃ t rest, exec (.hedgeHeartbeatTimeout m) s = .next t ∧ inSafe t ∧ t.fget MEL_STAT_FAILMOD = m.val ∧
        t.tx = s.tx ++ .fail (some m.val) 3 :: rest) ∧
      (s.hedge.offAt = some at_ → at_ + 500000 ≤ s.fab → ∃ t rest, exec .tbOffsetFault s = .next t ∧ inSafe t ∧
        t.tx = s.tx ++ .fail (some s.member) 2 :: rest)) ∧
    (s.live = true → s.flag MEL_CFG_HEDGE = true → s.hedge.sentAt + 125000 ≤ s.fab → exec .hedgeHeartbeat s =
      .next { s with hedge := { s.hedge with sentAt := s.fab }, tx := s.tx ++ [.hedgeHeartbeat] }) ∧
    (s.live = true → s.standsBy = true → s.flag MEL_CFG_HEDGE = true → s.member ≠ 0 → s.redState = stReady →
      ∃ t, exec (.takeoverDistribution td) s = .next t ∧ t.role = 1 ∧ t.red.tko = some td.toNat)

/-- R308, R349, R364: a hedge port that trains is up, and one that goes down fails a formed hedge; a link of the pair shows its
state, its return ends SPLIT, takes the frames that wait for the port out of its queue, and pairing is judged; a frame that fails its check is sent again. -/
def Obligations.MelberLinks : Prop :=
  ∀ (s : State) (n : Fin 6) (v : HedgeView) (x : PartnerInfo), s.ctl.held = false → s.mode ≠ mPowerUp → s.mode ≠ mDormant →
    (n.val < 4 → s.flag (MEL_LINK_EN n) = true →
      (s.fget (MEL_LINK_STATE n) ≠ 2 → ∃ t, exec (.melberLinkUp n none v) s = .next t ∧ t.fget (MEL_LINK_STATE n) = 2 ∧
        bitAt (t.fget MEL_STAT_LINKUP) n = true ∧ t.mode = s.mode ∧ t.strands = s.strands ∧ t.mem = s.mem ∧ t.img = s.img) ∧
      (s.fget (MEL_LINK_STATE n) = 2 → s.flag MEL_STAT_FORMED = false → ∃ t, exec (.melberLinkDown n) s = .next t ∧
        t.fget (MEL_LINK_STATE n) = 3 ∧ bitAt (t.fget MEL_STAT_LINKUP) n = false ∧ t.mode = s.mode ∧
        OnlyRegs [MEL_LINK n, MEL_STAT, MEL_EVT, MEL_ERR n, CYC_SYNC, CYC_OFFSET] s t) ∧
      (s.fget (MEL_LINK_STATE n) = 2 → s.flag MEL_STAT_FORMED = true → mStop ≤ s.mode → s.mode ≤ mHandover →
        ∃ t, exec (.melberLinkDown n) s = .next t ∧ t.mode = mSafe ∧ t.fget SYS_FAULT_EVCODE = 0x0A03)) ∧
    (4 ≤ n.val → s.flag (pairFld n) = false → ∃ t, exec (.melberLinkUp n none v) s = .next t ∧ t.flag (pairFld n) = true ∧
      t.flag RED_STAT_SPLIT = false ∧ t.mode = s.mode ∧
      (s.fget (QUE_STAT_FULLCNT (22 + n)) = 0 → OnlyRegs [RED_STAT, RED_EVT] { s with red := t.red } t) ∧
      (∃ sent, t.tx = s.tx ++ sent ∧ ∀ y, y ∈ sent → ∃ data, y = .melberFrame n data) ∧ t.fget (QUE_STAT_FULLCNT (22 + n)) = 0) ∧
    (4 ≤ n.val → s.flag (pairFld n) = false → s.live = true → s.flag RED_CFG_PAIRED = true → s.red.partner = none → s.role = 0 →
      s.mode ≠ mTrack → ∃ t, exec (.melberLinkUp n (some x) v) s = .next t ∧ t.flag RED_EVT_PAIRCHG = true ∧ t.mode = s.mode ∧
        (s.pairStatus x = scOk → t.red.partner = some x.uid ∧ t.redState = stWaiting) ∧
        (s.pairStatus x ≠ scOk → t.red.partner = none ∧ t.redState = stRefused)) ∧
    (4 ≤ n.val → s.flag (pairFld n) = true → ∃ t, exec (.melberLinkDown n) s = .next t ∧ t.flag (pairFld n) = false ∧
      t.mode = s.mode ∧ t.mem = s.mem ∧ t.img = s.img) ∧
    ((n.val < 4 → s.fget (MEL_LINK_STATE n) = 2) → (4 ≤ n.val → s.flag (pairFld n) = true) → ∃ t, exec (.frameResend n) s = .next t ∧
      t.tx = s.tx ++ [.resend n] ∧ t.mode = s.mode ∧ t.strands = s.strands ∧ t.mem = s.mem ∧ t.img = s.img)

/-- R359, R361: in a formed hedge, exports and DONE are kept with their beam and touch no image byte before the RELEASE; RELEASE ends a locally
committed beam and brings the exported bits of its cycle into the image; LATE, and the cut instant at the top master, mark the cycle number
and flag it. R154, R156, R157, R356, R362: a beat message of another module releases the strands of its class that wait for the beat; an
answer of another module completes the waiting access, and an absent one traps with the system permission code; this module answers a load
of another with its bytes, a store after it is done, an LR with a reservation, and an SC by whether the reservation is still held. -/
def Obligations.HedgeTraffic : Prop :=
  (∀ (s : State) (k : Fin 4) (m : ExportMsg) (member : Fin 16) (cyc : BitVec 64) (off : Nat) (mask val : Byte),
     s.ctl.held = false → s.flag MEL_STAT_FORMED = true → s.edit.pkg = none → s.upd.act = none → s.upd.trial = none →
     (∀ j, (s.cls j).shadow = .none) →
     ((s.hbeam m.cls).commitAt = none →
       ∃ t, exec (.exports m) s = .next t ∧ m ∈ (t.hbeam m.cls).exports ∧ t.img = s.img ∧ t.classes = s.classes ∧ t.tx = s.tx) ∧
     ((s.hbeam k).commitAt = none →
       ∃ t, exec (.done k member) s = .next t ∧ member.val ∈ (t.hbeam k).done ∧ t.img = s.img ∧ t.classes = s.classes ∧ t.tx = s.tx) ∧
     (∀ at_, (s.hbeam k).commitAt = some at_ → (s.cls k).beamCyc = cyc →
       ∃ t, exec (.release k cyc false) s = .next t ∧ (t.cls k).beam = .none ∧ (t.hbeam k).commitAt = none ∧
         ((s.hbeam k).exports = [m] → m.cycle = cyc → m.bytes = [(off, mask, val)] →
           imgGet t.img off = (imgGet s.img off &&& ~~~mask) ||| (val &&& mask) ∧
           ∀ a, a ≠ off → imgGet t.img a = imgGet s.img a) ∧
         ((s.hbeam k).exports = [] → t.img = s.img)) ∧
     ((s.cls k).beamCyc ≠ cyc → exec (.release k cyc false) s = .next s) ∧
     (∃ t, exec (.late k cyc) s = .next t ∧ (t.hbeam k).late = true ∧ (t.hbeam k).lateCyc = cyc ∧ t.flag MEL_EVT_LATE = true ∧
       t.img = s.img ∧ t.classes = s.classes) ∧
     (s.member = 0 → (s.cls k).executed = true → (s.cls k).beam ≠ .none → (s.hbeam k).late = false →
       1000 * ((s.cls k).t0.toNat + s.dout k) < s.tbNs →
       ∃ t, exec (.cutInstant k) s = .next t ∧ t.tx = s.tx ++ [.late k (s.cls k).cyc] ∧ (t.hbeam k).late = true ∧
         (t.hbeam k).lateCyc = (s.cls k).cyc ∧ t.flag MEL_EVT_LATE = true)) ∧
  (∀ (s : State) (b : BeatMsg) (st : Fin 16) (v : Word) (m : Fin 16) (off : Nat) (failed : Bool), s.ctl.held = false → s.mode ≠ mDormant →
     let a := 0x10000000 + off
     let bytes := leBytes 4 v.toNat
     (s.flag MEL_STAT_FORMED = true → b.owner.toNat / 16 ≠ s.member → ∃ t, exec (.beatMessage b) s = .next t ∧ t.img = s.img ∧
       t.mem = s.mem ∧ (∀ j, j < 16 → (s.cfg j).cls = b.cls.val → ∀ w, (s.strand j).stall = some w → w.on = .beat b.beat.val →
         t.strand j = { s.strand j with stall := some { w with released := true } }) ∧
       (∀ j, (s.cfg j).cls ≠ b.cls.val → t.strand j = s.strand j) ∧ (b.forced = false → t.sw = s.sw)) ∧
     (s.waitsMember st false = true → ∃ t, exec (.bankedAccessComplete st (.value v)) s = .next t ∧
       (t.strand st).answer = some { value := v, failed := false } ∧ (t.strand st).stall.map (·.released) = some true ∧
       (∀ j, j ≠ st.val → t.strand j = s.strand j) ∧ { t with strands := s.strands } = s) ∧
     (s.waitsMember st false = true → s.onTrial (s.cfg st).cls = false → bitAt (s.fget TRAP_POL_POL) (s.cfg st).cls = false →
       ∃ t, exec (.bankedAccessComplete st .absent) s = .next t ∧ (t.strand st).run = .halted ∧ t.fget (TRAP_INFO_CODE st) = trSysPerm) ∧
     (s.waitsMember st true = true → ∃ t, exec (.scAnswer st failed) s = .next t ∧
       (t.strand st).answer = some { value := 0, failed := failed } ∧ (∀ j, j ≠ st.val → t.strand j = s.strand j) ∧
       { t with strands := s.strands } = s) ∧
     (s.flag MEL_STAT_FORMED = true → m.val ≠ s.member → off % 4 = 0 →
       (s.memberRefusal a 4 false = none →
         exec (.memberAccessRequest m st (.load 0 off 4)) s = .next { s with
           tx := s.tx ++ [.memberAnswer m st (BitVec.ofNat 32 (leNat (s.mgetN a 4))) false none] } ∧
         ∃ t, exec (.memberAccessRequest m st (.lr off)) s = .next t ∧ (16 * m.val + st.val, a / 32) ∈ t.remoteResv ∧ t.mem = s.mem ∧
           t.tx = s.tx ++ [.memberAnswer m st (BitVec.ofNat 32 (leNat (s.mgetN a 4))) false none]) ∧
       (s.memberRefusal a 4 true = none →
         (∃ t, exec (.memberAccessRequest m st (.store off 4 v)) s = .next t ∧ t.mgetN a 4 = bytes ∧
           (∀ key, key < a ∨ a + 4 ≤ key → t.mget key = s.mget key) ∧ t.tx = s.tx ++ [.memberAnswer m st 0 false none] ∧ t.img = s.img) ∧
         ((16 * m.val + st.val, a / 32) ∈ s.remoteResv → ∃ t, exec (.memberAccessRequest m st (.sc off v)) s = .next t ∧
           t.mgetN a 4 = bytes ∧ (∀ key, key < a ∨ a + 4 ≤ key → t.mget key = s.mget key) ∧
           t.tx = s.tx ++ [.memberAnswer m st 0 false none]) ∧
         ((16 * m.val + st.val, a / 32) ∉ s.remoteResv → ∃ t, exec (.memberAccessRequest m st (.sc off v)) s = .next t ∧ t.mem = s.mem ∧
           t.tx = s.tx ++ [.memberAnswer m st 0 true none]))))
end

