-- ==== Sys2Proof/Laws/Bytes.lean ====
section
/-!
SUPPORT. Slices of byte lists, and the length of a SHA-512 value.
-/
namespace Sys2Proof.Machine

@[simp] theorem slice_length (l : List Byte) (i n : Nat) : (slice l i n).length = n := by simp [slice]

theorem slice_getElem? (l : List Byte) {i n j : Nat} (h : j < n) : (slice l i n)[j]? = some ((l[i + j]?).getD 0) := by
  simp [slice, List.getElem?_map, List.getElem?_range h]

/-- A slice that lies within the first of two lists. -/
theorem slice_append_left (a b : List Byte) {i n : Nat} (h : i + n ≤ a.length) : slice (a ++ b) i n = slice a i n := by
  unfold slice
  apply List.map_congr_left
  intro j hj
  rw [List.getElem?_append_left (by have := List.mem_range.1 hj; omega)]

/-- The slice that is the middle of three lists. -/
theorem slice_middle (a b c : List Byte) {i n : Nat} (ha : a.length = i) (hb : b.length = n) : slice (a ++ b ++ c) i n = b := by
  apply List.ext_getElem?
  intro j
  rcases Nat.lt_or_ge j n with hj | hj
  · rw [slice_getElem? _ hj, List.append_assoc, List.getElem?_append_right (by omega),
      List.getElem?_append_left (by omega), show i + j - a.length = j by omega, List.getElem?_eq_getElem (by omega)]
    rfl
  · rw [List.getElem?_eq_none (by simp [hj]), List.getElem?_eq_none (by omega)]

/-- A slice of a slice that starts at 0. -/
theorem slice_slice (l : List Byte) {i n m : Nat} (h : i + n ≤ m) : slice (slice l 0 m) i n = slice l i n := by
  unfold slice
  apply List.map_congr_left
  intro j hj
  have h1 : i + j < m := by have := List.mem_range.1 hj; omega
  rw [List.getElem?_map, List.getElem?_range h1]
  simp

theorem shaRound_length (v : List W64) (kw : W64) (h : v.length = 8) : (shaRound v kw).length = 8 := by
  unfold shaRound
  split <;> simp_all

theorem shaRounds_length (l : List (W64 × W64)) (v : List W64) (h : v.length = 8) :
    (l.foldl (fun v x => shaRound v (x.1 + x.2)) v).length = 8 := by
  induction l generalizing v with
  | nil => exact h
  | cons x l ih => exact ih _ (shaRound_length v _ h)

theorem shaBlock_length (h : List W64) (b : List Byte) (hl : h.length = 8) : (shaBlock h b).length = 8 := by
  unfold shaBlock
  simp only [List.length_map, List.length_zip, hl, shaRounds_length _ _ hl]
  rfl

theorem shaBlocks_length (n : Nat) (h : List W64) (l : List Byte) (hl : h.length = 8) : (shaBlocks n h l).length = 8 := by
  induction n generalizing h l with
  | zero => exact hl
  | succ n ih => exact ih _ _ (shaBlock_length h _ hl)

@[simp] theorem leBytes_length (n v : Nat) : (leBytes n v).length = n := by
  induction n generalizing v with
  | zero => rfl
  | succ n ih => simp [leBytes, ih]

theorem flatMap_length {α : Type} (l : List α) (f : α → List Byte) (n : Nat) (h : ∀ x, (f x).length = n) :
    (l.flatMap f).length = n * l.length := by
  induction l with
  | nil => simp
  | cons x l ih => simp [List.flatMap_cons, ih, h, Nat.mul_add, Nat.add_comm]

/-- SHA-512 gives 64 bytes. -/
@[simp] theorem sha512_length (l : List Byte) : (sha512 l).length = 64 := by
  unfold sha512
  dsimp only
  rw [flatMap_length _ _ 8 (fun w => by simp [beBytes]), shaBlocks_length _ _ _ rfl]

end Sys2Proof.Machine
end

