-- ==== Sys2Proof/Laws/Tab.lean ====
section
/-!
SUPPORT. Sparse tables: a read after a write, and the canonical form that every write keeps.
-/
namespace Sys2Proof.Machine

variable {α : Type}

theorem tget_tdel_self (d : α) (t : Tab α) (k : Nat) : tget d (tdel t k) k = d := by
  induction t with
  | nil => rfl
  | cons e t ih =>
    obtain ⟨a, x⟩ := e
    by_cases h : a = k <;> simp [tdel, tget, h, ih]

theorem tget_tdel_ne (d : α) (t : Tab α) {k j : Nat} (h : j ≠ k) : tget d (tdel t k) j = tget d t j := by
  induction t with
  | nil => rfl
  | cons e t ih =>
    obtain ⟨a, x⟩ := e
    by_cases ha : a = k
    · simp [tdel, tget, ha, ih, Ne.symm h]
    · by_cases hj : a = j
      · subst hj
        simp [tdel, tget, h]
      · simp [tdel, tget, ha, hj, ih]

theorem tget_tput_self (d : α) (t : Tab α) (k : Nat) (x : α) : tget d (tput t k x) k = x := by
  induction t with
  | nil => simp [tput, tget]
  | cons e t ih =>
    obtain ⟨a, y⟩ := e
    by_cases h : a = k
    · simp [tput, tget, h]
    · by_cases h2 : k < a <;> simp [tput, tget, h, h2, ih]

theorem tget_tput_ne (d : α) (t : Tab α) {k j : Nat} (x : α) (h : j ≠ k) : tget d (tput t k x) j = tget d t j := by
  induction t with
  | nil => simp [tput, tget, Ne.symm h]
  | cons e t ih =>
    obtain ⟨a, y⟩ := e
    by_cases ha : a = k
    · simp [tput, tget, ha, Ne.symm h]
    · by_cases h2 : k < a
      · simp [tput, tget, ha, h2, Ne.symm h]
      · by_cases hj : a = j
        · subst hj
          simp [tput, tget, h, h2]
        · simp [tput, tget, ha, h2, hj, ih]

@[simp] theorem tget_tset_self [DecidableEq α] (d : α) (t : Tab α) (k : Nat) (x : α) : tget d (tset d t k x) k = x := by
  unfold tset
  split
  · next h => rw [tget_tdel_self, h]
  · exact tget_tput_self d t k x

theorem tget_tset_ne [DecidableEq α] (d d' : α) (t : Tab α) {k j : Nat} (x : α) (h : j ≠ k) :
    tget d (tset d' t k x) j = tget d t j := by
  unfold tset
  split
  · exact tget_tdel_ne d t h
  · exact tget_tput_ne d t x h

/-! ### The canonical form -/

/-- Every key of the table is above `b`. -/
def keysAbove (b : Nat) (t : Tab α) : Prop := ∀ e ∈ t, b < e.1

theorem tabWf_cons [DecidableEq α] (d : Nat → α) (a : Nat) (x : α) (t : Tab α) :
    tabWf d ((a, x) :: t) = true ↔ x ≠ d a ∧ keysAbove a t ∧ tabWf d t = true := by
  induction t generalizing a x with
  | nil => simp [tabWf, keysAbove]
  | cons e t ih =>
    obtain ⟨b, y⟩ := e
    rw [show tabWf d ((a, x) :: (b, y) :: t) = (decide (x ≠ d a) && decide (a < b) && tabWf d ((b, y) :: t)) from rfl]
    constructor
    · intro h
      simp only [Bool.and_eq_true, decide_eq_true_eq] at h
      obtain ⟨⟨h1, h2⟩, h3⟩ := h
      refine ⟨h1, ?_, h3⟩
      intro e he
      rcases List.mem_cons.1 he with rfl | he
      · exact h2
      · exact Nat.lt_trans h2 (((ih b y).1 h3).2.1 e he)
    · intro ⟨h1, h2, h3⟩
      simp only [Bool.and_eq_true, decide_eq_true_eq]
      exact ⟨⟨h1, h2 _ (List.mem_cons_self ..)⟩, h3⟩

theorem tdel_keysAbove {b : Nat} {t : Tab α} (k : Nat) (h : keysAbove b t) : keysAbove b (tdel t k) := by
  induction t with
  | nil => exact h
  | cons e t ih =>
    obtain ⟨a, x⟩ := e
    have ht : keysAbove b t := fun e he => h e (List.mem_cons_of_mem _ he)
    by_cases hk : a = k
    · simpa [tdel, hk] using ih ht
    · intro e he
      simp only [tdel, hk, if_false, List.mem_cons] at he
      rcases he with rfl | he
      · exact h _ (List.mem_cons_self ..)
      · exact ih ht e he

theorem tput_keysAbove {b : Nat} {t : Tab α} {k : Nat} (x : α) (h : keysAbove b t) (hb : b < k) :
    keysAbove b (tput t k x) := by
  induction t with
  | nil => simp [tput, keysAbove, hb]
  | cons e t ih =>
    obtain ⟨a, y⟩ := e
    have ht : keysAbove b t := fun e he => h e (List.mem_cons_of_mem _ he)
    have ha : b < a := h _ (List.mem_cons_self ..)
    intro e he
    by_cases hk : a = k
    · simp only [tput, hk, if_true, List.mem_cons] at he
      rcases he with rfl | he
      · exact hb
      · exact ht e he
    · by_cases h2 : k < a
      · simp only [tput, hk, h2, if_true, if_false, List.mem_cons] at he
        rcases he with rfl | rfl | he
        · exact hb
        · exact ha
        · exact ht e he
      · simp only [tput, hk, h2, if_false, List.mem_cons] at he
        rcases he with rfl | he
        · exact ha
        · exact ih ht e he

theorem tdel_wf [DecidableEq α] {d : Nat → α} {t : Tab α} (k : Nat) (h : tabWf d t = true) : tabWf d (tdel t k) = true := by
  induction t with
  | nil => exact h
  | cons e t ih =>
    obtain ⟨a, x⟩ := e
    obtain ⟨h1, h2, h3⟩ := (tabWf_cons d a x t).1 h
    by_cases hk : a = k
    · simpa [tdel, hk] using ih h3
    · simp only [tdel, hk, if_false]
      exact (tabWf_cons d a x _).2 ⟨h1, tdel_keysAbove k h2, ih h3⟩

theorem tput_wf [DecidableEq α] {d : Nat → α} {t : Tab α} {k : Nat} {x : α} (h : tabWf d t = true) (hx : x ≠ d k) :
    tabWf d (tput t k x) = true := by
  induction t with
  | nil => simpa [tput, tabWf] using hx
  | cons e t ih =>
    obtain ⟨a, y⟩ := e
    obtain ⟨h1, h2, h3⟩ := (tabWf_cons d a y t).1 h
    by_cases hk : a = k
    · subst hk
      simp only [tput, if_true]
      exact (tabWf_cons d a x t).2 ⟨hx, h2, h3⟩
    · by_cases h4 : k < a
      · simp only [tput, hk, h4, if_true, if_false]
        refine (tabWf_cons d k x _).2 ⟨hx, ?_, h⟩
        intro e he
        rcases List.mem_cons.1 he with rfl | he
        · exact h4
        · exact Nat.lt_trans h4 (h2 e he)
      · simp only [tput, hk, h4, if_false]
        exact (tabWf_cons d a y _).2 ⟨h1, tput_keysAbove x h2 (by omega), ih h3⟩

/-- A write of the value of one key keeps the canonical form. -/
theorem tset_wf [DecidableEq α] {d : Nat → α} {t : Tab α} (k : Nat) (x : α) (h : tabWf d t = true) :
    tabWf d (tset (d k) t k x) = true := by
  unfold tset
  split
  · exact tdel_wf k h
  · next hx => exact tput_wf h hx

/-- Dropping entries keeps the canonical form. -/
theorem filter_wf [DecidableEq α] {d : Nat → α} {t : Tab α} (p : Nat × α → Bool) (h : tabWf d t = true) :
    tabWf d (t.filter p) = true := by
  induction t with
  | nil => exact h
  | cons e t ih =>
    obtain ⟨a, x⟩ := e
    obtain ⟨h1, h2, h3⟩ := (tabWf_cons d a x t).1 h
    by_cases hp : p (a, x) = true
    · rw [List.filter_cons_of_pos hp]
      exact (tabWf_cons d a x _).2 ⟨h1, fun e he => h2 e (List.mem_filter.1 he).1, ih h3⟩
    · rw [List.filter_cons_of_neg hp]
      exact ih h3

end Sys2Proof.Machine
end

