-- ==== Sys2Proof/Laws/Regs.lean ====
section
/-!
SUPPORT. The register file: a read after a write, of registers and of fields.
-/
namespace Sys2Proof.Machine

@[simp] theorem rget_rset_self (s : State) (a : Nat) (v : Word) : (s.rset a v).rget a = v := by
  simp [State.rget, State.rset]

theorem rget_rset_ne (s : State) {a b : Nat} (v : Word) (h : b ≠ a) : (s.rset a v).rget b = s.rget b := by
  simp only [State.rget, State.rset]
  exact tget_tset_ne _ _ _ _ h

theorem rget_fput_ne (s : State) {f : Fld} {b : Nat} (v : Nat) (h : b ≠ f.addr) : (s.fput f v).rget b = s.rget b :=
  rget_rset_ne s _ h

theorem rget_setFlag_ne (s : State) {f : Fld} {b : Nat} (v : Bool) (h : b ≠ f.addr) : (s.setFlag f v).rget b = s.rget b :=
  rget_rset_ne s _ h

theorem fget_rset_ne (s : State) {f : Fld} {a : Nat} (v : Word) (h : f.addr ≠ a) : (s.rset a v).fget f = s.fget f := by
  simp only [State.fget, rget_rset_ne s v h]

theorem fget_fput_ne (s : State) {f g : Fld} (v : Nat) (h : g.addr ≠ f.addr) : (s.fput f v).fget g = s.fget g :=
  fget_rset_ne s _ h

theorem fget_setFlag_ne (s : State) {f g : Fld} (v : Bool) (h : g.addr ≠ f.addr) : (s.setFlag f v).fget g = s.fget g :=
  fget_rset_ne s _ h

/-! ### Bits of numbers -/

theorem bitsAt_testBit (v lo w i : Nat) : (bitsAt v lo w).testBit i = (decide (i < w) && v.testBit (lo + i)) := by
  unfold bitsAt
  rw [Nat.testBit_mod_two_pow, ← Nat.shiftRight_eq_div_pow, Nat.testBit_shiftRight]

theorem bitsAt_lt (v lo w : Nat) : bitsAt v lo w < 2 ^ w := Nat.mod_lt _ (Nat.two_pow_pos w)

theorem mul_pow_add (q lo w : Nat) : q * 2 ^ (lo + w) = 2 ^ lo * (q * 2 ^ w) := by
  rw [Nat.pow_add]; ac_rfl

/-- A number in its bits below, in and above a field. -/
theorem bits_split (v lo w : Nat) :
    v = v % 2 ^ lo + bitsAt v lo w * 2 ^ lo + v / 2 ^ (lo + w) * 2 ^ (lo + w) := by
  have h1 := Nat.div_add_mod v (2 ^ lo)
  have h2 := Nat.div_add_mod (v / 2 ^ lo) (2 ^ w)
  have h3 : v / 2 ^ lo / 2 ^ w = v / 2 ^ (lo + w) := by rw [Nat.div_div_eq_div_mul, Nat.pow_add]
  unfold bitsAt
  rw [h3] at h2
  calc v = 2 ^ lo * (v / 2 ^ lo) + v % 2 ^ lo := h1.symm
    _ = 2 ^ lo * (2 ^ w * (v / 2 ^ (lo + w)) + v / 2 ^ lo % 2 ^ w) + v % 2 ^ lo := by rw [h2]
    _ = _ := by
      rw [mul_pow_add, Nat.mul_add, Nat.mul_comm (2 ^ w), Nat.mul_comm (v / 2 ^ lo % 2 ^ w)]
      omega

theorem bitsPut_eq (v lo w x : Nat) :
    bitsPut v lo w x = v % 2 ^ lo + x % 2 ^ w * 2 ^ lo + v / 2 ^ (lo + w) * 2 ^ (lo + w) := by
  have h := bits_split v lo w
  unfold bitsPut
  omega

theorem field_lt (v lo w x : Nat) : v % 2 ^ lo + x % 2 ^ w * 2 ^ lo < 2 ^ (lo + w) := by
  have h1 : v % 2 ^ lo < 2 ^ lo := Nat.mod_lt _ (Nat.two_pow_pos lo)
  have h2 : x % 2 ^ w + 1 ≤ 2 ^ w := Nat.mod_lt _ (Nat.two_pow_pos w)
  have h3 : (x % 2 ^ w + 1) * 2 ^ lo ≤ 2 ^ w * 2 ^ lo := Nat.mul_le_mul_right _ h2
  have h4 : 2 ^ w * 2 ^ lo = 2 ^ (lo + w) := by rw [Nat.pow_add, Nat.mul_comm]
  rw [Nat.add_mul, Nat.one_mul, h4] at h3
  omega

/-- The bits of a field after they are replaced. -/
theorem bitsAt_bitsPut (v lo w x : Nat) : bitsAt (bitsPut v lo w x) lo w = x % 2 ^ w := by
  have h := field_lt v lo w x
  rw [bitsPut_eq]
  unfold bitsAt
  have h1 : v % 2 ^ lo < 2 ^ lo := Nat.mod_lt _ (Nat.two_pow_pos lo)
  rw [mul_pow_add, Nat.mul_comm (x % 2 ^ w), Nat.add_assoc, ← Nat.mul_add, Nat.add_mul_div_left _ _ (Nat.two_pow_pos lo),
    Nat.div_eq_of_lt h1, Nat.zero_add, Nat.add_mul_mod_self_right, Nat.mod_mod]

theorem bitsPut_lt {v lo w x n : Nat} (hv : v < 2 ^ n) (hw : lo + w ≤ n) : bitsPut v lo w x < 2 ^ n := by
  have h := field_lt v lo w x
  rw [bitsPut_eq]
  obtain ⟨m, rfl⟩ := Nat.le.dest hw
  have h1 : v / 2 ^ (lo + w) < 2 ^ m := by
    apply Nat.div_lt_of_lt_mul
    rwa [← Nat.pow_add]
  have h2 : (v / 2 ^ (lo + w) + 1) * 2 ^ (lo + w) ≤ 2 ^ m * 2 ^ (lo + w) := Nat.mul_le_mul_right _ h1
  have h3 : 2 ^ m * 2 ^ (lo + w) = 2 ^ (lo + w + m) := by rw [Nat.pow_add 2 (lo + w) m, Nat.mul_comm]
  rw [Nat.add_mul, Nat.one_mul, h3] at h2
  omega

/-- A bit outside a field after the field is replaced. -/
theorem bitsPut_testBit {v lo w x i : Nat} (h : i < lo ∨ lo + w ≤ i) : (bitsPut v lo w x).testBit i = v.testBit i := by
  have hlt := field_lt v lo w x
  rw [bitsPut_eq]
  rcases h with h | h
  · have e : v % 2 ^ lo + x % 2 ^ w * 2 ^ lo + v / 2 ^ (lo + w) * 2 ^ (lo + w) =
        v % 2 ^ lo + 2 ^ lo * (x % 2 ^ w + v / 2 ^ (lo + w) * 2 ^ w) := by
      rw [Nat.mul_add, mul_pow_add, Nat.mul_comm (x % 2 ^ w)]
      omega
    rw [e, Nat.add_comm, Nat.testBit_two_pow_mul_add _ (Nat.mod_lt _ (Nat.two_pow_pos lo))]
    simp [h, Nat.testBit_mod_two_pow]
  · obtain ⟨m, rfl⟩ := Nat.le.dest h
    rw [Nat.mul_comm (v / 2 ^ (lo + w)), Nat.add_comm, Nat.testBit_two_pow_mul_add _ hlt]
    have : ¬ lo + w + m < lo + w := by omega
    simp only [this, if_false]
    rw [← Nat.shiftRight_eq_div_pow, Nat.testBit_shiftRight]
    congr 1
    omega

theorem bitsAt_bitsPut_ne {v lo w x lo' w' : Nat} (h : lo' + w' ≤ lo ∨ lo + w ≤ lo') :
    bitsAt (bitsPut v lo w x) lo' w' = bitsAt v lo' w' := by
  apply Nat.eq_of_testBit_eq
  intro i
  rw [bitsAt_testBit, bitsAt_testBit]
  by_cases hi : i < w'
  · rw [bitsPut_testBit (by omega)]
  · simp [hi]

/-! ### Fields -/

/-- A field reads what was put into it. -/
theorem fget_fput_self (s : State) (f : Fld) (v : Nat) (h : f.lo + f.width ≤ 32) : (s.fput f v).fget f = v % 2 ^ f.width := by
  simp only [State.fget, State.fput, rget_rset_self, BitVec.toNat_ofNat]
  rw [Nat.mod_eq_of_lt (bitsPut_lt (s.rget f.addr).isLt h)]
  exact bitsAt_bitsPut _ _ _ _

/-- A field of the same register, apart from the one that is put, reads as before. -/
theorem fget_fput_apart (s : State) (f g : Fld) (v : Nat) (h : f.lo + f.width ≤ 32) (ha : g.addr = f.addr)
    (hd : g.lo + g.width ≤ f.lo ∨ f.lo + f.width ≤ g.lo) : (s.fput f v).fget g = s.fget g := by
  simp only [State.fget, State.fput, ha, rget_rset_self, BitVec.toNat_ofNat]
  rw [Nat.mod_eq_of_lt (bitsPut_lt (s.rget f.addr).isLt h)]
  exact bitsAt_bitsPut_ne hd

theorem flag_setFlag_self (s : State) (f : Fld) (b : Bool) (h : f.lo + f.width ≤ 32) (hw : 0 < f.width) :
    (s.setFlag f b).flag f = b := by
  have h1 : 1 % 2 ^ f.width = 1 := Nat.mod_eq_of_lt (Nat.one_lt_two_pow (by omega))
  simp only [State.flag, State.setFlag, fget_fput_self _ _ _ h]
  cases b <;> simp [h1]

end Sys2Proof.Machine
end

