-- ==== Sys2Proof/Laws/State.lean ====
section
/-!
SUPPORT. One lemma per field of the state per update, so that no proof unfolds a record update; and a read after a write of each
table.
-/
namespace Sys2Proof.Machine

/-! ### A read after a write -/

@[simp] theorem strand_setStrand_self (s : State) (st : Nat) (x : Strand) : (s.setStrand st x).strand st = x := by
  simp [State.strand, State.setStrand]

theorem strand_setStrand_ne (s : State) {st j : Nat} (x : Strand) (h : j ≠ st) :
    (s.setStrand st x).strand j = s.strand j := tget_tset_ne _ _ _ _ h

@[simp] theorem strand_modStrand_self (s : State) (st : Nat) (f : Strand → Strand) :
    (s.modStrand st f).strand st = f (s.strand st) := strand_setStrand_self _ _ _

theorem strand_modStrand_ne (s : State) {st j : Nat} (f : Strand → Strand) (h : j ≠ st) :
    (s.modStrand st f).strand j = s.strand j := tget_tset_ne _ _ _ _ h

@[simp] theorem cls_setCls_self (s : State) (k : Nat) (x : ClassSt) : (s.setCls k x).cls k = x := by
  simp [State.cls, State.setCls]

theorem cls_setCls_ne (s : State) {k j : Nat} (x : ClassSt) (h : j ≠ k) : (s.setCls k x).cls j = s.cls j :=
  tget_tset_ne _ _ _ _ h

@[simp] theorem cls_modCls_self (s : State) (k : Nat) (f : ClassSt → ClassSt) : (s.modCls k f).cls k = f (s.cls k) :=
  cls_setCls_self _ _ _

theorem cls_modCls_ne (s : State) {k j : Nat} (f : ClassSt → ClassSt) (h : j ≠ k) : (s.modCls k f).cls j = s.cls j :=
  tget_tset_ne _ _ _ _ h

@[simp] theorem pipe_setPipe_self (s : State) (p : Nat) (x : Pipe) : (s.setPipe p x).pipe p = x := by
  simp [State.pipe, State.setPipe]

@[simp] theorem engine_setEngine_self (s : State) (k : Nat) (x : Engine) : (s.setEngine k x).engine k = x := by
  simp [State.engine, State.setEngine]

@[simp] theorem uc_setUc_self (s : State) (n : Nat) (x : Uc) : (s.setUc n x).uc n = x := by
  simp [State.uc, State.setUc]

@[simp] theorem dio_setDio_self (s : State) (n : Nat) (x : Dio) : (s.setDio n x).dio n = x := by
  simp [State.dio, State.setDio]

@[simp] theorem mget_mset_self (s : State) (key : Nat) (b : Byte) : (s.mset key b).mget key = b := by
  simp [State.mget, State.mset]

theorem mget_mset_ne (s : State) {key j : Nat} (b : Byte) (h : j ≠ key) : (s.mset key b).mget j = s.mget j :=
  tget_tset_ne _ _ _ _ h

@[simp] theorem swGet_swSet_self (s : State) (i : Nat) (v : BitVec 16) : (s.swSet i v).swGet i = v := by
  simp [State.swGet, State.swSet]

theorem swGet_swSet_ne (s : State) {i j : Nat} (v : BitVec 16) (h : j ≠ i) : (s.swSet i v).swGet j = s.swGet j :=
  tget_tset_ne _ _ _ _ h

/-! ### `rset` -/

@[simp] theorem rset_pending (s : State) (a : Nat) (v : Word) : (s.rset a v).pending = s.pending := rfl
@[simp] theorem rset_fab (s : State) (a : Nat) (v : Word) : (s.rset a v).fab = s.fab := rfl
@[simp] theorem rset_tb (s : State) (a : Nat) (v : Word) : (s.rset a v).tb = s.tb := rfl
@[simp] theorem rset_tbPhase (s : State) (a : Nat) (v : Word) : (s.rset a v).tbPhase = s.tbPhase := rfl
@[simp] theorem rset_free (s : State) (a : Nat) (v : Word) : (s.rset a v).free = s.free := rfl
@[simp] theorem rset_mem (s : State) (a : Nat) (v : Word) : (s.rset a v).mem = s.mem := rfl
@[simp] theorem rset_integ (s : State) (a : Nat) (v : Word) : (s.rset a v).integ = s.integ := rfl
@[simp] theorem rset_img (s : State) (a : Nat) (v : Word) : (s.rset a v).img = s.img := rfl
@[simp] theorem rset_sw (s : State) (a : Nat) (v : Word) : (s.rset a v).sw = s.sw := rfl
@[simp] theorem rset_heddle (s : State) (a : Nat) (v : Word) : (s.rset a v).heddle = s.heddle := rfl
@[simp] theorem rset_entries (s : State) (a : Nat) (v : Word) : (s.rset a v).entries = s.entries := rfl
@[simp] theorem rset_forces (s : State) (a : Nat) (v : Word) : (s.rset a v).forces = s.forces := rfl
@[simp] theorem rset_forceReq (s : State) (a : Nat) (v : Word) : (s.rset a v).forceReq = s.forceReq := rfl
@[simp] theorem rset_ctl (s : State) (a : Nat) (v : Word) : (s.rset a v).ctl = s.ctl := rfl
@[simp] theorem rset_strands (s : State) (a : Nat) (v : Word) : (s.rset a v).strands = s.strands := rfl
@[simp] theorem rset_scfg (s : State) (a : Nat) (v : Word) : (s.rset a v).scfg = s.scfg := rfl
@[simp] theorem rset_inflight (s : State) (a : Nat) (v : Word) : (s.rset a v).inflight = s.inflight := rfl
@[simp] theorem rset_fabWait (s : State) (a : Nat) (v : Word) : (s.rset a v).fabWait = s.fabWait := rfl
@[simp] theorem rset_fabServed (s : State) (a : Nat) (v : Word) : (s.rset a v).fabServed = s.fabServed := rfl
@[simp] theorem rset_remoteResv (s : State) (a : Nat) (v : Word) : (s.rset a v).remoteResv = s.remoteResv := rfl
@[simp] theorem rset_classes (s : State) (a : Nat) (v : Word) : (s.rset a v).classes = s.classes := rfl
@[simp] theorem rset_pipes (s : State) (a : Nat) (v : Word) : (s.rset a v).pipes = s.pipes := rfl
@[simp] theorem rset_engines (s : State) (a : Nat) (v : Word) : (s.rset a v).engines = s.engines := rfl
@[simp] theorem rset_ucs (s : State) (a : Nat) (v : Word) : (s.rset a v).ucs = s.ucs := rfl
@[simp] theorem rset_dios (s : State) (a : Nat) (v : Word) : (s.rset a v).dios = s.dios := rfl
@[simp] theorem rset_cts (s : State) (a : Nat) (v : Word) : (s.rset a v).cts = s.cts := rfl
@[simp] theorem rset_seFailedKeep (s : State) (a : Nat) (v : Word) : (s.rset a v).seFailedKeep = s.seFailedKeep := rfl
@[simp] theorem rset_streamCfg (s : State) (a : Nat) (v : Word) : (s.rset a v).streamCfg = s.streamCfg := rfl
@[simp] theorem rset_pipeSrc (s : State) (a : Nat) (v : Word) : (s.rset a v).pipeSrc = s.pipeSrc := rfl
@[simp] theorem rset_config (s : State) (a : Nat) (v : Word) : (s.rset a v).config = s.config := rfl
@[simp] theorem rset_journal (s : State) (a : Nat) (v : Word) : (s.rset a v).journal = s.journal := rfl
@[simp] theorem rset_edit (s : State) (a : Nat) (v : Word) : (s.rset a v).edit = s.edit := rfl
@[simp] theorem rset_red (s : State) (a : Nat) (v : Word) : (s.rset a v).red = s.red := rfl
@[simp] theorem rset_hedge (s : State) (a : Nat) (v : Word) : (s.rset a v).hedge = s.hedge := rfl
@[simp] theorem rset_upd (s : State) (a : Nat) (v : Word) : (s.rset a v).upd = s.upd := rfl
@[simp] theorem rset_eth (s : State) (a : Nat) (v : Word) : (s.rset a v).eth = s.eth := rfl
@[simp] theorem rset_mbs (s : State) (a : Nat) (v : Word) : (s.rset a v).mbs = s.mbs := rfl
@[simp] theorem rset_canPorts (s : State) (a : Nat) (v : Word) : (s.rset a v).canPorts = s.canPorts := rfl
@[simp] theorem rset_wdg (s : State) (a : Nat) (v : Word) : (s.rset a v).wdg = s.wdg := rfl
@[simp] theorem rset_store (s : State) (a : Nat) (v : Word) : (s.rset a v).store = s.store := rfl
@[simp] theorem rset_qs (s : State) (a : Nat) (v : Word) : (s.rset a v).qs = s.qs := rfl
@[simp] theorem rset_recorder (s : State) (a : Nat) (v : Word) : (s.rset a v).recorder = s.recorder := rfl
@[simp] theorem rset_retMap (s : State) (a : Nat) (v : Word) : (s.rset a v).retMap = s.retMap := rfl
@[simp] theorem rset_qsBaseRow (s : State) (a : Nat) (v : Word) : (s.rset a v).qsBaseRow = s.qsBaseRow := rfl
@[simp] theorem rset_keep (s : State) (a : Nat) (v : Word) : (s.rset a v).keep = s.keep := rfl
@[simp] theorem rset_int (s : State) (a : Nat) (v : Word) : (s.rset a v).int = s.int := rfl
@[simp] theorem rset_rtc (s : State) (a : Nat) (v : Word) : (s.rset a v).rtc = s.rtc := rfl
@[simp] theorem rset_supply (s : State) (a : Nat) (v : Word) : (s.rset a v).supply = s.supply := rfl
@[simp] theorem rset_evq (s : State) (a : Nat) (v : Word) : (s.rset a v).evq = s.evq := rfl
@[simp] theorem rset_evOut (s : State) (a : Nat) (v : Word) : (s.rset a v).evOut = s.evOut := rfl
@[simp] theorem rset_obs (s : State) (a : Nat) (v : Word) : (s.rset a v).obs = s.obs := rfl
@[simp] theorem rset_trace (s : State) (a : Nat) (v : Word) : (s.rset a v).trace = s.trace := rfl
@[simp] theorem rset_pmcSnap (s : State) (a : Nat) (v : Word) : (s.rset a v).pmcSnap = s.pmcSnap := rfl
@[simp] theorem rset_tx (s : State) (a : Nat) (v : Word) : (s.rset a v).tx = s.tx := rfl
@[simp] theorem rset_hiLatch (s : State) (a : Nat) (v : Word) : (s.rset a v).hiLatch = s.hiLatch := rfl
@[simp] theorem rset_readback (s : State) (a : Nat) (v : Word) : (s.rset a v).readback = s.readback := rfl
@[simp] theorem rset_get_strand (s : State) (a : Nat) (v : Word) (j : Nat) : (s.rset a v).strand j = s.strand j := rfl
@[simp] theorem rset_get_cfg (s : State) (a : Nat) (v : Word) (j : Nat) : (s.rset a v).cfg j = s.cfg j := rfl
@[simp] theorem rset_get_cls (s : State) (a : Nat) (v : Word) (j : Nat) : (s.rset a v).cls j = s.cls j := rfl
@[simp] theorem rset_get_pipe (s : State) (a : Nat) (v : Word) (j : Nat) : (s.rset a v).pipe j = s.pipe j := rfl
@[simp] theorem rset_get_engine (s : State) (a : Nat) (v : Word) (j : Nat) : (s.rset a v).engine j = s.engine j := rfl
@[simp] theorem rset_get_uc (s : State) (a : Nat) (v : Word) (j : Nat) : (s.rset a v).uc j = s.uc j := rfl
@[simp] theorem rset_get_dio (s : State) (a : Nat) (v : Word) (j : Nat) : (s.rset a v).dio j = s.dio j := rfl
@[simp] theorem rset_get_mget (s : State) (a : Nat) (v : Word) (j : Nat) : (s.rset a v).mget j = s.mget j := rfl
@[simp] theorem rset_get_swGet (s : State) (a : Nat) (v : Word) (j : Nat) : (s.rset a v).swGet j = s.swGet j := rfl

/-! ### `fput` -/

@[simp] theorem fput_pending (s : State) (f : Fld) (v : Nat) : (s.fput f v).pending = s.pending := rfl
@[simp] theorem fput_fab (s : State) (f : Fld) (v : Nat) : (s.fput f v).fab = s.fab := rfl
@[simp] theorem fput_tb (s : State) (f : Fld) (v : Nat) : (s.fput f v).tb = s.tb := rfl
@[simp] theorem fput_tbPhase (s : State) (f : Fld) (v : Nat) : (s.fput f v).tbPhase = s.tbPhase := rfl
@[simp] theorem fput_free (s : State) (f : Fld) (v : Nat) : (s.fput f v).free = s.free := rfl
@[simp] theorem fput_mem (s : State) (f : Fld) (v : Nat) : (s.fput f v).mem = s.mem := rfl
@[simp] theorem fput_integ (s : State) (f : Fld) (v : Nat) : (s.fput f v).integ = s.integ := rfl
@[simp] theorem fput_img (s : State) (f : Fld) (v : Nat) : (s.fput f v).img = s.img := rfl
@[simp] theorem fput_sw (s : State) (f : Fld) (v : Nat) : (s.fput f v).sw = s.sw := rfl
@[simp] theorem fput_heddle (s : State) (f : Fld) (v : Nat) : (s.fput f v).heddle = s.heddle := rfl
@[simp] theorem fput_entries (s : State) (f : Fld) (v : Nat) : (s.fput f v).entries = s.entries := rfl
@[simp] theorem fput_forces (s : State) (f : Fld) (v : Nat) : (s.fput f v).forces = s.forces := rfl
@[simp] theorem fput_forceReq (s : State) (f : Fld) (v : Nat) : (s.fput f v).forceReq = s.forceReq := rfl
@[simp] theorem fput_ctl (s : State) (f : Fld) (v : Nat) : (s.fput f v).ctl = s.ctl := rfl
@[simp] theorem fput_strands (s : State) (f : Fld) (v : Nat) : (s.fput f v).strands = s.strands := rfl
@[simp] theorem fput_scfg (s : State) (f : Fld) (v : Nat) : (s.fput f v).scfg = s.scfg := rfl
@[simp] theorem fput_inflight (s : State) (f : Fld) (v : Nat) : (s.fput f v).inflight = s.inflight := rfl
@[simp] theorem fput_fabWait (s : State) (f : Fld) (v : Nat) : (s.fput f v).fabWait = s.fabWait := rfl
@[simp] theorem fput_fabServed (s : State) (f : Fld) (v : Nat) : (s.fput f v).fabServed = s.fabServed := rfl
@[simp] theorem fput_remoteResv (s : State) (f : Fld) (v : Nat) : (s.fput f v).remoteResv = s.remoteResv := rfl
@[simp] theorem fput_classes (s : State) (f : Fld) (v : Nat) : (s.fput f v).classes = s.classes := rfl
@[simp] theorem fput_pipes (s : State) (f : Fld) (v : Nat) : (s.fput f v).pipes = s.pipes := rfl
@[simp] theorem fput_engines (s : State) (f : Fld) (v : Nat) : (s.fput f v).engines = s.engines := rfl
@[simp] theorem fput_ucs (s : State) (f : Fld) (v : Nat) : (s.fput f v).ucs = s.ucs := rfl
@[simp] theorem fput_dios (s : State) (f : Fld) (v : Nat) : (s.fput f v).dios = s.dios := rfl
@[simp] theorem fput_cts (s : State) (f : Fld) (v : Nat) : (s.fput f v).cts = s.cts := rfl
@[simp] theorem fput_seFailedKeep (s : State) (f : Fld) (v : Nat) : (s.fput f v).seFailedKeep = s.seFailedKeep := rfl
@[simp] theorem fput_streamCfg (s : State) (f : Fld) (v : Nat) : (s.fput f v).streamCfg = s.streamCfg := rfl
@[simp] theorem fput_pipeSrc (s : State) (f : Fld) (v : Nat) : (s.fput f v).pipeSrc = s.pipeSrc := rfl
@[simp] theorem fput_config (s : State) (f : Fld) (v : Nat) : (s.fput f v).config = s.config := rfl
@[simp] theorem fput_journal (s : State) (f : Fld) (v : Nat) : (s.fput f v).journal = s.journal := rfl
@[simp] theorem fput_edit (s : State) (f : Fld) (v : Nat) : (s.fput f v).edit = s.edit := rfl
@[simp] theorem fput_red (s : State) (f : Fld) (v : Nat) : (s.fput f v).red = s.red := rfl
@[simp] theorem fput_hedge (s : State) (f : Fld) (v : Nat) : (s.fput f v).hedge = s.hedge := rfl
@[simp] theorem fput_upd (s : State) (f : Fld) (v : Nat) : (s.fput f v).upd = s.upd := rfl
@[simp] theorem fput_eth (s : State) (f : Fld) (v : Nat) : (s.fput f v).eth = s.eth := rfl
@[simp] theorem fput_mbs (s : State) (f : Fld) (v : Nat) : (s.fput f v).mbs = s.mbs := rfl
@[simp] theorem fput_canPorts (s : State) (f : Fld) (v : Nat) : (s.fput f v).canPorts = s.canPorts := rfl
@[simp] theorem fput_wdg (s : State) (f : Fld) (v : Nat) : (s.fput f v).wdg = s.wdg := rfl
@[simp] theorem fput_store (s : State) (f : Fld) (v : Nat) : (s.fput f v).store = s.store := rfl
@[simp] theorem fput_qs (s : State) (f : Fld) (v : Nat) : (s.fput f v).qs = s.qs := rfl
@[simp] theorem fput_recorder (s : State) (f : Fld) (v : Nat) : (s.fput f v).recorder = s.recorder := rfl
@[simp] theorem fput_retMap (s : State) (f : Fld) (v : Nat) : (s.fput f v).retMap = s.retMap := rfl
@[simp] theorem fput_qsBaseRow (s : State) (f : Fld) (v : Nat) : (s.fput f v).qsBaseRow = s.qsBaseRow := rfl
@[simp] theorem fput_keep (s : State) (f : Fld) (v : Nat) : (s.fput f v).keep = s.keep := rfl
@[simp] theorem fput_int (s : State) (f : Fld) (v : Nat) : (s.fput f v).int = s.int := rfl
@[simp] theorem fput_rtc (s : State) (f : Fld) (v : Nat) : (s.fput f v).rtc = s.rtc := rfl
@[simp] theorem fput_supply (s : State) (f : Fld) (v : Nat) : (s.fput f v).supply = s.supply := rfl
@[simp] theorem fput_evq (s : State) (f : Fld) (v : Nat) : (s.fput f v).evq = s.evq := rfl
@[simp] theorem fput_evOut (s : State) (f : Fld) (v : Nat) : (s.fput f v).evOut = s.evOut := rfl
@[simp] theorem fput_obs (s : State) (f : Fld) (v : Nat) : (s.fput f v).obs = s.obs := rfl
@[simp] theorem fput_trace (s : State) (f : Fld) (v : Nat) : (s.fput f v).trace = s.trace := rfl
@[simp] theorem fput_pmcSnap (s : State) (f : Fld) (v : Nat) : (s.fput f v).pmcSnap = s.pmcSnap := rfl
@[simp] theorem fput_tx (s : State) (f : Fld) (v : Nat) : (s.fput f v).tx = s.tx := rfl
@[simp] theorem fput_hiLatch (s : State) (f : Fld) (v : Nat) : (s.fput f v).hiLatch = s.hiLatch := rfl
@[simp] theorem fput_readback (s : State) (f : Fld) (v : Nat) : (s.fput f v).readback = s.readback := rfl
@[simp] theorem fput_get_strand (s : State) (f : Fld) (v : Nat) (j : Nat) : (s.fput f v).strand j = s.strand j := rfl
@[simp] theorem fput_get_cfg (s : State) (f : Fld) (v : Nat) (j : Nat) : (s.fput f v).cfg j = s.cfg j := rfl
@[simp] theorem fput_get_cls (s : State) (f : Fld) (v : Nat) (j : Nat) : (s.fput f v).cls j = s.cls j := rfl
@[simp] theorem fput_get_pipe (s : State) (f : Fld) (v : Nat) (j : Nat) : (s.fput f v).pipe j = s.pipe j := rfl
@[simp] theorem fput_get_engine (s : State) (f : Fld) (v : Nat) (j : Nat) : (s.fput f v).engine j = s.engine j := rfl
@[simp] theorem fput_get_uc (s : State) (f : Fld) (v : Nat) (j : Nat) : (s.fput f v).uc j = s.uc j := rfl
@[simp] theorem fput_get_dio (s : State) (f : Fld) (v : Nat) (j : Nat) : (s.fput f v).dio j = s.dio j := rfl
@[simp] theorem fput_get_mget (s : State) (f : Fld) (v : Nat) (j : Nat) : (s.fput f v).mget j = s.mget j := rfl
@[simp] theorem fput_get_swGet (s : State) (f : Fld) (v : Nat) (j : Nat) : (s.fput f v).swGet j = s.swGet j := rfl

/-! ### `setFlag` -/

@[simp] theorem setFlag_pending (s : State) (f : Fld) (b : Bool) : (s.setFlag f b).pending = s.pending := rfl
@[simp] theorem setFlag_fab (s : State) (f : Fld) (b : Bool) : (s.setFlag f b).fab = s.fab := rfl
@[simp] theorem setFlag_tb (s : State) (f : Fld) (b : Bool) : (s.setFlag f b).tb = s.tb := rfl
@[simp] theorem setFlag_tbPhase (s : State) (f : Fld) (b : Bool) : (s.setFlag f b).tbPhase = s.tbPhase := rfl
@[simp] theorem setFlag_free (s : State) (f : Fld) (b : Bool) : (s.setFlag f b).free = s.free := rfl
@[simp] theorem setFlag_mem (s : State) (f : Fld) (b : Bool) : (s.setFlag f b).mem = s.mem := rfl
@[simp] theorem setFlag_integ (s : State) (f : Fld) (b : Bool) : (s.setFlag f b).integ = s.integ := rfl
@[simp] theorem setFlag_img (s : State) (f : Fld) (b : Bool) : (s.setFlag f b).img = s.img := rfl
@[simp] theorem setFlag_sw (s : State) (f : Fld) (b : Bool) : (s.setFlag f b).sw = s.sw := rfl
@[simp] theorem setFlag_heddle (s : State) (f : Fld) (b : Bool) : (s.setFlag f b).heddle = s.heddle := rfl
@[simp] theorem setFlag_entries (s : State) (f : Fld) (b : Bool) : (s.setFlag f b).entries = s.entries := rfl
@[simp] theorem setFlag_forces (s : State) (f : Fld) (b : Bool) : (s.setFlag f b).forces = s.forces := rfl
@[simp] theorem setFlag_forceReq (s : State) (f : Fld) (b : Bool) : (s.setFlag f b).forceReq = s.forceReq := rfl
@[simp] theorem setFlag_ctl (s : State) (f : Fld) (b : Bool) : (s.setFlag f b).ctl = s.ctl := rfl
@[simp] theorem setFlag_strands (s : State) (f : Fld) (b : Bool) : (s.setFlag f b).strands = s.strands := rfl
@[simp] theorem setFlag_scfg (s : State) (f : Fld) (b : Bool) : (s.setFlag f b).scfg = s.scfg := rfl
@[simp] theorem setFlag_inflight (s : State) (f : Fld) (b : Bool) : (s.setFlag f b).inflight = s.inflight := rfl
@[simp] theorem setFlag_fabWait (s : State) (f : Fld) (b : Bool) : (s.setFlag f b).fabWait = s.fabWait := rfl
@[simp] theorem setFlag_fabServed (s : State) (f : Fld) (b : Bool) : (s.setFlag f b).fabServed = s.fabServed := rfl
@[simp] theorem setFlag_remoteResv (s : State) (f : Fld) (b : Bool) : (s.setFlag f b).remoteResv = s.remoteResv := rfl
@[simp] theorem setFlag_classes (s : State) (f : Fld) (b : Bool) : (s.setFlag f b).classes = s.classes := rfl
@[simp] theorem setFlag_pipes (s : State) (f : Fld) (b : Bool) : (s.setFlag f b).pipes = s.pipes := rfl
@[simp] theorem setFlag_engines (s : State) (f : Fld) (b : Bool) : (s.setFlag f b).engines = s.engines := rfl
@[simp] theorem setFlag_ucs (s : State) (f : Fld) (b : Bool) : (s.setFlag f b).ucs = s.ucs := rfl
@[simp] theorem setFlag_dios (s : State) (f : Fld) (b : Bool) : (s.setFlag f b).dios = s.dios := rfl
@[simp] theorem setFlag_cts (s : State) (f : Fld) (b : Bool) : (s.setFlag f b).cts = s.cts := rfl
@[simp] theorem setFlag_seFailedKeep (s : State) (f : Fld) (b : Bool) : (s.setFlag f b).seFailedKeep = s.seFailedKeep := rfl
@[simp] theorem setFlag_streamCfg (s : State) (f : Fld) (b : Bool) : (s.setFlag f b).streamCfg = s.streamCfg := rfl
@[simp] theorem setFlag_pipeSrc (s : State) (f : Fld) (b : Bool) : (s.setFlag f b).pipeSrc = s.pipeSrc := rfl
@[simp] theorem setFlag_config (s : State) (f : Fld) (b : Bool) : (s.setFlag f b).config = s.config := rfl
@[simp] theorem setFlag_journal (s : State) (f : Fld) (b : Bool) : (s.setFlag f b).journal = s.journal := rfl
@[simp] theorem setFlag_edit (s : State) (f : Fld) (b : Bool) : (s.setFlag f b).edit = s.edit := rfl
@[simp] theorem setFlag_red (s : State) (f : Fld) (b : Bool) : (s.setFlag f b).red = s.red := rfl
@[simp] theorem setFlag_hedge (s : State) (f : Fld) (b : Bool) : (s.setFlag f b).hedge = s.hedge := rfl
@[simp] theorem setFlag_upd (s : State) (f : Fld) (b : Bool) : (s.setFlag f b).upd = s.upd := rfl
@[simp] theorem setFlag_eth (s : State) (f : Fld) (b : Bool) : (s.setFlag f b).eth = s.eth := rfl
@[simp] theorem setFlag_mbs (s : State) (f : Fld) (b : Bool) : (s.setFlag f b).mbs = s.mbs := rfl
@[simp] theorem setFlag_canPorts (s : State) (f : Fld) (b : Bool) : (s.setFlag f b).canPorts = s.canPorts := rfl
@[simp] theorem setFlag_wdg (s : State) (f : Fld) (b : Bool) : (s.setFlag f b).wdg = s.wdg := rfl
@[simp] theorem setFlag_store (s : State) (f : Fld) (b : Bool) : (s.setFlag f b).store = s.store := rfl
@[simp] theorem setFlag_qs (s : State) (f : Fld) (b : Bool) : (s.setFlag f b).qs = s.qs := rfl
@[simp] theorem setFlag_recorder (s : State) (f : Fld) (b : Bool) : (s.setFlag f b).recorder = s.recorder := rfl
@[simp] theorem setFlag_retMap (s : State) (f : Fld) (b : Bool) : (s.setFlag f b).retMap = s.retMap := rfl
@[simp] theorem setFlag_qsBaseRow (s : State) (f : Fld) (b : Bool) : (s.setFlag f b).qsBaseRow = s.qsBaseRow := rfl
@[simp] theorem setFlag_keep (s : State) (f : Fld) (b : Bool) : (s.setFlag f b).keep = s.keep := rfl
@[simp] theorem setFlag_int (s : State) (f : Fld) (b : Bool) : (s.setFlag f b).int = s.int := rfl
@[simp] theorem setFlag_rtc (s : State) (f : Fld) (b : Bool) : (s.setFlag f b).rtc = s.rtc := rfl
@[simp] theorem setFlag_supply (s : State) (f : Fld) (b : Bool) : (s.setFlag f b).supply = s.supply := rfl
@[simp] theorem setFlag_evq (s : State) (f : Fld) (b : Bool) : (s.setFlag f b).evq = s.evq := rfl
@[simp] theorem setFlag_evOut (s : State) (f : Fld) (b : Bool) : (s.setFlag f b).evOut = s.evOut := rfl
@[simp] theorem setFlag_obs (s : State) (f : Fld) (b : Bool) : (s.setFlag f b).obs = s.obs := rfl
@[simp] theorem setFlag_trace (s : State) (f : Fld) (b : Bool) : (s.setFlag f b).trace = s.trace := rfl
@[simp] theorem setFlag_pmcSnap (s : State) (f : Fld) (b : Bool) : (s.setFlag f b).pmcSnap = s.pmcSnap := rfl
@[simp] theorem setFlag_tx (s : State) (f : Fld) (b : Bool) : (s.setFlag f b).tx = s.tx := rfl
@[simp] theorem setFlag_hiLatch (s : State) (f : Fld) (b : Bool) : (s.setFlag f b).hiLatch = s.hiLatch := rfl
@[simp] theorem setFlag_readback (s : State) (f : Fld) (b : Bool) : (s.setFlag f b).readback = s.readback := rfl
@[simp] theorem setFlag_get_strand (s : State) (f : Fld) (b : Bool) (j : Nat) : (s.setFlag f b).strand j = s.strand j := rfl
@[simp] theorem setFlag_get_cfg (s : State) (f : Fld) (b : Bool) (j : Nat) : (s.setFlag f b).cfg j = s.cfg j := rfl
@[simp] theorem setFlag_get_cls (s : State) (f : Fld) (b : Bool) (j : Nat) : (s.setFlag f b).cls j = s.cls j := rfl
@[simp] theorem setFlag_get_pipe (s : State) (f : Fld) (b : Bool) (j : Nat) : (s.setFlag f b).pipe j = s.pipe j := rfl
@[simp] theorem setFlag_get_engine (s : State) (f : Fld) (b : Bool) (j : Nat) : (s.setFlag f b).engine j = s.engine j := rfl
@[simp] theorem setFlag_get_uc (s : State) (f : Fld) (b : Bool) (j : Nat) : (s.setFlag f b).uc j = s.uc j := rfl
@[simp] theorem setFlag_get_dio (s : State) (f : Fld) (b : Bool) (j : Nat) : (s.setFlag f b).dio j = s.dio j := rfl
@[simp] theorem setFlag_get_mget (s : State) (f : Fld) (b : Bool) (j : Nat) : (s.setFlag f b).mget j = s.mget j := rfl
@[simp] theorem setFlag_get_swGet (s : State) (f : Fld) (b : Bool) (j : Nat) : (s.setFlag f b).swGet j = s.swGet j := rfl

/-! ### `setBit` -/

@[simp] theorem setBit_pending (s : State) (f : Fld) (i : Nat) (b : Bool) : (s.setBit f i b).pending = s.pending := rfl
@[simp] theorem setBit_fab (s : State) (f : Fld) (i : Nat) (b : Bool) : (s.setBit f i b).fab = s.fab := rfl
@[simp] theorem setBit_tb (s : State) (f : Fld) (i : Nat) (b : Bool) : (s.setBit f i b).tb = s.tb := rfl
@[simp] theorem setBit_tbPhase (s : State) (f : Fld) (i : Nat) (b : Bool) : (s.setBit f i b).tbPhase = s.tbPhase := rfl
@[simp] theorem setBit_free (s : State) (f : Fld) (i : Nat) (b : Bool) : (s.setBit f i b).free = s.free := rfl
@[simp] theorem setBit_mem (s : State) (f : Fld) (i : Nat) (b : Bool) : (s.setBit f i b).mem = s.mem := rfl
@[simp] theorem setBit_integ (s : State) (f : Fld) (i : Nat) (b : Bool) : (s.setBit f i b).integ = s.integ := rfl
@[simp] theorem setBit_img (s : State) (f : Fld) (i : Nat) (b : Bool) : (s.setBit f i b).img = s.img := rfl
@[simp] theorem setBit_sw (s : State) (f : Fld) (i : Nat) (b : Bool) : (s.setBit f i b).sw = s.sw := rfl
@[simp] theorem setBit_heddle (s : State) (f : Fld) (i : Nat) (b : Bool) : (s.setBit f i b).heddle = s.heddle := rfl
@[simp] theorem setBit_entries (s : State) (f : Fld) (i : Nat) (b : Bool) : (s.setBit f i b).entries = s.entries := rfl
@[simp] theorem setBit_forces (s : State) (f : Fld) (i : Nat) (b : Bool) : (s.setBit f i b).forces = s.forces := rfl
@[simp] theorem setBit_forceReq (s : State) (f : Fld) (i : Nat) (b : Bool) : (s.setBit f i b).forceReq = s.forceReq := rfl
@[simp] theorem setBit_ctl (s : State) (f : Fld) (i : Nat) (b : Bool) : (s.setBit f i b).ctl = s.ctl := rfl
@[simp] theorem setBit_strands (s : State) (f : Fld) (i : Nat) (b : Bool) : (s.setBit f i b).strands = s.strands := rfl
@[simp] theorem setBit_scfg (s : State) (f : Fld) (i : Nat) (b : Bool) : (s.setBit f i b).scfg = s.scfg := rfl
@[simp] theorem setBit_inflight (s : State) (f : Fld) (i : Nat) (b : Bool) : (s.setBit f i b).inflight = s.inflight := rfl
@[simp] theorem setBit_fabWait (s : State) (f : Fld) (i : Nat) (b : Bool) : (s.setBit f i b).fabWait = s.fabWait := rfl
@[simp] theorem setBit_fabServed (s : State) (f : Fld) (i : Nat) (b : Bool) : (s.setBit f i b).fabServed = s.fabServed := rfl
@[simp] theorem setBit_remoteResv (s : State) (f : Fld) (i : Nat) (b : Bool) : (s.setBit f i b).remoteResv = s.remoteResv := rfl
@[simp] theorem setBit_classes (s : State) (f : Fld) (i : Nat) (b : Bool) : (s.setBit f i b).classes = s.classes := rfl
@[simp] theorem setBit_pipes (s : State) (f : Fld) (i : Nat) (b : Bool) : (s.setBit f i b).pipes = s.pipes := rfl
@[simp] theorem setBit_engines (s : State) (f : Fld) (i : Nat) (b : Bool) : (s.setBit f i b).engines = s.engines := rfl
@[simp] theorem setBit_ucs (s : State) (f : Fld) (i : Nat) (b : Bool) : (s.setBit f i b).ucs = s.ucs := rfl
@[simp] theorem setBit_dios (s : State) (f : Fld) (i : Nat) (b : Bool) : (s.setBit f i b).dios = s.dios := rfl
@[simp] theorem setBit_cts (s : State) (f : Fld) (i : Nat) (b : Bool) : (s.setBit f i b).cts = s.cts := rfl
@[simp] theorem setBit_seFailedKeep (s : State) (f : Fld) (i : Nat) (b : Bool) : (s.setBit f i b).seFailedKeep = s.seFailedKeep := rfl
@[simp] theorem setBit_streamCfg (s : State) (f : Fld) (i : Nat) (b : Bool) : (s.setBit f i b).streamCfg = s.streamCfg := rfl
@[simp] theorem setBit_pipeSrc (s : State) (f : Fld) (i : Nat) (b : Bool) : (s.setBit f i b).pipeSrc = s.pipeSrc := rfl
@[simp] theorem setBit_config (s : State) (f : Fld) (i : Nat) (b : Bool) : (s.setBit f i b).config = s.config := rfl
@[simp] theorem setBit_journal (s : State) (f : Fld) (i : Nat) (b : Bool) : (s.setBit f i b).journal = s.journal := rfl
@[simp] theorem setBit_edit (s : State) (f : Fld) (i : Nat) (b : Bool) : (s.setBit f i b).edit = s.edit := rfl
@[simp] theorem setBit_red (s : State) (f : Fld) (i : Nat) (b : Bool) : (s.setBit f i b).red = s.red := rfl
@[simp] theorem setBit_hedge (s : State) (f : Fld) (i : Nat) (b : Bool) : (s.setBit f i b).hedge = s.hedge := rfl
@[simp] theorem setBit_upd (s : State) (f : Fld) (i : Nat) (b : Bool) : (s.setBit f i b).upd = s.upd := rfl
@[simp] theorem setBit_eth (s : State) (f : Fld) (i : Nat) (b : Bool) : (s.setBit f i b).eth = s.eth := rfl
@[simp] theorem setBit_mbs (s : State) (f : Fld) (i : Nat) (b : Bool) : (s.setBit f i b).mbs = s.mbs := rfl
@[simp] theorem setBit_canPorts (s : State) (f : Fld) (i : Nat) (b : Bool) : (s.setBit f i b).canPorts = s.canPorts := rfl
@[simp] theorem setBit_wdg (s : State) (f : Fld) (i : Nat) (b : Bool) : (s.setBit f i b).wdg = s.wdg := rfl
@[simp] theorem setBit_store (s : State) (f : Fld) (i : Nat) (b : Bool) : (s.setBit f i b).store = s.store := rfl
@[simp] theorem setBit_qs (s : State) (f : Fld) (i : Nat) (b : Bool) : (s.setBit f i b).qs = s.qs := rfl
@[simp] theorem setBit_recorder (s : State) (f : Fld) (i : Nat) (b : Bool) : (s.setBit f i b).recorder = s.recorder := rfl
@[simp] theorem setBit_retMap (s : State) (f : Fld) (i : Nat) (b : Bool) : (s.setBit f i b).retMap = s.retMap := rfl
@[simp] theorem setBit_qsBaseRow (s : State) (f : Fld) (i : Nat) (b : Bool) : (s.setBit f i b).qsBaseRow = s.qsBaseRow := rfl
@[simp] theorem setBit_keep (s : State) (f : Fld) (i : Nat) (b : Bool) : (s.setBit f i b).keep = s.keep := rfl
@[simp] theorem setBit_int (s : State) (f : Fld) (i : Nat) (b : Bool) : (s.setBit f i b).int = s.int := rfl
@[simp] theorem setBit_rtc (s : State) (f : Fld) (i : Nat) (b : Bool) : (s.setBit f i b).rtc = s.rtc := rfl
@[simp] theorem setBit_supply (s : State) (f : Fld) (i : Nat) (b : Bool) : (s.setBit f i b).supply = s.supply := rfl
@[simp] theorem setBit_evq (s : State) (f : Fld) (i : Nat) (b : Bool) : (s.setBit f i b).evq = s.evq := rfl
@[simp] theorem setBit_evOut (s : State) (f : Fld) (i : Nat) (b : Bool) : (s.setBit f i b).evOut = s.evOut := rfl
@[simp] theorem setBit_obs (s : State) (f : Fld) (i : Nat) (b : Bool) : (s.setBit f i b).obs = s.obs := rfl
@[simp] theorem setBit_trace (s : State) (f : Fld) (i : Nat) (b : Bool) : (s.setBit f i b).trace = s.trace := rfl
@[simp] theorem setBit_pmcSnap (s : State) (f : Fld) (i : Nat) (b : Bool) : (s.setBit f i b).pmcSnap = s.pmcSnap := rfl
@[simp] theorem setBit_tx (s : State) (f : Fld) (i : Nat) (b : Bool) : (s.setBit f i b).tx = s.tx := rfl
@[simp] theorem setBit_hiLatch (s : State) (f : Fld) (i : Nat) (b : Bool) : (s.setBit f i b).hiLatch = s.hiLatch := rfl
@[simp] theorem setBit_readback (s : State) (f : Fld) (i : Nat) (b : Bool) : (s.setBit f i b).readback = s.readback := rfl
@[simp] theorem setBit_get_strand (s : State) (f : Fld) (i : Nat) (b : Bool) (j : Nat) : (s.setBit f i b).strand j = s.strand j := rfl
@[simp] theorem setBit_get_cfg (s : State) (f : Fld) (i : Nat) (b : Bool) (j : Nat) : (s.setBit f i b).cfg j = s.cfg j := rfl
@[simp] theorem setBit_get_cls (s : State) (f : Fld) (i : Nat) (b : Bool) (j : Nat) : (s.setBit f i b).cls j = s.cls j := rfl
@[simp] theorem setBit_get_pipe (s : State) (f : Fld) (i : Nat) (b : Bool) (j : Nat) : (s.setBit f i b).pipe j = s.pipe j := rfl
@[simp] theorem setBit_get_engine (s : State) (f : Fld) (i : Nat) (b : Bool) (j : Nat) : (s.setBit f i b).engine j = s.engine j := rfl
@[simp] theorem setBit_get_uc (s : State) (f : Fld) (i : Nat) (b : Bool) (j : Nat) : (s.setBit f i b).uc j = s.uc j := rfl
@[simp] theorem setBit_get_dio (s : State) (f : Fld) (i : Nat) (b : Bool) (j : Nat) : (s.setBit f i b).dio j = s.dio j := rfl
@[simp] theorem setBit_get_mget (s : State) (f : Fld) (i : Nat) (b : Bool) (j : Nat) : (s.setBit f i b).mget j = s.mget j := rfl
@[simp] theorem setBit_get_swGet (s : State) (f : Fld) (i : Nat) (b : Bool) (j : Nat) : (s.setBit f i b).swGet j = s.swGet j := rfl

/-! ### `satBump` -/

@[simp] theorem satBump_pending (s : State) (f : Fld) (n : Nat) : (s.satBump f n).pending = s.pending := rfl
@[simp] theorem satBump_fab (s : State) (f : Fld) (n : Nat) : (s.satBump f n).fab = s.fab := rfl
@[simp] theorem satBump_tb (s : State) (f : Fld) (n : Nat) : (s.satBump f n).tb = s.tb := rfl
@[simp] theorem satBump_tbPhase (s : State) (f : Fld) (n : Nat) : (s.satBump f n).tbPhase = s.tbPhase := rfl
@[simp] theorem satBump_free (s : State) (f : Fld) (n : Nat) : (s.satBump f n).free = s.free := rfl
@[simp] theorem satBump_mem (s : State) (f : Fld) (n : Nat) : (s.satBump f n).mem = s.mem := rfl
@[simp] theorem satBump_integ (s : State) (f : Fld) (n : Nat) : (s.satBump f n).integ = s.integ := rfl
@[simp] theorem satBump_img (s : State) (f : Fld) (n : Nat) : (s.satBump f n).img = s.img := rfl
@[simp] theorem satBump_sw (s : State) (f : Fld) (n : Nat) : (s.satBump f n).sw = s.sw := rfl
@[simp] theorem satBump_heddle (s : State) (f : Fld) (n : Nat) : (s.satBump f n).heddle = s.heddle := rfl
@[simp] theorem satBump_entries (s : State) (f : Fld) (n : Nat) : (s.satBump f n).entries = s.entries := rfl
@[simp] theorem satBump_forces (s : State) (f : Fld) (n : Nat) : (s.satBump f n).forces = s.forces := rfl
@[simp] theorem satBump_forceReq (s : State) (f : Fld) (n : Nat) : (s.satBump f n).forceReq = s.forceReq := rfl
@[simp] theorem satBump_ctl (s : State) (f : Fld) (n : Nat) : (s.satBump f n).ctl = s.ctl := rfl
@[simp] theorem satBump_strands (s : State) (f : Fld) (n : Nat) : (s.satBump f n).strands = s.strands := rfl
@[simp] theorem satBump_scfg (s : State) (f : Fld) (n : Nat) : (s.satBump f n).scfg = s.scfg := rfl
@[simp] theorem satBump_inflight (s : State) (f : Fld) (n : Nat) : (s.satBump f n).inflight = s.inflight := rfl
@[simp] theorem satBump_fabWait (s : State) (f : Fld) (n : Nat) : (s.satBump f n).fabWait = s.fabWait := rfl
@[simp] theorem satBump_fabServed (s : State) (f : Fld) (n : Nat) : (s.satBump f n).fabServed = s.fabServed := rfl
@[simp] theorem satBump_remoteResv (s : State) (f : Fld) (n : Nat) : (s.satBump f n).remoteResv = s.remoteResv := rfl
@[simp] theorem satBump_classes (s : State) (f : Fld) (n : Nat) : (s.satBump f n).classes = s.classes := rfl
@[simp] theorem satBump_pipes (s : State) (f : Fld) (n : Nat) : (s.satBump f n).pipes = s.pipes := rfl
@[simp] theorem satBump_engines (s : State) (f : Fld) (n : Nat) : (s.satBump f n).engines = s.engines := rfl
@[simp] theorem satBump_ucs (s : State) (f : Fld) (n : Nat) : (s.satBump f n).ucs = s.ucs := rfl
@[simp] theorem satBump_dios (s : State) (f : Fld) (n : Nat) : (s.satBump f n).dios = s.dios := rfl
@[simp] theorem satBump_cts (s : State) (f : Fld) (n : Nat) : (s.satBump f n).cts = s.cts := rfl
@[simp] theorem satBump_seFailedKeep (s : State) (f : Fld) (n : Nat) : (s.satBump f n).seFailedKeep = s.seFailedKeep := rfl
@[simp] theorem satBump_streamCfg (s : State) (f : Fld) (n : Nat) : (s.satBump f n).streamCfg = s.streamCfg := rfl
@[simp] theorem satBump_pipeSrc (s : State) (f : Fld) (n : Nat) : (s.satBump f n).pipeSrc = s.pipeSrc := rfl
@[simp] theorem satBump_config (s : State) (f : Fld) (n : Nat) : (s.satBump f n).config = s.config := rfl
@[simp] theorem satBump_journal (s : State) (f : Fld) (n : Nat) : (s.satBump f n).journal = s.journal := rfl
@[simp] theorem satBump_edit (s : State) (f : Fld) (n : Nat) : (s.satBump f n).edit = s.edit := rfl
@[simp] theorem satBump_red (s : State) (f : Fld) (n : Nat) : (s.satBump f n).red = s.red := rfl
@[simp] theorem satBump_hedge (s : State) (f : Fld) (n : Nat) : (s.satBump f n).hedge = s.hedge := rfl
@[simp] theorem satBump_upd (s : State) (f : Fld) (n : Nat) : (s.satBump f n).upd = s.upd := rfl
@[simp] theorem satBump_eth (s : State) (f : Fld) (n : Nat) : (s.satBump f n).eth = s.eth := rfl
@[simp] theorem satBump_mbs (s : State) (f : Fld) (n : Nat) : (s.satBump f n).mbs = s.mbs := rfl
@[simp] theorem satBump_canPorts (s : State) (f : Fld) (n : Nat) : (s.satBump f n).canPorts = s.canPorts := rfl
@[simp] theorem satBump_wdg (s : State) (f : Fld) (n : Nat) : (s.satBump f n).wdg = s.wdg := rfl
@[simp] theorem satBump_store (s : State) (f : Fld) (n : Nat) : (s.satBump f n).store = s.store := rfl
@[simp] theorem satBump_qs (s : State) (f : Fld) (n : Nat) : (s.satBump f n).qs = s.qs := rfl
@[simp] theorem satBump_recorder (s : State) (f : Fld) (n : Nat) : (s.satBump f n).recorder = s.recorder := rfl
@[simp] theorem satBump_retMap (s : State) (f : Fld) (n : Nat) : (s.satBump f n).retMap = s.retMap := rfl
@[simp] theorem satBump_qsBaseRow (s : State) (f : Fld) (n : Nat) : (s.satBump f n).qsBaseRow = s.qsBaseRow := rfl
@[simp] theorem satBump_keep (s : State) (f : Fld) (n : Nat) : (s.satBump f n).keep = s.keep := rfl
@[simp] theorem satBump_int (s : State) (f : Fld) (n : Nat) : (s.satBump f n).int = s.int := rfl
@[simp] theorem satBump_rtc (s : State) (f : Fld) (n : Nat) : (s.satBump f n).rtc = s.rtc := rfl
@[simp] theorem satBump_supply (s : State) (f : Fld) (n : Nat) : (s.satBump f n).supply = s.supply := rfl
@[simp] theorem satBump_evq (s : State) (f : Fld) (n : Nat) : (s.satBump f n).evq = s.evq := rfl
@[simp] theorem satBump_evOut (s : State) (f : Fld) (n : Nat) : (s.satBump f n).evOut = s.evOut := rfl
@[simp] theorem satBump_obs (s : State) (f : Fld) (n : Nat) : (s.satBump f n).obs = s.obs := rfl
@[simp] theorem satBump_trace (s : State) (f : Fld) (n : Nat) : (s.satBump f n).trace = s.trace := rfl
@[simp] theorem satBump_pmcSnap (s : State) (f : Fld) (n : Nat) : (s.satBump f n).pmcSnap = s.pmcSnap := rfl
@[simp] theorem satBump_tx (s : State) (f : Fld) (n : Nat) : (s.satBump f n).tx = s.tx := rfl
@[simp] theorem satBump_hiLatch (s : State) (f : Fld) (n : Nat) : (s.satBump f n).hiLatch = s.hiLatch := rfl
@[simp] theorem satBump_readback (s : State) (f : Fld) (n : Nat) : (s.satBump f n).readback = s.readback := rfl
@[simp] theorem satBump_get_strand (s : State) (f : Fld) (n : Nat) (j : Nat) : (s.satBump f n).strand j = s.strand j := rfl
@[simp] theorem satBump_get_cfg (s : State) (f : Fld) (n : Nat) (j : Nat) : (s.satBump f n).cfg j = s.cfg j := rfl
@[simp] theorem satBump_get_cls (s : State) (f : Fld) (n : Nat) (j : Nat) : (s.satBump f n).cls j = s.cls j := rfl
@[simp] theorem satBump_get_pipe (s : State) (f : Fld) (n : Nat) (j : Nat) : (s.satBump f n).pipe j = s.pipe j := rfl
@[simp] theorem satBump_get_engine (s : State) (f : Fld) (n : Nat) (j : Nat) : (s.satBump f n).engine j = s.engine j := rfl
@[simp] theorem satBump_get_uc (s : State) (f : Fld) (n : Nat) (j : Nat) : (s.satBump f n).uc j = s.uc j := rfl
@[simp] theorem satBump_get_dio (s : State) (f : Fld) (n : Nat) (j : Nat) : (s.satBump f n).dio j = s.dio j := rfl
@[simp] theorem satBump_get_mget (s : State) (f : Fld) (n : Nat) (j : Nat) : (s.satBump f n).mget j = s.mget j := rfl
@[simp] theorem satBump_get_swGet (s : State) (f : Fld) (n : Nat) (j : Nat) : (s.satBump f n).swGet j = s.swGet j := rfl

/-! ### `mset` -/

@[simp] theorem mset_pending (s : State) (key : Nat) (b : Byte) : (s.mset key b).pending = s.pending := rfl
@[simp] theorem mset_fab (s : State) (key : Nat) (b : Byte) : (s.mset key b).fab = s.fab := rfl
@[simp] theorem mset_tb (s : State) (key : Nat) (b : Byte) : (s.mset key b).tb = s.tb := rfl
@[simp] theorem mset_tbPhase (s : State) (key : Nat) (b : Byte) : (s.mset key b).tbPhase = s.tbPhase := rfl
@[simp] theorem mset_free (s : State) (key : Nat) (b : Byte) : (s.mset key b).free = s.free := rfl
@[simp] theorem mset_regs (s : State) (key : Nat) (b : Byte) : (s.mset key b).regs = s.regs := rfl
@[simp] theorem mset_integ (s : State) (key : Nat) (b : Byte) : (s.mset key b).integ = s.integ := rfl
@[simp] theorem mset_img (s : State) (key : Nat) (b : Byte) : (s.mset key b).img = s.img := rfl
@[simp] theorem mset_sw (s : State) (key : Nat) (b : Byte) : (s.mset key b).sw = s.sw := rfl
@[simp] theorem mset_heddle (s : State) (key : Nat) (b : Byte) : (s.mset key b).heddle = s.heddle := rfl
@[simp] theorem mset_entries (s : State) (key : Nat) (b : Byte) : (s.mset key b).entries = s.entries := rfl
@[simp] theorem mset_forces (s : State) (key : Nat) (b : Byte) : (s.mset key b).forces = s.forces := rfl
@[simp] theorem mset_forceReq (s : State) (key : Nat) (b : Byte) : (s.mset key b).forceReq = s.forceReq := rfl
@[simp] theorem mset_ctl (s : State) (key : Nat) (b : Byte) : (s.mset key b).ctl = s.ctl := rfl
@[simp] theorem mset_strands (s : State) (key : Nat) (b : Byte) : (s.mset key b).strands = s.strands := rfl
@[simp] theorem mset_scfg (s : State) (key : Nat) (b : Byte) : (s.mset key b).scfg = s.scfg := rfl
@[simp] theorem mset_inflight (s : State) (key : Nat) (b : Byte) : (s.mset key b).inflight = s.inflight := rfl
@[simp] theorem mset_fabWait (s : State) (key : Nat) (b : Byte) : (s.mset key b).fabWait = s.fabWait := rfl
@[simp] theorem mset_fabServed (s : State) (key : Nat) (b : Byte) : (s.mset key b).fabServed = s.fabServed := rfl
@[simp] theorem mset_remoteResv (s : State) (key : Nat) (b : Byte) : (s.mset key b).remoteResv = s.remoteResv := rfl
@[simp] theorem mset_classes (s : State) (key : Nat) (b : Byte) : (s.mset key b).classes = s.classes := rfl
@[simp] theorem mset_pipes (s : State) (key : Nat) (b : Byte) : (s.mset key b).pipes = s.pipes := rfl
@[simp] theorem mset_engines (s : State) (key : Nat) (b : Byte) : (s.mset key b).engines = s.engines := rfl
@[simp] theorem mset_ucs (s : State) (key : Nat) (b : Byte) : (s.mset key b).ucs = s.ucs := rfl
@[simp] theorem mset_dios (s : State) (key : Nat) (b : Byte) : (s.mset key b).dios = s.dios := rfl
@[simp] theorem mset_cts (s : State) (key : Nat) (b : Byte) : (s.mset key b).cts = s.cts := rfl
@[simp] theorem mset_seFailedKeep (s : State) (key : Nat) (b : Byte) : (s.mset key b).seFailedKeep = s.seFailedKeep := rfl
@[simp] theorem mset_streamCfg (s : State) (key : Nat) (b : Byte) : (s.mset key b).streamCfg = s.streamCfg := rfl
@[simp] theorem mset_pipeSrc (s : State) (key : Nat) (b : Byte) : (s.mset key b).pipeSrc = s.pipeSrc := rfl
@[simp] theorem mset_config (s : State) (key : Nat) (b : Byte) : (s.mset key b).config = s.config := rfl
@[simp] theorem mset_journal (s : State) (key : Nat) (b : Byte) : (s.mset key b).journal = s.journal := rfl
@[simp] theorem mset_edit (s : State) (key : Nat) (b : Byte) : (s.mset key b).edit = s.edit := rfl
@[simp] theorem mset_red (s : State) (key : Nat) (b : Byte) : (s.mset key b).red = s.red := rfl
@[simp] theorem mset_hedge (s : State) (key : Nat) (b : Byte) : (s.mset key b).hedge = s.hedge := rfl
@[simp] theorem mset_upd (s : State) (key : Nat) (b : Byte) : (s.mset key b).upd = s.upd := rfl
@[simp] theorem mset_eth (s : State) (key : Nat) (b : Byte) : (s.mset key b).eth = s.eth := rfl
@[simp] theorem mset_mbs (s : State) (key : Nat) (b : Byte) : (s.mset key b).mbs = s.mbs := rfl
@[simp] theorem mset_canPorts (s : State) (key : Nat) (b : Byte) : (s.mset key b).canPorts = s.canPorts := rfl
@[simp] theorem mset_wdg (s : State) (key : Nat) (b : Byte) : (s.mset key b).wdg = s.wdg := rfl
@[simp] theorem mset_store (s : State) (key : Nat) (b : Byte) : (s.mset key b).store = s.store := rfl
@[simp] theorem mset_qs (s : State) (key : Nat) (b : Byte) : (s.mset key b).qs = s.qs := rfl
@[simp] theorem mset_recorder (s : State) (key : Nat) (b : Byte) : (s.mset key b).recorder = s.recorder := rfl
@[simp] theorem mset_retMap (s : State) (key : Nat) (b : Byte) : (s.mset key b).retMap = s.retMap := rfl
@[simp] theorem mset_qsBaseRow (s : State) (key : Nat) (b : Byte) : (s.mset key b).qsBaseRow = s.qsBaseRow := rfl
@[simp] theorem mset_keep (s : State) (key : Nat) (b : Byte) : (s.mset key b).keep = s.keep := rfl
@[simp] theorem mset_int (s : State) (key : Nat) (b : Byte) : (s.mset key b).int = s.int := rfl
@[simp] theorem mset_rtc (s : State) (key : Nat) (b : Byte) : (s.mset key b).rtc = s.rtc := rfl
@[simp] theorem mset_supply (s : State) (key : Nat) (b : Byte) : (s.mset key b).supply = s.supply := rfl
@[simp] theorem mset_evq (s : State) (key : Nat) (b : Byte) : (s.mset key b).evq = s.evq := rfl
@[simp] theorem mset_evOut (s : State) (key : Nat) (b : Byte) : (s.mset key b).evOut = s.evOut := rfl
@[simp] theorem mset_obs (s : State) (key : Nat) (b : Byte) : (s.mset key b).obs = s.obs := rfl
@[simp] theorem mset_trace (s : State) (key : Nat) (b : Byte) : (s.mset key b).trace = s.trace := rfl
@[simp] theorem mset_pmcSnap (s : State) (key : Nat) (b : Byte) : (s.mset key b).pmcSnap = s.pmcSnap := rfl
@[simp] theorem mset_tx (s : State) (key : Nat) (b : Byte) : (s.mset key b).tx = s.tx := rfl
@[simp] theorem mset_hiLatch (s : State) (key : Nat) (b : Byte) : (s.mset key b).hiLatch = s.hiLatch := rfl
@[simp] theorem mset_readback (s : State) (key : Nat) (b : Byte) : (s.mset key b).readback = s.readback := rfl
@[simp] theorem mset_get_strand (s : State) (key : Nat) (b : Byte) (j : Nat) : (s.mset key b).strand j = s.strand j := rfl
@[simp] theorem mset_get_cfg (s : State) (key : Nat) (b : Byte) (j : Nat) : (s.mset key b).cfg j = s.cfg j := rfl
@[simp] theorem mset_get_cls (s : State) (key : Nat) (b : Byte) (j : Nat) : (s.mset key b).cls j = s.cls j := rfl
@[simp] theorem mset_get_pipe (s : State) (key : Nat) (b : Byte) (j : Nat) : (s.mset key b).pipe j = s.pipe j := rfl
@[simp] theorem mset_get_engine (s : State) (key : Nat) (b : Byte) (j : Nat) : (s.mset key b).engine j = s.engine j := rfl
@[simp] theorem mset_get_uc (s : State) (key : Nat) (b : Byte) (j : Nat) : (s.mset key b).uc j = s.uc j := rfl
@[simp] theorem mset_get_dio (s : State) (key : Nat) (b : Byte) (j : Nat) : (s.mset key b).dio j = s.dio j := rfl
@[simp] theorem mset_get_rget (s : State) (key : Nat) (b : Byte) (j : Nat) : (s.mset key b).rget j = s.rget j := rfl
@[simp] theorem mset_get_fget (s : State) (key : Nat) (b : Byte) (g : Fld) : (s.mset key b).fget g = s.fget g := rfl
@[simp] theorem mset_get_flag (s : State) (key : Nat) (b : Byte) (g : Fld) : (s.mset key b).flag g = s.flag g := rfl
@[simp] theorem mset_get_mode (s : State) (key : Nat) (b : Byte) : (s.mset key b).mode = s.mode := rfl
@[simp] theorem mset_get_swGet (s : State) (key : Nat) (b : Byte) (j : Nat) : (s.mset key b).swGet j = s.swGet j := rfl

/-! ### `send` -/

@[simp] theorem send_pending (s : State) (m : Sent) : (s.send m).pending = s.pending := rfl
@[simp] theorem send_fab (s : State) (m : Sent) : (s.send m).fab = s.fab := rfl
@[simp] theorem send_tb (s : State) (m : Sent) : (s.send m).tb = s.tb := rfl
@[simp] theorem send_tbPhase (s : State) (m : Sent) : (s.send m).tbPhase = s.tbPhase := rfl
@[simp] theorem send_free (s : State) (m : Sent) : (s.send m).free = s.free := rfl
@[simp] theorem send_regs (s : State) (m : Sent) : (s.send m).regs = s.regs := rfl
@[simp] theorem send_mem (s : State) (m : Sent) : (s.send m).mem = s.mem := rfl
@[simp] theorem send_integ (s : State) (m : Sent) : (s.send m).integ = s.integ := rfl
@[simp] theorem send_img (s : State) (m : Sent) : (s.send m).img = s.img := rfl
@[simp] theorem send_sw (s : State) (m : Sent) : (s.send m).sw = s.sw := rfl
@[simp] theorem send_heddle (s : State) (m : Sent) : (s.send m).heddle = s.heddle := rfl
@[simp] theorem send_entries (s : State) (m : Sent) : (s.send m).entries = s.entries := rfl
@[simp] theorem send_forces (s : State) (m : Sent) : (s.send m).forces = s.forces := rfl
@[simp] theorem send_forceReq (s : State) (m : Sent) : (s.send m).forceReq = s.forceReq := rfl
@[simp] theorem send_ctl (s : State) (m : Sent) : (s.send m).ctl = s.ctl := rfl
@[simp] theorem send_strands (s : State) (m : Sent) : (s.send m).strands = s.strands := rfl
@[simp] theorem send_scfg (s : State) (m : Sent) : (s.send m).scfg = s.scfg := rfl
@[simp] theorem send_inflight (s : State) (m : Sent) : (s.send m).inflight = s.inflight := rfl
@[simp] theorem send_fabWait (s : State) (m : Sent) : (s.send m).fabWait = s.fabWait := rfl
@[simp] theorem send_fabServed (s : State) (m : Sent) : (s.send m).fabServed = s.fabServed := rfl
@[simp] theorem send_remoteResv (s : State) (m : Sent) : (s.send m).remoteResv = s.remoteResv := rfl
@[simp] theorem send_classes (s : State) (m : Sent) : (s.send m).classes = s.classes := rfl
@[simp] theorem send_pipes (s : State) (m : Sent) : (s.send m).pipes = s.pipes := rfl
@[simp] theorem send_engines (s : State) (m : Sent) : (s.send m).engines = s.engines := rfl
@[simp] theorem send_ucs (s : State) (m : Sent) : (s.send m).ucs = s.ucs := rfl
@[simp] theorem send_dios (s : State) (m : Sent) : (s.send m).dios = s.dios := rfl
@[simp] theorem send_cts (s : State) (m : Sent) : (s.send m).cts = s.cts := rfl
@[simp] theorem send_seFailedKeep (s : State) (m : Sent) : (s.send m).seFailedKeep = s.seFailedKeep := rfl
@[simp] theorem send_streamCfg (s : State) (m : Sent) : (s.send m).streamCfg = s.streamCfg := rfl
@[simp] theorem send_pipeSrc (s : State) (m : Sent) : (s.send m).pipeSrc = s.pipeSrc := rfl
@[simp] theorem send_config (s : State) (m : Sent) : (s.send m).config = s.config := rfl
@[simp] theorem send_journal (s : State) (m : Sent) : (s.send m).journal = s.journal := rfl
@[simp] theorem send_edit (s : State) (m : Sent) : (s.send m).edit = s.edit := rfl
@[simp] theorem send_red (s : State) (m : Sent) : (s.send m).red = s.red := rfl
@[simp] theorem send_hedge (s : State) (m : Sent) : (s.send m).hedge = s.hedge := rfl
@[simp] theorem send_upd (s : State) (m : Sent) : (s.send m).upd = s.upd := rfl
@[simp] theorem send_eth (s : State) (m : Sent) : (s.send m).eth = s.eth := rfl
@[simp] theorem send_mbs (s : State) (m : Sent) : (s.send m).mbs = s.mbs := rfl
@[simp] theorem send_canPorts (s : State) (m : Sent) : (s.send m).canPorts = s.canPorts := rfl
@[simp] theorem send_wdg (s : State) (m : Sent) : (s.send m).wdg = s.wdg := rfl
@[simp] theorem send_store (s : State) (m : Sent) : (s.send m).store = s.store := rfl
@[simp] theorem send_qs (s : State) (m : Sent) : (s.send m).qs = s.qs := rfl
@[simp] theorem send_recorder (s : State) (m : Sent) : (s.send m).recorder = s.recorder := rfl
@[simp] theorem send_retMap (s : State) (m : Sent) : (s.send m).retMap = s.retMap := rfl
@[simp] theorem send_qsBaseRow (s : State) (m : Sent) : (s.send m).qsBaseRow = s.qsBaseRow := rfl
@[simp] theorem send_keep (s : State) (m : Sent) : (s.send m).keep = s.keep := rfl
@[simp] theorem send_int (s : State) (m : Sent) : (s.send m).int = s.int := rfl
@[simp] theorem send_rtc (s : State) (m : Sent) : (s.send m).rtc = s.rtc := rfl
@[simp] theorem send_supply (s : State) (m : Sent) : (s.send m).supply = s.supply := rfl
@[simp] theorem send_evq (s : State) (m : Sent) : (s.send m).evq = s.evq := rfl
@[simp] theorem send_evOut (s : State) (m : Sent) : (s.send m).evOut = s.evOut := rfl
@[simp] theorem send_obs (s : State) (m : Sent) : (s.send m).obs = s.obs := rfl
@[simp] theorem send_trace (s : State) (m : Sent) : (s.send m).trace = s.trace := rfl
@[simp] theorem send_pmcSnap (s : State) (m : Sent) : (s.send m).pmcSnap = s.pmcSnap := rfl
@[simp] theorem send_hiLatch (s : State) (m : Sent) : (s.send m).hiLatch = s.hiLatch := rfl
@[simp] theorem send_readback (s : State) (m : Sent) : (s.send m).readback = s.readback := rfl
@[simp] theorem send_get_strand (s : State) (m : Sent) (j : Nat) : (s.send m).strand j = s.strand j := rfl
@[simp] theorem send_get_cfg (s : State) (m : Sent) (j : Nat) : (s.send m).cfg j = s.cfg j := rfl
@[simp] theorem send_get_cls (s : State) (m : Sent) (j : Nat) : (s.send m).cls j = s.cls j := rfl
@[simp] theorem send_get_pipe (s : State) (m : Sent) (j : Nat) : (s.send m).pipe j = s.pipe j := rfl
@[simp] theorem send_get_engine (s : State) (m : Sent) (j : Nat) : (s.send m).engine j = s.engine j := rfl
@[simp] theorem send_get_uc (s : State) (m : Sent) (j : Nat) : (s.send m).uc j = s.uc j := rfl
@[simp] theorem send_get_dio (s : State) (m : Sent) (j : Nat) : (s.send m).dio j = s.dio j := rfl
@[simp] theorem send_get_rget (s : State) (m : Sent) (j : Nat) : (s.send m).rget j = s.rget j := rfl
@[simp] theorem send_get_fget (s : State) (m : Sent) (g : Fld) : (s.send m).fget g = s.fget g := rfl
@[simp] theorem send_get_flag (s : State) (m : Sent) (g : Fld) : (s.send m).flag g = s.flag g := rfl
@[simp] theorem send_get_mode (s : State) (m : Sent) : (s.send m).mode = s.mode := rfl
@[simp] theorem send_get_mget (s : State) (m : Sent) (j : Nat) : (s.send m).mget j = s.mget j := rfl
@[simp] theorem send_get_swGet (s : State) (m : Sent) (j : Nat) : (s.send m).swGet j = s.swGet j := rfl

/-! ### `draw` -/

@[simp] theorem draw_pending (s : State) : (s.draw).pending = s.pending := rfl
@[simp] theorem draw_fab (s : State) : (s.draw).fab = s.fab := rfl
@[simp] theorem draw_tb (s : State) : (s.draw).tb = s.tb := rfl
@[simp] theorem draw_tbPhase (s : State) : (s.draw).tbPhase = s.tbPhase := rfl
@[simp] theorem draw_regs (s : State) : (s.draw).regs = s.regs := rfl
@[simp] theorem draw_mem (s : State) : (s.draw).mem = s.mem := rfl
@[simp] theorem draw_integ (s : State) : (s.draw).integ = s.integ := rfl
@[simp] theorem draw_img (s : State) : (s.draw).img = s.img := rfl
@[simp] theorem draw_sw (s : State) : (s.draw).sw = s.sw := rfl
@[simp] theorem draw_heddle (s : State) : (s.draw).heddle = s.heddle := rfl
@[simp] theorem draw_entries (s : State) : (s.draw).entries = s.entries := rfl
@[simp] theorem draw_forces (s : State) : (s.draw).forces = s.forces := rfl
@[simp] theorem draw_forceReq (s : State) : (s.draw).forceReq = s.forceReq := rfl
@[simp] theorem draw_ctl (s : State) : (s.draw).ctl = s.ctl := rfl
@[simp] theorem draw_strands (s : State) : (s.draw).strands = s.strands := rfl
@[simp] theorem draw_scfg (s : State) : (s.draw).scfg = s.scfg := rfl
@[simp] theorem draw_inflight (s : State) : (s.draw).inflight = s.inflight := rfl
@[simp] theorem draw_fabWait (s : State) : (s.draw).fabWait = s.fabWait := rfl
@[simp] theorem draw_fabServed (s : State) : (s.draw).fabServed = s.fabServed := rfl
@[simp] theorem draw_remoteResv (s : State) : (s.draw).remoteResv = s.remoteResv := rfl
@[simp] theorem draw_classes (s : State) : (s.draw).classes = s.classes := rfl
@[simp] theorem draw_pipes (s : State) : (s.draw).pipes = s.pipes := rfl
@[simp] theorem draw_engines (s : State) : (s.draw).engines = s.engines := rfl
@[simp] theorem draw_ucs (s : State) : (s.draw).ucs = s.ucs := rfl
@[simp] theorem draw_dios (s : State) : (s.draw).dios = s.dios := rfl
@[simp] theorem draw_cts (s : State) : (s.draw).cts = s.cts := rfl
@[simp] theorem draw_seFailedKeep (s : State) : (s.draw).seFailedKeep = s.seFailedKeep := rfl
@[simp] theorem draw_streamCfg (s : State) : (s.draw).streamCfg = s.streamCfg := rfl
@[simp] theorem draw_pipeSrc (s : State) : (s.draw).pipeSrc = s.pipeSrc := rfl
@[simp] theorem draw_config (s : State) : (s.draw).config = s.config := rfl
@[simp] theorem draw_journal (s : State) : (s.draw).journal = s.journal := rfl
@[simp] theorem draw_edit (s : State) : (s.draw).edit = s.edit := rfl
@[simp] theorem draw_red (s : State) : (s.draw).red = s.red := rfl
@[simp] theorem draw_hedge (s : State) : (s.draw).hedge = s.hedge := rfl
@[simp] theorem draw_upd (s : State) : (s.draw).upd = s.upd := rfl
@[simp] theorem draw_eth (s : State) : (s.draw).eth = s.eth := rfl
@[simp] theorem draw_mbs (s : State) : (s.draw).mbs = s.mbs := rfl
@[simp] theorem draw_canPorts (s : State) : (s.draw).canPorts = s.canPorts := rfl
@[simp] theorem draw_wdg (s : State) : (s.draw).wdg = s.wdg := rfl
@[simp] theorem draw_store (s : State) : (s.draw).store = s.store := rfl
@[simp] theorem draw_qs (s : State) : (s.draw).qs = s.qs := rfl
@[simp] theorem draw_recorder (s : State) : (s.draw).recorder = s.recorder := rfl
@[simp] theorem draw_retMap (s : State) : (s.draw).retMap = s.retMap := rfl
@[simp] theorem draw_qsBaseRow (s : State) : (s.draw).qsBaseRow = s.qsBaseRow := rfl
@[simp] theorem draw_keep (s : State) : (s.draw).keep = s.keep := rfl
@[simp] theorem draw_int (s : State) : (s.draw).int = s.int := rfl
@[simp] theorem draw_rtc (s : State) : (s.draw).rtc = s.rtc := rfl
@[simp] theorem draw_supply (s : State) : (s.draw).supply = s.supply := rfl
@[simp] theorem draw_evq (s : State) : (s.draw).evq = s.evq := rfl
@[simp] theorem draw_evOut (s : State) : (s.draw).evOut = s.evOut := rfl
@[simp] theorem draw_obs (s : State) : (s.draw).obs = s.obs := rfl
@[simp] theorem draw_trace (s : State) : (s.draw).trace = s.trace := rfl
@[simp] theorem draw_pmcSnap (s : State) : (s.draw).pmcSnap = s.pmcSnap := rfl
@[simp] theorem draw_tx (s : State) : (s.draw).tx = s.tx := rfl
@[simp] theorem draw_hiLatch (s : State) : (s.draw).hiLatch = s.hiLatch := rfl
@[simp] theorem draw_readback (s : State) : (s.draw).readback = s.readback := rfl
@[simp] theorem draw_get_strand (s : State) (j : Nat) : (s.draw).strand j = s.strand j := rfl
@[simp] theorem draw_get_cfg (s : State) (j : Nat) : (s.draw).cfg j = s.cfg j := rfl
@[simp] theorem draw_get_cls (s : State) (j : Nat) : (s.draw).cls j = s.cls j := rfl
@[simp] theorem draw_get_pipe (s : State) (j : Nat) : (s.draw).pipe j = s.pipe j := rfl
@[simp] theorem draw_get_engine (s : State) (j : Nat) : (s.draw).engine j = s.engine j := rfl
@[simp] theorem draw_get_uc (s : State) (j : Nat) : (s.draw).uc j = s.uc j := rfl
@[simp] theorem draw_get_dio (s : State) (j : Nat) : (s.draw).dio j = s.dio j := rfl
@[simp] theorem draw_get_rget (s : State) (j : Nat) : (s.draw).rget j = s.rget j := rfl
@[simp] theorem draw_get_fget (s : State) (g : Fld) : (s.draw).fget g = s.fget g := rfl
@[simp] theorem draw_get_flag (s : State) (g : Fld) : (s.draw).flag g = s.flag g := rfl
@[simp] theorem draw_get_mode (s : State) : (s.draw).mode = s.mode := rfl
@[simp] theorem draw_get_mget (s : State) (j : Nat) : (s.draw).mget j = s.mget j := rfl
@[simp] theorem draw_get_swGet (s : State) (j : Nat) : (s.draw).swGet j = s.swGet j := rfl

/-! ### `swSet` -/

@[simp] theorem swSet_pending (s : State) (i : Nat) (v : BitVec 16) : (s.swSet i v).pending = s.pending := rfl
@[simp] theorem swSet_fab (s : State) (i : Nat) (v : BitVec 16) : (s.swSet i v).fab = s.fab := rfl
@[simp] theorem swSet_tb (s : State) (i : Nat) (v : BitVec 16) : (s.swSet i v).tb = s.tb := rfl
@[simp] theorem swSet_tbPhase (s : State) (i : Nat) (v : BitVec 16) : (s.swSet i v).tbPhase = s.tbPhase := rfl
@[simp] theorem swSet_free (s : State) (i : Nat) (v : BitVec 16) : (s.swSet i v).free = s.free := rfl
@[simp] theorem swSet_regs (s : State) (i : Nat) (v : BitVec 16) : (s.swSet i v).regs = s.regs := rfl
@[simp] theorem swSet_mem (s : State) (i : Nat) (v : BitVec 16) : (s.swSet i v).mem = s.mem := rfl
@[simp] theorem swSet_integ (s : State) (i : Nat) (v : BitVec 16) : (s.swSet i v).integ = s.integ := rfl
@[simp] theorem swSet_img (s : State) (i : Nat) (v : BitVec 16) : (s.swSet i v).img = s.img := rfl
@[simp] theorem swSet_heddle (s : State) (i : Nat) (v : BitVec 16) : (s.swSet i v).heddle = s.heddle := rfl
@[simp] theorem swSet_entries (s : State) (i : Nat) (v : BitVec 16) : (s.swSet i v).entries = s.entries := rfl
@[simp] theorem swSet_forces (s : State) (i : Nat) (v : BitVec 16) : (s.swSet i v).forces = s.forces := rfl
@[simp] theorem swSet_forceReq (s : State) (i : Nat) (v : BitVec 16) : (s.swSet i v).forceReq = s.forceReq := rfl
@[simp] theorem swSet_ctl (s : State) (i : Nat) (v : BitVec 16) : (s.swSet i v).ctl = s.ctl := rfl
@[simp] theorem swSet_strands (s : State) (i : Nat) (v : BitVec 16) : (s.swSet i v).strands = s.strands := rfl
@[simp] theorem swSet_scfg (s : State) (i : Nat) (v : BitVec 16) : (s.swSet i v).scfg = s.scfg := rfl
@[simp] theorem swSet_inflight (s : State) (i : Nat) (v : BitVec 16) : (s.swSet i v).inflight = s.inflight := rfl
@[simp] theorem swSet_fabWait (s : State) (i : Nat) (v : BitVec 16) : (s.swSet i v).fabWait = s.fabWait := rfl
@[simp] theorem swSet_fabServed (s : State) (i : Nat) (v : BitVec 16) : (s.swSet i v).fabServed = s.fabServed := rfl
@[simp] theorem swSet_remoteResv (s : State) (i : Nat) (v : BitVec 16) : (s.swSet i v).remoteResv = s.remoteResv := rfl
@[simp] theorem swSet_classes (s : State) (i : Nat) (v : BitVec 16) : (s.swSet i v).classes = s.classes := rfl
@[simp] theorem swSet_pipes (s : State) (i : Nat) (v : BitVec 16) : (s.swSet i v).pipes = s.pipes := rfl
@[simp] theorem swSet_engines (s : State) (i : Nat) (v : BitVec 16) : (s.swSet i v).engines = s.engines := rfl
@[simp] theorem swSet_ucs (s : State) (i : Nat) (v : BitVec 16) : (s.swSet i v).ucs = s.ucs := rfl
@[simp] theorem swSet_dios (s : State) (i : Nat) (v : BitVec 16) : (s.swSet i v).dios = s.dios := rfl
@[simp] theorem swSet_cts (s : State) (i : Nat) (v : BitVec 16) : (s.swSet i v).cts = s.cts := rfl
@[simp] theorem swSet_seFailedKeep (s : State) (i : Nat) (v : BitVec 16) : (s.swSet i v).seFailedKeep = s.seFailedKeep := rfl
@[simp] theorem swSet_streamCfg (s : State) (i : Nat) (v : BitVec 16) : (s.swSet i v).streamCfg = s.streamCfg := rfl
@[simp] theorem swSet_pipeSrc (s : State) (i : Nat) (v : BitVec 16) : (s.swSet i v).pipeSrc = s.pipeSrc := rfl
@[simp] theorem swSet_config (s : State) (i : Nat) (v : BitVec 16) : (s.swSet i v).config = s.config := rfl
@[simp] theorem swSet_journal (s : State) (i : Nat) (v : BitVec 16) : (s.swSet i v).journal = s.journal := rfl
@[simp] theorem swSet_edit (s : State) (i : Nat) (v : BitVec 16) : (s.swSet i v).edit = s.edit := rfl
@[simp] theorem swSet_red (s : State) (i : Nat) (v : BitVec 16) : (s.swSet i v).red = s.red := rfl
@[simp] theorem swSet_hedge (s : State) (i : Nat) (v : BitVec 16) : (s.swSet i v).hedge = s.hedge := rfl
@[simp] theorem swSet_upd (s : State) (i : Nat) (v : BitVec 16) : (s.swSet i v).upd = s.upd := rfl
@[simp] theorem swSet_eth (s : State) (i : Nat) (v : BitVec 16) : (s.swSet i v).eth = s.eth := rfl
@[simp] theorem swSet_mbs (s : State) (i : Nat) (v : BitVec 16) : (s.swSet i v).mbs = s.mbs := rfl
@[simp] theorem swSet_canPorts (s : State) (i : Nat) (v : BitVec 16) : (s.swSet i v).canPorts = s.canPorts := rfl
@[simp] theorem swSet_wdg (s : State) (i : Nat) (v : BitVec 16) : (s.swSet i v).wdg = s.wdg := rfl
@[simp] theorem swSet_store (s : State) (i : Nat) (v : BitVec 16) : (s.swSet i v).store = s.store := rfl
@[simp] theorem swSet_qs (s : State) (i : Nat) (v : BitVec 16) : (s.swSet i v).qs = s.qs := rfl
@[simp] theorem swSet_recorder (s : State) (i : Nat) (v : BitVec 16) : (s.swSet i v).recorder = s.recorder := rfl
@[simp] theorem swSet_retMap (s : State) (i : Nat) (v : BitVec 16) : (s.swSet i v).retMap = s.retMap := rfl
@[simp] theorem swSet_qsBaseRow (s : State) (i : Nat) (v : BitVec 16) : (s.swSet i v).qsBaseRow = s.qsBaseRow := rfl
@[simp] theorem swSet_keep (s : State) (i : Nat) (v : BitVec 16) : (s.swSet i v).keep = s.keep := rfl
@[simp] theorem swSet_int (s : State) (i : Nat) (v : BitVec 16) : (s.swSet i v).int = s.int := rfl
@[simp] theorem swSet_rtc (s : State) (i : Nat) (v : BitVec 16) : (s.swSet i v).rtc = s.rtc := rfl
@[simp] theorem swSet_supply (s : State) (i : Nat) (v : BitVec 16) : (s.swSet i v).supply = s.supply := rfl
@[simp] theorem swSet_evq (s : State) (i : Nat) (v : BitVec 16) : (s.swSet i v).evq = s.evq := rfl
@[simp] theorem swSet_evOut (s : State) (i : Nat) (v : BitVec 16) : (s.swSet i v).evOut = s.evOut := rfl
@[simp] theorem swSet_obs (s : State) (i : Nat) (v : BitVec 16) : (s.swSet i v).obs = s.obs := rfl
@[simp] theorem swSet_trace (s : State) (i : Nat) (v : BitVec 16) : (s.swSet i v).trace = s.trace := rfl
@[simp] theorem swSet_pmcSnap (s : State) (i : Nat) (v : BitVec 16) : (s.swSet i v).pmcSnap = s.pmcSnap := rfl
@[simp] theorem swSet_tx (s : State) (i : Nat) (v : BitVec 16) : (s.swSet i v).tx = s.tx := rfl
@[simp] theorem swSet_hiLatch (s : State) (i : Nat) (v : BitVec 16) : (s.swSet i v).hiLatch = s.hiLatch := rfl
@[simp] theorem swSet_readback (s : State) (i : Nat) (v : BitVec 16) : (s.swSet i v).readback = s.readback := rfl
@[simp] theorem swSet_get_strand (s : State) (i : Nat) (v : BitVec 16) (j : Nat) : (s.swSet i v).strand j = s.strand j := rfl
@[simp] theorem swSet_get_cfg (s : State) (i : Nat) (v : BitVec 16) (j : Nat) : (s.swSet i v).cfg j = s.cfg j := rfl
@[simp] theorem swSet_get_cls (s : State) (i : Nat) (v : BitVec 16) (j : Nat) : (s.swSet i v).cls j = s.cls j := rfl
@[simp] theorem swSet_get_pipe (s : State) (i : Nat) (v : BitVec 16) (j : Nat) : (s.swSet i v).pipe j = s.pipe j := rfl
@[simp] theorem swSet_get_engine (s : State) (i : Nat) (v : BitVec 16) (j : Nat) : (s.swSet i v).engine j = s.engine j := rfl
@[simp] theorem swSet_get_uc (s : State) (i : Nat) (v : BitVec 16) (j : Nat) : (s.swSet i v).uc j = s.uc j := rfl
@[simp] theorem swSet_get_dio (s : State) (i : Nat) (v : BitVec 16) (j : Nat) : (s.swSet i v).dio j = s.dio j := rfl
@[simp] theorem swSet_get_rget (s : State) (i : Nat) (v : BitVec 16) (j : Nat) : (s.swSet i v).rget j = s.rget j := rfl
@[simp] theorem swSet_get_fget (s : State) (i : Nat) (v : BitVec 16) (g : Fld) : (s.swSet i v).fget g = s.fget g := rfl
@[simp] theorem swSet_get_flag (s : State) (i : Nat) (v : BitVec 16) (g : Fld) : (s.swSet i v).flag g = s.flag g := rfl
@[simp] theorem swSet_get_mode (s : State) (i : Nat) (v : BitVec 16) : (s.swSet i v).mode = s.mode := rfl
@[simp] theorem swSet_get_mget (s : State) (i : Nat) (v : BitVec 16) (j : Nat) : (s.swSet i v).mget j = s.mget j := rfl

/-! ### `setStrand` -/

@[simp] theorem setStrand_pending (s : State) (st : Nat) (x : Strand) : (s.setStrand st x).pending = s.pending := rfl
@[simp] theorem setStrand_fab (s : State) (st : Nat) (x : Strand) : (s.setStrand st x).fab = s.fab := rfl
@[simp] theorem setStrand_tb (s : State) (st : Nat) (x : Strand) : (s.setStrand st x).tb = s.tb := rfl
@[simp] theorem setStrand_tbPhase (s : State) (st : Nat) (x : Strand) : (s.setStrand st x).tbPhase = s.tbPhase := rfl
@[simp] theorem setStrand_free (s : State) (st : Nat) (x : Strand) : (s.setStrand st x).free = s.free := rfl
@[simp] theorem setStrand_regs (s : State) (st : Nat) (x : Strand) : (s.setStrand st x).regs = s.regs := rfl
@[simp] theorem setStrand_mem (s : State) (st : Nat) (x : Strand) : (s.setStrand st x).mem = s.mem := rfl
@[simp] theorem setStrand_integ (s : State) (st : Nat) (x : Strand) : (s.setStrand st x).integ = s.integ := rfl
@[simp] theorem setStrand_img (s : State) (st : Nat) (x : Strand) : (s.setStrand st x).img = s.img := rfl
@[simp] theorem setStrand_sw (s : State) (st : Nat) (x : Strand) : (s.setStrand st x).sw = s.sw := rfl
@[simp] theorem setStrand_heddle (s : State) (st : Nat) (x : Strand) : (s.setStrand st x).heddle = s.heddle := rfl
@[simp] theorem setStrand_entries (s : State) (st : Nat) (x : Strand) : (s.setStrand st x).entries = s.entries := rfl
@[simp] theorem setStrand_forces (s : State) (st : Nat) (x : Strand) : (s.setStrand st x).forces = s.forces := rfl
@[simp] theorem setStrand_forceReq (s : State) (st : Nat) (x : Strand) : (s.setStrand st x).forceReq = s.forceReq := rfl
@[simp] theorem setStrand_ctl (s : State) (st : Nat) (x : Strand) : (s.setStrand st x).ctl = s.ctl := rfl
@[simp] theorem setStrand_scfg (s : State) (st : Nat) (x : Strand) : (s.setStrand st x).scfg = s.scfg := rfl
@[simp] theorem setStrand_inflight (s : State) (st : Nat) (x : Strand) : (s.setStrand st x).inflight = s.inflight := rfl
@[simp] theorem setStrand_fabWait (s : State) (st : Nat) (x : Strand) : (s.setStrand st x).fabWait = s.fabWait := rfl
@[simp] theorem setStrand_fabServed (s : State) (st : Nat) (x : Strand) : (s.setStrand st x).fabServed = s.fabServed := rfl
@[simp] theorem setStrand_remoteResv (s : State) (st : Nat) (x : Strand) : (s.setStrand st x).remoteResv = s.remoteResv := rfl
@[simp] theorem setStrand_classes (s : State) (st : Nat) (x : Strand) : (s.setStrand st x).classes = s.classes := rfl
@[simp] theorem setStrand_pipes (s : State) (st : Nat) (x : Strand) : (s.setStrand st x).pipes = s.pipes := rfl
@[simp] theorem setStrand_engines (s : State) (st : Nat) (x : Strand) : (s.setStrand st x).engines = s.engines := rfl
@[simp] theorem setStrand_ucs (s : State) (st : Nat) (x : Strand) : (s.setStrand st x).ucs = s.ucs := rfl
@[simp] theorem setStrand_dios (s : State) (st : Nat) (x : Strand) : (s.setStrand st x).dios = s.dios := rfl
@[simp] theorem setStrand_cts (s : State) (st : Nat) (x : Strand) : (s.setStrand st x).cts = s.cts := rfl
@[simp] theorem setStrand_seFailedKeep (s : State) (st : Nat) (x : Strand) : (s.setStrand st x).seFailedKeep = s.seFailedKeep := rfl
@[simp] theorem setStrand_streamCfg (s : State) (st : Nat) (x : Strand) : (s.setStrand st x).streamCfg = s.streamCfg := rfl
@[simp] theorem setStrand_pipeSrc (s : State) (st : Nat) (x : Strand) : (s.setStrand st x).pipeSrc = s.pipeSrc := rfl
@[simp] theorem setStrand_config (s : State) (st : Nat) (x : Strand) : (s.setStrand st x).config = s.config := rfl
@[simp] theorem setStrand_journal (s : State) (st : Nat) (x : Strand) : (s.setStrand st x).journal = s.journal := rfl
@[simp] theorem setStrand_edit (s : State) (st : Nat) (x : Strand) : (s.setStrand st x).edit = s.edit := rfl
@[simp] theorem setStrand_red (s : State) (st : Nat) (x : Strand) : (s.setStrand st x).red = s.red := rfl
@[simp] theorem setStrand_hedge (s : State) (st : Nat) (x : Strand) : (s.setStrand st x).hedge = s.hedge := rfl
@[simp] theorem setStrand_upd (s : State) (st : Nat) (x : Strand) : (s.setStrand st x).upd = s.upd := rfl
@[simp] theorem setStrand_eth (s : State) (st : Nat) (x : Strand) : (s.setStrand st x).eth = s.eth := rfl
@[simp] theorem setStrand_mbs (s : State) (st : Nat) (x : Strand) : (s.setStrand st x).mbs = s.mbs := rfl
@[simp] theorem setStrand_canPorts (s : State) (st : Nat) (x : Strand) : (s.setStrand st x).canPorts = s.canPorts := rfl
@[simp] theorem setStrand_wdg (s : State) (st : Nat) (x : Strand) : (s.setStrand st x).wdg = s.wdg := rfl
@[simp] theorem setStrand_store (s : State) (st : Nat) (x : Strand) : (s.setStrand st x).store = s.store := rfl
@[simp] theorem setStrand_qs (s : State) (st : Nat) (x : Strand) : (s.setStrand st x).qs = s.qs := rfl
@[simp] theorem setStrand_recorder (s : State) (st : Nat) (x : Strand) : (s.setStrand st x).recorder = s.recorder := rfl
@[simp] theorem setStrand_retMap (s : State) (st : Nat) (x : Strand) : (s.setStrand st x).retMap = s.retMap := rfl
@[simp] theorem setStrand_qsBaseRow (s : State) (st : Nat) (x : Strand) : (s.setStrand st x).qsBaseRow = s.qsBaseRow := rfl
@[simp] theorem setStrand_keep (s : State) (st : Nat) (x : Strand) : (s.setStrand st x).keep = s.keep := rfl
@[simp] theorem setStrand_int (s : State) (st : Nat) (x : Strand) : (s.setStrand st x).int = s.int := rfl
@[simp] theorem setStrand_rtc (s : State) (st : Nat) (x : Strand) : (s.setStrand st x).rtc = s.rtc := rfl
@[simp] theorem setStrand_supply (s : State) (st : Nat) (x : Strand) : (s.setStrand st x).supply = s.supply := rfl
@[simp] theorem setStrand_evq (s : State) (st : Nat) (x : Strand) : (s.setStrand st x).evq = s.evq := rfl
@[simp] theorem setStrand_evOut (s : State) (st : Nat) (x : Strand) : (s.setStrand st x).evOut = s.evOut := rfl
@[simp] theorem setStrand_obs (s : State) (st : Nat) (x : Strand) : (s.setStrand st x).obs = s.obs := rfl
@[simp] theorem setStrand_trace (s : State) (st : Nat) (x : Strand) : (s.setStrand st x).trace = s.trace := rfl
@[simp] theorem setStrand_pmcSnap (s : State) (st : Nat) (x : Strand) : (s.setStrand st x).pmcSnap = s.pmcSnap := rfl
@[simp] theorem setStrand_tx (s : State) (st : Nat) (x : Strand) : (s.setStrand st x).tx = s.tx := rfl
@[simp] theorem setStrand_hiLatch (s : State) (st : Nat) (x : Strand) : (s.setStrand st x).hiLatch = s.hiLatch := rfl
@[simp] theorem setStrand_readback (s : State) (st : Nat) (x : Strand) : (s.setStrand st x).readback = s.readback := rfl
@[simp] theorem setStrand_get_cfg (s : State) (st : Nat) (x : Strand) (j : Nat) : (s.setStrand st x).cfg j = s.cfg j := rfl
@[simp] theorem setStrand_get_cls (s : State) (st : Nat) (x : Strand) (j : Nat) : (s.setStrand st x).cls j = s.cls j := rfl
@[simp] theorem setStrand_get_pipe (s : State) (st : Nat) (x : Strand) (j : Nat) : (s.setStrand st x).pipe j = s.pipe j := rfl
@[simp] theorem setStrand_get_engine (s : State) (st : Nat) (x : Strand) (j : Nat) : (s.setStrand st x).engine j = s.engine j := rfl
@[simp] theorem setStrand_get_uc (s : State) (st : Nat) (x : Strand) (j : Nat) : (s.setStrand st x).uc j = s.uc j := rfl
@[simp] theorem setStrand_get_dio (s : State) (st : Nat) (x : Strand) (j : Nat) : (s.setStrand st x).dio j = s.dio j := rfl
@[simp] theorem setStrand_get_rget (s : State) (st : Nat) (x : Strand) (j : Nat) : (s.setStrand st x).rget j = s.rget j := rfl
@[simp] theorem setStrand_get_fget (s : State) (st : Nat) (x : Strand) (g : Fld) : (s.setStrand st x).fget g = s.fget g := rfl
@[simp] theorem setStrand_get_flag (s : State) (st : Nat) (x : Strand) (g : Fld) : (s.setStrand st x).flag g = s.flag g := rfl
@[simp] theorem setStrand_get_mode (s : State) (st : Nat) (x : Strand) : (s.setStrand st x).mode = s.mode := rfl
@[simp] theorem setStrand_get_mget (s : State) (st : Nat) (x : Strand) (j : Nat) : (s.setStrand st x).mget j = s.mget j := rfl
@[simp] theorem setStrand_get_swGet (s : State) (st : Nat) (x : Strand) (j : Nat) : (s.setStrand st x).swGet j = s.swGet j := rfl

/-! ### `modStrand` -/

@[simp] theorem modStrand_pending (s : State) (st : Nat) (f : Strand → Strand) : (s.modStrand st f).pending = s.pending := rfl
@[simp] theorem modStrand_fab (s : State) (st : Nat) (f : Strand → Strand) : (s.modStrand st f).fab = s.fab := rfl
@[simp] theorem modStrand_tb (s : State) (st : Nat) (f : Strand → Strand) : (s.modStrand st f).tb = s.tb := rfl
@[simp] theorem modStrand_tbPhase (s : State) (st : Nat) (f : Strand → Strand) : (s.modStrand st f).tbPhase = s.tbPhase := rfl
@[simp] theorem modStrand_free (s : State) (st : Nat) (f : Strand → Strand) : (s.modStrand st f).free = s.free := rfl
@[simp] theorem modStrand_regs (s : State) (st : Nat) (f : Strand → Strand) : (s.modStrand st f).regs = s.regs := rfl
@[simp] theorem modStrand_mem (s : State) (st : Nat) (f : Strand → Strand) : (s.modStrand st f).mem = s.mem := rfl
@[simp] theorem modStrand_integ (s : State) (st : Nat) (f : Strand → Strand) : (s.modStrand st f).integ = s.integ := rfl
@[simp] theorem modStrand_img (s : State) (st : Nat) (f : Strand → Strand) : (s.modStrand st f).img = s.img := rfl
@[simp] theorem modStrand_sw (s : State) (st : Nat) (f : Strand → Strand) : (s.modStrand st f).sw = s.sw := rfl
@[simp] theorem modStrand_heddle (s : State) (st : Nat) (f : Strand → Strand) : (s.modStrand st f).heddle = s.heddle := rfl
@[simp] theorem modStrand_entries (s : State) (st : Nat) (f : Strand → Strand) : (s.modStrand st f).entries = s.entries := rfl
@[simp] theorem modStrand_forces (s : State) (st : Nat) (f : Strand → Strand) : (s.modStrand st f).forces = s.forces := rfl
@[simp] theorem modStrand_forceReq (s : State) (st : Nat) (f : Strand → Strand) : (s.modStrand st f).forceReq = s.forceReq := rfl
@[simp] theorem modStrand_ctl (s : State) (st : Nat) (f : Strand → Strand) : (s.modStrand st f).ctl = s.ctl := rfl
@[simp] theorem modStrand_scfg (s : State) (st : Nat) (f : Strand → Strand) : (s.modStrand st f).scfg = s.scfg := rfl
@[simp] theorem modStrand_inflight (s : State) (st : Nat) (f : Strand → Strand) : (s.modStrand st f).inflight = s.inflight := rfl
@[simp] theorem modStrand_fabWait (s : State) (st : Nat) (f : Strand → Strand) : (s.modStrand st f).fabWait = s.fabWait := rfl
@[simp] theorem modStrand_fabServed (s : State) (st : Nat) (f : Strand → Strand) : (s.modStrand st f).fabServed = s.fabServed := rfl
@[simp] theorem modStrand_remoteResv (s : State) (st : Nat) (f : Strand → Strand) : (s.modStrand st f).remoteResv = s.remoteResv := rfl
@[simp] theorem modStrand_classes (s : State) (st : Nat) (f : Strand → Strand) : (s.modStrand st f).classes = s.classes := rfl
@[simp] theorem modStrand_pipes (s : State) (st : Nat) (f : Strand → Strand) : (s.modStrand st f).pipes = s.pipes := rfl
@[simp] theorem modStrand_engines (s : State) (st : Nat) (f : Strand → Strand) : (s.modStrand st f).engines = s.engines := rfl
@[simp] theorem modStrand_ucs (s : State) (st : Nat) (f : Strand → Strand) : (s.modStrand st f).ucs = s.ucs := rfl
@[simp] theorem modStrand_dios (s : State) (st : Nat) (f : Strand → Strand) : (s.modStrand st f).dios = s.dios := rfl
@[simp] theorem modStrand_cts (s : State) (st : Nat) (f : Strand → Strand) : (s.modStrand st f).cts = s.cts := rfl
@[simp] theorem modStrand_seFailedKeep (s : State) (st : Nat) (f : Strand → Strand) : (s.modStrand st f).seFailedKeep = s.seFailedKeep := rfl
@[simp] theorem modStrand_streamCfg (s : State) (st : Nat) (f : Strand → Strand) : (s.modStrand st f).streamCfg = s.streamCfg := rfl
@[simp] theorem modStrand_pipeSrc (s : State) (st : Nat) (f : Strand → Strand) : (s.modStrand st f).pipeSrc = s.pipeSrc := rfl
@[simp] theorem modStrand_config (s : State) (st : Nat) (f : Strand → Strand) : (s.modStrand st f).config = s.config := rfl
@[simp] theorem modStrand_journal (s : State) (st : Nat) (f : Strand → Strand) : (s.modStrand st f).journal = s.journal := rfl
@[simp] theorem modStrand_edit (s : State) (st : Nat) (f : Strand → Strand) : (s.modStrand st f).edit = s.edit := rfl
@[simp] theorem modStrand_red (s : State) (st : Nat) (f : Strand → Strand) : (s.modStrand st f).red = s.red := rfl
@[simp] theorem modStrand_hedge (s : State) (st : Nat) (f : Strand → Strand) : (s.modStrand st f).hedge = s.hedge := rfl
@[simp] theorem modStrand_upd (s : State) (st : Nat) (f : Strand → Strand) : (s.modStrand st f).upd = s.upd := rfl
@[simp] theorem modStrand_eth (s : State) (st : Nat) (f : Strand → Strand) : (s.modStrand st f).eth = s.eth := rfl
@[simp] theorem modStrand_mbs (s : State) (st : Nat) (f : Strand → Strand) : (s.modStrand st f).mbs = s.mbs := rfl
@[simp] theorem modStrand_canPorts (s : State) (st : Nat) (f : Strand → Strand) : (s.modStrand st f).canPorts = s.canPorts := rfl
@[simp] theorem modStrand_wdg (s : State) (st : Nat) (f : Strand → Strand) : (s.modStrand st f).wdg = s.wdg := rfl
@[simp] theorem modStrand_store (s : State) (st : Nat) (f : Strand → Strand) : (s.modStrand st f).store = s.store := rfl
@[simp] theorem modStrand_qs (s : State) (st : Nat) (f : Strand → Strand) : (s.modStrand st f).qs = s.qs := rfl
@[simp] theorem modStrand_recorder (s : State) (st : Nat) (f : Strand → Strand) : (s.modStrand st f).recorder = s.recorder := rfl
@[simp] theorem modStrand_retMap (s : State) (st : Nat) (f : Strand → Strand) : (s.modStrand st f).retMap = s.retMap := rfl
@[simp] theorem modStrand_qsBaseRow (s : State) (st : Nat) (f : Strand → Strand) : (s.modStrand st f).qsBaseRow = s.qsBaseRow := rfl
@[simp] theorem modStrand_keep (s : State) (st : Nat) (f : Strand → Strand) : (s.modStrand st f).keep = s.keep := rfl
@[simp] theorem modStrand_int (s : State) (st : Nat) (f : Strand → Strand) : (s.modStrand st f).int = s.int := rfl
@[simp] theorem modStrand_rtc (s : State) (st : Nat) (f : Strand → Strand) : (s.modStrand st f).rtc = s.rtc := rfl
@[simp] theorem modStrand_supply (s : State) (st : Nat) (f : Strand → Strand) : (s.modStrand st f).supply = s.supply := rfl
@[simp] theorem modStrand_evq (s : State) (st : Nat) (f : Strand → Strand) : (s.modStrand st f).evq = s.evq := rfl
@[simp] theorem modStrand_evOut (s : State) (st : Nat) (f : Strand → Strand) : (s.modStrand st f).evOut = s.evOut := rfl
@[simp] theorem modStrand_obs (s : State) (st : Nat) (f : Strand → Strand) : (s.modStrand st f).obs = s.obs := rfl
@[simp] theorem modStrand_trace (s : State) (st : Nat) (f : Strand → Strand) : (s.modStrand st f).trace = s.trace := rfl
@[simp] theorem modStrand_pmcSnap (s : State) (st : Nat) (f : Strand → Strand) : (s.modStrand st f).pmcSnap = s.pmcSnap := rfl
@[simp] theorem modStrand_tx (s : State) (st : Nat) (f : Strand → Strand) : (s.modStrand st f).tx = s.tx := rfl
@[simp] theorem modStrand_hiLatch (s : State) (st : Nat) (f : Strand → Strand) : (s.modStrand st f).hiLatch = s.hiLatch := rfl
@[simp] theorem modStrand_readback (s : State) (st : Nat) (f : Strand → Strand) : (s.modStrand st f).readback = s.readback := rfl
@[simp] theorem modStrand_get_cfg (s : State) (st : Nat) (f : Strand → Strand) (j : Nat) : (s.modStrand st f).cfg j = s.cfg j := rfl
@[simp] theorem modStrand_get_cls (s : State) (st : Nat) (f : Strand → Strand) (j : Nat) : (s.modStrand st f).cls j = s.cls j := rfl
@[simp] theorem modStrand_get_pipe (s : State) (st : Nat) (f : Strand → Strand) (j : Nat) : (s.modStrand st f).pipe j = s.pipe j := rfl
@[simp] theorem modStrand_get_engine (s : State) (st : Nat) (f : Strand → Strand) (j : Nat) : (s.modStrand st f).engine j = s.engine j := rfl
@[simp] theorem modStrand_get_uc (s : State) (st : Nat) (f : Strand → Strand) (j : Nat) : (s.modStrand st f).uc j = s.uc j := rfl
@[simp] theorem modStrand_get_dio (s : State) (st : Nat) (f : Strand → Strand) (j : Nat) : (s.modStrand st f).dio j = s.dio j := rfl
@[simp] theorem modStrand_get_rget (s : State) (st : Nat) (f : Strand → Strand) (j : Nat) : (s.modStrand st f).rget j = s.rget j := rfl
@[simp] theorem modStrand_get_fget (s : State) (st : Nat) (f : Strand → Strand) (g : Fld) : (s.modStrand st f).fget g = s.fget g := rfl
@[simp] theorem modStrand_get_flag (s : State) (st : Nat) (f : Strand → Strand) (g : Fld) : (s.modStrand st f).flag g = s.flag g := rfl
@[simp] theorem modStrand_get_mode (s : State) (st : Nat) (f : Strand → Strand) : (s.modStrand st f).mode = s.mode := rfl
@[simp] theorem modStrand_get_mget (s : State) (st : Nat) (f : Strand → Strand) (j : Nat) : (s.modStrand st f).mget j = s.mget j := rfl
@[simp] theorem modStrand_get_swGet (s : State) (st : Nat) (f : Strand → Strand) (j : Nat) : (s.modStrand st f).swGet j = s.swGet j := rfl

/-! ### `setCls` -/

@[simp] theorem setCls_pending (s : State) (k : Nat) (x : ClassSt) : (s.setCls k x).pending = s.pending := rfl
@[simp] theorem setCls_fab (s : State) (k : Nat) (x : ClassSt) : (s.setCls k x).fab = s.fab := rfl
@[simp] theorem setCls_tb (s : State) (k : Nat) (x : ClassSt) : (s.setCls k x).tb = s.tb := rfl
@[simp] theorem setCls_tbPhase (s : State) (k : Nat) (x : ClassSt) : (s.setCls k x).tbPhase = s.tbPhase := rfl
@[simp] theorem setCls_free (s : State) (k : Nat) (x : ClassSt) : (s.setCls k x).free = s.free := rfl
@[simp] theorem setCls_regs (s : State) (k : Nat) (x : ClassSt) : (s.setCls k x).regs = s.regs := rfl
@[simp] theorem setCls_mem (s : State) (k : Nat) (x : ClassSt) : (s.setCls k x).mem = s.mem := rfl
@[simp] theorem setCls_integ (s : State) (k : Nat) (x : ClassSt) : (s.setCls k x).integ = s.integ := rfl
@[simp] theorem setCls_img (s : State) (k : Nat) (x : ClassSt) : (s.setCls k x).img = s.img := rfl
@[simp] theorem setCls_sw (s : State) (k : Nat) (x : ClassSt) : (s.setCls k x).sw = s.sw := rfl
@[simp] theorem setCls_heddle (s : State) (k : Nat) (x : ClassSt) : (s.setCls k x).heddle = s.heddle := rfl
@[simp] theorem setCls_entries (s : State) (k : Nat) (x : ClassSt) : (s.setCls k x).entries = s.entries := rfl
@[simp] theorem setCls_forces (s : State) (k : Nat) (x : ClassSt) : (s.setCls k x).forces = s.forces := rfl
@[simp] theorem setCls_forceReq (s : State) (k : Nat) (x : ClassSt) : (s.setCls k x).forceReq = s.forceReq := rfl
@[simp] theorem setCls_ctl (s : State) (k : Nat) (x : ClassSt) : (s.setCls k x).ctl = s.ctl := rfl
@[simp] theorem setCls_strands (s : State) (k : Nat) (x : ClassSt) : (s.setCls k x).strands = s.strands := rfl
@[simp] theorem setCls_scfg (s : State) (k : Nat) (x : ClassSt) : (s.setCls k x).scfg = s.scfg := rfl
@[simp] theorem setCls_inflight (s : State) (k : Nat) (x : ClassSt) : (s.setCls k x).inflight = s.inflight := rfl
@[simp] theorem setCls_fabWait (s : State) (k : Nat) (x : ClassSt) : (s.setCls k x).fabWait = s.fabWait := rfl
@[simp] theorem setCls_fabServed (s : State) (k : Nat) (x : ClassSt) : (s.setCls k x).fabServed = s.fabServed := rfl
@[simp] theorem setCls_remoteResv (s : State) (k : Nat) (x : ClassSt) : (s.setCls k x).remoteResv = s.remoteResv := rfl
@[simp] theorem setCls_pipes (s : State) (k : Nat) (x : ClassSt) : (s.setCls k x).pipes = s.pipes := rfl
@[simp] theorem setCls_engines (s : State) (k : Nat) (x : ClassSt) : (s.setCls k x).engines = s.engines := rfl
@[simp] theorem setCls_ucs (s : State) (k : Nat) (x : ClassSt) : (s.setCls k x).ucs = s.ucs := rfl
@[simp] theorem setCls_dios (s : State) (k : Nat) (x : ClassSt) : (s.setCls k x).dios = s.dios := rfl
@[simp] theorem setCls_cts (s : State) (k : Nat) (x : ClassSt) : (s.setCls k x).cts = s.cts := rfl
@[simp] theorem setCls_seFailedKeep (s : State) (k : Nat) (x : ClassSt) : (s.setCls k x).seFailedKeep = s.seFailedKeep := rfl
@[simp] theorem setCls_streamCfg (s : State) (k : Nat) (x : ClassSt) : (s.setCls k x).streamCfg = s.streamCfg := rfl
@[simp] theorem setCls_pipeSrc (s : State) (k : Nat) (x : ClassSt) : (s.setCls k x).pipeSrc = s.pipeSrc := rfl
@[simp] theorem setCls_config (s : State) (k : Nat) (x : ClassSt) : (s.setCls k x).config = s.config := rfl
@[simp] theorem setCls_journal (s : State) (k : Nat) (x : ClassSt) : (s.setCls k x).journal = s.journal := rfl
@[simp] theorem setCls_edit (s : State) (k : Nat) (x : ClassSt) : (s.setCls k x).edit = s.edit := rfl
@[simp] theorem setCls_red (s : State) (k : Nat) (x : ClassSt) : (s.setCls k x).red = s.red := rfl
@[simp] theorem setCls_hedge (s : State) (k : Nat) (x : ClassSt) : (s.setCls k x).hedge = s.hedge := rfl
@[simp] theorem setCls_upd (s : State) (k : Nat) (x : ClassSt) : (s.setCls k x).upd = s.upd := rfl
@[simp] theorem setCls_eth (s : State) (k : Nat) (x : ClassSt) : (s.setCls k x).eth = s.eth := rfl
@[simp] theorem setCls_mbs (s : State) (k : Nat) (x : ClassSt) : (s.setCls k x).mbs = s.mbs := rfl
@[simp] theorem setCls_canPorts (s : State) (k : Nat) (x : ClassSt) : (s.setCls k x).canPorts = s.canPorts := rfl
@[simp] theorem setCls_wdg (s : State) (k : Nat) (x : ClassSt) : (s.setCls k x).wdg = s.wdg := rfl
@[simp] theorem setCls_store (s : State) (k : Nat) (x : ClassSt) : (s.setCls k x).store = s.store := rfl
@[simp] theorem setCls_qs (s : State) (k : Nat) (x : ClassSt) : (s.setCls k x).qs = s.qs := rfl
@[simp] theorem setCls_recorder (s : State) (k : Nat) (x : ClassSt) : (s.setCls k x).recorder = s.recorder := rfl
@[simp] theorem setCls_retMap (s : State) (k : Nat) (x : ClassSt) : (s.setCls k x).retMap = s.retMap := rfl
@[simp] theorem setCls_qsBaseRow (s : State) (k : Nat) (x : ClassSt) : (s.setCls k x).qsBaseRow = s.qsBaseRow := rfl
@[simp] theorem setCls_keep (s : State) (k : Nat) (x : ClassSt) : (s.setCls k x).keep = s.keep := rfl
@[simp] theorem setCls_int (s : State) (k : Nat) (x : ClassSt) : (s.setCls k x).int = s.int := rfl
@[simp] theorem setCls_rtc (s : State) (k : Nat) (x : ClassSt) : (s.setCls k x).rtc = s.rtc := rfl
@[simp] theorem setCls_supply (s : State) (k : Nat) (x : ClassSt) : (s.setCls k x).supply = s.supply := rfl
@[simp] theorem setCls_evq (s : State) (k : Nat) (x : ClassSt) : (s.setCls k x).evq = s.evq := rfl
@[simp] theorem setCls_evOut (s : State) (k : Nat) (x : ClassSt) : (s.setCls k x).evOut = s.evOut := rfl
@[simp] theorem setCls_obs (s : State) (k : Nat) (x : ClassSt) : (s.setCls k x).obs = s.obs := rfl
@[simp] theorem setCls_trace (s : State) (k : Nat) (x : ClassSt) : (s.setCls k x).trace = s.trace := rfl
@[simp] theorem setCls_pmcSnap (s : State) (k : Nat) (x : ClassSt) : (s.setCls k x).pmcSnap = s.pmcSnap := rfl
@[simp] theorem setCls_tx (s : State) (k : Nat) (x : ClassSt) : (s.setCls k x).tx = s.tx := rfl
@[simp] theorem setCls_hiLatch (s : State) (k : Nat) (x : ClassSt) : (s.setCls k x).hiLatch = s.hiLatch := rfl
@[simp] theorem setCls_readback (s : State) (k : Nat) (x : ClassSt) : (s.setCls k x).readback = s.readback := rfl
@[simp] theorem setCls_get_strand (s : State) (k : Nat) (x : ClassSt) (j : Nat) : (s.setCls k x).strand j = s.strand j := rfl
@[simp] theorem setCls_get_cfg (s : State) (k : Nat) (x : ClassSt) (j : Nat) : (s.setCls k x).cfg j = s.cfg j := rfl
@[simp] theorem setCls_get_pipe (s : State) (k : Nat) (x : ClassSt) (j : Nat) : (s.setCls k x).pipe j = s.pipe j := rfl
@[simp] theorem setCls_get_engine (s : State) (k : Nat) (x : ClassSt) (j : Nat) : (s.setCls k x).engine j = s.engine j := rfl
@[simp] theorem setCls_get_uc (s : State) (k : Nat) (x : ClassSt) (j : Nat) : (s.setCls k x).uc j = s.uc j := rfl
@[simp] theorem setCls_get_dio (s : State) (k : Nat) (x : ClassSt) (j : Nat) : (s.setCls k x).dio j = s.dio j := rfl
@[simp] theorem setCls_get_rget (s : State) (k : Nat) (x : ClassSt) (j : Nat) : (s.setCls k x).rget j = s.rget j := rfl
@[simp] theorem setCls_get_fget (s : State) (k : Nat) (x : ClassSt) (g : Fld) : (s.setCls k x).fget g = s.fget g := rfl
@[simp] theorem setCls_get_flag (s : State) (k : Nat) (x : ClassSt) (g : Fld) : (s.setCls k x).flag g = s.flag g := rfl
@[simp] theorem setCls_get_mode (s : State) (k : Nat) (x : ClassSt) : (s.setCls k x).mode = s.mode := rfl
@[simp] theorem setCls_get_mget (s : State) (k : Nat) (x : ClassSt) (j : Nat) : (s.setCls k x).mget j = s.mget j := rfl
@[simp] theorem setCls_get_swGet (s : State) (k : Nat) (x : ClassSt) (j : Nat) : (s.setCls k x).swGet j = s.swGet j := rfl

/-! ### `modCls` -/

@[simp] theorem modCls_pending (s : State) (k : Nat) (f : ClassSt → ClassSt) : (s.modCls k f).pending = s.pending := rfl
@[simp] theorem modCls_fab (s : State) (k : Nat) (f : ClassSt → ClassSt) : (s.modCls k f).fab = s.fab := rfl
@[simp] theorem modCls_tb (s : State) (k : Nat) (f : ClassSt → ClassSt) : (s.modCls k f).tb = s.tb := rfl
@[simp] theorem modCls_tbPhase (s : State) (k : Nat) (f : ClassSt → ClassSt) : (s.modCls k f).tbPhase = s.tbPhase := rfl
@[simp] theorem modCls_free (s : State) (k : Nat) (f : ClassSt → ClassSt) : (s.modCls k f).free = s.free := rfl
@[simp] theorem modCls_regs (s : State) (k : Nat) (f : ClassSt → ClassSt) : (s.modCls k f).regs = s.regs := rfl
@[simp] theorem modCls_mem (s : State) (k : Nat) (f : ClassSt → ClassSt) : (s.modCls k f).mem = s.mem := rfl
@[simp] theorem modCls_integ (s : State) (k : Nat) (f : ClassSt → ClassSt) : (s.modCls k f).integ = s.integ := rfl
@[simp] theorem modCls_img (s : State) (k : Nat) (f : ClassSt → ClassSt) : (s.modCls k f).img = s.img := rfl
@[simp] theorem modCls_sw (s : State) (k : Nat) (f : ClassSt → ClassSt) : (s.modCls k f).sw = s.sw := rfl
@[simp] theorem modCls_heddle (s : State) (k : Nat) (f : ClassSt → ClassSt) : (s.modCls k f).heddle = s.heddle := rfl
@[simp] theorem modCls_entries (s : State) (k : Nat) (f : ClassSt → ClassSt) : (s.modCls k f).entries = s.entries := rfl
@[simp] theorem modCls_forces (s : State) (k : Nat) (f : ClassSt → ClassSt) : (s.modCls k f).forces = s.forces := rfl
@[simp] theorem modCls_forceReq (s : State) (k : Nat) (f : ClassSt → ClassSt) : (s.modCls k f).forceReq = s.forceReq := rfl
@[simp] theorem modCls_ctl (s : State) (k : Nat) (f : ClassSt → ClassSt) : (s.modCls k f).ctl = s.ctl := rfl
@[simp] theorem modCls_strands (s : State) (k : Nat) (f : ClassSt → ClassSt) : (s.modCls k f).strands = s.strands := rfl
@[simp] theorem modCls_scfg (s : State) (k : Nat) (f : ClassSt → ClassSt) : (s.modCls k f).scfg = s.scfg := rfl
@[simp] theorem modCls_inflight (s : State) (k : Nat) (f : ClassSt → ClassSt) : (s.modCls k f).inflight = s.inflight := rfl
@[simp] theorem modCls_fabWait (s : State) (k : Nat) (f : ClassSt → ClassSt) : (s.modCls k f).fabWait = s.fabWait := rfl
@[simp] theorem modCls_fabServed (s : State) (k : Nat) (f : ClassSt → ClassSt) : (s.modCls k f).fabServed = s.fabServed := rfl
@[simp] theorem modCls_remoteResv (s : State) (k : Nat) (f : ClassSt → ClassSt) : (s.modCls k f).remoteResv = s.remoteResv := rfl
@[simp] theorem modCls_pipes (s : State) (k : Nat) (f : ClassSt → ClassSt) : (s.modCls k f).pipes = s.pipes := rfl
@[simp] theorem modCls_engines (s : State) (k : Nat) (f : ClassSt → ClassSt) : (s.modCls k f).engines = s.engines := rfl
@[simp] theorem modCls_ucs (s : State) (k : Nat) (f : ClassSt → ClassSt) : (s.modCls k f).ucs = s.ucs := rfl
@[simp] theorem modCls_dios (s : State) (k : Nat) (f : ClassSt → ClassSt) : (s.modCls k f).dios = s.dios := rfl
@[simp] theorem modCls_cts (s : State) (k : Nat) (f : ClassSt → ClassSt) : (s.modCls k f).cts = s.cts := rfl
@[simp] theorem modCls_seFailedKeep (s : State) (k : Nat) (f : ClassSt → ClassSt) : (s.modCls k f).seFailedKeep = s.seFailedKeep := rfl
@[simp] theorem modCls_streamCfg (s : State) (k : Nat) (f : ClassSt → ClassSt) : (s.modCls k f).streamCfg = s.streamCfg := rfl
@[simp] theorem modCls_pipeSrc (s : State) (k : Nat) (f : ClassSt → ClassSt) : (s.modCls k f).pipeSrc = s.pipeSrc := rfl
@[simp] theorem modCls_config (s : State) (k : Nat) (f : ClassSt → ClassSt) : (s.modCls k f).config = s.config := rfl
@[simp] theorem modCls_journal (s : State) (k : Nat) (f : ClassSt → ClassSt) : (s.modCls k f).journal = s.journal := rfl
@[simp] theorem modCls_edit (s : State) (k : Nat) (f : ClassSt → ClassSt) : (s.modCls k f).edit = s.edit := rfl
@[simp] theorem modCls_red (s : State) (k : Nat) (f : ClassSt → ClassSt) : (s.modCls k f).red = s.red := rfl
@[simp] theorem modCls_hedge (s : State) (k : Nat) (f : ClassSt → ClassSt) : (s.modCls k f).hedge = s.hedge := rfl
@[simp] theorem modCls_upd (s : State) (k : Nat) (f : ClassSt → ClassSt) : (s.modCls k f).upd = s.upd := rfl
@[simp] theorem modCls_eth (s : State) (k : Nat) (f : ClassSt → ClassSt) : (s.modCls k f).eth = s.eth := rfl
@[simp] theorem modCls_mbs (s : State) (k : Nat) (f : ClassSt → ClassSt) : (s.modCls k f).mbs = s.mbs := rfl
@[simp] theorem modCls_canPorts (s : State) (k : Nat) (f : ClassSt → ClassSt) : (s.modCls k f).canPorts = s.canPorts := rfl
@[simp] theorem modCls_wdg (s : State) (k : Nat) (f : ClassSt → ClassSt) : (s.modCls k f).wdg = s.wdg := rfl
@[simp] theorem modCls_store (s : State) (k : Nat) (f : ClassSt → ClassSt) : (s.modCls k f).store = s.store := rfl
@[simp] theorem modCls_qs (s : State) (k : Nat) (f : ClassSt → ClassSt) : (s.modCls k f).qs = s.qs := rfl
@[simp] theorem modCls_recorder (s : State) (k : Nat) (f : ClassSt → ClassSt) : (s.modCls k f).recorder = s.recorder := rfl
@[simp] theorem modCls_retMap (s : State) (k : Nat) (f : ClassSt → ClassSt) : (s.modCls k f).retMap = s.retMap := rfl
@[simp] theorem modCls_qsBaseRow (s : State) (k : Nat) (f : ClassSt → ClassSt) : (s.modCls k f).qsBaseRow = s.qsBaseRow := rfl
@[simp] theorem modCls_keep (s : State) (k : Nat) (f : ClassSt → ClassSt) : (s.modCls k f).keep = s.keep := rfl
@[simp] theorem modCls_int (s : State) (k : Nat) (f : ClassSt → ClassSt) : (s.modCls k f).int = s.int := rfl
@[simp] theorem modCls_rtc (s : State) (k : Nat) (f : ClassSt → ClassSt) : (s.modCls k f).rtc = s.rtc := rfl
@[simp] theorem modCls_supply (s : State) (k : Nat) (f : ClassSt → ClassSt) : (s.modCls k f).supply = s.supply := rfl
@[simp] theorem modCls_evq (s : State) (k : Nat) (f : ClassSt → ClassSt) : (s.modCls k f).evq = s.evq := rfl
@[simp] theorem modCls_evOut (s : State) (k : Nat) (f : ClassSt → ClassSt) : (s.modCls k f).evOut = s.evOut := rfl
@[simp] theorem modCls_obs (s : State) (k : Nat) (f : ClassSt → ClassSt) : (s.modCls k f).obs = s.obs := rfl
@[simp] theorem modCls_trace (s : State) (k : Nat) (f : ClassSt → ClassSt) : (s.modCls k f).trace = s.trace := rfl
@[simp] theorem modCls_pmcSnap (s : State) (k : Nat) (f : ClassSt → ClassSt) : (s.modCls k f).pmcSnap = s.pmcSnap := rfl
@[simp] theorem modCls_tx (s : State) (k : Nat) (f : ClassSt → ClassSt) : (s.modCls k f).tx = s.tx := rfl
@[simp] theorem modCls_hiLatch (s : State) (k : Nat) (f : ClassSt → ClassSt) : (s.modCls k f).hiLatch = s.hiLatch := rfl
@[simp] theorem modCls_readback (s : State) (k : Nat) (f : ClassSt → ClassSt) : (s.modCls k f).readback = s.readback := rfl
@[simp] theorem modCls_get_strand (s : State) (k : Nat) (f : ClassSt → ClassSt) (j : Nat) : (s.modCls k f).strand j = s.strand j := rfl
@[simp] theorem modCls_get_cfg (s : State) (k : Nat) (f : ClassSt → ClassSt) (j : Nat) : (s.modCls k f).cfg j = s.cfg j := rfl
@[simp] theorem modCls_get_pipe (s : State) (k : Nat) (f : ClassSt → ClassSt) (j : Nat) : (s.modCls k f).pipe j = s.pipe j := rfl
@[simp] theorem modCls_get_engine (s : State) (k : Nat) (f : ClassSt → ClassSt) (j : Nat) : (s.modCls k f).engine j = s.engine j := rfl
@[simp] theorem modCls_get_uc (s : State) (k : Nat) (f : ClassSt → ClassSt) (j : Nat) : (s.modCls k f).uc j = s.uc j := rfl
@[simp] theorem modCls_get_dio (s : State) (k : Nat) (f : ClassSt → ClassSt) (j : Nat) : (s.modCls k f).dio j = s.dio j := rfl
@[simp] theorem modCls_get_rget (s : State) (k : Nat) (f : ClassSt → ClassSt) (j : Nat) : (s.modCls k f).rget j = s.rget j := rfl
@[simp] theorem modCls_get_fget (s : State) (k : Nat) (f : ClassSt → ClassSt) (g : Fld) : (s.modCls k f).fget g = s.fget g := rfl
@[simp] theorem modCls_get_flag (s : State) (k : Nat) (f : ClassSt → ClassSt) (g : Fld) : (s.modCls k f).flag g = s.flag g := rfl
@[simp] theorem modCls_get_mode (s : State) (k : Nat) (f : ClassSt → ClassSt) : (s.modCls k f).mode = s.mode := rfl
@[simp] theorem modCls_get_mget (s : State) (k : Nat) (f : ClassSt → ClassSt) (j : Nat) : (s.modCls k f).mget j = s.mget j := rfl
@[simp] theorem modCls_get_swGet (s : State) (k : Nat) (f : ClassSt → ClassSt) (j : Nat) : (s.modCls k f).swGet j = s.swGet j := rfl

/-! ### `setPipe` -/

@[simp] theorem setPipe_pending (s : State) (p : Nat) (x : Pipe) : (s.setPipe p x).pending = s.pending := rfl
@[simp] theorem setPipe_fab (s : State) (p : Nat) (x : Pipe) : (s.setPipe p x).fab = s.fab := rfl
@[simp] theorem setPipe_tb (s : State) (p : Nat) (x : Pipe) : (s.setPipe p x).tb = s.tb := rfl
@[simp] theorem setPipe_tbPhase (s : State) (p : Nat) (x : Pipe) : (s.setPipe p x).tbPhase = s.tbPhase := rfl
@[simp] theorem setPipe_free (s : State) (p : Nat) (x : Pipe) : (s.setPipe p x).free = s.free := rfl
@[simp] theorem setPipe_regs (s : State) (p : Nat) (x : Pipe) : (s.setPipe p x).regs = s.regs := rfl
@[simp] theorem setPipe_mem (s : State) (p : Nat) (x : Pipe) : (s.setPipe p x).mem = s.mem := rfl
@[simp] theorem setPipe_integ (s : State) (p : Nat) (x : Pipe) : (s.setPipe p x).integ = s.integ := rfl
@[simp] theorem setPipe_img (s : State) (p : Nat) (x : Pipe) : (s.setPipe p x).img = s.img := rfl
@[simp] theorem setPipe_sw (s : State) (p : Nat) (x : Pipe) : (s.setPipe p x).sw = s.sw := rfl
@[simp] theorem setPipe_heddle (s : State) (p : Nat) (x : Pipe) : (s.setPipe p x).heddle = s.heddle := rfl
@[simp] theorem setPipe_entries (s : State) (p : Nat) (x : Pipe) : (s.setPipe p x).entries = s.entries := rfl
@[simp] theorem setPipe_forces (s : State) (p : Nat) (x : Pipe) : (s.setPipe p x).forces = s.forces := rfl
@[simp] theorem setPipe_forceReq (s : State) (p : Nat) (x : Pipe) : (s.setPipe p x).forceReq = s.forceReq := rfl
@[simp] theorem setPipe_ctl (s : State) (p : Nat) (x : Pipe) : (s.setPipe p x).ctl = s.ctl := rfl
@[simp] theorem setPipe_strands (s : State) (p : Nat) (x : Pipe) : (s.setPipe p x).strands = s.strands := rfl
@[simp] theorem setPipe_scfg (s : State) (p : Nat) (x : Pipe) : (s.setPipe p x).scfg = s.scfg := rfl
@[simp] theorem setPipe_inflight (s : State) (p : Nat) (x : Pipe) : (s.setPipe p x).inflight = s.inflight := rfl
@[simp] theorem setPipe_fabWait (s : State) (p : Nat) (x : Pipe) : (s.setPipe p x).fabWait = s.fabWait := rfl
@[simp] theorem setPipe_fabServed (s : State) (p : Nat) (x : Pipe) : (s.setPipe p x).fabServed = s.fabServed := rfl
@[simp] theorem setPipe_remoteResv (s : State) (p : Nat) (x : Pipe) : (s.setPipe p x).remoteResv = s.remoteResv := rfl
@[simp] theorem setPipe_classes (s : State) (p : Nat) (x : Pipe) : (s.setPipe p x).classes = s.classes := rfl
@[simp] theorem setPipe_engines (s : State) (p : Nat) (x : Pipe) : (s.setPipe p x).engines = s.engines := rfl
@[simp] theorem setPipe_ucs (s : State) (p : Nat) (x : Pipe) : (s.setPipe p x).ucs = s.ucs := rfl
@[simp] theorem setPipe_dios (s : State) (p : Nat) (x : Pipe) : (s.setPipe p x).dios = s.dios := rfl
@[simp] theorem setPipe_cts (s : State) (p : Nat) (x : Pipe) : (s.setPipe p x).cts = s.cts := rfl
@[simp] theorem setPipe_seFailedKeep (s : State) (p : Nat) (x : Pipe) : (s.setPipe p x).seFailedKeep = s.seFailedKeep := rfl
@[simp] theorem setPipe_streamCfg (s : State) (p : Nat) (x : Pipe) : (s.setPipe p x).streamCfg = s.streamCfg := rfl
@[simp] theorem setPipe_pipeSrc (s : State) (p : Nat) (x : Pipe) : (s.setPipe p x).pipeSrc = s.pipeSrc := rfl
@[simp] theorem setPipe_config (s : State) (p : Nat) (x : Pipe) : (s.setPipe p x).config = s.config := rfl
@[simp] theorem setPipe_journal (s : State) (p : Nat) (x : Pipe) : (s.setPipe p x).journal = s.journal := rfl
@[simp] theorem setPipe_edit (s : State) (p : Nat) (x : Pipe) : (s.setPipe p x).edit = s.edit := rfl
@[simp] theorem setPipe_red (s : State) (p : Nat) (x : Pipe) : (s.setPipe p x).red = s.red := rfl
@[simp] theorem setPipe_hedge (s : State) (p : Nat) (x : Pipe) : (s.setPipe p x).hedge = s.hedge := rfl
@[simp] theorem setPipe_upd (s : State) (p : Nat) (x : Pipe) : (s.setPipe p x).upd = s.upd := rfl
@[simp] theorem setPipe_eth (s : State) (p : Nat) (x : Pipe) : (s.setPipe p x).eth = s.eth := rfl
@[simp] theorem setPipe_mbs (s : State) (p : Nat) (x : Pipe) : (s.setPipe p x).mbs = s.mbs := rfl
@[simp] theorem setPipe_canPorts (s : State) (p : Nat) (x : Pipe) : (s.setPipe p x).canPorts = s.canPorts := rfl
@[simp] theorem setPipe_wdg (s : State) (p : Nat) (x : Pipe) : (s.setPipe p x).wdg = s.wdg := rfl
@[simp] theorem setPipe_store (s : State) (p : Nat) (x : Pipe) : (s.setPipe p x).store = s.store := rfl
@[simp] theorem setPipe_qs (s : State) (p : Nat) (x : Pipe) : (s.setPipe p x).qs = s.qs := rfl
@[simp] theorem setPipe_recorder (s : State) (p : Nat) (x : Pipe) : (s.setPipe p x).recorder = s.recorder := rfl
@[simp] theorem setPipe_retMap (s : State) (p : Nat) (x : Pipe) : (s.setPipe p x).retMap = s.retMap := rfl
@[simp] theorem setPipe_qsBaseRow (s : State) (p : Nat) (x : Pipe) : (s.setPipe p x).qsBaseRow = s.qsBaseRow := rfl
@[simp] theorem setPipe_keep (s : State) (p : Nat) (x : Pipe) : (s.setPipe p x).keep = s.keep := rfl
@[simp] theorem setPipe_int (s : State) (p : Nat) (x : Pipe) : (s.setPipe p x).int = s.int := rfl
@[simp] theorem setPipe_rtc (s : State) (p : Nat) (x : Pipe) : (s.setPipe p x).rtc = s.rtc := rfl
@[simp] theorem setPipe_supply (s : State) (p : Nat) (x : Pipe) : (s.setPipe p x).supply = s.supply := rfl
@[simp] theorem setPipe_evq (s : State) (p : Nat) (x : Pipe) : (s.setPipe p x).evq = s.evq := rfl
@[simp] theorem setPipe_evOut (s : State) (p : Nat) (x : Pipe) : (s.setPipe p x).evOut = s.evOut := rfl
@[simp] theorem setPipe_obs (s : State) (p : Nat) (x : Pipe) : (s.setPipe p x).obs = s.obs := rfl
@[simp] theorem setPipe_trace (s : State) (p : Nat) (x : Pipe) : (s.setPipe p x).trace = s.trace := rfl
@[simp] theorem setPipe_pmcSnap (s : State) (p : Nat) (x : Pipe) : (s.setPipe p x).pmcSnap = s.pmcSnap := rfl
@[simp] theorem setPipe_tx (s : State) (p : Nat) (x : Pipe) : (s.setPipe p x).tx = s.tx := rfl
@[simp] theorem setPipe_hiLatch (s : State) (p : Nat) (x : Pipe) : (s.setPipe p x).hiLatch = s.hiLatch := rfl
@[simp] theorem setPipe_readback (s : State) (p : Nat) (x : Pipe) : (s.setPipe p x).readback = s.readback := rfl
@[simp] theorem setPipe_get_strand (s : State) (p : Nat) (x : Pipe) (j : Nat) : (s.setPipe p x).strand j = s.strand j := rfl
@[simp] theorem setPipe_get_cfg (s : State) (p : Nat) (x : Pipe) (j : Nat) : (s.setPipe p x).cfg j = s.cfg j := rfl
@[simp] theorem setPipe_get_cls (s : State) (p : Nat) (x : Pipe) (j : Nat) : (s.setPipe p x).cls j = s.cls j := rfl
@[simp] theorem setPipe_get_engine (s : State) (p : Nat) (x : Pipe) (j : Nat) : (s.setPipe p x).engine j = s.engine j := rfl
@[simp] theorem setPipe_get_uc (s : State) (p : Nat) (x : Pipe) (j : Nat) : (s.setPipe p x).uc j = s.uc j := rfl
@[simp] theorem setPipe_get_dio (s : State) (p : Nat) (x : Pipe) (j : Nat) : (s.setPipe p x).dio j = s.dio j := rfl
@[simp] theorem setPipe_get_rget (s : State) (p : Nat) (x : Pipe) (j : Nat) : (s.setPipe p x).rget j = s.rget j := rfl
@[simp] theorem setPipe_get_fget (s : State) (p : Nat) (x : Pipe) (g : Fld) : (s.setPipe p x).fget g = s.fget g := rfl
@[simp] theorem setPipe_get_flag (s : State) (p : Nat) (x : Pipe) (g : Fld) : (s.setPipe p x).flag g = s.flag g := rfl
@[simp] theorem setPipe_get_mode (s : State) (p : Nat) (x : Pipe) : (s.setPipe p x).mode = s.mode := rfl
@[simp] theorem setPipe_get_mget (s : State) (p : Nat) (x : Pipe) (j : Nat) : (s.setPipe p x).mget j = s.mget j := rfl
@[simp] theorem setPipe_get_swGet (s : State) (p : Nat) (x : Pipe) (j : Nat) : (s.setPipe p x).swGet j = s.swGet j := rfl

/-! ### `setEngine` -/

@[simp] theorem setEngine_pending (s : State) (k : Nat) (x : Engine) : (s.setEngine k x).pending = s.pending := rfl
@[simp] theorem setEngine_fab (s : State) (k : Nat) (x : Engine) : (s.setEngine k x).fab = s.fab := rfl
@[simp] theorem setEngine_tb (s : State) (k : Nat) (x : Engine) : (s.setEngine k x).tb = s.tb := rfl
@[simp] theorem setEngine_tbPhase (s : State) (k : Nat) (x : Engine) : (s.setEngine k x).tbPhase = s.tbPhase := rfl
@[simp] theorem setEngine_free (s : State) (k : Nat) (x : Engine) : (s.setEngine k x).free = s.free := rfl
@[simp] theorem setEngine_regs (s : State) (k : Nat) (x : Engine) : (s.setEngine k x).regs = s.regs := rfl
@[simp] theorem setEngine_mem (s : State) (k : Nat) (x : Engine) : (s.setEngine k x).mem = s.mem := rfl
@[simp] theorem setEngine_integ (s : State) (k : Nat) (x : Engine) : (s.setEngine k x).integ = s.integ := rfl
@[simp] theorem setEngine_img (s : State) (k : Nat) (x : Engine) : (s.setEngine k x).img = s.img := rfl
@[simp] theorem setEngine_sw (s : State) (k : Nat) (x : Engine) : (s.setEngine k x).sw = s.sw := rfl
@[simp] theorem setEngine_heddle (s : State) (k : Nat) (x : Engine) : (s.setEngine k x).heddle = s.heddle := rfl
@[simp] theorem setEngine_entries (s : State) (k : Nat) (x : Engine) : (s.setEngine k x).entries = s.entries := rfl
@[simp] theorem setEngine_forces (s : State) (k : Nat) (x : Engine) : (s.setEngine k x).forces = s.forces := rfl
@[simp] theorem setEngine_forceReq (s : State) (k : Nat) (x : Engine) : (s.setEngine k x).forceReq = s.forceReq := rfl
@[simp] theorem setEngine_ctl (s : State) (k : Nat) (x : Engine) : (s.setEngine k x).ctl = s.ctl := rfl
@[simp] theorem setEngine_strands (s : State) (k : Nat) (x : Engine) : (s.setEngine k x).strands = s.strands := rfl
@[simp] theorem setEngine_scfg (s : State) (k : Nat) (x : Engine) : (s.setEngine k x).scfg = s.scfg := rfl
@[simp] theorem setEngine_inflight (s : State) (k : Nat) (x : Engine) : (s.setEngine k x).inflight = s.inflight := rfl
@[simp] theorem setEngine_fabWait (s : State) (k : Nat) (x : Engine) : (s.setEngine k x).fabWait = s.fabWait := rfl
@[simp] theorem setEngine_fabServed (s : State) (k : Nat) (x : Engine) : (s.setEngine k x).fabServed = s.fabServed := rfl
@[simp] theorem setEngine_remoteResv (s : State) (k : Nat) (x : Engine) : (s.setEngine k x).remoteResv = s.remoteResv := rfl
@[simp] theorem setEngine_classes (s : State) (k : Nat) (x : Engine) : (s.setEngine k x).classes = s.classes := rfl
@[simp] theorem setEngine_pipes (s : State) (k : Nat) (x : Engine) : (s.setEngine k x).pipes = s.pipes := rfl
@[simp] theorem setEngine_ucs (s : State) (k : Nat) (x : Engine) : (s.setEngine k x).ucs = s.ucs := rfl
@[simp] theorem setEngine_dios (s : State) (k : Nat) (x : Engine) : (s.setEngine k x).dios = s.dios := rfl
@[simp] theorem setEngine_cts (s : State) (k : Nat) (x : Engine) : (s.setEngine k x).cts = s.cts := rfl
@[simp] theorem setEngine_seFailedKeep (s : State) (k : Nat) (x : Engine) : (s.setEngine k x).seFailedKeep = s.seFailedKeep := rfl
@[simp] theorem setEngine_streamCfg (s : State) (k : Nat) (x : Engine) : (s.setEngine k x).streamCfg = s.streamCfg := rfl
@[simp] theorem setEngine_pipeSrc (s : State) (k : Nat) (x : Engine) : (s.setEngine k x).pipeSrc = s.pipeSrc := rfl
@[simp] theorem setEngine_config (s : State) (k : Nat) (x : Engine) : (s.setEngine k x).config = s.config := rfl
@[simp] theorem setEngine_journal (s : State) (k : Nat) (x : Engine) : (s.setEngine k x).journal = s.journal := rfl
@[simp] theorem setEngine_edit (s : State) (k : Nat) (x : Engine) : (s.setEngine k x).edit = s.edit := rfl
@[simp] theorem setEngine_red (s : State) (k : Nat) (x : Engine) : (s.setEngine k x).red = s.red := rfl
@[simp] theorem setEngine_hedge (s : State) (k : Nat) (x : Engine) : (s.setEngine k x).hedge = s.hedge := rfl
@[simp] theorem setEngine_upd (s : State) (k : Nat) (x : Engine) : (s.setEngine k x).upd = s.upd := rfl
@[simp] theorem setEngine_eth (s : State) (k : Nat) (x : Engine) : (s.setEngine k x).eth = s.eth := rfl
@[simp] theorem setEngine_mbs (s : State) (k : Nat) (x : Engine) : (s.setEngine k x).mbs = s.mbs := rfl
@[simp] theorem setEngine_canPorts (s : State) (k : Nat) (x : Engine) : (s.setEngine k x).canPorts = s.canPorts := rfl
@[simp] theorem setEngine_wdg (s : State) (k : Nat) (x : Engine) : (s.setEngine k x).wdg = s.wdg := rfl
@[simp] theorem setEngine_store (s : State) (k : Nat) (x : Engine) : (s.setEngine k x).store = s.store := rfl
@[simp] theorem setEngine_qs (s : State) (k : Nat) (x : Engine) : (s.setEngine k x).qs = s.qs := rfl
@[simp] theorem setEngine_recorder (s : State) (k : Nat) (x : Engine) : (s.setEngine k x).recorder = s.recorder := rfl
@[simp] theorem setEngine_retMap (s : State) (k : Nat) (x : Engine) : (s.setEngine k x).retMap = s.retMap := rfl
@[simp] theorem setEngine_qsBaseRow (s : State) (k : Nat) (x : Engine) : (s.setEngine k x).qsBaseRow = s.qsBaseRow := rfl
@[simp] theorem setEngine_keep (s : State) (k : Nat) (x : Engine) : (s.setEngine k x).keep = s.keep := rfl
@[simp] theorem setEngine_int (s : State) (k : Nat) (x : Engine) : (s.setEngine k x).int = s.int := rfl
@[simp] theorem setEngine_rtc (s : State) (k : Nat) (x : Engine) : (s.setEngine k x).rtc = s.rtc := rfl
@[simp] theorem setEngine_supply (s : State) (k : Nat) (x : Engine) : (s.setEngine k x).supply = s.supply := rfl
@[simp] theorem setEngine_evq (s : State) (k : Nat) (x : Engine) : (s.setEngine k x).evq = s.evq := rfl
@[simp] theorem setEngine_evOut (s : State) (k : Nat) (x : Engine) : (s.setEngine k x).evOut = s.evOut := rfl
@[simp] theorem setEngine_obs (s : State) (k : Nat) (x : Engine) : (s.setEngine k x).obs = s.obs := rfl
@[simp] theorem setEngine_trace (s : State) (k : Nat) (x : Engine) : (s.setEngine k x).trace = s.trace := rfl
@[simp] theorem setEngine_pmcSnap (s : State) (k : Nat) (x : Engine) : (s.setEngine k x).pmcSnap = s.pmcSnap := rfl
@[simp] theorem setEngine_tx (s : State) (k : Nat) (x : Engine) : (s.setEngine k x).tx = s.tx := rfl
@[simp] theorem setEngine_hiLatch (s : State) (k : Nat) (x : Engine) : (s.setEngine k x).hiLatch = s.hiLatch := rfl
@[simp] theorem setEngine_readback (s : State) (k : Nat) (x : Engine) : (s.setEngine k x).readback = s.readback := rfl
@[simp] theorem setEngine_get_strand (s : State) (k : Nat) (x : Engine) (j : Nat) : (s.setEngine k x).strand j = s.strand j := rfl
@[simp] theorem setEngine_get_cfg (s : State) (k : Nat) (x : Engine) (j : Nat) : (s.setEngine k x).cfg j = s.cfg j := rfl
@[simp] theorem setEngine_get_cls (s : State) (k : Nat) (x : Engine) (j : Nat) : (s.setEngine k x).cls j = s.cls j := rfl
@[simp] theorem setEngine_get_pipe (s : State) (k : Nat) (x : Engine) (j : Nat) : (s.setEngine k x).pipe j = s.pipe j := rfl
@[simp] theorem setEngine_get_uc (s : State) (k : Nat) (x : Engine) (j : Nat) : (s.setEngine k x).uc j = s.uc j := rfl
@[simp] theorem setEngine_get_dio (s : State) (k : Nat) (x : Engine) (j : Nat) : (s.setEngine k x).dio j = s.dio j := rfl
@[simp] theorem setEngine_get_rget (s : State) (k : Nat) (x : Engine) (j : Nat) : (s.setEngine k x).rget j = s.rget j := rfl
@[simp] theorem setEngine_get_fget (s : State) (k : Nat) (x : Engine) (g : Fld) : (s.setEngine k x).fget g = s.fget g := rfl
@[simp] theorem setEngine_get_flag (s : State) (k : Nat) (x : Engine) (g : Fld) : (s.setEngine k x).flag g = s.flag g := rfl
@[simp] theorem setEngine_get_mode (s : State) (k : Nat) (x : Engine) : (s.setEngine k x).mode = s.mode := rfl
@[simp] theorem setEngine_get_mget (s : State) (k : Nat) (x : Engine) (j : Nat) : (s.setEngine k x).mget j = s.mget j := rfl
@[simp] theorem setEngine_get_swGet (s : State) (k : Nat) (x : Engine) (j : Nat) : (s.setEngine k x).swGet j = s.swGet j := rfl

/-! ### `setUc` -/

@[simp] theorem setUc_pending (s : State) (n : Nat) (x : Uc) : (s.setUc n x).pending = s.pending := rfl
@[simp] theorem setUc_fab (s : State) (n : Nat) (x : Uc) : (s.setUc n x).fab = s.fab := rfl
@[simp] theorem setUc_tb (s : State) (n : Nat) (x : Uc) : (s.setUc n x).tb = s.tb := rfl
@[simp] theorem setUc_tbPhase (s : State) (n : Nat) (x : Uc) : (s.setUc n x).tbPhase = s.tbPhase := rfl
@[simp] theorem setUc_free (s : State) (n : Nat) (x : Uc) : (s.setUc n x).free = s.free := rfl
@[simp] theorem setUc_regs (s : State) (n : Nat) (x : Uc) : (s.setUc n x).regs = s.regs := rfl
@[simp] theorem setUc_mem (s : State) (n : Nat) (x : Uc) : (s.setUc n x).mem = s.mem := rfl
@[simp] theorem setUc_integ (s : State) (n : Nat) (x : Uc) : (s.setUc n x).integ = s.integ := rfl
@[simp] theorem setUc_img (s : State) (n : Nat) (x : Uc) : (s.setUc n x).img = s.img := rfl
@[simp] theorem setUc_sw (s : State) (n : Nat) (x : Uc) : (s.setUc n x).sw = s.sw := rfl
@[simp] theorem setUc_heddle (s : State) (n : Nat) (x : Uc) : (s.setUc n x).heddle = s.heddle := rfl
@[simp] theorem setUc_entries (s : State) (n : Nat) (x : Uc) : (s.setUc n x).entries = s.entries := rfl
@[simp] theorem setUc_forces (s : State) (n : Nat) (x : Uc) : (s.setUc n x).forces = s.forces := rfl
@[simp] theorem setUc_forceReq (s : State) (n : Nat) (x : Uc) : (s.setUc n x).forceReq = s.forceReq := rfl
@[simp] theorem setUc_ctl (s : State) (n : Nat) (x : Uc) : (s.setUc n x).ctl = s.ctl := rfl
@[simp] theorem setUc_strands (s : State) (n : Nat) (x : Uc) : (s.setUc n x).strands = s.strands := rfl
@[simp] theorem setUc_scfg (s : State) (n : Nat) (x : Uc) : (s.setUc n x).scfg = s.scfg := rfl
@[simp] theorem setUc_inflight (s : State) (n : Nat) (x : Uc) : (s.setUc n x).inflight = s.inflight := rfl
@[simp] theorem setUc_fabWait (s : State) (n : Nat) (x : Uc) : (s.setUc n x).fabWait = s.fabWait := rfl
@[simp] theorem setUc_fabServed (s : State) (n : Nat) (x : Uc) : (s.setUc n x).fabServed = s.fabServed := rfl
@[simp] theorem setUc_remoteResv (s : State) (n : Nat) (x : Uc) : (s.setUc n x).remoteResv = s.remoteResv := rfl
@[simp] theorem setUc_classes (s : State) (n : Nat) (x : Uc) : (s.setUc n x).classes = s.classes := rfl
@[simp] theorem setUc_pipes (s : State) (n : Nat) (x : Uc) : (s.setUc n x).pipes = s.pipes := rfl
@[simp] theorem setUc_engines (s : State) (n : Nat) (x : Uc) : (s.setUc n x).engines = s.engines := rfl
@[simp] theorem setUc_dios (s : State) (n : Nat) (x : Uc) : (s.setUc n x).dios = s.dios := rfl
@[simp] theorem setUc_cts (s : State) (n : Nat) (x : Uc) : (s.setUc n x).cts = s.cts := rfl
@[simp] theorem setUc_seFailedKeep (s : State) (n : Nat) (x : Uc) : (s.setUc n x).seFailedKeep = s.seFailedKeep := rfl
@[simp] theorem setUc_streamCfg (s : State) (n : Nat) (x : Uc) : (s.setUc n x).streamCfg = s.streamCfg := rfl
@[simp] theorem setUc_pipeSrc (s : State) (n : Nat) (x : Uc) : (s.setUc n x).pipeSrc = s.pipeSrc := rfl
@[simp] theorem setUc_config (s : State) (n : Nat) (x : Uc) : (s.setUc n x).config = s.config := rfl
@[simp] theorem setUc_journal (s : State) (n : Nat) (x : Uc) : (s.setUc n x).journal = s.journal := rfl
@[simp] theorem setUc_edit (s : State) (n : Nat) (x : Uc) : (s.setUc n x).edit = s.edit := rfl
@[simp] theorem setUc_red (s : State) (n : Nat) (x : Uc) : (s.setUc n x).red = s.red := rfl
@[simp] theorem setUc_hedge (s : State) (n : Nat) (x : Uc) : (s.setUc n x).hedge = s.hedge := rfl
@[simp] theorem setUc_upd (s : State) (n : Nat) (x : Uc) : (s.setUc n x).upd = s.upd := rfl
@[simp] theorem setUc_eth (s : State) (n : Nat) (x : Uc) : (s.setUc n x).eth = s.eth := rfl
@[simp] theorem setUc_mbs (s : State) (n : Nat) (x : Uc) : (s.setUc n x).mbs = s.mbs := rfl
@[simp] theorem setUc_canPorts (s : State) (n : Nat) (x : Uc) : (s.setUc n x).canPorts = s.canPorts := rfl
@[simp] theorem setUc_wdg (s : State) (n : Nat) (x : Uc) : (s.setUc n x).wdg = s.wdg := rfl
@[simp] theorem setUc_store (s : State) (n : Nat) (x : Uc) : (s.setUc n x).store = s.store := rfl
@[simp] theorem setUc_qs (s : State) (n : Nat) (x : Uc) : (s.setUc n x).qs = s.qs := rfl
@[simp] theorem setUc_recorder (s : State) (n : Nat) (x : Uc) : (s.setUc n x).recorder = s.recorder := rfl
@[simp] theorem setUc_retMap (s : State) (n : Nat) (x : Uc) : (s.setUc n x).retMap = s.retMap := rfl
@[simp] theorem setUc_qsBaseRow (s : State) (n : Nat) (x : Uc) : (s.setUc n x).qsBaseRow = s.qsBaseRow := rfl
@[simp] theorem setUc_keep (s : State) (n : Nat) (x : Uc) : (s.setUc n x).keep = s.keep := rfl
@[simp] theorem setUc_int (s : State) (n : Nat) (x : Uc) : (s.setUc n x).int = s.int := rfl
@[simp] theorem setUc_rtc (s : State) (n : Nat) (x : Uc) : (s.setUc n x).rtc = s.rtc := rfl
@[simp] theorem setUc_supply (s : State) (n : Nat) (x : Uc) : (s.setUc n x).supply = s.supply := rfl
@[simp] theorem setUc_evq (s : State) (n : Nat) (x : Uc) : (s.setUc n x).evq = s.evq := rfl
@[simp] theorem setUc_evOut (s : State) (n : Nat) (x : Uc) : (s.setUc n x).evOut = s.evOut := rfl
@[simp] theorem setUc_obs (s : State) (n : Nat) (x : Uc) : (s.setUc n x).obs = s.obs := rfl
@[simp] theorem setUc_trace (s : State) (n : Nat) (x : Uc) : (s.setUc n x).trace = s.trace := rfl
@[simp] theorem setUc_pmcSnap (s : State) (n : Nat) (x : Uc) : (s.setUc n x).pmcSnap = s.pmcSnap := rfl
@[simp] theorem setUc_tx (s : State) (n : Nat) (x : Uc) : (s.setUc n x).tx = s.tx := rfl
@[simp] theorem setUc_hiLatch (s : State) (n : Nat) (x : Uc) : (s.setUc n x).hiLatch = s.hiLatch := rfl
@[simp] theorem setUc_readback (s : State) (n : Nat) (x : Uc) : (s.setUc n x).readback = s.readback := rfl
@[simp] theorem setUc_get_strand (s : State) (n : Nat) (x : Uc) (j : Nat) : (s.setUc n x).strand j = s.strand j := rfl
@[simp] theorem setUc_get_cfg (s : State) (n : Nat) (x : Uc) (j : Nat) : (s.setUc n x).cfg j = s.cfg j := rfl
@[simp] theorem setUc_get_cls (s : State) (n : Nat) (x : Uc) (j : Nat) : (s.setUc n x).cls j = s.cls j := rfl
@[simp] theorem setUc_get_pipe (s : State) (n : Nat) (x : Uc) (j : Nat) : (s.setUc n x).pipe j = s.pipe j := rfl
@[simp] theorem setUc_get_engine (s : State) (n : Nat) (x : Uc) (j : Nat) : (s.setUc n x).engine j = s.engine j := rfl
@[simp] theorem setUc_get_dio (s : State) (n : Nat) (x : Uc) (j : Nat) : (s.setUc n x).dio j = s.dio j := rfl
@[simp] theorem setUc_get_rget (s : State) (n : Nat) (x : Uc) (j : Nat) : (s.setUc n x).rget j = s.rget j := rfl
@[simp] theorem setUc_get_fget (s : State) (n : Nat) (x : Uc) (g : Fld) : (s.setUc n x).fget g = s.fget g := rfl
@[simp] theorem setUc_get_flag (s : State) (n : Nat) (x : Uc) (g : Fld) : (s.setUc n x).flag g = s.flag g := rfl
@[simp] theorem setUc_get_mode (s : State) (n : Nat) (x : Uc) : (s.setUc n x).mode = s.mode := rfl
@[simp] theorem setUc_get_mget (s : State) (n : Nat) (x : Uc) (j : Nat) : (s.setUc n x).mget j = s.mget j := rfl
@[simp] theorem setUc_get_swGet (s : State) (n : Nat) (x : Uc) (j : Nat) : (s.setUc n x).swGet j = s.swGet j := rfl

/-! ### `setDio` -/

@[simp] theorem setDio_pending (s : State) (n : Nat) (x : Dio) : (s.setDio n x).pending = s.pending := rfl
@[simp] theorem setDio_fab (s : State) (n : Nat) (x : Dio) : (s.setDio n x).fab = s.fab := rfl
@[simp] theorem setDio_tb (s : State) (n : Nat) (x : Dio) : (s.setDio n x).tb = s.tb := rfl
@[simp] theorem setDio_tbPhase (s : State) (n : Nat) (x : Dio) : (s.setDio n x).tbPhase = s.tbPhase := rfl
@[simp] theorem setDio_free (s : State) (n : Nat) (x : Dio) : (s.setDio n x).free = s.free := rfl
@[simp] theorem setDio_regs (s : State) (n : Nat) (x : Dio) : (s.setDio n x).regs = s.regs := rfl
@[simp] theorem setDio_mem (s : State) (n : Nat) (x : Dio) : (s.setDio n x).mem = s.mem := rfl
@[simp] theorem setDio_integ (s : State) (n : Nat) (x : Dio) : (s.setDio n x).integ = s.integ := rfl
@[simp] theorem setDio_img (s : State) (n : Nat) (x : Dio) : (s.setDio n x).img = s.img := rfl
@[simp] theorem setDio_sw (s : State) (n : Nat) (x : Dio) : (s.setDio n x).sw = s.sw := rfl
@[simp] theorem setDio_heddle (s : State) (n : Nat) (x : Dio) : (s.setDio n x).heddle = s.heddle := rfl
@[simp] theorem setDio_entries (s : State) (n : Nat) (x : Dio) : (s.setDio n x).entries = s.entries := rfl
@[simp] theorem setDio_forces (s : State) (n : Nat) (x : Dio) : (s.setDio n x).forces = s.forces := rfl
@[simp] theorem setDio_forceReq (s : State) (n : Nat) (x : Dio) : (s.setDio n x).forceReq = s.forceReq := rfl
@[simp] theorem setDio_ctl (s : State) (n : Nat) (x : Dio) : (s.setDio n x).ctl = s.ctl := rfl
@[simp] theorem setDio_strands (s : State) (n : Nat) (x : Dio) : (s.setDio n x).strands = s.strands := rfl
@[simp] theorem setDio_scfg (s : State) (n : Nat) (x : Dio) : (s.setDio n x).scfg = s.scfg := rfl
@[simp] theorem setDio_inflight (s : State) (n : Nat) (x : Dio) : (s.setDio n x).inflight = s.inflight := rfl
@[simp] theorem setDio_fabWait (s : State) (n : Nat) (x : Dio) : (s.setDio n x).fabWait = s.fabWait := rfl
@[simp] theorem setDio_fabServed (s : State) (n : Nat) (x : Dio) : (s.setDio n x).fabServed = s.fabServed := rfl
@[simp] theorem setDio_remoteResv (s : State) (n : Nat) (x : Dio) : (s.setDio n x).remoteResv = s.remoteResv := rfl
@[simp] theorem setDio_classes (s : State) (n : Nat) (x : Dio) : (s.setDio n x).classes = s.classes := rfl
@[simp] theorem setDio_pipes (s : State) (n : Nat) (x : Dio) : (s.setDio n x).pipes = s.pipes := rfl
@[simp] theorem setDio_engines (s : State) (n : Nat) (x : Dio) : (s.setDio n x).engines = s.engines := rfl
@[simp] theorem setDio_ucs (s : State) (n : Nat) (x : Dio) : (s.setDio n x).ucs = s.ucs := rfl
@[simp] theorem setDio_cts (s : State) (n : Nat) (x : Dio) : (s.setDio n x).cts = s.cts := rfl
@[simp] theorem setDio_seFailedKeep (s : State) (n : Nat) (x : Dio) : (s.setDio n x).seFailedKeep = s.seFailedKeep := rfl
@[simp] theorem setDio_streamCfg (s : State) (n : Nat) (x : Dio) : (s.setDio n x).streamCfg = s.streamCfg := rfl
@[simp] theorem setDio_pipeSrc (s : State) (n : Nat) (x : Dio) : (s.setDio n x).pipeSrc = s.pipeSrc := rfl
@[simp] theorem setDio_config (s : State) (n : Nat) (x : Dio) : (s.setDio n x).config = s.config := rfl
@[simp] theorem setDio_journal (s : State) (n : Nat) (x : Dio) : (s.setDio n x).journal = s.journal := rfl
@[simp] theorem setDio_edit (s : State) (n : Nat) (x : Dio) : (s.setDio n x).edit = s.edit := rfl
@[simp] theorem setDio_red (s : State) (n : Nat) (x : Dio) : (s.setDio n x).red = s.red := rfl
@[simp] theorem setDio_hedge (s : State) (n : Nat) (x : Dio) : (s.setDio n x).hedge = s.hedge := rfl
@[simp] theorem setDio_upd (s : State) (n : Nat) (x : Dio) : (s.setDio n x).upd = s.upd := rfl
@[simp] theorem setDio_eth (s : State) (n : Nat) (x : Dio) : (s.setDio n x).eth = s.eth := rfl
@[simp] theorem setDio_mbs (s : State) (n : Nat) (x : Dio) : (s.setDio n x).mbs = s.mbs := rfl
@[simp] theorem setDio_canPorts (s : State) (n : Nat) (x : Dio) : (s.setDio n x).canPorts = s.canPorts := rfl
@[simp] theorem setDio_wdg (s : State) (n : Nat) (x : Dio) : (s.setDio n x).wdg = s.wdg := rfl
@[simp] theorem setDio_store (s : State) (n : Nat) (x : Dio) : (s.setDio n x).store = s.store := rfl
@[simp] theorem setDio_qs (s : State) (n : Nat) (x : Dio) : (s.setDio n x).qs = s.qs := rfl
@[simp] theorem setDio_recorder (s : State) (n : Nat) (x : Dio) : (s.setDio n x).recorder = s.recorder := rfl
@[simp] theorem setDio_retMap (s : State) (n : Nat) (x : Dio) : (s.setDio n x).retMap = s.retMap := rfl
@[simp] theorem setDio_qsBaseRow (s : State) (n : Nat) (x : Dio) : (s.setDio n x).qsBaseRow = s.qsBaseRow := rfl
@[simp] theorem setDio_keep (s : State) (n : Nat) (x : Dio) : (s.setDio n x).keep = s.keep := rfl
@[simp] theorem setDio_int (s : State) (n : Nat) (x : Dio) : (s.setDio n x).int = s.int := rfl
@[simp] theorem setDio_rtc (s : State) (n : Nat) (x : Dio) : (s.setDio n x).rtc = s.rtc := rfl
@[simp] theorem setDio_supply (s : State) (n : Nat) (x : Dio) : (s.setDio n x).supply = s.supply := rfl
@[simp] theorem setDio_evq (s : State) (n : Nat) (x : Dio) : (s.setDio n x).evq = s.evq := rfl
@[simp] theorem setDio_evOut (s : State) (n : Nat) (x : Dio) : (s.setDio n x).evOut = s.evOut := rfl
@[simp] theorem setDio_obs (s : State) (n : Nat) (x : Dio) : (s.setDio n x).obs = s.obs := rfl
@[simp] theorem setDio_trace (s : State) (n : Nat) (x : Dio) : (s.setDio n x).trace = s.trace := rfl
@[simp] theorem setDio_pmcSnap (s : State) (n : Nat) (x : Dio) : (s.setDio n x).pmcSnap = s.pmcSnap := rfl
@[simp] theorem setDio_tx (s : State) (n : Nat) (x : Dio) : (s.setDio n x).tx = s.tx := rfl
@[simp] theorem setDio_hiLatch (s : State) (n : Nat) (x : Dio) : (s.setDio n x).hiLatch = s.hiLatch := rfl
@[simp] theorem setDio_readback (s : State) (n : Nat) (x : Dio) : (s.setDio n x).readback = s.readback := rfl
@[simp] theorem setDio_get_strand (s : State) (n : Nat) (x : Dio) (j : Nat) : (s.setDio n x).strand j = s.strand j := rfl
@[simp] theorem setDio_get_cfg (s : State) (n : Nat) (x : Dio) (j : Nat) : (s.setDio n x).cfg j = s.cfg j := rfl
@[simp] theorem setDio_get_cls (s : State) (n : Nat) (x : Dio) (j : Nat) : (s.setDio n x).cls j = s.cls j := rfl
@[simp] theorem setDio_get_pipe (s : State) (n : Nat) (x : Dio) (j : Nat) : (s.setDio n x).pipe j = s.pipe j := rfl
@[simp] theorem setDio_get_engine (s : State) (n : Nat) (x : Dio) (j : Nat) : (s.setDio n x).engine j = s.engine j := rfl
@[simp] theorem setDio_get_uc (s : State) (n : Nat) (x : Dio) (j : Nat) : (s.setDio n x).uc j = s.uc j := rfl
@[simp] theorem setDio_get_rget (s : State) (n : Nat) (x : Dio) (j : Nat) : (s.setDio n x).rget j = s.rget j := rfl
@[simp] theorem setDio_get_fget (s : State) (n : Nat) (x : Dio) (g : Fld) : (s.setDio n x).fget g = s.fget g := rfl
@[simp] theorem setDio_get_flag (s : State) (n : Nat) (x : Dio) (g : Fld) : (s.setDio n x).flag g = s.flag g := rfl
@[simp] theorem setDio_get_mode (s : State) (n : Nat) (x : Dio) : (s.setDio n x).mode = s.mode := rfl
@[simp] theorem setDio_get_mget (s : State) (n : Nat) (x : Dio) (j : Nat) : (s.setDio n x).mget j = s.mget j := rfl
@[simp] theorem setDio_get_swGet (s : State) (n : Nat) (x : Dio) (j : Nat) : (s.setDio n x).swGet j = s.swGet j := rfl

end Sys2Proof.Machine
end

