-- ==== Sys2Proof/Laws/Dx.lean ====
section
/-!
SUPPORT. What the issue and the retirement of an instruction do: one lemma for the instructions that touch only the registers of their
strand, one for the others.
-/
namespace Sys2Proof.Machine

/-! ### Performance counters -/

/-- Only registers of the performance counters differ. -/
def PmcOnly (s t : State) : Prop :=
  { t with regs := s.regs } = s ∧ ∀ a, ¬ pmcCounter a → t.rget a = s.rget a

theorem PmcOnly.refl (s : State) : PmcOnly s s := ⟨rfl, fun _ _ => rfl⟩

theorem PmcOnly.trans {s t u : State} (h : PmcOnly s t) (g : PmcOnly t u) : PmcOnly s u := by
  obtain ⟨h1, h2⟩ := h
  obtain ⟨g1, g2⟩ := g
  refine ⟨?_, fun a ha => (g2 a ha).trans (h2 a ha)⟩
  rw [← h1]
  rw [← g1]

theorem PmcOnly.rset (s : State) (a : Nat) (v : Word) (h : pmcCounter a) : PmcOnly s (s.rset a v) :=
  ⟨rfl, fun _ hb => rget_rset_ne s v (fun e => hb (e ▸ h))⟩

theorem PmcOnly.countOne (s : State) (cfg lo hi ev n : Nat) (hc : pmcCounter cfg) (hl : pmcCounter lo)
    (hh : pmcCounter hi) : PmcOnly s (countOne s cfg lo hi ev n) := by
  unfold Sys2Proof.Machine.countOne
  split
  · have h1 := PmcOnly.rset s lo (BitVec.ofNat 32 ((s.rget lo).toNat + 2 ^ 32 * (s.rget hi).toNat + n)) hl
    have h2 := PmcOnly.rset (s.rset lo (BitVec.ofNat 32 ((s.rget lo).toNat + 2 ^ 32 * (s.rget hi).toNat + n))) hi
      (BitVec.ofNat 32 (((s.rget lo).toNat + 2 ^ 32 * (s.rget hi).toNat + n) / 2 ^ 32 % 2 ^ 16)) hh
    dsimp only
    split
    · exact h1.trans h2
    · exact (h1.trans h2).trans (PmcOnly.rset _ _ _ hc)
  · exact PmcOnly.refl s

theorem PmcOnly.each {α : Type} (l : List α) (f : State → α → State) (s : State)
    (h : ∀ t, ∀ x ∈ l, PmcOnly t (f t x)) : PmcOnly s (each l s f) := by
  induction l generalizing s with
  | nil => exact PmcOnly.refl s
  | cons x l ih =>
    exact (h s x (List.mem_cons_self ..)).trans (ih (f s x) (fun t y hy => h t y (List.mem_cons_of_mem _ hy)))

theorem PmcOnly.countS (s : State) (st ev n : Nat) (h : st < 16) : PmcOnly s (s.countS st ev n) := by
  unfold State.countS
  split
  · refine PmcOnly.each _ _ _ (fun t j hj => ?_)
    have hj : j < 8 := by simpa using hj
    exact PmcOnly.countOne _ _ _ _ _ _ (by unfold PMC_SCFG; omega) (by unfold PMC_SLO; omega) (by unfold PMC_SHI; omega)
  · exact PmcOnly.refl s

theorem PmcOnly.countG (s : State) (ev n : Nat) : PmcOnly s (s.countG ev n) := by
  unfold State.countG
  split
  · refine PmcOnly.each _ _ _ (fun t j hj => ?_)
    have hj : j < 32 := by simpa using hj
    exact PmcOnly.countOne _ _ _ _ _ _ (by unfold PMC_GCFG; omega) (by unfold PMC_GLO; omega) (by unfold PMC_GHI; omega)
  · exact PmcOnly.refl s

theorem PmcOnly.eq_regs {s t : State} (h : PmcOnly s t) : t = { s with regs := t.regs } := by
  obtain ⟨h1, _⟩ := h
  rw [← h1]

theorem PmcOnly.strands {s t : State} (h : PmcOnly s t) : t.strands = s.strands := by rw [h.eq_regs]

theorem PmcOnly.fget {s t : State} (h : PmcOnly s t) (f : Fld) (hf : ¬ pmcCounter f.addr) : t.fget f = s.fget f := by
  simp only [State.fget, h.2 _ hf]

theorem PmcOnly.flag {s t : State} (h : PmcOnly s t) (f : Fld) (hf : ¬ pmcCounter f.addr) : t.flag f = s.flag f := by
  simp only [State.flag, h.fget f hf]

/-! ### Issue -/

theorem Strand.age_eq (x : Strand) (k : DxKind) : ∃ r n, x.age k = { x with resv := r, resvAge := n } := by
  unfold Strand.age
  split
  · split <;> exact ⟨_, _, rfl⟩
  · exact ⟨x.resv, x.resvAge, rfl⟩

theorem PmcOnly.onlyStrand {s t u : State} {st : Fin 16} (h : PmcOnly t u) (g : OnlyStrand s t st) : OnlyStrand s u st := by
  obtain ⟨g1, g2, g3⟩ := g
  obtain ⟨h1, h2⟩ := h
  refine ⟨?_, ?_, fun a ha => (h2 a ha).trans (g3 a ha)⟩
  · rw [← g1]
    rw [← h1]
  · intro j hj
    rw [← g2 j hj]
    unfold State.strand
    rw [PmcOnly.strands ⟨h1, h2⟩]

theorem OnlyStrand.refl (s : State) (st : Fin 16) : OnlyStrand s s st := ⟨rfl, fun _ _ => rfl, fun _ _ => rfl⟩

theorem OnlyStrand.set {s t : State} {st : Fin 16} (g : OnlyStrand s t st) (y : Strand) : OnlyStrand s (t.setStrand st y) st := by
  obtain ⟨g1, g2, g3⟩ := g
  refine ⟨?_, ?_, fun a ha => g3 a ha⟩
  · rw [← g1]
    rfl
  · intro j hj
    rw [strand_setStrand_ne _ _ hj, g2 j hj]

/-- What the issue of an instruction changes: the age of a reservation and performance counters. -/
theorem issue_only (s : State) (st : Fin 16) (kind : DxKind) : OnlyStrand s (s.issue st kind) st ∧
    ∃ r n, (s.issue st kind).strand st = { s.strand st with resv := r, resvAge := n } := by
  unfold State.issue
  have h0 : OnlyStrand s (s.modStrand st (fun x => x.age kind)) st := (OnlyStrand.refl s st).set _
  have h1 := PmcOnly.countS (s.modStrand st (fun x => x.age kind)) st 0x02 1 st.isLt
  have h2 := PmcOnly.countS ((s.modStrand st (fun x => x.age kind)).countS st 0x02 1) st kind.event 1 st.isLt
  refine ⟨h2.onlyStrand (h1.onlyStrand h0), ?_⟩
  obtain ⟨r, n, h⟩ := (s.strand st).age_eq kind
  refine ⟨r, n, ?_⟩
  rw [← h]
  unfold State.strand
  rw [h2.strands, h1.strands]
  exact strand_modStrand_self _ _ _

/-- What one state sees of a strand's surroundings holds in a state in which only that strand differs. -/
theorem OnlyStrand.eq {s t : State} {st : Fin 16} (h : OnlyStrand s t st) :
    t = { s with regs := t.regs, strands := t.strands } := by
  obtain ⟨h1, _⟩ := h
  rw [← h1]

theorem OnlyStrand.fget {s t : State} {st : Fin 16} (h : OnlyStrand s t st) (f : Fld) (hf : ¬ pmcCounter f.addr) :
    t.fget f = s.fget f := by
  simp only [State.fget, h.2.2 _ hf]

theorem OnlyStrand.flag {s t : State} {st : Fin 16} (h : OnlyStrand s t st) (f : Fld) (hf : ¬ pmcCounter f.addr) :
    t.flag f = s.flag f := by
  simp only [State.flag, h.fget f hf]

theorem OnlyStrand.cfg {s t : State} {st : Fin 16} (h : OnlyStrand s t st) (j : Nat) : t.cfg j = s.cfg j := by
  rw [h.eq]; rfl

theorem OnlyStrand.cls {s t : State} {st : Fin 16} (h : OnlyStrand s t st) (j : Nat) : t.cls j = s.cls j := by
  rw [h.eq]; rfl

/-! ### Retirement -/

theorem retire_quiet (s : State) (st : Nat) (old pc : Word) (dst : Option Word) (h : s.flag OBS_RT_STAT_CAPTURING = false) :
    s.retire st old pc dst = s.modStrand st (fun x => { x with pc := pc, answer := none }) := by
  unfold State.retire State.traceRetire
  rw [if_neg]
  simp [h]

/-- A ready strand's instruction: its body runs on the issued state, and the outcome follows. -/
theorem dx_ready {s : State} {st : Fin 16} (h : Ready s st) (i : Instr) (kind : DxKind) (body : State → Exec) :
    dx s st i kind body = .next (match body (s.issue st kind) with
      | .ok t dst => t.retire st (s.strand st).pc ((s.strand st).pc + 4) dst
      | .jump t dest => (t.countS st 0x07 1).retire st (s.strand st).pc dest none
      | .trap t code => t.trap st code
      | .done t => t
      | .wait on msgs => { s with tx := s.tx ++ msgs }.stallOn st on i) := by
  obtain ⟨h1, h2, h3, _⟩ := h
  obtain ⟨hi, r, n, hx⟩ := issue_only s st kind
  have hf : (s.issue st kind).fetchTrap st = none := by
    rw [← h2]
    unfold State.fetchTrap
    rw [hx, hi.eq]
  unfold dx
  rw [if_pos h1]
  simp only [h3, Bool.false_eq_true, if_false, dxRun, hf]
  all_goals rfl

/-- An instruction that touches only the registers of its strand, and does not trap. -/
theorem dxReg_ready {s : State} {st : Fin 16} (h : Ready s st) (i : Instr) (kind : DxKind) (f : Strand → RegExec) (y : Strand)
    (hf : ∀ r n, ∃ dst, f { s.strand st with resv := r, resvAge := n } = .ok { y with resv := r, resvAge := n } dst) :
    ∃ t, dxReg s st i kind f = .next t ∧ Retires s t st y := by
  obtain ⟨hi, r, n, hx⟩ := issue_only s st kind
  obtain ⟨dst, hd⟩ := hf r n
  have hq : ((s.issue st kind).setStrand st { y with resv := r, resvAge := n }).flag OBS_RT_STAT_CAPTURING = false := by
    rw [setStrand_get_flag, hi.flag _ (by decide)]
    exact h.2.2.2
  refine ⟨_, dx_ready h i kind _, ?_⟩
  simp only [hx, hd]
  rw [retire_quiet _ _ _ _ _ hq]
  refine ⟨(hi.set _).set _, ?_⟩
  rw [strand_modStrand_self, strand_setStrand_self]

/-- An instruction that touches only the registers of its strand, and traps. -/
theorem dxReg_trap {s : State} {st : Fin 16} (h : Ready s st) (i : Instr) (kind : DxKind) (f : Strand → RegExec) (code : Nat)
    (hf : ∀ r n, f { s.strand st with resv := r, resvAge := n } = .trap code) :
    dxReg s st i kind f = .next ((s.issue st kind).trap st code) := by
  obtain ⟨_, r, n, hx⟩ := issue_only s st kind
  unfold dxReg
  rw [dx_ready h]
  simp only [hx, hf]

/-- A strand that does not weave, or waits, executes nothing. -/
theorem dx_idle {s : State} {st : Fin 16} (h : s.issues st = false) (i : Instr) (kind : DxKind) (body : State → Exec) :
    dx s st i kind body = .next s := by
  unfold dx
  simp [h]

end Sys2Proof.Machine
end

