-- ==== Sys2Proof/Laws/Memory.lean ====
section
/-!
SUPPORT. The memories and the image store: a read after a write of several bytes, and the canonical form, which every memory operation
keeps.
-/
namespace Sys2Proof.Machine

/-! ### A read after a write -/

theorem mget_msetN_below (s : State) (key : Nat) (bs : List Byte) {j : Nat} (h : j < key) : (s.msetN key bs).mget j = s.mget j := by
  induction bs generalizing s key with
  | nil => rfl
  | cons b bs ih =>
    show ((s.mset key b).msetN (key + 1) bs).mget j = s.mget j
    rw [ih _ _ (by omega), mget_mset_ne _ _ (by omega)]

theorem mget_msetN_above (s : State) (key : Nat) (bs : List Byte) {j : Nat} (h : key + bs.length ≤ j) :
    (s.msetN key bs).mget j = s.mget j := by
  induction bs generalizing s key with
  | nil => rfl
  | cons b bs ih =>
    rw [List.length_cons] at h
    show ((s.mset key b).msetN (key + 1) bs).mget j = s.mget j
    rw [ih _ _ (by omega), mget_mset_ne _ _ (by omega)]

theorem mgetN_msetN_self (s : State) (key : Nat) (bs : List Byte) : (s.msetN key bs).mgetN key bs.length = bs := by
  induction bs generalizing s key with
  | nil => rfl
  | cons b bs ih =>
    show ((s.mset key b).msetN (key + 1) bs).mget key :: ((s.mset key b).msetN (key + 1) bs).mgetN (key + 1) bs.length = b :: bs
    rw [ih, mget_msetN_below _ _ _ (by omega), mget_mset_self]

theorem imgGet_imgSet_self (m : List Host.Cell) (off : Nat) (b : Byte) : imgGet (imgSet m off b) off = b := by
  simp [imgGet, imgSet]

theorem imgGet_imgSet_ne (m : List Host.Cell) {off j : Nat} (b : Byte) (h : j ≠ off) : imgGet (imgSet m off b) j = imgGet m j :=
  tget_tset_ne _ _ _ _ h

/-! ### The canonical form -/

theorem mset_wf {s : State} (key : Nat) (b : Byte) (h : Memory.wf s = true) : Memory.wf (s.mset key b) = true := by
  simp only [Memory.wf, Bool.and_eq_true] at h ⊢
  exact ⟨tset_wf _ _ h.1, h.2⟩

theorem msetN_wf {s : State} (key : Nat) (bs : List Byte) (h : Memory.wf s = true) : Memory.wf (s.msetN key bs) = true := by
  induction bs generalizing s key with
  | nil => exact h
  | cons b bs ih => exact ih _ (mset_wf key b h)

theorem memFilter_wf {m : List Host.Cell} (p : Host.Cell → Bool) (h : memWf m = true) : memWf (m.filter p) = true := filter_wf p h

theorem imgFilter_wf {m : List Host.Cell} (p : Host.Cell → Bool) (h : imgWf m = true) : imgWf (m.filter p) = true := filter_wf p h

theorem imgSet_wf {m : List Host.Cell} {o : Nat} {b : Byte} (h : imgWf m = true) : imgWf (imgSet m o b) = true := tset_wf o b h

theorem imgMask_wf {m : List Host.Cell} {o : Nat} {k v : Byte} (h : imgWf m = true) : imgWf (imgMask m o k v) = true := imgSet_wf h

theorem reset_memWf : memWf State.reset.mem = true := rfl

theorem reset_imgWf : imgWf State.reset.img = true := rfl

end Sys2Proof.Machine
end

