-- ==== Sys2Proof/Laws/Keeps.lean ====
section
/-!
SUPPORT. `Keeps`: that it composes, that control flow and updates of the state keep it. The files KeepsOps to KeepsCommands say it of each
operation of the model and of each command, one lemma each, named after the operation.
-/
set_option linter.unusedVariables false

namespace Sys2Proof.Machine

theorem Keeps.refl (s : State) : Keeps s s := ⟨rfl, List.prefix_refl _, id, id⟩

theorem Keeps.trans {s t u : State} (h : Keeps s t) (g : Keeps t u) : Keeps s u :=
  ⟨g.1.trans h.1, h.2.1.trans g.2.1, fun w => g.2.2.1 (h.2.2.1 w), fun w => g.2.2.2 (h.2.2.2 w)⟩

/-- `Keeps`, of what a part of an instruction leaves. -/
def KeepsX (s : State) : Exec → Prop
  | .ok t _ => Keeps s t
  | .jump t _ => Keeps s t
  | .trap t _ => Keeps s t
  | .done t => Keeps s t
  | .wait _ _ => True

/-- `Keeps`, of the outcome of a command: it goes on. -/
def KeepsO (s : State) : Out → Prop
  | .next t => Keeps s t
  | .fault _ => False
  | .refused _ => False

/-- `Keeps`, of a pair that may be absent. -/
def KeepsP {α : Type} (s : State) : Option (State × α) → Prop
  | some x => Keeps s x.1
  | none => True

/-- `Keeps`, of a state that may be absent. -/
def KeepsS (s : State) : Option State → Prop
  | some x => Keeps s x
  | none => True

/-- `Keeps`, and the worlds of the classes on trial stay as they are, or all go. -/
def KeepsW (s t : State) : Prop := Keeps s t ∧ (t.edit.worlds = s.edit.worlds ∨ t.edit.worlds = [])

theorem KeepsW.refl (s : State) : KeepsW s s := ⟨Keeps.refl s, .inl rfl⟩

/-- `KeepsW`, of what a part of an instruction leaves. -/
def KeepsWX (s : State) : Exec → Prop
  | .ok t _ => KeepsW s t
  | .jump t _ => KeepsW s t
  | .trap t _ => KeepsW s t
  | .done t => KeepsW s t
  | .wait _ _ => True

/-- `KeepsW`, of a pair that may be absent. -/
def KeepsWP {α : Type} (s : State) : Option (State × α) → Prop
  | some x => KeepsW s x.1
  | none => True

/-- `KeepsW`, of a state that may be absent. -/
def KeepsWS (s : State) : Option State → Prop
  | some x => KeepsW s x
  | none => True

/-! ### Control flow -/

theorem ite_inv {α : Sort _} {P : α → Prop} {c : Prop} [Decidable c] {a b : α} (ha : P a) (hb : P b) : P (if c then a else b) := by
  split <;> assumption

theorem fst_inv {σ τ : Type} {P : σ → Prop} {a : σ} {b : τ} (h : P a) : P (Prod.fst (a, b)) := h

theorem each_inv {σ α : Type} {P : σ → Prop} {l : List α} {s : σ} {f : σ → α → σ} (h : P s)
    (hf : ∀ s, P s → ∀ a, P (f s a)) : P (each l s f) := by
  unfold each
  induction l generalizing s with
  | nil => exact h
  | cons a l ih => exact ih (hf s h a)

theorem foldl_inv {σ α : Type} {P : σ → Prop} {l : List α} {s : σ} {f : σ → α → σ} (h : P s)
    (hf : ∀ s, P s → ∀ a, P (f s a)) : P (l.foldl f s) := each_inv h hf

theorem foldl1_inv {σ τ α : Type} {P : σ → Prop} {l : List α} {s : σ × τ} {f : σ × τ → α → σ × τ} (h : P s.1)
    (hf : ∀ s, P s.1 → ∀ a, P (f s a).1) : P (l.foldl f s).1 := foldl_inv (P := fun (x : σ × τ) => P x.1) h hf

theorem ofEq_inv {α : Sort _} {P : α → Prop} {a b : α} (h : P a) (e : a = b) : P b := e ▸ h

/-! ### The image store stays canonical -/

theorem overImage_wf {m : List Host.Cell} {stg : Tab MByte} (h : imgWf m = true) : imgWf (overImage m stg) = true :=
  each_inv (P := fun m => imgWf m = true) h (fun _ h _ => imgMask_wf h)

theorem forceImage_wf {s : State} {k p m} (h : imgWf m = true) : imgWf (s.forceImage k p m) = true := by
  delta State.forceImage
  exact each_inv (P := fun m => imgWf m = true) h (fun _ h _ => imgMask_wf h)

/-! ### Updates of the state: of fields that `Keeps` does not speak of, of messages sent, of the memories -/

theorem upd_keeps {s u : State} (h : Keeps s u) {x0} {x1} {x2} {x3} {x4} {x5} {x6} {x7} {x8} {x9} {x10} {x11} {x12}
    {x13} {x14} {x15} {x16} {x17} {x18} {x19} {x20} {x21} {x22} {x23} {x24} {x25} {x26} {x27} {x28} {x29} {x30} {x31}
    {x32} {x33} {x34} {x35} {x36} {x37} {x38} {x39} {x40} {x41} {x42} {x43} {x44} {x45} {x46} {x47} {x48} {x49} {x50}
    {x51} {x52} :
    Keeps s (State.mk u.pending x0 x1 x2 x3 x4 u.mem x5 u.img x6 x7 x8 x9 x10 x11 x12 x13 x14 x15 x16 x17 x18 x19 x20 x21
    x22 x23 x24 x25 x26 x27 x28 x29 x30 x31 x32 x33 x34 x35 x36 x37 x38 x39 x40 x41 x42 x43 x44 x45 x46 x47 x48 x49
    x50 u.tx x51 x52) :=
  h

theorem tx_keeps {s u : State} (h : Keeps s u) {l} {x0} {x1} {x2} {x3} {x4} {x5} {x6} {x7} {x8} {x9} {x10} {x11} {x12}
    {x13} {x14} {x15} {x16} {x17} {x18} {x19} {x20} {x21} {x22} {x23} {x24} {x25} {x26} {x27} {x28} {x29} {x30} {x31}
    {x32} {x33} {x34} {x35} {x36} {x37} {x38} {x39} {x40} {x41} {x42} {x43} {x44} {x45} {x46} {x47} {x48} {x49} {x50}
    {x51} {x52} :
    Keeps s (State.mk u.pending x0 x1 x2 x3 x4 u.mem x5 u.img x6 x7 x8 x9 x10 x11 x12 x13 x14 x15 x16 x17 x18 x19 x20 x21
    x22 x23 x24 x25 x26 x27 x28 x29 x30 x31 x32 x33 x34 x35 x36 x37 x38 x39 x40 x41 x42 x43 x44 x45 x46 x47 x48 x49
    x50 (u.tx ++ l) x51 x52) :=
  ⟨h.1, h.2.1.trans (List.prefix_append _ _), h.2.2⟩

theorem txP_keeps {s u : State} (h : Keeps s u) {l} (hl : u.tx <+: l) {x0} {x1} {x2} {x3} {x4} {x5} {x6} {x7} {x8} {x9} {x10} {x11} {x12}
    {x13} {x14} {x15} {x16} {x17} {x18} {x19} {x20} {x21} {x22} {x23} {x24} {x25} {x26} {x27} {x28} {x29} {x30} {x31}
    {x32} {x33} {x34} {x35} {x36} {x37} {x38} {x39} {x40} {x41} {x42} {x43} {x44} {x45} {x46} {x47} {x48} {x49} {x50}
    {x51} {x52} :
    Keeps s (State.mk u.pending x0 x1 x2 x3 x4 u.mem x5 u.img x6 x7 x8 x9 x10 x11 x12 x13 x14 x15 x16 x17 x18 x19 x20 x21
    x22 x23 x24 x25 x26 x27 x28 x29 x30 x31 x32 x33 x34 x35 x36 x37 x38 x39 x40 x41 x42 x43 x44 x45 x46 x47 x48 x49
    x50 l x51 x52) :=
  ⟨h.1, h.2.1.trans hl, h.2.2⟩

theorem mem_keeps {s u : State} (h : Keeps s u) {m} (hm : memWf u.mem = true → memWf m = true) {x0} {x1} {x2} {x3}
    {x4} {x5} {x6} {x7} {x8} {x9} {x10} {x11} {x12} {x13} {x14} {x15} {x16} {x17} {x18} {x19} {x20} {x21} {x22} {x23}
    {x24} {x25} {x26} {x27} {x28} {x29} {x30} {x31} {x32} {x33} {x34} {x35} {x36} {x37} {x38} {x39} {x40} {x41} {x42}
    {x43} {x44} {x45} {x46} {x47} {x48} {x49} {x50} {x51} {x52} :
    Keeps s (State.mk u.pending x0 x1 x2 x3 x4 m x5 u.img x6 x7 x8 x9 x10 x11 x12 x13 x14 x15 x16 x17 x18 x19 x20 x21 x22
    x23 x24 x25 x26 x27 x28 x29 x30 x31 x32 x33 x34 x35 x36 x37 x38 x39 x40 x41 x42 x43 x44 x45 x46 x47 x48 x49 x50
    u.tx x51 x52) :=
  ⟨h.1, h.2.1, fun w => hm (h.2.2.1 w), h.2.2.2⟩

theorem img_keeps {s u : State} (h : Keeps s u) {i} (hi : imgWf u.img = true → imgWf i = true) {x0} {x1} {x2} {x3}
    {x4} {x5} {x6} {x7} {x8} {x9} {x10} {x11} {x12} {x13} {x14} {x15} {x16} {x17} {x18} {x19} {x20} {x21} {x22} {x23}
    {x24} {x25} {x26} {x27} {x28} {x29} {x30} {x31} {x32} {x33} {x34} {x35} {x36} {x37} {x38} {x39} {x40} {x41} {x42}
    {x43} {x44} {x45} {x46} {x47} {x48} {x49} {x50} {x51} {x52} :
    Keeps s (State.mk u.pending x0 x1 x2 x3 x4 u.mem x5 i x6 x7 x8 x9 x10 x11 x12 x13 x14 x15 x16 x17 x18 x19 x20 x21 x22
    x23 x24 x25 x26 x27 x28 x29 x30 x31 x32 x33 x34 x35 x36 x37 x38 x39 x40 x41 x42 x43 x44 x45 x46 x47 x48 x49 x50
    u.tx x51 x52) :=
  ⟨h.1, h.2.1, h.2.2.1, fun w => hi (h.2.2.2 w)⟩

theorem memImg_keeps {s u : State} (h : Keeps s u) {m i} (hm : memWf u.mem = true → memWf m = true) (hi : imgWf u.img
    = true → imgWf i = true) {x0} {x1} {x2} {x3} {x4} {x5} {x6} {x7} {x8} {x9} {x10} {x11} {x12} {x13} {x14} {x15}
    {x16} {x17} {x18} {x19} {x20} {x21} {x22} {x23} {x24} {x25} {x26} {x27} {x28} {x29} {x30} {x31} {x32} {x33} {x34}
    {x35} {x36} {x37} {x38} {x39} {x40} {x41} {x42} {x43} {x44} {x45} {x46} {x47} {x48} {x49} {x50} {x51} {x52} :
    Keeps s (State.mk u.pending x0 x1 x2 x3 x4 m x5 i x6 x7 x8 x9 x10 x11 x12 x13 x14 x15 x16 x17 x18 x19 x20 x21 x22 x23
    x24 x25 x26 x27 x28 x29 x30 x31 x32 x33 x34 x35 x36 x37 x38 x39 x40 x41 x42 x43 x44 x45 x46 x47 x48 x49 x50 u.tx
    x51 x52) :=
  ⟨h.1, h.2.1, fun w => hm (h.2.2.1 w), fun w => hi (h.2.2.2 w)⟩

theorem upd_keepsW {s u : State} (h : KeepsW s u) {x0} {x1} {x2} {x3} {x4} {x5} {x6} {x7} {x8} {x9} {x10} {x11} {x12}
    {x13} {x14} {x15} {x16} {x17} {x18} {x19} {x20} {x21} {x22} {x23} {x24} {x25} {x26} {x27} {x28} {x29} {x30} {x31}
    {x32} {x33} {x34} {x35} {x36} {x37} {x38} {x39} {x40} {x41} {x42} {x43} {x44} {x45} {x46} {x47} {x48} {x49} {x50}
    {x51} :
    KeepsW s (State.mk u.pending x0 x1 x2 x3 x4 u.mem x5 u.img x6 x7 x8 x9 x10 x11 x12 x13 x14 x15 x16 x17 x18 x19 x20 x21
    x22 x23 x24 x25 x26 x27 x28 u.edit x29 x30 x31 x32 x33 x34 x35 x36 x37 x38 x39 x40 x41 x42 x43 x44 x45 x46 x47 x48
    x49 u.tx x50 x51) :=
  h

theorem updE_keepsW {s u : State} (h : KeepsW s u) {e} (he : e.worlds = u.edit.worlds) {x0} {x1} {x2} {x3} {x4} {x5}
    {x6} {x7} {x8} {x9} {x10} {x11} {x12} {x13} {x14} {x15} {x16} {x17} {x18} {x19} {x20} {x21} {x22} {x23} {x24}
    {x25} {x26} {x27} {x28} {x29} {x30} {x31} {x32} {x33} {x34} {x35} {x36} {x37} {x38} {x39} {x40} {x41} {x42} {x43}
    {x44} {x45} {x46} {x47} {x48} {x49} {x50} {x51} :
    KeepsW s (State.mk u.pending x0 x1 x2 x3 x4 u.mem x5 u.img x6 x7 x8 x9 x10 x11 x12 x13 x14 x15 x16 x17 x18 x19 x20 x21
    x22 x23 x24 x25 x26 x27 x28 e x29 x30 x31 x32 x33 x34 x35 x36 x37 x38 x39 x40 x41 x42 x43 x44 x45 x46 x47 x48 x49
    u.tx x50 x51) :=
  ⟨h.1, h.2.imp (fun w => he.trans w) (fun w => he.trans w)⟩

theorem tx_keepsW {s u : State} (h : KeepsW s u) {l} {x0} {x1} {x2} {x3} {x4} {x5} {x6} {x7} {x8} {x9} {x10} {x11}
    {x12} {x13} {x14} {x15} {x16} {x17} {x18} {x19} {x20} {x21} {x22} {x23} {x24} {x25} {x26} {x27} {x28} {x29} {x30}
    {x31} {x32} {x33} {x34} {x35} {x36} {x37} {x38} {x39} {x40} {x41} {x42} {x43} {x44} {x45} {x46} {x47} {x48} {x49}
    {x50} {x51} :
    KeepsW s (State.mk u.pending x0 x1 x2 x3 x4 u.mem x5 u.img x6 x7 x8 x9 x10 x11 x12 x13 x14 x15 x16 x17 x18 x19 x20 x21
    x22 x23 x24 x25 x26 x27 x28 u.edit x29 x30 x31 x32 x33 x34 x35 x36 x37 x38 x39 x40 x41 x42 x43 x44 x45 x46 x47 x48
    x49 (u.tx ++ l) x50 x51) :=
  ⟨tx_keeps h.1, h.2⟩

theorem txP_keepsW {s u : State} (h : KeepsW s u) {l} (hl : u.tx <+: l) {x0} {x1} {x2} {x3} {x4} {x5} {x6} {x7} {x8} {x9} {x10} {x11}
    {x12} {x13} {x14} {x15} {x16} {x17} {x18} {x19} {x20} {x21} {x22} {x23} {x24} {x25} {x26} {x27} {x28} {x29} {x30}
    {x31} {x32} {x33} {x34} {x35} {x36} {x37} {x38} {x39} {x40} {x41} {x42} {x43} {x44} {x45} {x46} {x47} {x48} {x49}
    {x50} {x51} :
    KeepsW s (State.mk u.pending x0 x1 x2 x3 x4 u.mem x5 u.img x6 x7 x8 x9 x10 x11 x12 x13 x14 x15 x16 x17 x18 x19 x20 x21
    x22 x23 x24 x25 x26 x27 x28 u.edit x29 x30 x31 x32 x33 x34 x35 x36 x37 x38 x39 x40 x41 x42 x43 x44 x45 x46 x47 x48
    x49 l x50 x51) :=
  ⟨txP_keeps h.1 hl, h.2⟩

theorem mem_keepsW {s u : State} (h : KeepsW s u) {m} (hm : memWf u.mem = true → memWf m = true) {x0} {x1} {x2} {x3}
    {x4} {x5} {x6} {x7} {x8} {x9} {x10} {x11} {x12} {x13} {x14} {x15} {x16} {x17} {x18} {x19} {x20} {x21} {x22} {x23}
    {x24} {x25} {x26} {x27} {x28} {x29} {x30} {x31} {x32} {x33} {x34} {x35} {x36} {x37} {x38} {x39} {x40} {x41} {x42}
    {x43} {x44} {x45} {x46} {x47} {x48} {x49} {x50} {x51} :
    KeepsW s (State.mk u.pending x0 x1 x2 x3 x4 m x5 u.img x6 x7 x8 x9 x10 x11 x12 x13 x14 x15 x16 x17 x18 x19 x20 x21 x22
    x23 x24 x25 x26 x27 x28 u.edit x29 x30 x31 x32 x33 x34 x35 x36 x37 x38 x39 x40 x41 x42 x43 x44 x45 x46 x47 x48 x49
    u.tx x50 x51) :=
  ⟨mem_keeps h.1 hm, h.2⟩

theorem img_keepsW {s u : State} (h : KeepsW s u) {i} (hi : imgWf u.img = true → imgWf i = true) {x0} {x1} {x2} {x3}
    {x4} {x5} {x6} {x7} {x8} {x9} {x10} {x11} {x12} {x13} {x14} {x15} {x16} {x17} {x18} {x19} {x20} {x21} {x22} {x23}
    {x24} {x25} {x26} {x27} {x28} {x29} {x30} {x31} {x32} {x33} {x34} {x35} {x36} {x37} {x38} {x39} {x40} {x41} {x42}
    {x43} {x44} {x45} {x46} {x47} {x48} {x49} {x50} {x51} :
    KeepsW s (State.mk u.pending x0 x1 x2 x3 x4 u.mem x5 i x6 x7 x8 x9 x10 x11 x12 x13 x14 x15 x16 x17 x18 x19 x20 x21 x22
    x23 x24 x25 x26 x27 x28 u.edit x29 x30 x31 x32 x33 x34 x35 x36 x37 x38 x39 x40 x41 x42 x43 x44 x45 x46 x47 x48 x49
    u.tx x50 x51) :=
  ⟨img_keeps h.1 hi, h.2⟩

theorem memImg_keepsW {s u : State} (h : KeepsW s u) {m i} (hm : memWf u.mem = true → memWf m = true) (hi : imgWf
    u.img = true → imgWf i = true) {x0} {x1} {x2} {x3} {x4} {x5} {x6} {x7} {x8} {x9} {x10} {x11} {x12} {x13} {x14}
    {x15} {x16} {x17} {x18} {x19} {x20} {x21} {x22} {x23} {x24} {x25} {x26} {x27} {x28} {x29} {x30} {x31} {x32} {x33}
    {x34} {x35} {x36} {x37} {x38} {x39} {x40} {x41} {x42} {x43} {x44} {x45} {x46} {x47} {x48} {x49} {x50} {x51} :
    KeepsW s (State.mk u.pending x0 x1 x2 x3 x4 m x5 i x6 x7 x8 x9 x10 x11 x12 x13 x14 x15 x16 x17 x18 x19 x20 x21 x22 x23
    x24 x25 x26 x27 x28 u.edit x29 x30 x31 x32 x33 x34 x35 x36 x37 x38 x39 x40 x41 x42 x43 x44 x45 x46 x47 x48 x49
    u.tx x50 x51) :=
  ⟨memImg_keeps h.1 hm hi, h.2⟩

end Sys2Proof.Machine
end

