-- ==== Sys2Proof/Laws/KeepsOps.lean ====
section
/-!
SUPPORT. `Keeps`, of the registers, the memories and the shared operations: one lemma for each operation.
-/
set_option linter.unusedVariables false

namespace Sys2Proof.Machine

theorem State.setDio_keeps {s : State} {t1 : State} (h1 : Keeps s t1) {a2} {a3} : Keeps s (@State.setDio t1 a2 a3) := by
  delta State.setDio
  exact upd_keeps h1

theorem State.dioApply_keeps {s : State} {t1 : State} (h1 : Keeps s t1) {a2} {a3} : Keeps s (@State.dioApply t1 a2 a3) := by
  delta State.dioApply
  extract_lets -merge -underBinder +onlyGivenNames x4
  exact ite_inv h1 (State.setDio_keeps h1)

theorem State.dioOff_keeps {s : State} {t1 : State} (h1 : Keeps s t1) {a2} : Keeps s (@State.dioOff t1 a2) := by
  delta State.dioOff
  exact State.dioApply_keeps h1

theorem State.setUc_keeps {s : State} {t1 : State} (h1 : Keeps s t1) {a2} {a3} : Keeps s (@State.setUc t1 a2 a3) := by
  delta State.setUc
  exact upd_keeps h1

theorem State.modUc_keeps {s : State} {t1 : State} (h1 : Keeps s t1) {a2} {a3} : Keeps s (@State.modUc t1 a2 a3) := by
  delta State.modUc
  exact State.setUc_keeps h1

theorem State.rset_keeps {s : State} {t1 : State} (h1 : Keeps s t1) {a2} {a3} : Keeps s (@State.rset t1 a2 a3) := by
  delta State.rset
  exact upd_keeps h1

theorem State.fput_keeps {s : State} {t1 : State} (h1 : Keeps s t1) {a2} {a3} : Keeps s (@State.fput t1 a2 a3) := by
  delta State.fput
  exact State.rset_keeps h1

theorem State.setFlag_keeps {s : State} {t1 : State} (h1 : Keeps s t1) {a2} {a3} : Keeps s (@State.setFlag t1 a2 a3) := by
  delta State.setFlag
  exact State.fput_keeps h1

theorem State.mset_keeps {s : State} {t1 : State} (h1 : Keeps s t1) {a2} {a3} : Keeps s (@State.mset t1 a2 a3) := by
  delta State.mset
  exact mem_keeps h1 (fun w => tset_wf _ _ w)

theorem State.msetN_keeps {s : State} {t1 : State} (h1 : Keeps s t1) {a2} {a3} : Keeps s (@State.msetN t1 a2 a3) := by
  induction a3 generalizing t1 a2 with
  | nil => exact h1
  | cons b bs ih => exact ih (State.mset_keeps h1)

theorem State.rowErase_keeps {s : State} {t1 : State} (h1 : Keeps s t1) {a2} : Keeps s (@State.rowErase t1 a2) := by
  delta State.rowErase
  extract_lets -merge -underBinder +onlyGivenNames x3
  have h3 : Keeps s (x3) := State.mset_keeps (State.msetN_keeps h1)
  exact upd_keeps h3

theorem State.rowProgram_keeps {s : State} {t1 : State} (h1 : Keeps s t1) {a2} {a3} : Keeps s (@State.rowProgram t1 a2 a3) := by
  delta State.rowProgram
  extract_lets -merge -underBinder +onlyGivenNames x4
  have h4 : Keeps s (x4) := State.mset_keeps (State.msetN_keeps h1)
  exact upd_keeps h4

theorem State.rowBits_keeps {s : State} {t1 : State} (h1 : Keeps s t1) {a2} {a3} : Keeps s (@State.rowBits t1 a2 a3) := by
  delta State.rowBits
  exact State.mset_keeps (State.msetN_keeps h1)

theorem State.opEffect_keeps {s : State} {t1 : State} (h1 : Keeps s t1) {a2} : Keeps s (@State.opEffect t1 a2) := by
  delta State.opEffect
  split
  · extract_lets -merge -underBinder +onlyGivenNames x3
    have h3 : Keeps s (x3) := each_inv h1 (fun _ h _ => State.rowErase_keeps h)
    exact each_inv h3 (fun _ h4 _ => State.rowProgram_keeps h4)
  · exact each_inv h1 (fun _ h _ => State.rowErase_keeps h)
  · exact State.rowProgram_keeps h1
  · exact State.rowBits_keeps h1
  · exact State.rowBits_keeps (State.rowProgram_keeps h1)

theorem State.storeSettle_keeps {s : State} {t1 : State} (h1 : Keeps s t1) : Keeps s (@State.storeSettle t1) := by
  delta State.storeSettle
  exact each_inv h1 (fun _ h _ => State.opEffect_keeps h)

theorem State.journalMark_keeps {s : State} {t1 : State} (h1 : Keeps s t1) {a2} {a3} : Keeps s (@State.journalMark t1 a2 a3) := by
  delta State.journalMark
  exact upd_keeps h1

theorem State.satBump_keeps {s : State} {t1 : State} (h1 : Keeps s t1) {a2} {a3} : Keeps s (@State.satBump t1 a2 a3) := by
  delta State.satBump
  exact State.fput_keeps h1

theorem State.raise_keeps {s : State} {t1 : State} (h1 : Keeps s t1) {a2} {a3} {a4} : Keeps s (@State.raise t1 a2 a3 a4) := by
  delta State.raise
  refine ite_inv ?_ ?_
  · exact upd_keeps h1
  · extract_lets -merge -underBinder +onlyGivenNames x5 x6
    have h6 : Keeps s (x6) := upd_keeps h1
    exact State.setFlag_keeps (State.satBump_keeps h6)

theorem State.setStrand_keeps {s : State} {t1 : State} (h1 : Keeps s t1) {a2} {a3} : Keeps s (@State.setStrand t1 a2 a3) := by
  delta State.setStrand
  exact upd_keeps h1

theorem State.modStrand_keeps {s : State} {t1 : State} (h1 : Keeps s t1) {a2} {a3} : Keeps s (@State.modStrand t1 a2 a3) := by
  delta State.modStrand
  exact State.setStrand_keeps h1

theorem State.setCls_keeps {s : State} {t1 : State} (h1 : Keeps s t1) {a2} {a3} : Keeps s (@State.setCls t1 a2 a3) := by
  delta State.setCls
  exact upd_keeps h1

theorem State.modCls_keeps {s : State} {t1 : State} (h1 : Keeps s t1) {a2} {a3} : Keeps s (@State.modCls t1 a2 a3) := by
  delta State.modCls
  exact State.setCls_keeps h1

theorem State.stopTrial_keeps {s : State} {t1 : State} (h1 : Keeps s t1) : Keeps s (@State.stopTrial t1) := by
  delta State.stopTrial
  extract_lets -merge -underBinder +onlyGivenNames x2
  have h2 : Keeps s (x2) := each_inv h1 (fun _ h3 _ => by
    refine ite_inv ?_ ?_
    · exact h3
    · extract_lets -merge -underBinder +onlyGivenNames x4
      have h4 : Keeps s (x4) := each_inv h3 (fun _ h5 _ => State.modStrand_keeps h5)
      exact State.modCls_keeps h4)
  exact State.setFlag_keeps h2

theorem State.revertSwapped_keeps {s : State} {t1 : State} (h1 : Keeps s t1) : Keeps s (@State.revertSwapped t1) := by
  delta State.revertSwapped
  exact State.fput_keeps (upd_keeps h1)

theorem State.editClear_keeps {s : State} {t1 : State} (h1 : Keeps s t1) : Keeps s (@State.editClear t1) := by
  delta State.editClear
  exact State.fput_keeps (upd_keeps h1)

theorem State.editAbortFor_keeps {s : State} {t1 : State} (h1 : Keeps s t1) {a2} : Keeps s (@State.editAbortFor t1 a2) := by
  delta State.editAbortFor
  split
  · exact h1
  · refine ite_inv ?_ ?_
    · exact h1
    · extract_lets -merge -underBinder +onlyGivenNames x3
      extract_lets -merge -underBinder +onlyGivenNames x4
      have h4 : Keeps s (x4) := State.fput_keeps (State.journalMark_keeps h1)
      extract_lets -merge -underBinder +onlyGivenNames x5
      have h5 : Keeps s (x5) := ite_inv (tx_keeps h4) h4
      extract_lets -merge -underBinder +onlyGivenNames x6
      have h6 : Keeps s (x6) := State.raise_keeps h5
      extract_lets -merge -underBinder +onlyGivenNames x7
      have h7 : Keeps s (x7) := State.stopTrial_keeps h6
      exact ite_inv (State.revertSwapped_keeps h7) (State.editClear_keeps h7)

theorem State.editReset_keeps {s : State} {t1 : State} (h1 : Keeps s t1) : Keeps s (@State.editReset t1) := by
  delta State.editReset
  exact ite_inv h1 (State.editAbortFor_keeps h1)

theorem State.showSlots_keeps {s : State} {t1 : State} (h1 : Keeps s t1) : Keeps s (@State.showSlots t1) := by
  delta State.showSlots
  exact State.fput_keeps (State.fput_keeps h1)

theorem State.dieReset_keeps {s : State} {t1 : State} (h1 : Keeps s t1) {a2} {a3} : Keeps s (@State.dieReset t1 a2 a3) := by
  delta State.dieReset
  extract_lets -merge -underBinder +onlyGivenNames x1 x2 x3 x4 x5 x6 x7 x8 x9 x10 x11 x12
  have h2 : Keeps s x2 := State.editReset_keeps (State.storeSettle_keeps h1)
  have h9 : Keeps s x9 := ⟨h2.1, h2.2.1, fun w => filter_wf _ (h2.2.2.1 w), fun _ => rfl⟩
  have h10 : Keeps s x10 := each_inv h9 (fun _ h _ => State.modUc_keeps h)
  exact State.showSlots_keeps (State.setFlag_keeps (State.setFlag_keeps (State.fput_keeps (State.fput_keeps h10))))

theorem countOne_keeps {s : State} {t1 : State} (h1 : Keeps s t1) {a2} {a3} {a4} {a5} {a6} : Keeps s (@countOne t1 a2 a3 a4 a5 a6) := by
  delta countOne
  refine ite_inv ?_ ?_
  · extract_lets -merge -underBinder +onlyGivenNames x7
    extract_lets -merge -underBinder +onlyGivenNames x8
    have h8 : Keeps s (x8) := State.rset_keeps (State.rset_keeps h1)
    exact ite_inv h8 (State.rset_keeps h8)
  · exact h1

theorem State.countG_keeps {s : State} {t1 : State} (h1 : Keeps s t1) {a2} {a3} : Keeps s (@State.countG t1 a2 a3) := by
  delta State.countG
  exact ite_inv (each_inv h1 (fun _ h4 _ => countOne_keeps h4)) h1

theorem State.wrapBump_keeps {s : State} {t1 : State} (h1 : Keeps s t1) {a2} {a3} : Keeps s (@State.wrapBump t1 a2 a3) := by
  delta State.wrapBump
  exact State.fput_keeps h1

theorem State.send_keeps {s : State} {t1 : State} (h1 : Keeps s t1) {a2} : Keeps s (@State.send t1 a2) := by
  delta State.send
  exact tx_keeps h1

theorem State.proposeAt_keeps {s : State} {t1 : State} (h1 : Keeps s t1) {a2} {a3} : Keeps s (@State.proposeAt t1 a2 a3) := by
  delta State.proposeAt
  extract_lets -merge -underBinder +onlyGivenNames x4 x5
  have h5 : Keeps s (x5) := upd_keeps h1
  exact State.send_keeps h5

theorem State.proposeHandover_keeps {s : State} {t1 : State} (h1 : Keeps s t1) {a2} : Keeps s (@State.proposeHandover t1 a2) := by
  delta State.proposeHandover
  extract_lets -merge -underBinder +onlyGivenNames x3
  extract_lets -merge -underBinder +onlyGivenNames x4
  have h4 : Keeps s (x4) := ite_inv (State.send_keeps h1) h1
  exact State.proposeAt_keeps h4

theorem State.breakResv_keeps {s : State} {t1 : State} (h1 : Keeps s t1) {a2} {a3} {a4} : Keeps s (@State.breakResv t1 a2 a3 a4) := by
  delta State.breakResv
  extract_lets -merge -underBinder +onlyGivenNames x5
  have h5 : Keeps s (x5) := each_inv h1 (fun _ h6 _ => ite_inv h6 (State.modStrand_keeps h6))
  exact upd_keeps h5

theorem State.draw_keeps {s : State} {t1 : State} (h1 : Keeps s t1) : Keeps s (@State.draw t1) := by
  delta State.draw
  exact upd_keeps h1

theorem State.withdrawActivation_keeps {s : State} {t1 : State} (h1 : Keeps s t1) : Keeps s (@State.withdrawActivation t1) := by
  delta State.withdrawActivation
  split
  · exact h1
  · extract_lets -merge -underBinder +onlyGivenNames x2 x3
    have h3 : Keeps s (x3) := State.setFlag_keeps (upd_keeps h1)
    exact State.raise_keeps (State.fput_keeps h3)

theorem State.moduleReset_keeps {s : State} {t1 : State} (h1 : Keeps s t1) {a2} : Keeps s (@State.moduleReset t1 a2) := by
  delta State.moduleReset
  exact State.dieReset_keeps h1

theorem State.setMark_keeps {s : State} {t1 : State} (h1 : Keeps s t1) {a2} {a3} : Keeps s (@State.setMark t1 a2 a3) := by
  delta State.setMark
  exact State.mset_keeps h1

theorem State.markSlot_keeps {s : State} {t1 : State} (h1 : Keeps s t1) {a2} {a3} : Keeps s (@State.markSlot t1 a2 a3) := by
  delta State.markSlot
  exact State.showSlots_keeps (State.setMark_keeps h1)

theorem State.setMb_keeps {s : State} {t1 : State} (h1 : Keeps s t1) {a2} {a3} {a4} : Keeps s (@State.setMb t1 a2 a3 a4) := by
  delta State.setMb
  exact upd_keeps h1

theorem State.mbWithdraw_keeps {s : State} {t1 : State} (h1 : Keeps s t1) {a2} {a3} {a4} : Keeps s (@State.mbWithdraw t1 a2 a3 a4) := by
  delta State.mbWithdraw
  split
  · exact h1
  · extract_lets -merge -underBinder +onlyGivenNames x5 x6
    have h6 : Keeps s (x6) := State.setMb_keeps h1
    extract_lets -merge -underBinder +onlyGivenNames x7
    have h7 : Keeps s (x7) := State.setFlag_keeps (State.fput_keeps (State.setFlag_keeps h6))
    exact State.raise_keeps h7

theorem State.rset64_keeps {s : State} {t1 : State} (h1 : Keeps s t1) {a2} {a3} {a4} : Keeps s (@State.rset64 t1 a2 a3 a4) := by
  delta State.rset64
  exact State.rset_keeps (State.rset_keeps h1)

theorem State.obsPush_keeps {s : State} {t1 : State} (h1 : Keeps s t1) {a2} {a3} {a4} : Keeps s (@State.obsPush t1 a2 a3 a4) := by
  delta State.obsPush
  refine ite_inv ?_ ?_
  · exact h1
  · extract_lets -merge -underBinder +onlyGivenNames x5
    extract_lets -merge -underBinder +onlyGivenNames x6
    extract_lets -merge -underBinder +onlyGivenNames x7
    extract_lets -merge -underBinder +onlyGivenNames x8
    extract_lets -merge -underBinder +onlyGivenNames x9
    refine ite_inv ?_ ?_
    · extract_lets -merge -underBinder +onlyGivenNames x10
      exact upd_keeps h1
    · extract_lets -merge -underBinder +onlyGivenNames x11
      have h11 : Keeps s (x11) := State.satBump_keeps h1
      exact ite_inv (upd_keeps h11) (upd_keeps h11)

theorem State.traceEnd_keeps {s : State} {t1 : State} (h1 : Keeps s t1) {a2} : Keeps s (@State.traceEnd t1 a2) := by
  delta State.traceEnd
  refine ite_inv ?_ ?_
  · extract_lets -merge -underBinder +onlyGivenNames x3
    have h3 : Keeps s (x3) := State.setFlag_keeps (State.setFlag_keeps h1)
    exact upd_keeps h3
  · exact upd_keeps h1

theorem State.setBit_keeps {s : State} {t1 : State} (h1 : Keeps s t1) {a2} {a3} {a4} : Keeps s (@State.setBit t1 a2 a3 a4) := by
  delta State.setBit
  exact State.fput_keeps h1

theorem State.dropStall_keeps {s : State} {t1 : State} (h1 : Keeps s t1) {a2} : Keeps s (@State.dropStall t1 a2) := by
  delta State.dropStall
  split
  · exact h1
  · extract_lets -merge -underBinder +onlyGivenNames x3
    have h3 : Keeps s (x3) := State.modStrand_keeps h1
    split
    · extract_lets -merge -underBinder +onlyGivenNames x4
      have h4 : Keeps s (x4) := State.setBit_keeps h3
      exact upd_keeps h4
    · exact upd_keeps h3
    · exact ite_inv (upd_keeps h3) (upd_keeps h3)

theorem State.editOnMode_keeps {s : State} {t1 : State} (h1 : Keeps s t1) {a2} {a3} : Keeps s (@State.editOnMode t1 a2 a3) := by
  delta State.editOnMode
  refine ite_inv ?_ ?_
  · exact h1
  · extract_lets -merge -underBinder +onlyGivenNames x4
    extract_lets -merge -underBinder +onlyGivenNames x5
    exact ite_inv h1 (ite_inv (ite_inv h1 (State.editAbortFor_keeps h1)) (ite_inv h1 (ite_inv (State.fput_keeps (State.stopTrial_keeps h1)) (State.editAbortFor_keeps h1))))

theorem State.melFail_keeps {s : State} {t1 : State} (h1 : Keeps s t1) {a2} {a3} {a4} : Keeps s (@State.melFail t1 a2 a3 a4) := by
  delta State.melFail
  extract_lets -merge -underBinder +onlyGivenNames x5
  have h5 : Keeps s (x5) := State.fput_keeps (State.setFlag_keeps h1)
  extract_lets -merge -underBinder +onlyGivenNames x6
  have h6 : Keeps s (x6) := State.fput_keeps (State.setFlag_keeps h5)
  extract_lets -merge -underBinder +onlyGivenNames x7
  have h7 : Keeps s (x7) := State.raise_keeps (State.setFlag_keeps h6)
  exact upd_keeps h7

theorem State.hedgeOnFault_keeps {s : State} {t1 : State} (h1 : Keeps s t1) : Keeps s (@State.hedgeOnFault t1) := by
  delta State.hedgeOnFault
  refine ite_inv ?_ ?_
  · extract_lets -merge -underBinder +onlyGivenNames x2
    have h2 : Keeps s (x2) := State.melFail_keeps h1
    exact tx_keeps h2
  · exact h1

theorem State.trialFails_keeps {s : State} {t1 : State} (h1 : Keeps s t1) {a2} : Keeps s (@State.trialFails t1 a2) := by
  delta State.trialFails
  split
  · exact h1
  · exact upd_keeps h1

theorem State.sharedOff_keeps {s : State} {t1 : State} (h1 : Keeps s t1) : Keeps s (@State.sharedOff t1) := by
  delta State.sharedOff
  extract_lets -merge -underBinder +onlyGivenNames x2
  have h2 : Keeps s (x2) := each_inv h1 (fun _ h3 _ => ite_inv (State.dioOff_keeps h3) h3)
  exact each_inv h2 (fun _ h4 _ => ite_inv (State.modUc_keeps h4) h4)

theorem State.batonUpdate_keeps {s : State} {t1 : State} (h1 : Keeps s t1) : Keeps s (@State.batonUpdate t1) := by
  delta State.batonUpdate
  extract_lets -merge -underBinder +onlyGivenNames x2
  extract_lets -merge -underBinder +onlyGivenNames x3
  extract_lets -merge -underBinder +onlyGivenNames x4
  have h4 : Keeps s (x4) := State.setFlag_keeps h1
  exact ite_inv (State.sharedOff_keeps h4) h4

theorem State.setMode_keeps {s : State} {t1 : State} (h1 : Keeps s t1) {a2} {a3} : Keeps s (@State.setMode t1 a2 a3) := by
  delta State.setMode
  extract_lets -merge -underBinder +onlyGivenNames x4
  refine ite_inv ?_ ?_
  · exact h1
  · extract_lets -merge -underBinder +onlyGivenNames x5
    have h5 : Keeps s (x5) := State.fput_keeps (State.fput_keeps h1)
    extract_lets -merge -underBinder +onlyGivenNames x6
    have h6 : Keeps s (x6) := State.setFlag_keeps h5
    extract_lets -merge -underBinder +onlyGivenNames x7
    have h7 : Keeps s (x7) := State.raise_keeps h6
    extract_lets -merge -underBinder +onlyGivenNames x8 x9
    have h9 : Keeps s (x9) := upd_keeps h7
    extract_lets -merge -underBinder +onlyGivenNames x10
    have h10 : Keeps s (x10) := ite_inv h9 (State.fput_keeps h9)
    extract_lets -merge -underBinder +onlyGivenNames x11
    have h11 : Keeps s (x11) := State.editOnMode_keeps h10
    extract_lets -merge -underBinder +onlyGivenNames x12
    have h12 : Keeps s (x12) := ite_inv (State.withdrawActivation_keeps h11) h11
    extract_lets -merge -underBinder +onlyGivenNames x13
    have h13 : Keeps s (x13) := ite_inv (State.hedgeOnFault_keeps (State.trialFails_keeps h12)) h12
    extract_lets -merge -underBinder +onlyGivenNames x14
    extract_lets -merge -underBinder +onlyGivenNames x15 x16 x17
    have h15 : Keeps s (x15) := State.fput_keeps (State.fput_keeps h13)
    have h17 : Keeps s (x17) := ite_inv (upd_keeps h15) h13
    exact State.batonUpdate_keeps h17

theorem State.canStop_keeps {s : State} {t1 : State} (h1 : Keeps s t1) : Keeps s (@State.canStop t1) := by
  delta State.canStop
  exact each_inv h1 (fun _ h2 _ => by
    extract_lets -merge -underBinder +onlyGivenNames x3
    extract_lets -merge -underBinder +onlyGivenNames x4
    refine ite_inv ?_ ?_
    · extract_lets -merge -underBinder +onlyGivenNames x5
      have h5 : Keeps s (x5) := by
        unfold x5
        split
        · exact ite_inv h2 (State.mbWithdraw_keeps h2)
        · exact h2
      exact State.setMb_keeps h5
    · exact h2)

theorem State.setEngine_keeps {s : State} {t1 : State} (h1 : Keeps s t1) {a2} {a3} : Keeps s (@State.setEngine t1 a2 a3) := by
  delta State.setEngine
  exact upd_keeps h1

theorem State.cancelJobs_keeps {s : State} {t1 : State} (h1 : Keeps s t1) : Keeps s (@State.cancelJobs t1) := by
  delta State.cancelJobs
  exact each_inv h1 (fun _ h2 _ => State.fput_keeps (State.setEngine_keeps h2))

theorem State.swSet_keeps {s : State} {t1 : State} (h1 : Keeps s t1) {a2} {a3} : Keeps s (@State.swSet t1 a2 a3) := by
  delta State.swSet
  exact upd_keeps h1

theorem State.released_keeps {s : State} {t1 : State} (h1 : Keeps s t1) : Keeps s (@State.released t1) := by
  delta State.released
  exact each_inv h1 (fun _ h2 _ => by
    split
    · extract_lets -merge -underBinder +onlyGivenNames x3
      have h3 : Keeps s (x3) := img_keeps h2 (fun w => each_inv (P := fun m => imgWf m = true) w (fun _ h _ => imgMask_wf h))
      exact each_inv h3 (fun _ h4 _ => State.swSet_keeps h4)
    · exact h2)

theorem State.stopAll_keeps {s : State} {t1 : State} (h1 : Keeps s t1) : Keeps s (@State.stopAll t1) := by
  delta State.stopAll
  extract_lets -merge -underBinder +onlyGivenNames x2
  have h2 : Keeps s (x2) := State.released_keeps h1
  extract_lets -merge -underBinder +onlyGivenNames x3 x4
  have h4 : Keeps s (x4) := upd_keeps h2
  extract_lets -merge -underBinder +onlyGivenNames x5
  have h5 : Keeps s (x5) := each_inv h4 (fun _ h6 _ => State.modStrand_keeps h6)
  extract_lets -merge -underBinder +onlyGivenNames x7 x8
  have h7 : Keeps s (x7) := State.fput_keeps h5
  have h8 : Keeps s (x8) := upd_keeps h7
  exact each_inv h8 (fun _ h9 _ => State.fput_keeps (State.modCls_keeps h9))

theorem State.enterStop_keeps {s : State} {t1 : State} (h1 : Keeps s t1) {a2} : Keeps s (@State.enterStop t1 a2) := by
  delta State.enterStop
  extract_lets -merge -underBinder +onlyGivenNames x3
  have h3 : Keeps s (x3) := State.canStop_keeps (State.cancelJobs_keeps (State.stopAll_keeps h1))
  extract_lets -merge -underBinder +onlyGivenNames x4 x5
  have h5 : Keeps s (x5) := upd_keeps h3
  exact State.setMode_keeps h5

theorem State.enterExec_keeps {s : State} {t1 : State} (h1 : Keeps s t1) {a2} {a3} : Keeps s (@State.enterExec t1 a2 a3) := by
  delta State.enterExec
  refine ite_inv ?_ ?_
  · extract_lets -merge -underBinder +onlyGivenNames x4
    have h4 : Keeps s (x4) := State.setFlag_keeps (State.setMode_keeps h1)
    exact State.raise_keeps h4
  · exact State.setFlag_keeps (State.setMode_keeps h1)

theorem State.setPipe_keeps {s : State} {t1 : State} (h1 : Keeps s t1) {a2} {a3} : Keeps s (@State.setPipe t1 a2 a3) := by
  delta State.setPipe
  exact upd_keeps h1

theorem State.refLost_keeps {s : State} {t1 : State} (h1 : Keeps s t1) {a2} : Keeps s (@State.refLost t1 a2) := by
  delta State.refLost
  exact ite_inv (State.setFlag_keeps (State.fput_keeps (State.fput_keeps (State.fput_keeps h1)))) h1

theorem State.choose_keeps {s : State} {t1 : State} (h1 : Keeps s t1) {a2} : Keeps s (Prod.fst (@State.choose t1 a2)) := by
  delta State.choose
  exact fst_inv (P := Keeps s) (State.draw_keeps h1)

theorem State.takeoverOver_keeps {s : State} {t1 : State} (h1 : Keeps s t1) : Keeps s (@State.takeoverOver t1) := by
  delta State.takeoverOver
  exact ite_inv (upd_keeps h1) h1

theorem State.stopForget_keeps {s : State} {t1 : State} (h1 : Keeps s t1) : Keeps s (@State.stopForget t1) := by
  delta State.stopForget
  extract_lets -merge -underBinder +onlyGivenNames x2
  exact ite_inv (upd_keeps h1) h1

theorem State.withdrawChange_keeps {s : State} {t1 : State} (h1 : Keeps s t1) {a2} : Keeps s (@State.withdrawChange t1 a2) := by
  delta State.withdrawChange
  split
  · exact h1
  · extract_lets -merge -underBinder +onlyGivenNames x3 x4
    have h4 : Keeps s (x4) := upd_keeps h1
    extract_lets -merge -underBinder +onlyGivenNames x5
    have h5 : Keeps s (x5) := State.stopForget_keeps h4
    refine ite_inv ?_ ?_
    · extract_lets -merge -underBinder +onlyGivenNames x6
      have h6 : Keeps s (x6) := State.setFlag_keeps h5
      extract_lets -merge -underBinder +onlyGivenNames x7
      have h7 : Keeps s (x7) := State.fput_keeps h6
      exact State.raise_keeps h7
    · exact h5

theorem State.leaveForFault_keeps {s : State} {t1 : State} (h1 : Keeps s t1) : Keeps s (@State.leaveForFault t1) := by
  delta State.leaveForFault
  exact State.traceEnd_keeps (State.withdrawChange_keeps (State.canStop_keeps (State.cancelJobs_keeps (State.stopAll_keeps h1))))

theorem State.enterSafe_keeps {s : State} {t1 : State} (h1 : Keeps s t1) {a2} : Keeps s (@State.enterSafe t1 a2) := by
  delta State.enterSafe
  extract_lets -merge -underBinder +onlyGivenNames x3
  refine ite_inv ?_ ?_
  · exact ite_inv (State.fput_keeps h1) h1
  · refine ite_inv ?_ ?_
    · extract_lets -merge -underBinder +onlyGivenNames x4
      have h4 : Keeps s (x4) := State.leaveForFault_keeps h1
      extract_lets -merge -underBinder +onlyGivenNames x5 x6
      have h6 : Keeps s (x6) := upd_keeps h4
      exact State.fput_keeps (State.setMode_keeps h6)
    · exact h1

theorem State.setBt_keeps {s : State} {t1 : State} (h1 : Keeps s t1) {a2} {a3} : Keeps s (@State.setBt t1 a2 a3) := by
  delta State.setBt
  exact upd_keeps h1

theorem State.btSend_keeps {s : State} {t1 : State} (h1 : Keeps s t1) {a2} {a3} : Keeps s (@State.btSend t1 a2 a3) := by
  delta State.btSend
  extract_lets -merge -underBinder +onlyGivenNames x4
  refine ite_inv ?_ ?_
  · extract_lets -merge -underBinder +onlyGivenNames x5
    have h5 : Keeps s (x5) := State.setBt_keeps (State.obsPush_keeps h1)
    exact ite_inv (State.setBt_keeps (State.obsPush_keeps h5)) h5
  · exact ite_inv (State.setBt_keeps (State.obsPush_keeps h1)) h1

theorem State.btWord_keeps {s : State} {t1 : State} (h1 : Keeps s t1) {a2} {a3} {a4} {a5} : Keeps s (@State.btWord t1 a2 a3 a4 a5) := by
  delta State.btWord
  refine ite_inv ?_ ?_
  · extract_lets -merge -underBinder +onlyGivenNames x6
    extract_lets -merge -underBinder +onlyGivenNames x7
    have h7 : Keeps s (x7) := State.setBt_keeps h1
    exact State.btSend_keeps h7
  · exact h1

theorem State.btStart_keeps {s : State} {t1 : State} (h1 : Keeps s t1) {a2} {a3} {a4} : Keeps s (@State.btStart t1 a2 a3 a4) := by
  delta State.btStart
  exact State.btWord_keeps h1

theorem State.checkLastEndc_keeps {s : State} {t1 : State} (h1 : Keeps s t1) {a2} : Keeps s (@State.checkLastEndc t1 a2) := by
  delta State.checkLastEndc
  extract_lets -merge -underBinder +onlyGivenNames x3
  exact ite_inv (State.setCls_keeps h1) h1

theorem State.swapWorld_is (t : State) (k : Nat) : (t.swapWorld k).pending = t.pending ∧ (t.swapWorld k).tx = t.tx ∧
    (t.swapWorld k).mem = t.mem ∧ (t.swapWorld k).img = (tget World.reset t.edit.worlds k).img ∧
    (t.swapWorld k).edit.worlds = tset World.reset t.edit.worlds k
      (t.worldOf k ((tget World.reset t.edit.worlds k).prods.map (·.1))) := by
  delta State.swapWorld
  extract_lets -merge -underBinder +onlyGivenNames w old a b x1 x2
  have h : x2.pending = t.pending ∧ x2.tx = t.tx ∧ x2.mem = t.mem ∧ x2.img = w.img ∧
      x2.edit.worlds = tset World.reset t.edit.worlds k old :=
    each_inv (P := fun u : State => u.pending = t.pending ∧ u.tx = t.tx ∧ u.mem = t.mem ∧ u.img = w.img ∧
      u.edit.worlds = tset World.reset t.edit.worlds k old) ⟨rfl, rfl, rfl, rfl, rfl⟩ (fun _ h _ => h)
  exact h

theorem State.rset_keepsW {s : State} {t1 : State} (h1 : KeepsW s t1) {a2} {a3} : KeepsW s (@State.rset t1 a2 a3) := by
  delta State.rset
  exact upd_keepsW h1

theorem countOne_keepsW {s : State} {t1 : State} (h1 : KeepsW s t1) {a2} {a3} {a4} {a5} {a6} : KeepsW s (@countOne t1 a2 a3 a4 a5 a6) := by
  delta countOne
  refine ite_inv ?_ ?_
  · extract_lets -merge -underBinder +onlyGivenNames x7
    extract_lets -merge -underBinder +onlyGivenNames x8
    have h8 : KeepsW s (x8) := State.rset_keepsW (State.rset_keepsW h1)
    exact ite_inv h8 (State.rset_keepsW h8)
  · exact h1

theorem State.countS_keepsW {s : State} {t1 : State} (h1 : KeepsW s t1) {a2} {a3} {a4} : KeepsW s (@State.countS t1 a2 a3 a4) := by
  delta State.countS
  exact ite_inv (each_inv h1 (fun _ h5 _ => countOne_keepsW h5)) h1

theorem State.setStrand_keepsW {s : State} {t1 : State} (h1 : KeepsW s t1) {a2} {a3} : KeepsW s (@State.setStrand t1 a2 a3) := by
  delta State.setStrand
  exact upd_keepsW h1

theorem State.modStrand_keepsW {s : State} {t1 : State} (h1 : KeepsW s t1) {a2} {a3} : KeepsW s (@State.modStrand t1 a2 a3) := by
  delta State.modStrand
  exact State.setStrand_keepsW h1

theorem State.fput_keepsW {s : State} {t1 : State} (h1 : KeepsW s t1) {a2} {a3} : KeepsW s (@State.fput t1 a2 a3) := by
  delta State.fput
  exact State.rset_keepsW h1

theorem State.satBump_keepsW {s : State} {t1 : State} (h1 : KeepsW s t1) {a2} {a3} : KeepsW s (@State.satBump t1 a2 a3) := by
  delta State.satBump
  exact State.fput_keepsW h1

theorem State.setFlag_keepsW {s : State} {t1 : State} (h1 : KeepsW s t1) {a2} {a3} : KeepsW s (@State.setFlag t1 a2 a3) := by
  delta State.setFlag
  exact State.fput_keepsW h1

theorem State.raise_keepsW {s : State} {t1 : State} (h1 : KeepsW s t1) {a2} {a3} {a4} : KeepsW s (@State.raise t1 a2 a3 a4) := by
  delta State.raise
  refine ite_inv ?_ ?_
  · exact upd_keepsW h1
  · extract_lets -merge -underBinder +onlyGivenNames x5 x6
    have h6 : KeepsW s (x6) := upd_keepsW h1
    exact State.setFlag_keepsW (State.satBump_keepsW h6)

theorem State.selRecord_keepsW {s : State} {t1 : State} (h1 : KeepsW s t1) {a2} {a3} {a4} {a5} {a6} : KeepsW s (@State.selRecord t1 a2 a3 a4 a5 a6) := by
  delta State.selRecord
  extract_lets -merge -underBinder +onlyGivenNames x7
  extract_lets -merge -underBinder +onlyGivenNames x8
  extract_lets -merge -underBinder +onlyGivenNames x9
  extract_lets -merge -underBinder +onlyGivenNames x10 x11
  have h11 : KeepsW s (x11) := upd_keepsW h1
  extract_lets -merge -underBinder +onlyGivenNames x12 x13
  have h12 : KeepsW s (x12) := State.satBump_keepsW h11
  have h13 : KeepsW s (x13) := ite_inv (State.setFlag_keepsW (State.satBump_keepsW h11)) (ite_inv (State.setFlag_keepsW h12) (State.setFlag_keepsW h12))
  exact State.raise_keepsW h13

theorem State.draw_keepsW {s : State} {t1 : State} (h1 : KeepsW s t1) : KeepsW s (@State.draw t1) := by
  delta State.draw
  exact upd_keepsW h1

theorem State.integRead_keepsW {s : State} {t1 : State} (h1 : KeepsW s t1) {a2} : KeepsW s (@State.integRead t1 a2) := by
  delta State.integRead
  extract_lets -merge -underBinder +onlyGivenNames x3
  exact State.selRecord_keepsW (State.draw_keepsW h1)

theorem State.setBit_keepsW {s : State} {t1 : State} (h1 : KeepsW s t1) {a2} {a3} {a4} : KeepsW s (@State.setBit t1 a2 a3 a4) := by
  delta State.setBit
  exact State.fput_keepsW h1

theorem State.countTrialTrap_keepsW {s : State} {t1 : State} (h1 : KeepsW s t1) {a2} : KeepsW s (@State.countTrialTrap t1 a2) := by
  delta State.countTrialTrap
  exact ite_inv (State.satBump_keepsW h1) h1

theorem State.setBt_keepsW {s : State} {t1 : State} (h1 : KeepsW s t1) {a2} {a3} : KeepsW s (@State.setBt t1 a2 a3) := by
  delta State.setBt
  exact upd_keepsW h1

theorem State.obsPush_keepsW {s : State} {t1 : State} (h1 : KeepsW s t1) {a2} {a3} {a4} : KeepsW s (@State.obsPush t1 a2 a3 a4) := by
  delta State.obsPush
  refine ite_inv ?_ ?_
  · exact h1
  · extract_lets -merge -underBinder +onlyGivenNames x5
    extract_lets -merge -underBinder +onlyGivenNames x6
    extract_lets -merge -underBinder +onlyGivenNames x7
    extract_lets -merge -underBinder +onlyGivenNames x8
    extract_lets -merge -underBinder +onlyGivenNames x9
    refine ite_inv ?_ ?_
    · extract_lets -merge -underBinder +onlyGivenNames x10
      exact upd_keepsW h1
    · extract_lets -merge -underBinder +onlyGivenNames x11
      have h11 : KeepsW s (x11) := State.satBump_keepsW h1
      exact ite_inv (upd_keepsW h11) (upd_keepsW h11)

theorem State.btSend_keepsW {s : State} {t1 : State} (h1 : KeepsW s t1) {a2} {a3} : KeepsW s (@State.btSend t1 a2 a3) := by
  delta State.btSend
  extract_lets -merge -underBinder +onlyGivenNames x4
  refine ite_inv ?_ ?_
  · extract_lets -merge -underBinder +onlyGivenNames x5
    have h5 : KeepsW s (x5) := State.setBt_keepsW (State.obsPush_keepsW h1)
    exact ite_inv (State.setBt_keepsW (State.obsPush_keepsW h5)) h5
  · exact ite_inv (State.setBt_keepsW (State.obsPush_keepsW h1)) h1

theorem State.btWord_keepsW {s : State} {t1 : State} (h1 : KeepsW s t1) {a2} {a3} {a4} {a5} : KeepsW s (@State.btWord t1 a2 a3 a4 a5) := by
  delta State.btWord
  refine ite_inv ?_ ?_
  · extract_lets -merge -underBinder +onlyGivenNames x6
    extract_lets -merge -underBinder +onlyGivenNames x7
    have h7 : KeepsW s (x7) := State.setBt_keepsW h1
    exact State.btSend_keepsW h7
  · exact h1

theorem State.btEnd_keepsW {s : State} {t1 : State} (h1 : KeepsW s t1) {a2} {a3} : KeepsW s (@State.btEnd t1 a2 a3) := by
  delta State.btEnd
  exact State.btWord_keepsW h1

theorem State.recordTrap_keepsW {s : State} {t1 : State} (h1 : KeepsW s t1) {a2} {a3} : KeepsW s (@State.recordTrap t1 a2 a3) := by
  delta State.recordTrap
  extract_lets -merge -underBinder +onlyGivenNames x4
  extract_lets -merge -underBinder +onlyGivenNames x5
  extract_lets -merge -underBinder +onlyGivenNames x6
  extract_lets -merge -underBinder +onlyGivenNames x7
  have h7 : KeepsW s (x7) := State.fput_keepsW (State.satBump_keepsW h1)
  extract_lets -merge -underBinder +onlyGivenNames x8
  have h8 : KeepsW s (x8) := State.setBit_keepsW (State.fput_keepsW (State.fput_keepsW h7))
  extract_lets -merge -underBinder +onlyGivenNames x9
  have h9 : KeepsW s (x9) := State.raise_keepsW h8
  exact State.countTrialTrap_keepsW (State.btEnd_keepsW (State.countS_keepsW h9))

theorem State.traceEnd_keepsW {s : State} {t1 : State} (h1 : KeepsW s t1) {a2} : KeepsW s (@State.traceEnd t1 a2) := by
  delta State.traceEnd
  refine ite_inv ?_ ?_
  · extract_lets -merge -underBinder +onlyGivenNames x3
    have h3 : KeepsW s (x3) := State.setFlag_keepsW (State.setFlag_keepsW h1)
    exact upd_keepsW h3
  · exact upd_keepsW h1

theorem State.stopForget_keepsW {s : State} {t1 : State} (h1 : KeepsW s t1) : KeepsW s (@State.stopForget t1) := by
  delta State.stopForget
  extract_lets -merge -underBinder +onlyGivenNames x2
  exact ite_inv (upd_keepsW h1) h1

theorem State.withdrawChange_keepsW {s : State} {t1 : State} (h1 : KeepsW s t1) {a2} : KeepsW s (@State.withdrawChange t1 a2) := by
  delta State.withdrawChange
  split
  · exact h1
  · extract_lets -merge -underBinder +onlyGivenNames x3 x4
    have h4 : KeepsW s (x4) := upd_keepsW h1
    extract_lets -merge -underBinder +onlyGivenNames x5
    have h5 : KeepsW s (x5) := State.stopForget_keepsW h4
    refine ite_inv ?_ ?_
    · extract_lets -merge -underBinder +onlyGivenNames x6
      have h6 : KeepsW s (x6) := State.setFlag_keepsW h5
      extract_lets -merge -underBinder +onlyGivenNames x7
      have h7 : KeepsW s (x7) := State.fput_keepsW h6
      exact State.raise_keepsW h7
    · exact h5

theorem State.setMb_keepsW {s : State} {t1 : State} (h1 : KeepsW s t1) {a2} {a3} {a4} : KeepsW s (@State.setMb t1 a2 a3 a4) := by
  delta State.setMb
  exact upd_keepsW h1

theorem State.mbWithdraw_keepsW {s : State} {t1 : State} (h1 : KeepsW s t1) {a2} {a3} {a4} : KeepsW s (@State.mbWithdraw t1 a2 a3 a4) := by
  delta State.mbWithdraw
  split
  · exact h1
  · extract_lets -merge -underBinder +onlyGivenNames x5 x6
    have h6 : KeepsW s (x6) := State.setMb_keepsW h1
    extract_lets -merge -underBinder +onlyGivenNames x7
    have h7 : KeepsW s (x7) := State.setFlag_keepsW (State.fput_keepsW (State.setFlag_keepsW h6))
    exact State.raise_keepsW h7

theorem State.canStop_keepsW {s : State} {t1 : State} (h1 : KeepsW s t1) : KeepsW s (@State.canStop t1) := by
  delta State.canStop
  exact each_inv h1 (fun _ h2 _ => by
    extract_lets -merge -underBinder +onlyGivenNames x3
    extract_lets -merge -underBinder +onlyGivenNames x4
    refine ite_inv ?_ ?_
    · extract_lets -merge -underBinder +onlyGivenNames x5
      have h5 : KeepsW s (x5) := by
        unfold x5
        split
        · exact ite_inv h2 (State.mbWithdraw_keepsW h2)
        · exact h2
      exact State.setMb_keepsW h5
    · exact h2)

theorem State.setEngine_keepsW {s : State} {t1 : State} (h1 : KeepsW s t1) {a2} {a3} : KeepsW s (@State.setEngine t1 a2 a3) := by
  delta State.setEngine
  exact upd_keepsW h1

theorem State.cancelJobs_keepsW {s : State} {t1 : State} (h1 : KeepsW s t1) : KeepsW s (@State.cancelJobs t1) := by
  delta State.cancelJobs
  exact each_inv h1 (fun _ h2 _ => State.fput_keepsW (State.setEngine_keepsW h2))

theorem State.swSet_keepsW {s : State} {t1 : State} (h1 : KeepsW s t1) {a2} {a3} : KeepsW s (@State.swSet t1 a2 a3) := by
  delta State.swSet
  exact upd_keepsW h1

theorem State.released_keepsW {s : State} {t1 : State} (h1 : KeepsW s t1) : KeepsW s (@State.released t1) := by
  delta State.released
  exact each_inv h1 (fun _ h2 _ => by
    split
    · extract_lets -merge -underBinder +onlyGivenNames x3
      have h3 : KeepsW s (x3) := img_keepsW h2 (fun w => each_inv (P := fun m => imgWf m = true) w (fun _ h _ => imgMask_wf h))
      exact each_inv h3 (fun _ h4 _ => State.swSet_keepsW h4)
    · exact h2)

theorem State.setCls_keepsW {s : State} {t1 : State} (h1 : KeepsW s t1) {a2} {a3} : KeepsW s (@State.setCls t1 a2 a3) := by
  delta State.setCls
  exact upd_keepsW h1

theorem State.modCls_keepsW {s : State} {t1 : State} (h1 : KeepsW s t1) {a2} {a3} : KeepsW s (@State.modCls t1 a2 a3) := by
  delta State.modCls
  exact State.setCls_keepsW h1

theorem State.stopAll_keepsW {s : State} {t1 : State} (h1 : KeepsW s t1) : KeepsW s (@State.stopAll t1) := by
  delta State.stopAll
  extract_lets -merge -underBinder +onlyGivenNames x2
  have h2 : KeepsW s (x2) := State.released_keepsW h1
  extract_lets -merge -underBinder +onlyGivenNames x3 x4
  have h4 : KeepsW s (x4) := upd_keepsW h2
  extract_lets -merge -underBinder +onlyGivenNames x5
  have h5 : KeepsW s (x5) := each_inv h4 (fun _ h6 _ => State.modStrand_keepsW h6)
  extract_lets -merge -underBinder +onlyGivenNames x7 x8
  have h7 : KeepsW s (x7) := State.fput_keepsW h5
  have h8 : KeepsW s (x8) := upd_keepsW h7
  exact each_inv h8 (fun _ h9 _ => State.fput_keepsW (State.modCls_keepsW h9))

theorem State.leaveForFault_keepsW {s : State} {t1 : State} (h1 : KeepsW s t1) : KeepsW s (@State.leaveForFault t1) := by
  delta State.leaveForFault
  exact State.traceEnd_keepsW (State.withdrawChange_keepsW (State.canStop_keepsW (State.cancelJobs_keepsW (State.stopAll_keepsW h1))))

theorem State.journalMark_keepsW {s : State} {t1 : State} (h1 : KeepsW s t1) {a2} {a3} : KeepsW s (@State.journalMark t1 a2 a3) := by
  delta State.journalMark
  exact upd_keepsW h1

theorem State.stopTrial_keepsW {s : State} {t1 : State} (h1 : KeepsW s t1) : KeepsW s (@State.stopTrial t1) := by
  delta State.stopTrial
  extract_lets -merge -underBinder +onlyGivenNames x2
  have h2 : KeepsW s (x2) := each_inv h1 (fun _ h3 _ => by
    refine ite_inv ?_ ?_
    · exact h3
    · extract_lets -merge -underBinder +onlyGivenNames x4
      have h4 : KeepsW s (x4) := each_inv h3 (fun _ h5 _ => State.modStrand_keepsW h5)
      exact State.modCls_keepsW h4)
  exact State.setFlag_keepsW h2

theorem State.revertSwapped_keepsW {s : State} {t1 : State} (h1 : KeepsW s t1) : KeepsW s (@State.revertSwapped t1) := by
  delta State.revertSwapped
  exact State.fput_keepsW (updE_keepsW h1 (by exact rfl))

theorem State.editClear_keepsW {s : State} {t1 : State} (h1 : KeepsW s t1) : KeepsW s (@State.editClear t1) := by
  delta State.editClear
  exact State.fput_keepsW (updE_keepsW h1 (by exact rfl))

theorem State.editAbortFor_keepsW {s : State} {t1 : State} (h1 : KeepsW s t1) {a2} : KeepsW s (@State.editAbortFor t1 a2) := by
  delta State.editAbortFor
  split
  · exact h1
  · refine ite_inv ?_ ?_
    · exact h1
    · extract_lets -merge -underBinder +onlyGivenNames x3
      extract_lets -merge -underBinder +onlyGivenNames x4
      have h4 : KeepsW s (x4) := State.fput_keepsW (State.journalMark_keepsW h1)
      extract_lets -merge -underBinder +onlyGivenNames x5
      have h5 : KeepsW s (x5) := ite_inv (tx_keepsW h4) h4
      extract_lets -merge -underBinder +onlyGivenNames x6
      have h6 : KeepsW s (x6) := State.raise_keepsW h5
      extract_lets -merge -underBinder +onlyGivenNames x7
      have h7 : KeepsW s (x7) := State.stopTrial_keepsW h6
      exact ite_inv (State.revertSwapped_keepsW h7) (State.editClear_keepsW h7)

theorem State.editOnMode_keepsW {s : State} {t1 : State} (h1 : KeepsW s t1) {a2} {a3} : KeepsW s (@State.editOnMode t1 a2 a3) := by
  delta State.editOnMode
  refine ite_inv ?_ ?_
  · exact h1
  · extract_lets -merge -underBinder +onlyGivenNames x4
    extract_lets -merge -underBinder +onlyGivenNames x5
    exact ite_inv h1 (ite_inv (ite_inv h1 (State.editAbortFor_keepsW h1)) (ite_inv h1 (ite_inv (State.fput_keepsW (State.stopTrial_keepsW h1)) (State.editAbortFor_keepsW h1))))

theorem State.withdrawActivation_keepsW {s : State} {t1 : State} (h1 : KeepsW s t1) : KeepsW s (@State.withdrawActivation t1) := by
  delta State.withdrawActivation
  split
  · exact h1
  · extract_lets -merge -underBinder +onlyGivenNames x2 x3
    have h3 : KeepsW s (x3) := State.setFlag_keepsW (upd_keepsW h1)
    exact State.raise_keepsW (State.fput_keepsW h3)

theorem State.melFail_keepsW {s : State} {t1 : State} (h1 : KeepsW s t1) {a2} {a3} {a4} : KeepsW s (@State.melFail t1 a2 a3 a4) := by
  delta State.melFail
  extract_lets -merge -underBinder +onlyGivenNames x5
  have h5 : KeepsW s (x5) := State.fput_keepsW (State.setFlag_keepsW h1)
  extract_lets -merge -underBinder +onlyGivenNames x6
  have h6 : KeepsW s (x6) := State.fput_keepsW (State.setFlag_keepsW h5)
  extract_lets -merge -underBinder +onlyGivenNames x7
  have h7 : KeepsW s (x7) := State.raise_keepsW (State.setFlag_keepsW h6)
  exact upd_keepsW h7

theorem State.hedgeOnFault_keepsW {s : State} {t1 : State} (h1 : KeepsW s t1) : KeepsW s (@State.hedgeOnFault t1) := by
  delta State.hedgeOnFault
  refine ite_inv ?_ ?_
  · extract_lets -merge -underBinder +onlyGivenNames x2
    have h2 : KeepsW s (x2) := State.melFail_keepsW h1
    exact tx_keepsW h2
  · exact h1

theorem State.trialFails_keepsW {s : State} {t1 : State} (h1 : KeepsW s t1) {a2} : KeepsW s (@State.trialFails t1 a2) := by
  delta State.trialFails
  split
  · exact h1
  · exact upd_keepsW h1

theorem State.setDio_keepsW {s : State} {t1 : State} (h1 : KeepsW s t1) {a2} {a3} : KeepsW s (@State.setDio t1 a2 a3) := by
  delta State.setDio
  exact upd_keepsW h1

theorem State.dioApply_keepsW {s : State} {t1 : State} (h1 : KeepsW s t1) {a2} {a3} : KeepsW s (@State.dioApply t1 a2 a3) := by
  delta State.dioApply
  extract_lets -merge -underBinder +onlyGivenNames x4
  exact ite_inv h1 (State.setDio_keepsW h1)

theorem State.dioOff_keepsW {s : State} {t1 : State} (h1 : KeepsW s t1) {a2} : KeepsW s (@State.dioOff t1 a2) := by
  delta State.dioOff
  exact State.dioApply_keepsW h1

theorem State.setUc_keepsW {s : State} {t1 : State} (h1 : KeepsW s t1) {a2} {a3} : KeepsW s (@State.setUc t1 a2 a3) := by
  delta State.setUc
  exact upd_keepsW h1

theorem State.modUc_keepsW {s : State} {t1 : State} (h1 : KeepsW s t1) {a2} {a3} : KeepsW s (@State.modUc t1 a2 a3) := by
  delta State.modUc
  exact State.setUc_keepsW h1

theorem State.sharedOff_keepsW {s : State} {t1 : State} (h1 : KeepsW s t1) : KeepsW s (@State.sharedOff t1) := by
  delta State.sharedOff
  extract_lets -merge -underBinder +onlyGivenNames x2
  have h2 : KeepsW s (x2) := each_inv h1 (fun _ h3 _ => ite_inv (State.dioOff_keepsW h3) h3)
  exact each_inv h2 (fun _ h4 _ => ite_inv (State.modUc_keepsW h4) h4)

theorem State.batonUpdate_keepsW {s : State} {t1 : State} (h1 : KeepsW s t1) : KeepsW s (@State.batonUpdate t1) := by
  delta State.batonUpdate
  extract_lets -merge -underBinder +onlyGivenNames x2
  extract_lets -merge -underBinder +onlyGivenNames x3
  extract_lets -merge -underBinder +onlyGivenNames x4
  have h4 : KeepsW s (x4) := State.setFlag_keepsW h1
  exact ite_inv (State.sharedOff_keepsW h4) h4

theorem State.setMode_keepsW {s : State} {t1 : State} (h1 : KeepsW s t1) {a2} {a3} : KeepsW s (@State.setMode t1 a2 a3) := by
  delta State.setMode
  extract_lets -merge -underBinder +onlyGivenNames x4
  refine ite_inv ?_ ?_
  · exact h1
  · extract_lets -merge -underBinder +onlyGivenNames x5
    have h5 : KeepsW s (x5) := State.fput_keepsW (State.fput_keepsW h1)
    extract_lets -merge -underBinder +onlyGivenNames x6
    have h6 : KeepsW s (x6) := State.setFlag_keepsW h5
    extract_lets -merge -underBinder +onlyGivenNames x7
    have h7 : KeepsW s (x7) := State.raise_keepsW h6
    extract_lets -merge -underBinder +onlyGivenNames x8 x9
    have h9 : KeepsW s (x9) := upd_keepsW h7
    extract_lets -merge -underBinder +onlyGivenNames x10
    have h10 : KeepsW s (x10) := ite_inv h9 (State.fput_keepsW h9)
    extract_lets -merge -underBinder +onlyGivenNames x11
    have h11 : KeepsW s (x11) := State.editOnMode_keepsW h10
    extract_lets -merge -underBinder +onlyGivenNames x12
    have h12 : KeepsW s (x12) := ite_inv (State.withdrawActivation_keepsW h11) h11
    extract_lets -merge -underBinder +onlyGivenNames x13
    have h13 : KeepsW s (x13) := ite_inv (State.hedgeOnFault_keepsW (State.trialFails_keepsW h12)) h12
    extract_lets -merge -underBinder +onlyGivenNames x14
    extract_lets -merge -underBinder +onlyGivenNames x15 x16 x17
    have h15 : KeepsW s (x15) := State.fput_keepsW (State.fput_keepsW h13)
    have h17 : KeepsW s (x17) := ite_inv (upd_keepsW h15) h13
    exact State.batonUpdate_keepsW h17

theorem State.enterSafe_keepsW {s : State} {t1 : State} (h1 : KeepsW s t1) {a2} : KeepsW s (@State.enterSafe t1 a2) := by
  delta State.enterSafe
  extract_lets -merge -underBinder +onlyGivenNames x3
  refine ite_inv ?_ ?_
  · exact ite_inv (State.fput_keepsW h1) h1
  · refine ite_inv ?_ ?_
    · extract_lets -merge -underBinder +onlyGivenNames x4
      have h4 : KeepsW s (x4) := State.leaveForFault_keepsW h1
      extract_lets -merge -underBinder +onlyGivenNames x5 x6
      have h6 : KeepsW s (x6) := upd_keepsW h4
      exact State.fput_keepsW (State.setMode_keepsW h6)
    · exact h1

theorem State.dropStall_keepsW {s : State} {t1 : State} (h1 : KeepsW s t1) {a2} : KeepsW s (@State.dropStall t1 a2) := by
  delta State.dropStall
  split
  · exact h1
  · extract_lets -merge -underBinder +onlyGivenNames x3
    have h3 : KeepsW s (x3) := State.modStrand_keepsW h1
    split
    · extract_lets -merge -underBinder +onlyGivenNames x4
      have h4 : KeepsW s (x4) := State.setBit_keepsW h3
      exact upd_keepsW h4
    · exact upd_keepsW h3
    · exact ite_inv (upd_keepsW h3) (upd_keepsW h3)

theorem State.ownedBad_keepsW {s : State} {t1 : State} (h1 : KeepsW s t1) {a2} : KeepsW s (@State.ownedBad t1 a2) := by
  delta State.ownedBad
  exact each_inv h1 (fun _ h3 _ => State.swSet_keepsW h3)

theorem State.obsBeat_keepsW {s : State} {t1 : State} (h1 : KeepsW s t1) {a2} {a3} {a4} : KeepsW s (@State.obsBeat t1 a2 a3 a4) := by
  delta State.obsBeat
  exact ite_inv (State.obsPush_keepsW h1) h1

theorem State.signalBeat_keepsW {s : State} {t1 : State} (h1 : KeepsW s t1) {a2} {a3} {a4} : KeepsW s (@State.signalBeat t1 a2 a3 a4) := by
  delta State.signalBeat
  extract_lets -merge -underBinder +onlyGivenNames x5
  have h5 : KeepsW s (x5) := State.setBit_keepsW h1
  extract_lets -merge -underBinder +onlyGivenNames x6
  have h6 : KeepsW s (x6) := State.obsBeat_keepsW h5
  extract_lets -merge -underBinder +onlyGivenNames x7
  have h7 : KeepsW s (x7) := ite_inv (tx_keepsW h6) h6
  exact each_inv h7 (fun _ h8 _ => State.modStrand_keepsW h8)

theorem State.produceBeat_keepsW {s : State} {t1 : State} (h1 : KeepsW s t1) {a2} {a3} {a4} {a5} {a6} : KeepsW s (@State.produceBeat t1 a2 a3 a4 a5 a6) := by
  delta State.produceBeat
  extract_lets -merge -underBinder +onlyGivenNames x7
  extract_lets -merge -underBinder +onlyGivenNames x8
  have h8 : KeepsW s (x8) := State.modCls_keepsW h1
  extract_lets -merge -underBinder +onlyGivenNames x9
  exact ite_inv (State.signalBeat_keepsW h8) h8

theorem State.forceBeats_keepsW {s : State} {t1 : State} (h1 : KeepsW s t1) {a2} {a3} : KeepsW s (@State.forceBeats t1 a2 a3) := by
  delta State.forceBeats
  extract_lets -merge -underBinder +onlyGivenNames x4
  extract_lets -merge -underBinder +onlyGivenNames x5
  refine ite_inv ?_ ?_
  · exact h1
  · extract_lets -merge -underBinder +onlyGivenNames x6
    extract_lets -merge -underBinder +onlyGivenNames x7
    have h7 : KeepsW s (x7) := each_inv h1 (fun _ h8 _ => State.setBit_keepsW (State.produceBeat_keepsW h8))
    extract_lets -merge -underBinder +onlyGivenNames x9
    have h9 : KeepsW s (x9) := ite_inv (State.setBit_keepsW h7) (State.setBit_keepsW h7)
    exact State.raise_keepsW h9

theorem State.spoilTrial_keepsW {s : State} {t1 : State} (h1 : KeepsW s t1) : KeepsW s (@State.spoilTrial t1) := by
  delta State.spoilTrial
  split
  · exact h1
  · exact upd_keepsW h1

theorem State.checkLastEndc_keepsW {s : State} {t1 : State} (h1 : KeepsW s t1) {a2} : KeepsW s (@State.checkLastEndc t1 a2) := by
  delta State.checkLastEndc
  extract_lets -merge -underBinder +onlyGivenNames x3
  exact ite_inv (State.setCls_keepsW h1) h1

theorem State.haltStrand_keepsW {s : State} {t1 : State} (h1 : KeepsW s t1) {a2} {a3} : KeepsW s (@State.haltStrand t1 a2 a3) := by
  delta State.haltStrand
  extract_lets -merge -underBinder +onlyGivenNames x4
  have h4 : KeepsW s (x4) := State.dropStall_keepsW h1
  extract_lets -merge -underBinder +onlyGivenNames x5
  have h5 : KeepsW s (x5) := State.ownedBad_keepsW (State.forceBeats_keepsW h4)
  extract_lets -merge -underBinder +onlyGivenNames x6
  have h6 : KeepsW s (x6) := State.modStrand_keepsW h5
  extract_lets -merge -underBinder +onlyGivenNames x7
  have h7 : KeepsW s (x7) := State.spoilTrial_keepsW h6
  exact State.checkLastEndc_keepsW h7

theorem State.trap_keepsW {s : State} {t1 : State} (h1 : KeepsW s t1) {a2} {a3} : KeepsW s (@State.trap t1 a2 a3) := by
  delta State.trap
  extract_lets -merge -underBinder +onlyGivenNames x4
  have h4 : KeepsW s (x4) := State.recordTrap_keepsW h1
  exact ite_inv (State.enterSafe_keepsW h4) (State.haltStrand_keepsW h4)

theorem State.mset_keepsW {s : State} {t1 : State} (h1 : KeepsW s t1) {a2} {a3} : KeepsW s (@State.mset t1 a2 a3) := by
  delta State.mset
  exact mem_keepsW h1 (fun w => tset_wf _ _ w)

theorem State.msetN_keepsW {s : State} {t1 : State} (h1 : KeepsW s t1) {a2} {a3} : KeepsW s (@State.msetN t1 a2 a3) := by
  induction a3 generalizing t1 a2 with
  | nil => exact h1
  | cons b bs ih => exact ih (State.mset_keepsW h1)

theorem State.traceFull_keepsW {s : State} {t1 : State} (h1 : KeepsW s t1) {a2} : KeepsW s (@State.traceFull t1 a2) := by
  delta State.traceFull
  exact ite_inv (State.traceEnd_keepsW (State.raise_keepsW (State.setFlag_keepsW h1))) h1

theorem State.traceRetire_keepsW {s : State} {t1 : State} (h1 : KeepsW s t1) {a2} {a3} {a4} {a5} : KeepsW s (@State.traceRetire t1 a2 a3 a4 a5) := by
  delta State.traceRetire
  refine ite_inv ?_ ?_
  · extract_lets -merge -underBinder +onlyGivenNames x6
    extract_lets -merge -underBinder +onlyGivenNames x7
    have h7 : KeepsW s (x7) := State.msetN_keepsW (State.draw_keepsW h1)
    exact State.traceFull_keepsW (upd_keepsW h7)
  · exact h1

theorem State.swapWorld_back {s t : State} {k : Nat} (h : KeepsW (s.swapWorld k) t) : Keeps s (t.swapWorld k) := by
  obtain ⟨p, q, r, -, w⟩ := State.swapWorld_is s k
  obtain ⟨p', q', r', i', -⟩ := State.swapWorld_is t k
  obtain ⟨⟨h1, h2, h3, -⟩, h5⟩ := h
  rw [p] at h1
  rw [q] at h2
  rw [r] at h3
  refine ⟨p'.trans h1, by rw [q']; exact h2, by rw [r']; exact h3, fun v => ?_⟩
  rw [i']
  rcases h5 with h5 | h5
  · rw [h5, w, tget_tset_self]
    exact v
  · rw [h5]
    rfl

theorem State.obsJob_keeps {s : State} {t1 : State} (h1 : Keeps s t1) {a2} {a3} {a4} {a5} : Keeps s (@State.obsJob t1 a2 a3 a4 a5) := by
  delta State.obsJob
  exact ite_inv (State.obsPush_keeps h1) h1

theorem State.spoilTrial_keeps {s : State} {t1 : State} (h1 : Keeps s t1) : Keeps s (@State.spoilTrial t1) := by
  exact Keeps.trans h1 (State.spoilTrial_keepsW (KeepsW.refl _)).1

theorem State.recordTrap_keeps {s : State} {t1 : State} (h1 : Keeps s t1) {a2} {a3} : Keeps s (@State.recordTrap t1 a2 a3) := by
  exact Keeps.trans h1 (State.recordTrap_keepsW (KeepsW.refl _)).1

theorem State.haltStrand_keeps {s : State} {t1 : State} (h1 : Keeps s t1) {a2} {a3} : Keeps s (@State.haltStrand t1 a2 a3) := by
  exact Keeps.trans h1 (State.haltStrand_keepsW (KeepsW.refl _)).1

theorem State.stageByte_keepsW {s : State} {t1 : State} (h1 : KeepsW s t1) {a2} {a3} {a4} {a5} : KeepsW s (Prod.fst (@State.stageByte t1 a2 a3 a4 a5)) := by
  delta State.stageByte
  extract_lets -merge -underBinder +onlyGivenNames x6
  extract_lets -merge -underBinder +onlyGivenNames x7
  extract_lets -merge -underBinder +onlyGivenNames x8
  extract_lets -merge -underBinder +onlyGivenNames x9
  exact fst_inv (P := KeepsW s) (State.setStrand_keepsW h1)

theorem State.discard_keepsW {s : State} {t1 : State} (h1 : KeepsW s t1) {a2} {a3} {a4} : KeepsW s (@State.discard t1 a2 a3 a4) := by
  delta State.discard
  extract_lets -merge -underBinder +onlyGivenNames x5
  extract_lets -merge -underBinder +onlyGivenNames x6
  have h6 : KeepsW s (x6) := State.satBump_keepsW (State.fput_keepsW (State.setBit_keepsW h1))
  extract_lets -merge -underBinder +onlyGivenNames x7
  have h7 : KeepsW s (x7) := ite_inv (State.satBump_keepsW h6) h6
  exact State.raise_keepsW (State.countS_keepsW h7)

theorem State.breakResv_keepsW {s : State} {t1 : State} (h1 : KeepsW s t1) {a2} {a3} {a4} : KeepsW s (@State.breakResv t1 a2 a3 a4) := by
  delta State.breakResv
  extract_lets -merge -underBinder +onlyGivenNames x5
  have h5 : KeepsW s (x5) := each_inv h1 (fun _ h6 _ => ite_inv h6 (State.modStrand_keepsW h6))
  exact upd_keepsW h5

theorem State.stageBytes_keepsW {s : State} {t1 : State} (h1 : KeepsW s t1) {a2} {a3} {a4} : KeepsW s (Prod.fst (@State.stageBytes t1 a2 a3 a4)) := by
  induction a4 generalizing t1 a3 with
  | nil => exact h1
  | cons b bs ih => exact ih (State.stageByte_keepsW h1)

theorem State.storeAt_keepsW {s : State} {t1 : State} (h1 : KeepsW s t1) {a2} {a3} {a4} : KeepsW s (Prod.fst (@State.storeAt t1 a2 a3 a4)) := by
  delta State.storeAt
  split
  · exact fst_inv (P := KeepsW s) (State.msetN_keepsW h1)
  · exact fst_inv (P := KeepsW s) (State.breakResv_keepsW (State.msetN_keepsW h1))
  · exact State.stageBytes_keepsW h1
  · exact fst_inv (P := KeepsW s) (State.msetN_keepsW h1)
  · exact h1
  · exact h1
  · exact h1

theorem State.btBranch_keepsW {s : State} {t1 : State} (h1 : KeepsW s t1) {a2} {a3} : KeepsW s (@State.btBranch t1 a2 a3) := by
  delta State.btBranch
  refine ite_inv ?_ ?_
  · extract_lets -merge -underBinder +onlyGivenNames x4
    extract_lets -merge -underBinder +onlyGivenNames x5
    exact ite_inv (State.btSend_keepsW (State.setBt_keepsW h1)) (State.setBt_keepsW h1)
  · exact h1

theorem State.btTarget_keepsW {s : State} {t1 : State} (h1 : KeepsW s t1) {a2} {a3} : KeepsW s (@State.btTarget t1 a2 a3) := by
  delta State.btTarget
  exact State.btWord_keepsW h1

theorem State.enterLockout_keepsW {s : State} {t1 : State} (h1 : KeepsW s t1) {a2} : KeepsW s (@State.enterLockout t1 a2) := by
  delta State.enterLockout
  extract_lets -merge -underBinder +onlyGivenNames x3
  have h3 : KeepsW s (x3) := State.leaveForFault_keepsW h1
  extract_lets -merge -underBinder +onlyGivenNames x4 x5
  have h5 : KeepsW s (x5) := upd_keepsW h3
  exact State.fput_keepsW (State.setMode_keepsW (State.setFlag_keepsW h5))

theorem State.showSlots_keepsW {s : State} {t1 : State} (h1 : KeepsW s t1) : KeepsW s (@State.showSlots t1) := by
  delta State.showSlots
  exact State.fput_keepsW (State.fput_keepsW h1)

theorem State.dieReset_keepsW {s : State} {t1 : State} (h1 : KeepsW s t1) {a2} {a3} : KeepsW s (@State.dieReset t1 a2 a3) := by
  refine ⟨State.dieReset_keeps h1.1, .inr ?_⟩
  delta State.dieReset
  extract_lets -merge -underBinder +onlyGivenNames x1 x2 x3 x4 x5 x6 x7 x8 x9 x10 x11 x12
  have h10 : KeepsW x9 x10 := each_inv (KeepsW.refl x9) (fun _ h _ => State.modUc_keepsW h)
  have h3 : KeepsW x9 x12 := State.fput_keepsW (State.fput_keepsW h10)
  have h4 : KeepsW x9 _ := State.showSlots_keepsW (State.setFlag_keepsW (a2 := SYS_LOCKOUT_FLAG)
    (a3 := x2.ctl.lockKeep || x2.ctl.lockStore) (State.setFlag_keepsW (a2 := SYS_RSTCAUSE_WAKE) (a3 := a3) h3))
  exact h4.2.elim id id

theorem State.moduleReset_keepsW {s : State} {t1 : State} (h1 : KeepsW s t1) {a2} : KeepsW s (@State.moduleReset t1 a2) := by
  delta State.moduleReset
  exact State.dieReset_keepsW h1

theorem State.obsJob_keepsW {s : State} {t1 : State} (h1 : KeepsW s t1) {a2} {a3} {a4} {a5} : KeepsW s (@State.obsJob t1 a2 a3 a4 a5) := by
  delta State.obsJob
  exact ite_inv (State.obsPush_keepsW h1) h1

theorem State.rset64_keepsW {s : State} {t1 : State} (h1 : KeepsW s t1) {a2} {a3} {a4} : KeepsW s (@State.rset64 t1 a2 a3 a4) := by
  delta State.rset64
  exact State.rset_keepsW (State.rset_keepsW h1)

theorem State.send_keepsW {s : State} {t1 : State} (h1 : KeepsW s t1) {a2} : KeepsW s (@State.send t1 a2) := by
  delta State.send
  exact tx_keepsW h1

theorem State.rowTorn_keeps {s : State} {t1 : State} (h1 : Keeps s t1) {a2} : Keeps s (@State.rowTorn t1 a2) := by
  delta State.rowTorn
  extract_lets -merge -underBinder +onlyGivenNames x3
  have h3 : Keeps s (x3) := State.mset_keeps h1
  exact ite_inv h3 (upd_keeps h3)

theorem State.opTorn_keeps {s : State} {t1 : State} (h1 : Keeps s t1) {a2} : Keeps s (@State.opTorn t1 a2) := by
  delta State.opTorn
  extract_lets -merge -underBinder +onlyGivenNames x3
  have h3 : ∀ y1, Keeps s y1 → ∀ y2, Keeps s (x3 y1 y2) := fun _ h3_1 _ => by
    unfold x3
    extract_lets -merge -underBinder +onlyGivenNames x4
    have h4 : Keeps s (Prod.fst (x4)) := State.choose_keeps h3_1
    exact ite_inv (State.rowErase_keeps h4) (State.rowTorn_keeps (State.rowErase_keeps h4))
  split
  · extract_lets -merge -underBinder +onlyGivenNames x5
    have h5 : Keeps s (Prod.fst (x5)) := State.choose_keeps h1
    refine ite_inv ?_ ?_
    · exact each_inv h5 (fun _ h _ => h3 _ h _)
    · extract_lets -merge -underBinder +onlyGivenNames x6
      extract_lets -merge -underBinder +onlyGivenNames x7
      extract_lets -merge -underBinder +onlyGivenNames x8
      extract_lets -merge -underBinder +onlyGivenNames x9
      have h9 : Keeps s (x9) := each_inv h5 (fun _ h _ => State.rowErase_keeps h)
      extract_lets -merge -underBinder +onlyGivenNames x10
      have h10 : Keeps s (x10) := each_inv h9 (fun _ h11 _ => State.rowProgram_keeps h11)
      extract_lets -merge -underBinder +onlyGivenNames x12
      have h12 : Keeps s (Prod.fst (x12)) := State.choose_keeps h10
      extract_lets -merge -underBinder +onlyGivenNames x13
      exact ite_inv (State.rowProgram_keeps h12) (ite_inv (State.rowProgram_keeps h12) (State.rowTorn_keeps h12))
  · exact each_inv h1 (fun _ h _ => h3 _ h _)
  · extract_lets -merge -underBinder +onlyGivenNames x14
    have h14 : Keeps s (Prod.fst (x14)) := State.choose_keeps h1
    exact ite_inv h14 (ite_inv (State.rowProgram_keeps h14) (State.rowTorn_keeps h14))
  · extract_lets -merge -underBinder +onlyGivenNames x15
    exact State.rowBits_keeps (State.draw_keeps h1)
  · extract_lets -merge -underBinder +onlyGivenNames x16
    have h16 : Keeps s (Prod.fst (x16)) := State.choose_keeps h1
    extract_lets -merge -underBinder +onlyGivenNames x17
    extract_lets -merge -underBinder +onlyGivenNames x18
    refine ite_inv ?_ ?_
    · exact h16
    · refine ite_inv ?_ ?_
      · exact State.rowTorn_keeps h16
      · refine ite_inv ?_ ?_
        · exact State.rowProgram_keeps h16
        · extract_lets -merge -underBinder +onlyGivenNames x19
          exact State.rowProgram_keeps (State.draw_keeps h16)

theorem State.storeTorn_keeps {s : State} {t1 : State} (h1 : Keeps s t1) : Keeps s (@State.storeTorn t1) := by
  delta State.storeTorn
  exact each_inv h1 (fun _ h _ => State.opTorn_keeps h)

theorem State.trap_keeps {s : State} {t1 : State} (h1 : Keeps s t1) {a2} {a3} : Keeps s (@State.trap t1 a2 a3) := by
  exact Keeps.trans h1 (State.trap_keepsW (KeepsW.refl _)).1

theorem State.obsFrame_keeps {s : State} {t1 : State} (h1 : Keeps s t1) {a2} {a3} {a4} {a5} {a6} {a7} : Keeps s (@State.obsFrame t1 a2 a3 a4 a5 a6 a7) := by
  delta State.obsFrame
  exact ite_inv (State.obsPush_keeps h1) h1

theorem State.selRecord_keeps {s : State} {t1 : State} (h1 : Keeps s t1) {a2} {a3} {a4} {a5} {a6} : Keeps s (@State.selRecord t1 a2 a3 a4 a5 a6) := by
  exact Keeps.trans h1 (State.selRecord_keepsW (KeepsW.refl _)).1

theorem State.integRead_keeps {s : State} {t1 : State} (h1 : Keeps s t1) {a2} : Keeps s (@State.integRead t1 a2) := by
  exact Keeps.trans h1 (State.integRead_keepsW (KeepsW.refl _)).1

theorem State.countS_keeps {s : State} {t1 : State} (h1 : Keeps s t1) {a2} {a3} {a4} : Keeps s (@State.countS t1 a2 a3 a4) := by
  exact Keeps.trans h1 (State.countS_keepsW (KeepsW.refl _)).1

end Sys2Proof.Machine
end

