-- ==== Sys2Proof/Laws/KeepsStrands.lean ====
section
/-!
SUPPORT. `Keeps`, of the instructions of the strands: one lemma for each operation.
-/
set_option linter.unusedVariables false

namespace Sys2Proof.Machine

theorem State.issue_keepsW {s : State} {t1 : State} (h1 : KeepsW s t1) {a2} {a3} : KeepsW s (@State.issue t1 a2 a3) := by
  delta State.issue
  exact State.countS_keepsW (State.countS_keepsW (State.modStrand_keepsW h1))

theorem State.retire_keepsW {s : State} {t1 : State} (h1 : KeepsW s t1) {a2} {a3} {a4} {a5} : KeepsW s (@State.retire t1 a2 a3 a4 a5) := by
  delta State.retire
  exact State.traceRetire_keepsW (State.modStrand_keepsW h1)

theorem State.stallOn_keepsW {s : State} {t1 : State} (h1 : KeepsW s t1) {a2} {a3} {a4} : KeepsW s (@State.stallOn t1 a2 a3 a4) := by
  delta State.stallOn
  extract_lets -merge -underBinder +onlyGivenNames x5
  have h5 : KeepsW s (x5) := State.modStrand_keepsW h1
  split
  · extract_lets -merge -underBinder +onlyGivenNames x6
    have h6 : KeepsW s (x6) := State.modStrand_keepsW h5
    extract_lets -merge -underBinder +onlyGivenNames x7
    have h7 : KeepsW s (x7) := State.setBit_keepsW h6
    exact upd_keepsW h7
  · exact upd_keepsW h5
  · exact upd_keepsW h5

theorem dxRun_keepsW {s : State} {t1 : State} (h1 : KeepsW s t1) {a2} {a3} {a4} {f5} (h5 : ∀ y1, KeepsW s y1 → KeepsWX s (f5 y1)) : KeepsW s (@dxRun t1 a2 a3 a4 f5) := by
  delta dxRun
  extract_lets -merge -underBinder +onlyGivenNames x6
  extract_lets -merge -underBinder +onlyGivenNames x7
  have h7 : KeepsW s (x7) := State.issue_keepsW h1
  split
  · extract_lets -merge -underBinder +onlyGivenNames x8
    have h8 : KeepsW s (x8) := ite_inv (State.integRead_keepsW h7) h7
    exact State.trap_keepsW h8
  · split
    · rename_i v9_1 v9_2 q9
      have h9 : KeepsW s (v9_1) := ofEq_inv (P := KeepsWX s) (h5 _ h7) q9
      exact State.retire_keepsW h9
    · rename_i v10_1 v10_2 q10
      have h10 : KeepsW s (v10_1) := ofEq_inv (P := KeepsWX s) (h5 _ h7) q10
      exact State.retire_keepsW (State.countS_keepsW h10)
    · rename_i v11_1 v11_2 q11
      have h11 : KeepsW s (v11_1) := ofEq_inv (P := KeepsWX s) (h5 _ h7) q11
      exact State.trap_keepsW h11
    · rename_i v12_1 q12
      have h12 : KeepsW s (v12_1) := ofEq_inv (P := KeepsWX s) (h5 _ h7) q12
      exact h12
    · exact State.stallOn_keepsW (tx_keepsW h1)

theorem dxRun_out {s : State} {st i kind body} (hb : ∀ u v, KeepsW u v → KeepsWX u (body v)) : KeepsW s (dxRun s st i kind body) :=
  dxRun_keepsW (KeepsW.refl s) (fun _ h => hb _ _ h)

theorem dx_keeps {s : State} {t : State} (h : Keeps s t) {st i kind body} (hb : ∀ u v, KeepsW u v → KeepsWX u (body v)) :
    KeepsO s (dx t st i kind body) := by
  delta dx
  split
  · extract_lets k
    split
    · exact h.trans (State.swapWorld_back (dxRun_out hb))
    · exact h.trans (dxRun_out hb).1
  · exact h

theorem execIllegalInstruction_keeps {s : State} {a1} {a2} {t3 : State} (h3 : Keeps s t3) : KeepsO s (@execIllegalInstruction a1 a2 t3) := by
  delta execIllegalInstruction
  exact ite_inv h3 (dx_keeps h3 (fun s => (fun _ h4 => h4)))

theorem withBit_keepsW {s : State} {t1 : State} (h1 : KeepsW s t1) {a2} {a3} {f4} (h4 : ∀ y1, ∀ y2, KeepsWX s (f4 y1 y2)) : KeepsWX s (@withBit t1 a2 a3 f4) := by
  delta withBit
  split
  · exact h1
  · refine ite_inv ?_ ?_
    · exact State.integRead_keepsW h1
    · refine ite_inv ?_ ?_
      · exact trivial
      · split
        · exact trivial
        · exact h4 _ _

theorem bitLogic_keeps {s : State} {t1 : State} (h1 : Keeps s t1) {a2} {a3} {a4} {a5} : KeepsO s (@bitLogic t1 a2 a3 a4 a5) := by
  delta bitLogic
  exact dx_keeps h1 (fun s => (fun _ h6 => withBit_keepsW h6 (fun _ _ => State.modStrand_keepsW h6)))

theorem execLdb_keeps {s : State} {a1} {a2} {t3 : State} (h3 : Keeps s t3) : KeepsO s (@execLdb a1 a2 t3) := by
  delta execLdb
  exact bitLogic_keeps h3

theorem execLdbn_keeps {s : State} {a1} {a2} {t3 : State} (h3 : Keeps s t3) : KeepsO s (@execLdbn a1 a2 t3) := by
  delta execLdbn
  exact bitLogic_keeps h3

theorem execAndb_keeps {s : State} {a1} {a2} {t3 : State} (h3 : Keeps s t3) : KeepsO s (@execAndb a1 a2 t3) := by
  delta execAndb
  exact bitLogic_keeps h3

theorem execAndbn_keeps {s : State} {a1} {a2} {t3 : State} (h3 : Keeps s t3) : KeepsO s (@execAndbn a1 a2 t3) := by
  delta execAndbn
  exact bitLogic_keeps h3

theorem execOrb_keeps {s : State} {a1} {a2} {t3 : State} (h3 : Keeps s t3) : KeepsO s (@execOrb a1 a2 t3) := by
  delta execOrb
  exact bitLogic_keeps h3

theorem execOrbn_keeps {s : State} {a1} {a2} {t3 : State} (h3 : Keeps s t3) : KeepsO s (@execOrbn a1 a2 t3) := by
  delta execOrbn
  exact bitLogic_keeps h3

theorem execXorb_keeps {s : State} {a1} {a2} {t3 : State} (h3 : Keeps s t3) : KeepsO s (@execXorb a1 a2 t3) := by
  delta execXorb
  exact bitLogic_keeps h3

theorem dxReg_keeps {s : State} {t : State} (h : Keeps s t) {st i kind f} : KeepsO s (dxReg t st i kind f) := by
  delta dxReg
  refine dx_keeps h (fun u v hv => ?_)
  split
  · exact State.setStrand_keepsW hv
  · exact hv

theorem bitStack_keeps {s : State} {t1 : State} (h1 : Keeps s t1) {a2} {a3} {a4} : KeepsO s (@bitStack t1 a2 a3 a4) := by
  delta bitStack
  exact dxReg_keeps h1

theorem execLdbc_keeps {s : State} {a1} {a2} {t3 : State} (h3 : Keeps s t3) : KeepsO s (@execLdbc a1 a2 t3) := by
  delta execLdbc
  exact bitStack_keeps h3

theorem execNotb_keeps {s : State} {a1} {t2 : State} (h2 : Keeps s t2) : KeepsO s (@execNotb a1 t2) := by
  delta execNotb
  exact bitStack_keeps h2

theorem execPshb_keeps {s : State} {a1} {t2 : State} (h2 : Keeps s t2) : KeepsO s (@execPshb a1 t2) := by
  delta execPshb
  exact bitStack_keeps h2

theorem execAndpb_keeps {s : State} {a1} {t2 : State} (h2 : Keeps s t2) : KeepsO s (@execAndpb a1 t2) := by
  delta execAndpb
  exact bitStack_keeps h2

theorem execOrpb_keeps {s : State} {a1} {t2 : State} (h2 : Keeps s t2) : KeepsO s (@execOrpb a1 t2) := by
  delta execOrpb
  exact bitStack_keeps h2

theorem execXorpb_keeps {s : State} {a1} {t2 : State} (h2 : Keeps s t2) : KeepsO s (@execXorpb a1 t2) := by
  delta execXorpb
  exact bitStack_keeps h2

theorem execPopb_keeps {s : State} {a1} {t2 : State} (h2 : Keeps s t2) : KeepsO s (@execPopb a1 t2) := by
  delta execPopb
  exact bitStack_keeps h2

theorem execDupb_keeps {s : State} {a1} {t2 : State} (h2 : Keeps s t2) : KeepsO s (@execDupb a1 t2) := by
  delta execDupb
  exact bitStack_keeps h2

theorem State.stageBit_keepsW {s : State} {t1 : State} (h1 : KeepsW s t1) {a2} {a3} {a4} : KeepsW s (Prod.fst (@State.stageBit t1 a2 a3 a4)) := by
  delta State.stageBit
  exact State.stageByte_keepsW h1

theorem bitStore_keepsW {s : State} {t1 : State} (h1 : KeepsW s t1) {a2} {a3} {a4} {a5} : KeepsWX s (@bitStore t1 a2 a3 a4 a5) := by
  delta bitStore
  extract_lets -merge -underBinder +onlyGivenNames x6
  have h6 : KeepsW s (Prod.fst (x6)) := State.stageBit_keepsW h1
  extract_lets -merge -underBinder +onlyGivenNames x7
  have h7 : KeepsW s (x7) := State.modStrand_keepsW h6
  exact ite_inv (ite_inv (State.discard_keepsW h6) (State.discard_keepsW h7)) h7

theorem bitOut_keeps {s : State} {t1 : State} (h1 : Keeps s t1) {a2} {a3} {a4} {a5} {a6} : KeepsO s (@bitOut t1 a2 a3 a4 a5 a6) := by
  delta bitOut
  exact dx_keeps h1 (fun s => (fun _ h7 => by
    extract_lets -merge -underBinder +onlyGivenNames x8
    split
    · exact h7
    · exact ite_inv (ite_inv trivial (bitStore_keepsW h7)) h7))

theorem execOutb_keeps {s : State} {a1} {a2} {t3 : State} (h3 : Keeps s t3) : KeepsO s (@execOutb a1 a2 t3) := by
  delta execOutb
  exact bitOut_keeps h3

theorem execSetb_keeps {s : State} {a1} {a2} {t3 : State} (h3 : Keeps s t3) : KeepsO s (@execSetb a1 a2 t3) := by
  delta execSetb
  exact bitOut_keeps h3

theorem execRstb_keeps {s : State} {a1} {a2} {t3 : State} (h3 : Keeps s t3) : KeepsO s (@execRstb a1 a2 t3) := by
  delta execRstb
  exact bitOut_keeps h3

theorem bitEdge_keeps {s : State} {t1 : State} (h1 : Keeps s t1) {a2} {a3} {a4} {a5} {a6} : KeepsO s (@bitEdge t1 a2 a3 a4 a5 a6) := by
  delta bitEdge
  exact dx_keeps h1 (fun s => (fun _ h7 => withBit_keepsW h7 (fun _ _ => by
    extract_lets -merge -underBinder +onlyGivenNames x9
    exact bitStore_keepsW h7)))

theorem execEdgr_keeps {s : State} {a1} {a2} {a3} {t4 : State} (h4 : Keeps s t4) : KeepsO s (@execEdgr a1 a2 a3 t4) := by
  delta execEdgr
  exact bitEdge_keeps h4

theorem execEdgf_keeps {s : State} {a1} {a2} {a3} {t4 : State} (h4 : Keeps s t4) : KeepsO s (@execEdgf a1 a2 a3 t4) := by
  delta execEdgf
  exact bitEdge_keeps h4

theorem execAdd_keeps {s : State} {a1} {a2} {a3} {a4} {t5 : State} (h5 : Keeps s t5) : KeepsO s (@execAdd a1 a2 a3 a4 t5) := by
  delta execAdd
  exact dxReg_keeps h5

theorem execAddi_keeps {s : State} {a1} {a2} {a3} {a4} {t5 : State} (h5 : Keeps s t5) : KeepsO s (@execAddi a1 a2 a3 a4 t5) := by
  delta execAddi
  exact dxReg_keeps h5

theorem execAdc_keeps {s : State} {a1} {a2} {a3} {a4} {t5 : State} (h5 : Keeps s t5) : KeepsO s (@execAdc a1 a2 a3 a4 t5) := by
  delta execAdc
  exact dxReg_keeps h5

theorem execSub_keeps {s : State} {a1} {a2} {a3} {a4} {t5 : State} (h5 : Keeps s t5) : KeepsO s (@execSub a1 a2 a3 a4 t5) := by
  delta execSub
  exact dxReg_keeps h5

theorem execSubi_keeps {s : State} {a1} {a2} {a3} {a4} {t5 : State} (h5 : Keeps s t5) : KeepsO s (@execSubi a1 a2 a3 a4 t5) := by
  delta execSubi
  exact dxReg_keeps h5

theorem execSbc_keeps {s : State} {a1} {a2} {a3} {a4} {t5 : State} (h5 : Keeps s t5) : KeepsO s (@execSbc a1 a2 a3 a4 t5) := by
  delta execSbc
  exact dxReg_keeps h5

theorem execCmp_keeps {s : State} {a1} {a2} {a3} {t4 : State} (h4 : Keeps s t4) : KeepsO s (@execCmp a1 a2 a3 t4) := by
  delta execCmp
  exact dxReg_keeps h4

theorem execCmpi_keeps {s : State} {a1} {a2} {a3} {t4 : State} (h4 : Keeps s t4) : KeepsO s (@execCmpi a1 a2 a3 t4) := by
  delta execCmpi
  exact dxReg_keeps h4

theorem execNeg_keeps {s : State} {a1} {a2} {a3} {t4 : State} (h4 : Keeps s t4) : KeepsO s (@execNeg a1 a2 a3 t4) := by
  delta execNeg
  exact dxReg_keeps h4

theorem execAnd_keeps {s : State} {a1} {a2} {a3} {a4} {t5 : State} (h5 : Keeps s t5) : KeepsO s (@execAnd a1 a2 a3 a4 t5) := by
  delta execAnd
  exact dxReg_keeps h5

theorem execAndi_keeps {s : State} {a1} {a2} {a3} {a4} {t5 : State} (h5 : Keeps s t5) : KeepsO s (@execAndi a1 a2 a3 a4 t5) := by
  delta execAndi
  exact dxReg_keeps h5

theorem execOr_keeps {s : State} {a1} {a2} {a3} {a4} {t5 : State} (h5 : Keeps s t5) : KeepsO s (@execOr a1 a2 a3 a4 t5) := by
  delta execOr
  exact dxReg_keeps h5

theorem execOri_keeps {s : State} {a1} {a2} {a3} {a4} {t5 : State} (h5 : Keeps s t5) : KeepsO s (@execOri a1 a2 a3 a4 t5) := by
  delta execOri
  exact dxReg_keeps h5

theorem execXor_keeps {s : State} {a1} {a2} {a3} {a4} {t5 : State} (h5 : Keeps s t5) : KeepsO s (@execXor a1 a2 a3 a4 t5) := by
  delta execXor
  exact dxReg_keeps h5

theorem execXori_keeps {s : State} {a1} {a2} {a3} {a4} {t5 : State} (h5 : Keeps s t5) : KeepsO s (@execXori a1 a2 a3 a4 t5) := by
  delta execXori
  exact dxReg_keeps h5

theorem execNot_keeps {s : State} {a1} {a2} {a3} {t4 : State} (h4 : Keeps s t4) : KeepsO s (@execNot a1 a2 a3 t4) := by
  delta execNot
  exact dxReg_keeps h4

theorem execTst_keeps {s : State} {a1} {a2} {a3} {t4 : State} (h4 : Keeps s t4) : KeepsO s (@execTst a1 a2 a3 t4) := by
  delta execTst
  exact dxReg_keeps h4

theorem execShl_keeps {s : State} {a1} {a2} {a3} {a4} {t5 : State} (h5 : Keeps s t5) : KeepsO s (@execShl a1 a2 a3 a4 t5) := by
  delta execShl
  exact dxReg_keeps h5

theorem execShr_keeps {s : State} {a1} {a2} {a3} {a4} {t5 : State} (h5 : Keeps s t5) : KeepsO s (@execShr a1 a2 a3 a4 t5) := by
  delta execShr
  exact dxReg_keeps h5

theorem execSar_keeps {s : State} {a1} {a2} {a3} {a4} {t5 : State} (h5 : Keeps s t5) : KeepsO s (@execSar a1 a2 a3 a4 t5) := by
  delta execSar
  exact dxReg_keeps h5

theorem execRor_keeps {s : State} {a1} {a2} {a3} {a4} {t5 : State} (h5 : Keeps s t5) : KeepsO s (@execRor a1 a2 a3 a4 t5) := by
  delta execRor
  exact dxReg_keeps h5

theorem execMul_keeps {s : State} {a1} {a2} {a3} {a4} {t5 : State} (h5 : Keeps s t5) : KeepsO s (@execMul a1 a2 a3 a4 t5) := by
  delta execMul
  exact dxReg_keeps h5

theorem execMulu_keeps {s : State} {a1} {a2} {a3} {a4} {t5 : State} (h5 : Keeps s t5) : KeepsO s (@execMulu a1 a2 a3 a4 t5) := by
  delta execMulu
  exact dxReg_keeps h5

theorem execDiv_keeps {s : State} {a1} {a2} {a3} {a4} {t5 : State} (h5 : Keeps s t5) : KeepsO s (@execDiv a1 a2 a3 a4 t5) := by
  delta execDiv
  exact dxReg_keeps h5

theorem execDivu_keeps {s : State} {a1} {a2} {a3} {a4} {t5 : State} (h5 : Keeps s t5) : KeepsO s (@execDivu a1 a2 a3 a4 t5) := by
  delta execDivu
  exact dxReg_keeps h5

theorem execRem_keeps {s : State} {a1} {a2} {a3} {a4} {t5 : State} (h5 : Keeps s t5) : KeepsO s (@execRem a1 a2 a3 a4 t5) := by
  delta execRem
  exact dxReg_keeps h5

theorem execRemu_keeps {s : State} {a1} {a2} {a3} {a4} {t5 : State} (h5 : Keeps s t5) : KeepsO s (@execRemu a1 a2 a3 a4 t5) := by
  delta execRemu
  exact dxReg_keeps h5

theorem execMin_keeps {s : State} {a1} {a2} {a3} {a4} {t5 : State} (h5 : Keeps s t5) : KeepsO s (@execMin a1 a2 a3 a4 t5) := by
  delta execMin
  exact dxReg_keeps h5

theorem execMax_keeps {s : State} {a1} {a2} {a3} {a4} {t5 : State} (h5 : Keeps s t5) : KeepsO s (@execMax a1 a2 a3 a4 t5) := by
  delta execMax
  exact dxReg_keeps h5

theorem execMinu_keeps {s : State} {a1} {a2} {a3} {a4} {t5 : State} (h5 : Keeps s t5) : KeepsO s (@execMinu a1 a2 a3 a4 t5) := by
  delta execMinu
  exact dxReg_keeps h5

theorem execMaxu_keeps {s : State} {a1} {a2} {a3} {a4} {t5 : State} (h5 : Keeps s t5) : KeepsO s (@execMaxu a1 a2 a3 a4 t5) := by
  delta execMaxu
  exact dxReg_keeps h5

theorem execClz_keeps {s : State} {a1} {a2} {a3} {t4 : State} (h4 : Keeps s t4) : KeepsO s (@execClz a1 a2 a3 t4) := by
  delta execClz
  exact dxReg_keeps h4

theorem execMov_keeps {s : State} {a1} {a2} {a3} {t4 : State} (h4 : Keeps s t4) : KeepsO s (@execMov a1 a2 a3 t4) := by
  delta execMov
  exact dxReg_keeps h4

theorem execMovl_keeps {s : State} {a1} {a2} {a3} {t4 : State} (h4 : Keeps s t4) : KeepsO s (@execMovl a1 a2 a3 t4) := by
  delta execMovl
  exact dxReg_keeps h4

theorem execMovh_keeps {s : State} {a1} {a2} {a3} {t4 : State} (h4 : Keeps s t4) : KeepsO s (@execMovh a1 a2 a3 t4) := by
  delta execMovh
  exact dxReg_keeps h4

theorem execSxtb_keeps {s : State} {a1} {a2} {a3} {t4 : State} (h4 : Keeps s t4) : KeepsO s (@execSxtb a1 a2 a3 t4) := by
  delta execSxtb
  exact dxReg_keeps h4

theorem execSxth_keeps {s : State} {a1} {a2} {a3} {t4 : State} (h4 : Keeps s t4) : KeepsO s (@execSxth a1 a2 a3 t4) := by
  delta execSxth
  exact dxReg_keeps h4

theorem execZxtb_keeps {s : State} {a1} {a2} {a3} {t4 : State} (h4 : Keeps s t4) : KeepsO s (@execZxtb a1 a2 a3 t4) := by
  delta execZxtb
  exact dxReg_keeps h4

theorem execZxth_keeps {s : State} {a1} {a2} {a3} {t4 : State} (h4 : Keeps s t4) : KeepsO s (@execZxth a1 a2 a3 t4) := by
  delta execZxth
  exact dxReg_keeps h4

theorem execMpy_keeps {s : State} {a1} {a2} {a3} {a4} {t5 : State} (h5 : Keeps s t5) : KeepsO s (@execMpy a1 a2 a3 a4 t5) := by
  delta execMpy
  exact dxReg_keeps h5

theorem execMac_keeps {s : State} {a1} {a2} {a3} {a4} {t5 : State} (h5 : Keeps s t5) : KeepsO s (@execMac a1 a2 a3 a4 t5) := by
  delta execMac
  exact dxReg_keeps h5

theorem execMsu_keeps {s : State} {a1} {a2} {a3} {a4} {t5 : State} (h5 : Keeps s t5) : KeepsO s (@execMsu a1 a2 a3 a4 t5) := by
  delta execMsu
  exact dxReg_keeps h5

theorem trapAt_keepsW {s : State} {t1 : State} (h1 : KeepsW s t1) {a2} {a3} {a4} : KeepsWX s (@trapAt t1 a2 a3 a4) := by
  delta trapAt
  split
  · exact ite_inv (State.integRead_keepsW h1) h1
  · exact h1

theorem macp_keeps {s : State} {t1 : State} (h1 : Keeps s t1) {a2} {a3} {a4} {a5} {a6} {a7} : KeepsO s (@macp t1 a2 a3 a4 a5 a6 a7) := by
  delta macp
  exact dx_keeps h1 (fun s => (fun _ h8 => by
    extract_lets -merge -underBinder +onlyGivenNames x9
    extract_lets -merge -underBinder +onlyGivenNames x10
    extract_lets -merge -underBinder +onlyGivenNames x11
    extract_lets -merge -underBinder +onlyGivenNames x12
    extract_lets -merge -underBinder +onlyGivenNames x13
    extract_lets -merge -underBinder +onlyGivenNames x14
    extract_lets -merge -underBinder +onlyGivenNames x15
    split
    · exact trapAt_keepsW h8
    · clear_value x14
      clear_value x13
      clear_value x12
      clear_value x11
      split
      · refine ite_inv ?_ ?_
        · exact trivial
        · split
          · extract_lets -merge -underBinder +onlyGivenNames x16
            extract_lets -merge -underBinder +onlyGivenNames x17
            extract_lets -merge -underBinder +onlyGivenNames x18
            extract_lets -merge -underBinder +onlyGivenNames x19
            extract_lets -merge -underBinder +onlyGivenNames x20
            exact State.setStrand_keepsW h8
          · exact trivial
          · exact trivial
      · exact h8))

theorem execMacp_keeps {s : State} {a1} {a2} {a3} {a4} {t5 : State} (h5 : Keeps s t5) : KeepsO s (@execMacp a1 a2 a3 a4 t5) := by
  delta execMacp
  exact macp_keeps h5

theorem execMsup_keeps {s : State} {a1} {a2} {a3} {a4} {t5 : State} (h5 : Keeps s t5) : KeepsO s (@execMsup a1 a2 a3 a4 t5) := by
  delta execMsup
  exact macp_keeps h5

theorem execClra_keeps {s : State} {a1} {a2} {t3 : State} (h3 : Keeps s t3) : KeepsO s (@execClra a1 a2 t3) := by
  delta execClra
  exact dxReg_keeps h3

theorem execAdda_keeps {s : State} {a1} {a2} {a3} {t4 : State} (h4 : Keeps s t4) : KeepsO s (@execAdda a1 a2 a3 t4) := by
  delta execAdda
  exact dxReg_keeps h4

theorem execSuba_keeps {s : State} {a1} {a2} {a3} {t4 : State} (h4 : Keeps s t4) : KeepsO s (@execSuba a1 a2 a3 t4) := by
  delta execSuba
  exact dxReg_keeps h4

theorem execAsha_keeps {s : State} {a1} {a2} {a3} {t4 : State} (h4 : Keeps s t4) : KeepsO s (@execAsha a1 a2 a3 t4) := by
  delta execAsha
  exact dxReg_keeps h4

theorem execAccr_keeps {s : State} {a1} {a2} {a3} {t4 : State} (h4 : Keeps s t4) : KeepsO s (@execAccr a1 a2 a3 t4) := by
  delta execAccr
  exact dxReg_keeps h4

theorem execRdal_keeps {s : State} {a1} {a2} {a3} {t4 : State} (h4 : Keeps s t4) : KeepsO s (@execRdal a1 a2 a3 t4) := by
  delta execRdal
  exact dxReg_keeps h4

theorem execRdah_keeps {s : State} {a1} {a2} {a3} {t4 : State} (h4 : Keeps s t4) : KeepsO s (@execRdah a1 a2 a3 t4) := by
  delta execRdah
  exact dxReg_keeps h4

theorem execRdag_keeps {s : State} {a1} {a2} {a3} {t4 : State} (h4 : Keeps s t4) : KeepsO s (@execRdag a1 a2 a3 t4) := by
  delta execRdag
  exact dxReg_keeps h4

theorem execWral_keeps {s : State} {a1} {a2} {a3} {t4 : State} (h4 : Keeps s t4) : KeepsO s (@execWral a1 a2 a3 t4) := by
  delta execWral
  exact dxReg_keeps h4

theorem execWrah_keeps {s : State} {a1} {a2} {a3} {t4 : State} (h4 : Keeps s t4) : KeepsO s (@execWrah a1 a2 a3 t4) := by
  delta execWrah
  exact dxReg_keeps h4

theorem execWrag_keeps {s : State} {a1} {a2} {a3} {t4 : State} (h4 : Keeps s t4) : KeepsO s (@execWrag a1 a2 a3 t4) := by
  delta execWrag
  exact dxReg_keeps h4

theorem execFmul_keeps {s : State} {a1} {a2} {a3} {a4} {t5 : State} (h5 : Keeps s t5) : KeepsO s (@execFmul a1 a2 a3 a4 t5) := by
  delta execFmul
  exact dxReg_keeps h5

theorem execQadd_keeps {s : State} {a1} {a2} {a3} {a4} {t5 : State} (h5 : Keeps s t5) : KeepsO s (@execQadd a1 a2 a3 a4 t5) := by
  delta execQadd
  exact dxReg_keeps h5

theorem execQsub_keeps {s : State} {a1} {a2} {a3} {a4} {t5 : State} (h5 : Keeps s t5) : KeepsO s (@execQsub a1 a2 a3 a4 t5) := by
  delta execQsub
  exact dxReg_keeps h5

theorem execQneg_keeps {s : State} {a1} {a2} {a3} {t4 : State} (h4 : Keeps s t4) : KeepsO s (@execQneg a1 a2 a3 t4) := by
  delta execQneg
  exact dxReg_keeps h4

theorem execQabs_keeps {s : State} {a1} {a2} {a3} {t4 : State} (h4 : Keeps s t4) : KeepsO s (@execQabs a1 a2 a3 t4) := by
  delta execQabs
  exact dxReg_keeps h4

theorem load_keeps {s : State} {t1 : State} (h1 : Keeps s t1) {a2} {a3} {a4} {a5} {a6} {a7} : KeepsO s (@load t1 a2 a3 a4 a5 a6 a7) := by
  delta load
  exact dx_keeps h1 (fun s => (fun _ h8 => by
    extract_lets -merge -underBinder +onlyGivenNames x9
    extract_lets -merge -underBinder +onlyGivenNames x10
    split
    · exact trapAt_keepsW h8
    · clear_value x10
      split
      · refine ite_inv ?_ ?_
        · exact trivial
        · split
          · exact trivial
          · extract_lets -merge -underBinder +onlyGivenNames x11
            extract_lets -merge -underBinder +onlyGivenNames x12
            have h12 : KeepsW s (x12) := ite_inv (State.countS_keepsW h8) h8
            exact State.setStrand_keepsW h12
      · exact h8))

theorem execLw_keeps {s : State} {a1} {a2} {a3} {t4 : State} (h4 : Keeps s t4) : KeepsO s (@execLw a1 a2 a3 t4) := by
  delta execLw
  exact load_keeps h4

theorem execLh_keeps {s : State} {a1} {a2} {a3} {t4 : State} (h4 : Keeps s t4) : KeepsO s (@execLh a1 a2 a3 t4) := by
  delta execLh
  exact load_keeps h4

theorem execLhu_keeps {s : State} {a1} {a2} {a3} {t4 : State} (h4 : Keeps s t4) : KeepsO s (@execLhu a1 a2 a3 t4) := by
  delta execLhu
  exact load_keeps h4

theorem execLby_keeps {s : State} {a1} {a2} {a3} {t4 : State} (h4 : Keeps s t4) : KeepsO s (@execLby a1 a2 a3 t4) := by
  delta execLby
  exact load_keeps h4

theorem execLbyu_keeps {s : State} {a1} {a2} {a3} {t4 : State} (h4 : Keeps s t4) : KeepsO s (@execLbyu a1 a2 a3 t4) := by
  delta execLbyu
  exact load_keeps h4

theorem storeEnd_keepsW {s : State} {t1 : State} (h1 : KeepsW s t1) {a2} {t3} (h3 : KeepsW s (Prod.fst t3)) {a4} {a5} : KeepsWX s (@storeEnd t1 a2 t3 a4 a5) := by
  delta storeEnd
  exact ite_inv (ite_inv (State.discard_keepsW h3) (State.discard_keepsW (State.modStrand_keepsW h3))) (State.modStrand_keepsW h3)

theorem store_keeps {s : State} {t1 : State} (h1 : Keeps s t1) {a2} {a3} {a4} {a5} {a6} : KeepsO s (@store t1 a2 a3 a4 a5 a6) := by
  delta store
  exact dx_keeps h1 (fun s => (fun _ h7 => by
    extract_lets -merge -underBinder +onlyGivenNames x8
    extract_lets -merge -underBinder +onlyGivenNames x9
    split
    · exact trapAt_keepsW h7
    · clear_value x9
      split
      · refine ite_inv ?_ ?_
        · exact trivial
        · extract_lets -merge -underBinder +onlyGivenNames x10
          have h10 : KeepsW s (x10) := ite_inv (State.countS_keepsW h7) h7
          split
          · exact ite_inv trivial (State.modStrand_keepsW h10)
          · exact storeEnd_keepsW h10 (State.storeAt_keepsW h10)
      · exact h7))

theorem execSw_keeps {s : State} {a1} {a2} {a3} {t4 : State} (h4 : Keeps s t4) : KeepsO s (@execSw a1 a2 a3 t4) := by
  delta execSw
  exact store_keeps h4

theorem execSh_keeps {s : State} {a1} {a2} {a3} {t4 : State} (h4 : Keeps s t4) : KeepsO s (@execSh a1 a2 a3 t4) := by
  delta execSh
  exact store_keeps h4

theorem execSby_keeps {s : State} {a1} {a2} {a3} {t4 : State} (h4 : Keeps s t4) : KeepsO s (@execSby a1 a2 a3 t4) := by
  delta execSby
  exact store_keeps h4

theorem execMovp_keeps {s : State} {a1} {a2} {a3} {t4 : State} (h4 : Keeps s t4) : KeepsO s (@execMovp a1 a2 a3 t4) := by
  delta execMovp
  exact dxReg_keeps h4

theorem execRdp_keeps {s : State} {a1} {a2} {a3} {t4 : State} (h4 : Keeps s t4) : KeepsO s (@execRdp a1 a2 a3 t4) := by
  delta execRdp
  exact dxReg_keeps h4

theorem execWrl_keeps {s : State} {a1} {a2} {a3} {t4 : State} (h4 : Keeps s t4) : KeepsO s (@execWrl a1 a2 a3 t4) := by
  delta execWrl
  exact dxReg_keeps h4

theorem execRdl_keeps {s : State} {a1} {a2} {a3} {t4 : State} (h4 : Keeps s t4) : KeepsO s (@execRdl a1 a2 a3 t4) := by
  delta execRdl
  exact dxReg_keeps h4

theorem execLr_keeps {s : State} {a1} {a2} {a3} {t4 : State} (h4 : Keeps s t4) : KeepsO s (@execLr a1 a2 a3 t4) := by
  delta execLr
  exact dx_keeps h4 (fun s => (fun _ h5 => by
    extract_lets -merge -underBinder +onlyGivenNames x6
    split
    · exact h5
    · extract_lets -merge -underBinder +onlyGivenNames x7
      have h7 : ∀ y1, KeepsWX s (x7 y1) := fun _ => State.setStrand_keepsW h5
      refine ite_inv ?_ ?_
      · exact ite_inv (State.integRead_keepsW h5) (ite_inv trivial (h7 _))
      · split
        · exact h7 _
        · exact trivial))

theorem execSc_keeps {s : State} {a1} {a2} {a3} {a4} {t5 : State} (h5 : Keeps s t5) : KeepsO s (@execSc a1 a2 a3 a4 t5) := by
  delta execSc
  exact dx_keeps h5 (fun s => (fun _ h6 => by
    extract_lets -merge -underBinder +onlyGivenNames x7
    split
    · exact h6
    · extract_lets -merge -underBinder +onlyGivenNames x8
      have h8 : ∀ y1, KeepsW s y1 → ∀ y2, KeepsWX s (x8 y1 y2) := fun _ h8_1 _ => by
        unfold x8
        extract_lets -merge -underBinder +onlyGivenNames x9
        extract_lets -merge -underBinder +onlyGivenNames x10
        have h10 : KeepsW s (x10) := ite_inv h8_1 (State.countS_keepsW h8_1)
        exact State.setStrand_keepsW h10
      split
      · exact h6
      · exact h8 _ h6 _
      · refine ite_inv ?_ ?_
        · exact h8 _ h6 _
        · refine ite_inv ?_ ?_
          · exact ite_inv (State.integRead_keepsW h6) (ite_inv trivial (h8 _ (State.breakResv_keepsW (State.msetN_keepsW h6)) _))
          · split
            · exact h8 _ h6 _
            · exact trivial))

theorem sharedBit_keeps {s : State} {t1 : State} (h1 : Keeps s t1) {a2} {a3} {a4} {a5} {a6} : KeepsO s (@sharedBit t1 a2 a3 a4 a5 a6) := by
  delta sharedBit
  exact dx_keeps h1 (fun s => (fun _ h7 => by
    split
    · exact h7
    · exact ite_inv (ite_inv (State.integRead_keepsW h7) (State.discard_keepsW h7)) (withBit_keepsW h7 (fun _ _ => by
        extract_lets -merge -underBinder +onlyGivenNames x9
        refine ite_inv ?_ ?_
        · extract_lets -merge -underBinder +onlyGivenNames x10
          extract_lets -merge -underBinder +onlyGivenNames x11
          extract_lets -merge -underBinder +onlyGivenNames x12
          have h12 : KeepsW s (x12) := img_keepsW h7 (fun w => imgMask_wf w)
          exact State.modStrand_keepsW h12
        · exact State.modStrand_keepsW (State.discard_keepsW h7)))))

theorem execTsb_keeps {s : State} {a1} {a2} {a3} {t4 : State} (h4 : Keeps s t4) : KeepsO s (@execTsb a1 a2 a3 t4) := by
  delta execTsb
  exact sharedBit_keeps h4

theorem execClb_keeps {s : State} {a1} {a2} {a3} {t4 : State} (h4 : Keeps s t4) : KeepsO s (@execClb a1 a2 a3 t4) := by
  delta execClb
  exact sharedBit_keeps h4

theorem execB_keeps {s : State} {a1} {a2} {a3} {t4 : State} (h4 : Keeps s t4) : KeepsO s (@execB a1 a2 a3 t4) := by
  delta execB
  exact dx_keeps h4 (fun s => (fun _ h5 => by
    extract_lets -merge -underBinder +onlyGivenNames x6
    split
    · exact h5
    · exact State.btBranch_keepsW h5
    · extract_lets -merge -underBinder +onlyGivenNames x7
      split
      · exact h5
      · exact State.btBranch_keepsW h5))

theorem execDbnz_keeps {s : State} {a1} {a2} {a3} {t4 : State} (h4 : Keeps s t4) : KeepsO s (@execDbnz a1 a2 a3 t4) := by
  delta execDbnz
  exact dx_keeps h4 (fun s => (fun _ h5 => by
    extract_lets -merge -underBinder +onlyGivenNames x6
    extract_lets -merge -underBinder +onlyGivenNames x7
    refine ite_inv ?_ ?_
    · exact State.btBranch_keepsW (State.setStrand_keepsW h5)
    · extract_lets -merge -underBinder +onlyGivenNames x8
      split
      · exact h5
      · exact State.btBranch_keepsW (State.setStrand_keepsW h5)))

theorem execJr_keeps {s : State} {a1} {a2} {t3 : State} (h3 : Keeps s t3) : KeepsO s (@execJr a1 a2 t3) := by
  delta execJr
  exact dx_keeps h3 (fun s => (fun _ h4 => by
    extract_lets -merge -underBinder +onlyGivenNames x5
    split
    · exact h4
    · exact State.btTarget_keepsW h4))

theorem callTo_keepsW {s : State} {t1 : State} (h1 : KeepsW s t1) {a2} {a3} {a4} : KeepsWX s (@callTo t1 a2 a3 a4) := by
  delta callTo
  extract_lets -merge -underBinder +onlyGivenNames x5
  split
  · exact h1
  · exact ite_inv h1 (State.setStrand_keepsW h1)

theorem execCall_keeps {s : State} {a1} {a2} {t3 : State} (h3 : Keeps s t3) : KeepsO s (@execCall a1 a2 t3) := by
  delta execCall
  exact dx_keeps h3 (fun s => (fun _ h4 => by
    extract_lets -merge -underBinder +onlyGivenNames x5
    exact callTo_keepsW h4))

theorem execCallr_keeps {s : State} {st a} {t1 : State} (h1 : Keeps s t1) : KeepsO s (@execCallr st a t1) := by
  delta execCallr
  refine dx_keeps h1 (fun u v hv => ?_)
  extract_lets dest
  have h2 : KeepsWX u (callTo v st (regTrap dest) dest) := callTo_keepsW hv
  split
  · next e => exact State.btTarget_keepsW (ofEq_inv (P := KeepsWX u) h2 e)
  · exact h2

theorem execRet_keeps {s : State} {a1} {t2 : State} (h2 : Keeps s t2) : KeepsO s (@execRet a1 t2) := by
  delta execRet
  exact dx_keeps h2 (fun s => (fun _ h3 => by
    extract_lets -merge -underBinder +onlyGivenNames x4
    split
    · exact h3
    · split
      · exact h3
      · exact State.btTarget_keepsW (State.setStrand_keepsW h3)))

theorem execPush_keeps {s : State} {a1} {a2} {t3 : State} (h3 : Keeps s t3) : KeepsO s (@execPush a1 a2 t3) := by
  delta execPush
  exact dx_keeps h3 (fun s => (fun _ h4 => by
    extract_lets -merge -underBinder +onlyGivenNames x5
    refine ite_inv ?_ ?_
    · exact h4
    · extract_lets -merge -underBinder +onlyGivenNames x6
      extract_lets -merge -underBinder +onlyGivenNames x7
      exact ite_inv (trapAt_keepsW h4) (State.setStrand_keepsW (State.msetN_keepsW h4))))

theorem execPop_keeps {s : State} {a1} {a2} {t3 : State} (h3 : Keeps s t3) : KeepsO s (@execPop a1 a2 t3) := by
  delta execPop
  exact dx_keeps h3 (fun s => (fun _ h4 => by
    extract_lets -merge -underBinder +onlyGivenNames x5
    extract_lets -merge -underBinder +onlyGivenNames x6
    split
    · exact trapAt_keepsW h4
    · extract_lets -merge -underBinder +onlyGivenNames x7
      exact State.setStrand_keepsW h4))

theorem execAdjsp_keeps {s : State} {a1} {a2} {t3 : State} (h3 : Keeps s t3) : KeepsO s (@execAdjsp a1 a2 t3) := by
  delta execAdjsp
  exact dxReg_keeps h3

theorem execRddsp_keeps {s : State} {a1} {a2} {t3 : State} (h3 : Keeps s t3) : KeepsO s (@execRddsp a1 a2 t3) := by
  delta execRddsp
  exact dxReg_keeps h3

theorem execRdrsp_keeps {s : State} {a1} {a2} {t3 : State} (h3 : Keeps s t3) : KeepsO s (@execRdrsp a1 a2 t3) := by
  delta execRdrsp
  exact dxReg_keeps h3

theorem execNop_keeps {s : State} {a1} {t2 : State} (h2 : Keeps s t2) : KeepsO s (@execNop a1 t2) := by
  delta execNop
  exact dx_keeps h2 (fun s => (fun _ h3 => h3))

theorem State.strayBeat_keepsW {s : State} {t1 : State} (h1 : KeepsW s t1) {a2} {a3} {a4} : KeepsW s (@State.strayBeat t1 a2 a3 a4) := by
  delta State.strayBeat
  exact State.raise_keepsW (State.setBit_keepsW h1)

theorem execBeat_keeps {s : State} {a1} {a2} {t3 : State} (h3 : Keeps s t3) : KeepsO s (@execBeat a1 a2 t3) := by
  delta execBeat
  exact dx_keeps h3 (fun s => (fun _ h4 => by
    extract_lets -merge -underBinder +onlyGivenNames x5
    exact ite_inv (State.produceBeat_keepsW h4) (State.strayBeat_keepsW h4)))

theorem State.endCycle_keepsW {s : State} {t1 : State} (h1 : KeepsW s t1) {a2} {a3} : KeepsW s (@State.endCycle t1 a2 a3) := by
  delta State.endCycle
  extract_lets -merge -underBinder +onlyGivenNames x4
  have h4 : KeepsW s (x4) := State.forceBeats_keepsW h1
  extract_lets -merge -underBinder +onlyGivenNames x5
  have h5 : KeepsW s (x5) := State.modStrand_keepsW h4
  exact State.checkLastEndc_keepsW (State.btEnd_keepsW h5)

theorem execFence_keeps {s : State} {a1} {t2 : State} (h2 : Keeps s t2) : KeepsO s (@execFence a1 t2) := by
  delta execFence
  exact dx_keeps h2 (fun s => (fun _ h3 => h3))

theorem setBank_keeps {s : State} {t1 : State} (h1 : Keeps s t1) {a2} {a3} {a4} : KeepsO s (@setBank t1 a2 a3 a4) := by
  delta setBank
  exact dx_keeps h1 (fun s => (fun _ h5 => by
    extract_lets -merge -underBinder +onlyGivenNames x6
    exact ite_inv (State.modStrand_keepsW h5) h5))

theorem execSetbk_keeps {s : State} {a1} {a2} {t3 : State} (h3 : Keeps s t3) : KeepsO s (@execSetbk a1 a2 t3) := by
  delta execSetbk
  exact setBank_keeps h3

theorem execSetbki_keeps {s : State} {a1} {a2} {t3 : State} (h3 : Keeps s t3) : KeepsO s (@execSetbki a1 a2 t3) := by
  delta execSetbki
  exact setBank_keeps h3

theorem execRdbk_keeps {s : State} {a1} {a2} {t3 : State} (h3 : Keeps s t3) : KeepsO s (@execRdbk a1 a2 t3) := by
  delta execRdbk
  exact dxReg_keeps h3

theorem execRdctx_keeps {s : State} {a1} {a2} {t3 : State} (h3 : Keeps s t3) : KeepsO s (@execRdctx a1 a2 t3) := by
  delta execRdctx
  exact dx_keeps h3 (fun s => (fun _ h4 => by
    extract_lets -merge -underBinder +onlyGivenNames x5
    exact State.modStrand_keepsW h4))

theorem execTrap_keeps {s : State} {a1} {a2} {t3 : State} (h3 : Keeps s t3) : KeepsO s (@execTrap a1 a2 t3) := by
  delta execTrap
  exact dx_keeps h3 (fun s => (fun _ h4 => h4))

theorem execRdfl_keeps {s : State} {a1} {a2} {t3 : State} (h3 : Keeps s t3) : KeepsO s (@execRdfl a1 a2 t3) := by
  delta execRdfl
  exact dxReg_keeps h3

theorem execWrfl_keeps {s : State} {a1} {a2} {t3 : State} (h3 : Keeps s t3) : KeepsO s (@execWrfl a1 a2 t3) := by
  delta execWrfl
  exact dxReg_keeps h3

theorem execClrq_keeps {s : State} {a1} {t2 : State} (h2 : Keeps s t2) : KeepsO s (@execClrq a1 t2) := by
  delta execClrq
  exact dxReg_keeps h2

theorem execRdfxm_keeps {s : State} {a1} {a2} {t3 : State} (h3 : Keeps s t3) : KeepsO s (@execRdfxm a1 a2 t3) := by
  delta execRdfxm
  exact dxReg_keeps h3

theorem execWrfxm_keeps {s : State} {a1} {a2} {t3 : State} (h3 : Keeps s t3) : KeepsO s (@execWrfxm a1 a2 t3) := by
  delta execWrfxm
  exact dxReg_keeps h3

end Sys2Proof.Machine
end

