-- ==== Sys2Proof/Laws/KeepsIo.lean ====
section
/-!
SUPPORT. `Keeps`, of channels, queues, signal engines, Ethernet and CAN: one lemma for each operation.
-/
set_option linter.unusedVariables false

namespace Sys2Proof.Machine

theorem State.txAbort_keeps {s : State} {t1 : State} (h1 : Keeps s t1) {a2} {a3} : Keeps s (@State.txAbort t1 a2 a3) := by
  delta State.txAbort
  split
  · exact ite_inv h1 (State.mbWithdraw_keeps h1)
  · exact h1

theorem State.mbPend_keeps {s : State} {t1 : State} (h1 : Keeps s t1) {a2} {a3} {a4} {a5} : Keeps s (@State.mbPend t1 a2 a3 a4 a5) := by
  delta State.mbPend
  extract_lets -merge -underBinder +onlyGivenNames x6
  extract_lets -merge -underBinder +onlyGivenNames x7
  have h7 : Keeps s (x7) := State.setFlag_keeps h1
  exact State.setMb_keeps h7

theorem State.txRequest_keeps {s : State} {t1 : State} (h1 : Keeps s t1) {a2} {a3} {a4} {a5} {a6} {a7} {a8} {a9} : Keeps s (@State.txRequest t1 a2 a3 a4 a5 a6 a7 a8 a9) := by
  delta State.txRequest
  extract_lets -merge -underBinder +onlyGivenNames x10
  extract_lets -merge -underBinder +onlyGivenNames x11
  extract_lets -merge -underBinder +onlyGivenNames x12
  have h12 : Keeps s (x12) := State.fput_keeps h1
  refine ite_inv ?_ ?_
  · extract_lets -merge -underBinder +onlyGivenNames x13
    have h13 : Keeps s (x13) := State.setFlag_keeps (State.setFlag_keeps h12)
    extract_lets -merge -underBinder +onlyGivenNames x14
    have h14 : Keeps s (x14) := State.setFlag_keeps (State.setFlag_keeps h13)
    extract_lets -merge -underBinder +onlyGivenNames x15
    have h15 : Keeps s (x15) := State.fput_keeps h14
    exact State.mbPend_keeps h15
  · exact h12

theorem State.qHand_keeps {s : State} {t1 : State} (h1 : Keeps s t1) {a2} {a3} : Keeps s (@State.qHand t1 a2 a3) := by
  delta State.qHand
  exact State.fput_keeps (State.fput_keeps h1)

theorem State.quePost_keeps {s : State} {t1 : State} (h1 : Keeps s t1) {a2} {a3} : Keeps s (@State.quePost t1 a2 a3) := by
  delta State.quePost
  extract_lets -merge -underBinder +onlyGivenNames x4
  extract_lets -merge -underBinder +onlyGivenNames x5
  have h5 : Keeps s (x5) := State.fput_keeps h1
  refine ite_inv ?_ ?_
  · extract_lets -merge -underBinder +onlyGivenNames x6
    extract_lets -merge -underBinder +onlyGivenNames x7
    have h7 : Keeps s (x7) := each_inv h5 (fun _ h8 _ => by
      extract_lets -merge -underBinder +onlyGivenNames x9
      exact State.rset_keeps h8)
    exact State.qHand_keeps h7
  · exact State.raise_keeps (State.setFlag_keeps h5)

theorem State.qReturn_keeps {s : State} {t1 : State} (h1 : Keeps s t1) {a2} {a3} : Keeps s (@State.qReturn t1 a2 a3) := by
  delta State.qReturn
  extract_lets -merge -underBinder +onlyGivenNames x4
  extract_lets -merge -underBinder +onlyGivenNames x5
  have h5 : Keeps s (x5) := each_inv h1 (fun _ h6 _ => by
    extract_lets -merge -underBinder +onlyGivenNames x7
    exact State.rset_keeps h6)
  exact State.fput_keeps (State.fput_keeps h5)

theorem State.melberSend_keeps {s : State} {t1 : State} (h1 : Keeps s t1) {a2} {a3} : Keeps s (@State.melberSend t1 a2 a3) := by
  induction a3 generalizing t1 with
  | zero => exact h1
  | succ n ih =>
    unfold State.melberSend
    dsimp only
    exact ite_inv h1 (ih (State.qReturn_keeps (State.send_keeps h1)))

theorem State.canHeadReturn_keeps {s : State} {t1 : State} (h1 : Keeps s t1) {a2} {a3} {a4} {a5} : Keeps s (@State.canHeadReturn t1 a2 a3 a4 a5) := by
  delta State.canHeadReturn
  extract_lets -merge -underBinder +onlyGivenNames x6
  extract_lets -merge -underBinder +onlyGivenNames x7
  extract_lets -merge -underBinder +onlyGivenNames x8
  have h8 : Keeps s (x8) := each_inv h1 (fun _ h9 _ => by
    extract_lets -merge -underBinder +onlyGivenNames x10
    exact State.rset_keeps (State.rset_keeps h9))
  exact State.qReturn_keeps h8

theorem State.canRefuse_keeps {s : State} {t1 : State} (h1 : Keeps s t1) {a2} {a3} : Keeps s (@State.canRefuse t1 a2 a3) := by
  induction a3 generalizing t1 with
  | zero => exact h1
  | succ n ih =>
    unfold State.canRefuse
    split
    · exact h1
    · extract_lets st
      split
      · exact h1
      · exact ih (State.raise_keeps (State.canHeadReturn_keeps h1))

theorem State.postFrames_keeps {s : State} {t1 : State} (h1 : Keeps s t1) {a2} {a3} : Keeps s (@State.postFrames t1 a2 a3) := by
  delta State.postFrames
  refine ite_inv ?_ ?_
  · exact h1
  · extract_lets -merge -underBinder +onlyGivenNames x4
    have h4 : Keeps s (x4) := State.quePost_keeps h1
    exact ite_inv (State.melberSend_keeps h4) (ite_inv (State.canRefuse_keeps h4) h4)

theorem State.queRetire_keeps {s : State} {t1 : State} (h1 : Keeps s t1) {a2} {a3} : Keeps s (@State.queRetire t1 a2 a3) := by
  delta State.queRetire
  exact ite_inv h1 (ite_inv (upd_keeps h1) (ite_inv h1 (State.qReturn_keeps h1)))

theorem State.mbReadHdr_keeps {s : State} {t1 : State} (h1 : Keeps s t1) {a2} {a3} {a4} : Keeps s (Prod.fst (@State.mbReadHdr t1 a2 a3 a4)) := by
  delta State.mbReadHdr
  extract_lets -merge -underBinder +onlyGivenNames x5
  extract_lets -merge -underBinder +onlyGivenNames x6
  exact ite_inv (P := fun (x : State × _) => Keeps s x.1) (fst_inv (P := Keeps s) (State.setFlag_keeps (State.setMb_keeps h1))) h1

theorem State.mbStore_keeps {s : State} {t1 : State} (h1 : Keeps s t1) {a2} {a3} {a4} {a5} : Keeps s (@State.mbStore t1 a2 a3 a4 a5) := by
  delta State.mbStore
  extract_lets -merge -underBinder +onlyGivenNames x6
  extract_lets -merge -underBinder +onlyGivenNames x7
  have h7 : Keeps s (x7) := State.setFlag_keeps h1
  extract_lets -merge -underBinder +onlyGivenNames x8
  have h8 : Keeps s (x8) := State.setFlag_keeps (State.setFlag_keeps h7)
  extract_lets -merge -underBinder +onlyGivenNames x9
  have h9 : Keeps s (x9) := State.setFlag_keeps (State.setFlag_keeps h8)
  extract_lets -merge -underBinder +onlyGivenNames x10
  have h10 : Keeps s (x10) := State.fput_keeps (State.setFlag_keeps h9)
  extract_lets -merge -underBinder +onlyGivenNames x11
  have h11 : Keeps s (x11) := State.fput_keeps h10
  extract_lets -merge -underBinder +onlyGivenNames x12
  have h12 : Keeps s (x12) := State.rset64_keeps h11
  exact each_inv h12 (fun _ h13 _ => State.rset_keeps h13)

theorem State.mbRelease_keeps {s : State} {t1 : State} (h1 : Keeps s t1) {a2} {a3} : Keeps s (@State.mbRelease t1 a2 a3) := by
  delta State.mbRelease
  extract_lets -merge -underBinder +onlyGivenNames x4
  extract_lets -merge -underBinder +onlyGivenNames x5
  have h5 : Keeps s (x5) := State.setFlag_keeps (State.setMb_keeps h1)
  extract_lets -merge -underBinder +onlyGivenNames x6
  have h6 : Keeps s (x6) := State.setFlag_keeps (State.setFlag_keeps h5)
  split
  · exact h6
  · exact State.setFlag_keeps (State.mbStore_keeps h6)

theorem State.mbReadData_keeps {s : State} {t1 : State} (h1 : Keeps s t1) {a2} {a3} {a4} {a5} : Keeps s (Prod.fst (@State.mbReadData t1 a2 a3 a4 a5)) := by
  delta State.mbReadData
  extract_lets -merge -underBinder +onlyGivenNames x6
  split
  · exact ite_inv (P := fun (x : State × _) => Keeps s x.1) (fst_inv (P := Keeps s) (State.mbRelease_keeps h1)) h1
  · exact h1

theorem State.runPipe_keeps {s : State} {t1 : State} (h1 : Keeps s t1) {a2} {a3} {a4} : Keeps s (Prod.fst (@State.runPipe t1 a2 a3 a4)) := by
  delta State.runPipe
  extract_lets -merge -underBinder +onlyGivenNames x5
  extract_lets -merge -underBinder +onlyGivenNames x6
  extract_lets -merge -underBinder +onlyGivenNames x7
  exact fst_inv (P := Keeps s) (State.countG_keeps (State.setPipe_keeps h1))

theorem State.pushSample_keeps {s : State} {t1 : State} (h1 : Keeps s t1) {a2} {a3} : Keeps s (@State.pushSample t1 a2 a3) := by
  delta State.pushSample
  extract_lets -merge -underBinder +onlyGivenNames x4
  extract_lets -merge -underBinder +onlyGivenNames x5
  extract_lets -merge -underBinder +onlyGivenNames x6
  have h6 : Keeps s (x6) := State.setPipe_keeps h1
  exact State.fput_keeps (State.fput_keeps h6)

theorem State.ucOutputPipe_keeps {s : State} {t1 : State} (h1 : Keeps s t1) {a2} {a3} : Keeps s (@State.ucOutputPipe t1 a2 a3) := by
  delta State.ucOutputPipe
  refine ite_inv ?_ ?_
  · extract_lets -merge -underBinder +onlyGivenNames x4
    extract_lets -merge -underBinder +onlyGivenNames x5
    extract_lets -merge -underBinder +onlyGivenNames x6
    have h6 : Keeps s (Prod.fst (x6)) := State.runPipe_keeps h1
    split
    · exact h6
    · extract_lets -merge -underBinder +onlyGivenNames x7
      extract_lets -merge -underBinder +onlyGivenNames x8
      extract_lets -merge -underBinder +onlyGivenNames x9
      have h9 : Keeps s (x9) := State.pushSample_keeps h6
      extract_lets -merge -underBinder +onlyGivenNames x10
      have h10 : Keeps s (x10) := State.fput_keeps h9
      exact ite_inv (State.modUc_keeps h10) h10
  · exact h1

theorem State.showLoad_keeps {s : State} {t1 : State} (h1 : Keeps s t1) : Keeps s (@State.showLoad t1) := by
  delta State.showLoad
  exact each_inv (State.fput_keeps h1) (fun _ h2 _ => by
    extract_lets -merge -underBinder +onlyGivenNames x3
    exact State.fput_keeps h2)

theorem State.hostPipe_keeps {s : State} {t1 : State} (h1 : Keeps s t1) {a2} {a3} {a4} : Keeps s (@State.hostPipe t1 a2 a3 a4) := by
  delta State.hostPipe
  split
  · exact ite_inv (State.raise_keeps (State.fput_keeps (State.setFlag_keeps h1))) (State.raise_keeps (State.setFlag_keeps h1))
  · exact State.raise_keeps (State.setFlag_keeps h1)

theorem State.reassignPipe_keeps {s : State} {t1 : State} (h1 : Keeps s t1) {a2} : Keeps s (@State.reassignPipe t1 a2) := by
  delta State.reassignPipe
  extract_lets -merge -underBinder +onlyGivenNames x3
  extract_lets -merge -underBinder +onlyGivenNames x4
  have h4 : Keeps s (x4) := State.setFlag_keeps h1
  extract_lets -merge -underBinder +onlyGivenNames x5
  extract_lets -merge -underBinder +onlyGivenNames x6
  have h6 : Keeps s (Prod.fst (x6)) := State.choose_keeps h4
  exact State.hostPipe_keeps h6

theorem State.reassign_keeps {s : State} {t1 : State} (h1 : Keeps s t1) : Keeps s (@State.reassign t1) := by
  delta State.reassign
  exact State.showLoad_keeps (each_inv h1 (fun _ h _ => State.reassignPipe_keeps h))

theorem State.setLatch_keeps {s : State} {t1 : State} (h1 : Keeps s t1) {a2} {a3} {a4} : Keeps s (@State.setLatch t1 a2 a3 a4) := by
  delta State.setLatch
  exact State.modCls_keeps h1

theorem State.judgeOpenLoad_keeps {s : State} {t1 : State} (h1 : Keeps s t1) {a2} {a3} : Keeps s (@State.judgeOpenLoad t1 a2 a3) := by
  delta State.judgeOpenLoad
  extract_lets -merge -underBinder +onlyGivenNames x4
  extract_lets -merge -underBinder +onlyGivenNames x5
  refine ite_inv ?_ ?_
  · extract_lets -merge -underBinder +onlyGivenNames x6
    have h6 : Keeps s (x6) := State.setDio_keeps h1
    refine ite_inv ?_ ?_
    · extract_lets -merge -underBinder +onlyGivenNames x7
      have h7 : Keeps s (x7) := State.setBit_keeps (State.setBit_keeps h6)
      exact State.raise_keeps h7
    · exact h6
  · extract_lets -merge -underBinder +onlyGivenNames x8
    have h8 : Keeps s (x8) := State.setDio_keeps h1
    exact ite_inv (State.raise_keeps (State.setBit_keeps h8)) h8

theorem State.raiseDisc_keeps {s : State} {t1 : State} (h1 : Keeps s t1) {a2} {a3} {a4} {a5} {a6} : Keeps s (@State.raiseDisc t1 a2 a3 a4 a5 a6) := by
  delta State.raiseDisc
  exact State.raise_keeps h1

theorem State.judgeDisc_keeps {s : State} {t1 : State} (h1 : Keeps s t1) {a2} {a3} {a4} {a5} : Keeps s (@State.judgeDisc t1 a2 a3 a4 a5) := by
  delta State.judgeDisc
  extract_lets -merge -underBinder +onlyGivenNames x6
  refine ite_inv ?_ ?_
  · extract_lets -merge -underBinder +onlyGivenNames x7
    have h7 : Keeps s (x7) := State.satBump_keeps h1
    refine ite_inv ?_ ?_
    · extract_lets -merge -underBinder +onlyGivenNames x8
      have h8 : Keeps s (x8) := State.setBit_keeps (State.setBit_keeps h7)
      exact State.raiseDisc_keeps h8
    · exact h7
  · extract_lets -merge -underBinder +onlyGivenNames x9
    extract_lets -merge -underBinder +onlyGivenNames x10
    have h10 : Keeps s (x10) := State.setBit_keeps (State.fput_keeps h1)
    exact ite_inv (State.raiseDisc_keeps h10) h10

theorem State.dioRefresh_keeps {s : State} {t1 : State} (h1 : Keeps s t1) {a2} : Keeps s (@State.dioRefresh t1 a2) := by
  delta State.dioRefresh
  extract_lets -merge -underBinder +onlyGivenNames x3
  have h3 : Keeps s (x3) := State.setBit_keeps h1
  exact State.fput_keeps h3

theorem State.dioReadback_keeps {s : State} {t1 : State} (h1 : Keeps s t1) {a2} {a3} {a4} {a5} {a6} : Keeps s (@State.dioReadback t1 a2 a3 a4 a5 a6) := by
  delta State.dioReadback
  extract_lets -merge -underBinder +onlyGivenNames x7
  extract_lets -merge -underBinder +onlyGivenNames x8
  extract_lets -merge -underBinder +onlyGivenNames x9
  have h9 : Keeps s (x9) := each_inv h1 (fun _ h10 _ => State.setBit_keeps h10)
  extract_lets -merge -underBinder +onlyGivenNames x11
  have h11 : Keeps s (x11) := State.setBit_keeps h9
  extract_lets -merge -underBinder +onlyGivenNames x12
  extract_lets -merge -underBinder +onlyGivenNames x13
  extract_lets -merge -underBinder +onlyGivenNames x14 x15
  have h14 : Keeps s (x14) := ite_inv (State.judgeOpenLoad_keeps h11) h11
  have h15 : Keeps s (x15) := ite_inv h11 (ite_inv (State.judgeDisc_keeps h14) h14)
  exact each_inv h15 (fun _ h _ => State.dioRefresh_keeps h)

theorem State.ctGate_keeps {s : State} {t1 : State} (h1 : Keeps s t1) {a2} {a3} : Keeps s (@State.ctGate t1 a2 a3) := by
  delta State.ctGate
  refine ite_inv ?_ ?_
  · extract_lets -merge -underBinder +onlyGivenNames x4
    extract_lets -merge -underBinder +onlyGivenNames x5
    exact State.setFlag_keeps (State.fput_keeps h1)
  · exact h1

theorem State.setCt_keeps {s : State} {t1 : State} (h1 : Keeps s t1) {a2} {a3} : Keeps s (@State.setCt t1 a2 a3) := by
  delta State.setCt
  exact upd_keeps h1

theorem State.ctLatch_keeps {s : State} {t1 : State} (h1 : Keeps s t1) {a2} {a3} {a4} : Keeps s (Prod.fst (@State.ctLatch t1 a2 a3 a4)) := by
  delta State.ctLatch
  extract_lets -merge -underBinder +onlyGivenNames x5
  have h5 : Keeps s (x5) := State.ctGate_keeps h1
  extract_lets -merge -underBinder +onlyGivenNames x6
  extract_lets -merge -underBinder +onlyGivenNames x7
  extract_lets -merge -underBinder +onlyGivenNames x8
  extract_lets -merge -underBinder +onlyGivenNames x9
  extract_lets -merge -underBinder +onlyGivenNames x10
  have h10 : Keeps s (x10) := State.setCt_keeps (State.fput_keeps h5)
  exact h10

theorem State.latchDigital_keeps {s : State} {t1 : State} (h1 : Keeps s t1) {a2} {a3} : Keeps s (@State.latchDigital t1 a2 a3) := by
  delta State.latchDigital
  extract_lets -merge -underBinder +onlyGivenNames x4
  extract_lets -merge -underBinder +onlyGivenNames x5
  have h5 : Keeps s (x5) := each_inv h1 (fun _ h6 _ => by
    refine ite_inv ?_ ?_
    · exact h6
    · extract_lets -merge -underBinder +onlyGivenNames x7
      have h7 : Keeps s (Prod.fst (x7)) := State.ctLatch_keeps h6
      exact State.setLatch_keeps h7)
  exact each_inv h5 (fun _ h8 _ => ite_inv (each_inv h8 (fun _ h9 _ => by
    extract_lets -merge -underBinder +onlyGivenNames x10
    exact State.setLatch_keeps h9)) h8)

theorem State.dioLatch_keeps {s : State} {t1 : State} (h1 : Keeps s t1) {a2} {a3} {a4} {a5} : Keeps s (@State.dioLatch t1 a2 a3 a4 a5) := by
  delta State.dioLatch
  refine ite_inv ?_ ?_
  · exact h1
  · extract_lets -merge -underBinder +onlyGivenNames x6
    extract_lets -merge -underBinder +onlyGivenNames x7
    have h7 : Keeps s (x7) := each_inv h1 (fun _ h8 _ => by
      refine ite_inv ?_ ?_
      · split
        · exact ite_inv (State.dioReadback_keeps h8) h8
        · exact h8
      · exact State.dioRefresh_keeps (State.setBit_keeps h8))
    exact each_inv h7 (fun _ h9 _ => State.latchDigital_keeps h9)

theorem State.pipeBad_keeps {s : State} {t1 : State} (h1 : Keeps s t1) {a2} : Keeps s (@State.pipeBad t1 a2) := by
  delta State.pipeBad
  extract_lets -merge -underBinder +onlyGivenNames x3
  extract_lets -merge -underBinder +onlyGivenNames x4
  exact State.pushSample_keeps h1

theorem State.failEngine_keeps {s : State} {t1 : State} (h1 : Keeps s t1) {a2} {a3} : Keeps s (@State.failEngine t1 a2 a3) := by
  delta State.failEngine
  extract_lets -merge -underBinder +onlyGivenNames x4
  have h4 : Keeps s (x4) := each_inv h1 (fun _ h5 _ => ite_inv (State.pipeBad_keeps h5) h5)
  extract_lets -merge -underBinder +onlyGivenNames x6
  extract_lets -merge -underBinder +onlyGivenNames x7
  extract_lets -merge -underBinder +onlyGivenNames x8
  extract_lets -merge -underBinder +onlyGivenNames x9
  have h9 : Keeps s (x9) := State.setEngine_keeps h4
  extract_lets -merge -underBinder +onlyGivenNames x10
  have h10 : Keeps s (x10) := State.setBit_keeps h9
  extract_lets -merge -underBinder +onlyGivenNames x11
  have h11 : Keeps s (x11) := upd_keeps h10
  extract_lets -merge -underBinder +onlyGivenNames x12
  have h12 : Keeps s (x12) := State.setBit_keeps h11
  exact State.raise_keeps h12

theorem State.seCompare_keeps {s : State} {t1 : State} (h1 : Keeps s t1) {a2} {a3} {a4} : Keeps s (Prod.fst (@State.seCompare t1 a2 a3 a4)) := by
  delta State.seCompare
  split
  · exact h1
  · refine ite_inv (P := fun (x : State × _) => Keeps s x.1) ?_ ?_
    · extract_lets -merge -underBinder +onlyGivenNames x5
      refine ite_inv (P := fun (x : State × _) => Keeps s x.1) ?_ ?_
      · exact fst_inv (P := Keeps s) (State.failEngine_keeps h1)
      · extract_lets -merge -underBinder +onlyGivenNames x6
        have h6 : Keeps s (x6) := State.satBump_keeps (State.satBump_keeps h1)
        extract_lets -merge -underBinder +onlyGivenNames x7
        have h7 : Keeps s (x7) := State.countG_keeps (State.setBit_keeps h6)
        exact fst_inv (P := Keeps s) (State.raise_keeps h7)
    · exact h1

theorem State.setDiag_keeps {s : State} {t1 : State} (h1 : Keeps s t1) {a2} {a3} : Keeps s (@State.setDiag t1 a2 a3) := by
  delta State.setDiag
  extract_lets -merge -underBinder +onlyGivenNames x4
  refine ite_inv ?_ ?_
  · exact h1
  · extract_lets -merge -underBinder +onlyGivenNames x5
    have h5 : Keeps s (x5) := State.setFlag_keeps (State.fput_keeps h1)
    exact State.raise_keeps h5

theorem State.judgeBand_keeps {s : State} {t1 : State} (h1 : Keeps s t1) {a2} {a3} : Keeps s (@State.judgeBand t1 a2 a3) := by
  delta State.judgeBand
  split
  · exact h1
  · extract_lets -merge -underBinder +onlyGivenNames x4
    extract_lets -merge -underBinder +onlyGivenNames x5
    have h5 : Keeps s (x5) := State.modUc_keeps h1
    extract_lets -merge -underBinder +onlyGivenNames x6
    extract_lets -merge -underBinder +onlyGivenNames x7
    exact State.setDiag_keeps h5

theorem State.ucSample_keeps {s : State} {t1 : State} (h1 : Keeps s t1) {a2} {a3} {a4} : KeepsP s (@State.ucSample t1 a2 a3 a4) := by
  delta State.ucSample
  split
  · exact trivial
  · extract_lets -merge -underBinder +onlyGivenNames x5
    have h5 : Keeps s (x5) := State.judgeBand_keeps (State.countG_keeps h1)
    extract_lets -merge -underBinder +onlyGivenNames x6
    extract_lets -merge -underBinder +onlyGivenNames x7
    exact h5

theorem State.setStream_keeps {s : State} {t1 : State} (h1 : Keeps s t1) {a2} {a3} : Keeps s (@State.setStream t1 a2 a3) := by
  delta State.setStream
  exact upd_keeps h1

theorem State.hardPut_keeps {s : State} {t1 : State} (h1 : Keeps s t1) {a2} {a3} : Keeps s (@State.hardPut t1 a2 a3) := by
  delta State.hardPut
  extract_lets -merge -underBinder +onlyGivenNames x4
  extract_lets -merge -underBinder +onlyGivenNames x5
  have h5 : Keeps s (x5) := upd_keeps h1
  exact each_inv h5 (fun _ h6 _ => ite_inv h6 (State.mset_keeps h6))

theorem State.deliverJob_keeps {s : State} {t1 : State} (h1 : Keeps s t1) {a2} {a3} {a4} : Keeps s (@State.deliverJob t1 a2 a3 a4) := by
  delta State.deliverJob
  extract_lets -merge -underBinder +onlyGivenNames x5
  extract_lets -merge -underBinder +onlyGivenNames x6
  have h6 : Keeps s (x6) := State.hardPut_keeps h1
  extract_lets -merge -underBinder +onlyGivenNames x7
  have h7 : Keeps s (x7) := State.fput_keeps h6
  extract_lets -merge -underBinder +onlyGivenNames x8
  have h8 : Keeps s (x8) := State.obsJob_keeps h7
  extract_lets -merge -underBinder +onlyGivenNames x9
  refine ite_inv ?_ ?_
  · split
    · exact State.hardPut_keeps h8
    · exact h8
  · exact ite_inv (State.raise_keeps (State.setFlag_keeps h8)) h8

theorem State.deliverEngine_keeps {s : State} {t1 : State} (h1 : Keeps s t1) {a2} {a3} {a4} : Keeps s (Prod.fst (@State.deliverEngine t1 a2 a3 a4)) := by
  delta State.deliverEngine
  extract_lets -merge -underBinder +onlyGivenNames x5
  extract_lets -merge -underBinder +onlyGivenNames x6
  extract_lets -merge -underBinder +onlyGivenNames x7
  have h7 : Keeps s (x7) := each_inv h1 (fun _ h8 _ => State.deliverJob_keeps h8)
  extract_lets -merge -underBinder +onlyGivenNames x9
  exact fst_inv (P := Keeps s) (State.setEngine_keeps h7)

theorem State.deliverJobs_keeps {s : State} {t1 : State} (h1 : Keeps s t1) {a2} {a3} : Keeps s (Prod.fst (@State.deliverJobs t1 a2 a3)) := by
  delta State.deliverJobs
  exact foldl1_inv h1 (fun _ h4 _ => by
    extract_lets -merge -underBinder +onlyGivenNames x5
    have h5 : Keeps s (Prod.fst (x5)) := State.deliverEngine_keeps h4
    exact h5)

theorem State.canBuild_keeps {s : State} {t1 : State} (h1 : Keeps s t1) {a2} : Keeps s (@State.canBuild t1 a2) := by
  delta State.canBuild
  exact each_inv h1 (fun _ h3 _ => by
    extract_lets -merge -underBinder +onlyGivenNames x4
    extract_lets -merge -underBinder +onlyGivenNames x5
    extract_lets -merge -underBinder +onlyGivenNames x6
    extract_lets -merge -underBinder +onlyGivenNames x7
    extract_lets -merge -underBinder +onlyGivenNames x8
    exact State.setMb_keeps h3)

theorem State.buildStream_keeps {s : State} {t1 : State} (h1 : Keeps s t1) {a2} {a3} {a4} {a5} : Keeps s (@State.buildStream t1 a2 a3 a4 a5) := by
  delta State.buildStream
  extract_lets -merge -underBinder +onlyGivenNames x6
  extract_lets -merge -underBinder +onlyGivenNames x7
  extract_lets -merge -underBinder +onlyGivenNames x8
  extract_lets -merge -underBinder +onlyGivenNames x9
  extract_lets -merge -underBinder +onlyGivenNames x10
  extract_lets -merge -underBinder +onlyGivenNames x11
  have h11 : Keeps s (x11) := ite_inv (State.setStream_keeps h1) h1
  exact upd_keeps h11

theorem State.buildStreams_keeps {s : State} {t1 : State} (h1 : Keeps s t1) {a2} {a3} {a4} {a5} : Keeps s (@State.buildStreams t1 a2 a3 a4 a5) := by
  delta State.buildStreams
  exact each_inv h1 (fun _ h6 _ => State.buildStream_keeps h6)

theorem State.setDiagBit_keeps {s : State} {t1 : State} (h1 : Keeps s t1) {a2} {a3} {a4} : Keeps s (@State.setDiagBit t1 a2 a3 a4) := by
  delta State.setDiagBit
  exact State.setDiag_keeps h1

theorem State.ucDrive_keeps {s : State} {t1 : State} (h1 : Keeps s t1) {a2} {a3} {a4} : Keeps s (@State.ucDrive t1 a2 a3 a4) := by
  delta State.ucDrive
  exact State.modUc_keeps h1

theorem State.ucEmit_keeps {s : State} {t1 : State} (h1 : Keeps s t1) {a2} : Keeps s (@State.ucEmit t1 a2) := by
  delta State.ucEmit
  refine ite_inv ?_ ?_
  · extract_lets -merge -underBinder +onlyGivenNames x3
    have h3 : Keeps s (x3) := by
      unfold x3
      split
      · exact h1
      · extract_lets -merge -underBinder +onlyGivenNames x4
        extract_lets -merge -underBinder +onlyGivenNames x5
        have h5 : Keeps s (x5) := State.modUc_keeps h1
        exact State.setDiagBit_keeps h5
    extract_lets -merge -underBinder +onlyGivenNames x6
    extract_lets -merge -underBinder +onlyGivenNames x7
    extract_lets -merge -underBinder +onlyGivenNames x8
    extract_lets -merge -underBinder +onlyGivenNames x9
    have h9 : Keeps s (x9) := ite_inv (State.modUc_keeps h3) h3
    exact State.ucDrive_keeps h9
  · exact h1

theorem State.dioEmitOut_keeps {s : State} {t1 : State} (h1 : Keeps s t1) {a2} : Keeps s (@State.dioEmitOut t1 a2) := by
  delta State.dioEmitOut
  extract_lets -merge -underBinder +onlyGivenNames x3
  extract_lets -merge -underBinder +onlyGivenNames x4
  extract_lets -merge -underBinder +onlyGivenNames x5
  have h5 : Keeps s (x5) := State.setDio_keeps h1
  extract_lets -merge -underBinder +onlyGivenNames x6
  have h6 : Keeps s (x6) := ite_inv h5 (State.dioRefresh_keeps (State.setBit_keeps h5))
  extract_lets -merge -underBinder +onlyGivenNames x7
  exact each_inv h6 (fun _ h8 _ => State.dioApply_keeps h8)

theorem State.ctControl_keeps {s : State} {t1 : State} (h1 : Keeps s t1) {a2} {a3} : Keeps s (@State.ctControl t1 a2 a3) := by
  delta State.ctControl
  extract_lets -merge -underBinder +onlyGivenNames x4
  refine ite_inv ?_ ?_
  · extract_lets -merge -underBinder +onlyGivenNames x5 x6
    have h6 : Keeps s (x6) := ite_inv (State.setCt_keeps h1) h1
    exact ite_inv (State.fput_keeps h6) h6
  · exact h1

theorem State.dioEmit_keeps {s : State} {t1 : State} (h1 : Keeps s t1) {a2} : Keeps s (@State.dioEmit t1 a2) := by
  delta State.dioEmit
  extract_lets -merge -underBinder +onlyGivenNames x3
  extract_lets -merge -underBinder +onlyGivenNames x4
  extract_lets -merge -underBinder +onlyGivenNames x5
  have h5 : Keeps s (x5) := each_inv h1 (fun _ h6 _ => ite_inv (State.setFlag_keeps h6) h6)
  extract_lets -merge -underBinder +onlyGivenNames x7
  have h7 : Keeps s (x7) := each_inv h5 (fun _ h _ => State.dioEmitOut_keeps h)
  exact each_inv h7 (fun _ h8 _ => State.ctControl_keeps h8)

theorem State.canEmit_keeps {s : State} {t1 : State} (h1 : Keeps s t1) {a2} {a3} : Keeps s (@State.canEmit t1 a2 a3) := by
  delta State.canEmit
  exact each_inv h1 (fun _ h4 _ => by
    split
    · exact State.mbPend_keeps h4
    · exact h4)

theorem State.setWindows_keeps {s : State} {t1 : State} (h1 : Keeps s t1) {a2} {a3} : Keeps s (@State.setWindows t1 a2 a3) := by
  delta State.setWindows
  exact upd_keeps h1

theorem State.closeGates_keeps {s : State} {t1 : State} (h1 : Keeps s t1) {a2} {a3} : Keeps s (@State.closeGates t1 a2 a3) := by
  delta State.closeGates
  exact ite_inv h1 (upd_keeps h1)

theorem State.rioOpen_keeps {s : State} {t1 : State} (h1 : Keeps s t1) {a2} {a3} : Keeps s (@State.rioOpen t1 a2 a3) := by
  delta State.rioOpen
  exact each_inv h1 (fun _ h4 _ => by
    extract_lets -merge -underBinder +onlyGivenNames x5
    refine ite_inv ?_ ?_
    · exact h4
    · extract_lets -merge -underBinder +onlyGivenNames x6
      extract_lets -merge -underBinder +onlyGivenNames x7
      exact State.setWindows_keeps (State.closeGates_keeps h4))

theorem execGateClose_keeps {s : State} {a1} {a2} {t3 : State} (h3 : Keeps s t3) : KeepsO s (@execGateClose a1 a2 t3) := by
  delta execGateClose
  extract_lets -merge -underBinder +onlyGivenNames x4
  exact ite_inv h3 (ite_inv (State.closeGates_keeps h3) h3)

theorem execRioWindowEnd_keeps {s : State} {a1} {t2 : State} (h2 : Keeps s t2) : KeepsO s (@execRioWindowEnd a1 t2) := by
  delta execRioWindowEnd
  split
  · exact h2
  · split
    · exact h2
    · extract_lets -merge -underBinder +onlyGivenNames x3
      refine ite_inv ?_ ?_
      · exact h2
      · extract_lets -merge -underBinder +onlyGivenNames x4
        have h4 : Keeps s (x4) := each_inv h2 (fun _ h5 _ => by
          extract_lets -merge -underBinder +onlyGivenNames x6
          extract_lets -merge -underBinder +onlyGivenNames x7
          exact State.raise_keeps (State.satBump_keeps h5))
        extract_lets -merge -underBinder +onlyGivenNames x8 x9
        have h9 : Keeps s (x9) := upd_keeps h4
        split
        · exact State.setWindows_keeps h9
        · exact State.setWindows_keeps h9

theorem State.announce_keeps {s : State} {t1 : State} (h1 : Keeps s t1) {a2} {a3} : Keeps s (@State.announce t1 a2 a3) := by
  delta State.announce
  extract_lets -merge -underBinder +onlyGivenNames x4
  extract_lets -merge -underBinder +onlyGivenNames x5
  refine ite_inv ?_ ?_
  · extract_lets -merge -underBinder +onlyGivenNames x6 x7
    have h7 : Keeps s (x7) := upd_keeps h1
    extract_lets -merge -underBinder +onlyGivenNames x8
    have h8 : Keeps s (x8) := each_inv h7 (fun _ h9 _ => State.fput_keeps h9)
    exact State.raise_keeps h8
  · split
    · exact ite_inv (State.fput_keeps h1) h1
    · exact h1

theorem State.acceptJob_keepsW {s : State} {t1 : State} (h1 : KeepsW s t1) {a2} {a3} : KeepsW s (Prod.fst (@State.acceptJob t1 a2 a3)) := by
  delta State.acceptJob
  extract_lets -merge -underBinder +onlyGivenNames x4
  extract_lets -merge -underBinder +onlyGivenNames x5
  extract_lets -merge -underBinder +onlyGivenNames x6
  extract_lets -merge -underBinder +onlyGivenNames x7
  extract_lets -merge -underBinder +onlyGivenNames x8
  extract_lets -merge -underBinder +onlyGivenNames x9
  extract_lets -merge -underBinder +onlyGivenNames x10
  extract_lets -merge -underBinder +onlyGivenNames x11
  extract_lets -merge -underBinder +onlyGivenNames x12
  extract_lets -merge -underBinder +onlyGivenNames x13
  have h13 : KeepsW s (x13) := State.setEngine_keepsW h1
  extract_lets -merge -underBinder +onlyGivenNames x14
  have h14 : KeepsW s (x14) := State.fput_keepsW (State.fput_keepsW h13)
  extract_lets -merge -underBinder +onlyGivenNames x15
  have h15 : KeepsW s (x15) := State.obsJob_keepsW h14
  exact fst_inv (P := KeepsW s) (ite_inv (State.obsJob_keepsW h15) h15)

theorem execSej_keeps {s : State} {a1} {a2} {a3} {t4 : State} (h4 : Keeps s t4) : KeepsO s (@execSej a1 a2 a3 t4) := by
  delta execSej
  exact dx_keeps h4 (fun s => (fun _ h5 => by
    extract_lets -merge -underBinder +onlyGivenNames x6
    extract_lets -merge -underBinder +onlyGivenNames x7
    refine ite_inv ?_ ?_
    · exact h5
    · refine ite_inv ?_ ?_
      · exact h5
      · extract_lets -merge -underBinder +onlyGivenNames x8
        split
        · exact State.integRead_keepsW h5
        · extract_lets -merge -underBinder +onlyGivenNames x9
          extract_lets -merge -underBinder +onlyGivenNames x10
          extract_lets -merge -underBinder +onlyGivenNames x11
          have h11 : KeepsW s (Prod.fst (x11)) := ite_inv (P := fun (x : State × _) => KeepsW s x.1) (State.acceptJob_keepsW h5) h5
          extract_lets -merge -underBinder +onlyGivenNames x12
          exact State.modStrand_keepsW h11))

theorem State.mbReadHdr_keepsW {s : State} {t1 : State} (h1 : KeepsW s t1) {a2} {a3} {a4} : KeepsW s (Prod.fst (@State.mbReadHdr t1 a2 a3 a4)) := by
  delta State.mbReadHdr
  extract_lets -merge -underBinder +onlyGivenNames x5
  extract_lets -merge -underBinder +onlyGivenNames x6
  exact ite_inv (P := fun (x : State × _) => KeepsW s x.1) (fst_inv (P := KeepsW s) (State.setFlag_keepsW (State.setMb_keepsW h1))) h1

theorem State.mbStore_keepsW {s : State} {t1 : State} (h1 : KeepsW s t1) {a2} {a3} {a4} {a5} : KeepsW s (@State.mbStore t1 a2 a3 a4 a5) := by
  delta State.mbStore
  extract_lets -merge -underBinder +onlyGivenNames x6
  extract_lets -merge -underBinder +onlyGivenNames x7
  have h7 : KeepsW s (x7) := State.setFlag_keepsW h1
  extract_lets -merge -underBinder +onlyGivenNames x8
  have h8 : KeepsW s (x8) := State.setFlag_keepsW (State.setFlag_keepsW h7)
  extract_lets -merge -underBinder +onlyGivenNames x9
  have h9 : KeepsW s (x9) := State.setFlag_keepsW (State.setFlag_keepsW h8)
  extract_lets -merge -underBinder +onlyGivenNames x10
  have h10 : KeepsW s (x10) := State.fput_keepsW (State.setFlag_keepsW h9)
  extract_lets -merge -underBinder +onlyGivenNames x11
  have h11 : KeepsW s (x11) := State.fput_keepsW h10
  extract_lets -merge -underBinder +onlyGivenNames x12
  have h12 : KeepsW s (x12) := State.rset64_keepsW h11
  exact each_inv h12 (fun _ h13 _ => State.rset_keepsW h13)

theorem State.mbRelease_keepsW {s : State} {t1 : State} (h1 : KeepsW s t1) {a2} {a3} : KeepsW s (@State.mbRelease t1 a2 a3) := by
  delta State.mbRelease
  extract_lets -merge -underBinder +onlyGivenNames x4
  extract_lets -merge -underBinder +onlyGivenNames x5
  have h5 : KeepsW s (x5) := State.setFlag_keepsW (State.setMb_keepsW h1)
  extract_lets -merge -underBinder +onlyGivenNames x6
  have h6 : KeepsW s (x6) := State.setFlag_keepsW (State.setFlag_keepsW h5)
  split
  · exact h6
  · exact State.setFlag_keepsW (State.mbStore_keepsW h6)

theorem State.mbReadData_keepsW {s : State} {t1 : State} (h1 : KeepsW s t1) {a2} {a3} {a4} {a5} : KeepsW s (Prod.fst (@State.mbReadData t1 a2 a3 a4 a5)) := by
  delta State.mbReadData
  extract_lets -merge -underBinder +onlyGivenNames x6
  split
  · exact ite_inv (P := fun (x : State × _) => KeepsW s x.1) (fst_inv (P := KeepsW s) (State.mbRelease_keepsW h1)) h1
  · exact h1

theorem State.txAbort_keepsW {s : State} {t1 : State} (h1 : KeepsW s t1) {a2} {a3} : KeepsW s (@State.txAbort t1 a2 a3) := by
  delta State.txAbort
  split
  · exact ite_inv h1 (State.mbWithdraw_keepsW h1)
  · exact h1

theorem State.mbPend_keepsW {s : State} {t1 : State} (h1 : KeepsW s t1) {a2} {a3} {a4} {a5} : KeepsW s (@State.mbPend t1 a2 a3 a4 a5) := by
  delta State.mbPend
  extract_lets -merge -underBinder +onlyGivenNames x6
  extract_lets -merge -underBinder +onlyGivenNames x7
  have h7 : KeepsW s (x7) := State.setFlag_keepsW h1
  exact State.setMb_keepsW h7

theorem State.txRequest_keepsW {s : State} {t1 : State} (h1 : KeepsW s t1) {a2} {a3} {a4} {a5} {a6} {a7} {a8} {a9} : KeepsW s (@State.txRequest t1 a2 a3 a4 a5 a6 a7 a8 a9) := by
  delta State.txRequest
  extract_lets -merge -underBinder +onlyGivenNames x10
  extract_lets -merge -underBinder +onlyGivenNames x11
  extract_lets -merge -underBinder +onlyGivenNames x12
  have h12 : KeepsW s (x12) := State.fput_keepsW h1
  refine ite_inv ?_ ?_
  · extract_lets -merge -underBinder +onlyGivenNames x13
    have h13 : KeepsW s (x13) := State.setFlag_keepsW (State.setFlag_keepsW h12)
    extract_lets -merge -underBinder +onlyGivenNames x14
    have h14 : KeepsW s (x14) := State.setFlag_keepsW (State.setFlag_keepsW h13)
    extract_lets -merge -underBinder +onlyGivenNames x15
    have h15 : KeepsW s (x15) := State.fput_keepsW h14
    exact State.mbPend_keepsW h15
  · exact h12

theorem State.qHand_keepsW {s : State} {t1 : State} (h1 : KeepsW s t1) {a2} {a3} : KeepsW s (@State.qHand t1 a2 a3) := by
  delta State.qHand
  exact State.fput_keepsW (State.fput_keepsW h1)

theorem State.quePost_keepsW {s : State} {t1 : State} (h1 : KeepsW s t1) {a2} {a3} : KeepsW s (@State.quePost t1 a2 a3) := by
  delta State.quePost
  extract_lets -merge -underBinder +onlyGivenNames x4
  extract_lets -merge -underBinder +onlyGivenNames x5
  have h5 : KeepsW s (x5) := State.fput_keepsW h1
  refine ite_inv ?_ ?_
  · extract_lets -merge -underBinder +onlyGivenNames x6
    extract_lets -merge -underBinder +onlyGivenNames x7
    have h7 : KeepsW s (x7) := each_inv h5 (fun _ h8 _ => by
      extract_lets -merge -underBinder +onlyGivenNames x9
      exact State.rset_keepsW h8)
    exact State.qHand_keepsW h7
  · exact State.raise_keepsW (State.setFlag_keepsW h5)

theorem State.qReturn_keepsW {s : State} {t1 : State} (h1 : KeepsW s t1) {a2} {a3} : KeepsW s (@State.qReturn t1 a2 a3) := by
  delta State.qReturn
  extract_lets -merge -underBinder +onlyGivenNames x4
  extract_lets -merge -underBinder +onlyGivenNames x5
  have h5 : KeepsW s (x5) := each_inv h1 (fun _ h6 _ => by
    extract_lets -merge -underBinder +onlyGivenNames x7
    exact State.rset_keepsW h6)
  exact State.fput_keepsW (State.fput_keepsW h5)

theorem State.melberSend_keepsW {s : State} {t1 : State} (h1 : KeepsW s t1) {a2} {a3} : KeepsW s (@State.melberSend t1 a2 a3) := by
  induction a3 generalizing t1 with
  | zero => exact h1
  | succ n ih =>
    unfold State.melberSend
    dsimp only
    exact ite_inv h1 (ih (State.qReturn_keepsW (State.send_keepsW h1)))

theorem State.canHeadReturn_keepsW {s : State} {t1 : State} (h1 : KeepsW s t1) {a2} {a3} {a4} {a5} : KeepsW s (@State.canHeadReturn t1 a2 a3 a4 a5) := by
  delta State.canHeadReturn
  extract_lets -merge -underBinder +onlyGivenNames x6
  extract_lets -merge -underBinder +onlyGivenNames x7
  extract_lets -merge -underBinder +onlyGivenNames x8
  have h8 : KeepsW s (x8) := each_inv h1 (fun _ h9 _ => by
    extract_lets -merge -underBinder +onlyGivenNames x10
    exact State.rset_keepsW (State.rset_keepsW h9))
  exact State.qReturn_keepsW h8

theorem State.canRefuse_keepsW {s : State} {t1 : State} (h1 : KeepsW s t1) {a2} {a3} : KeepsW s (@State.canRefuse t1 a2 a3) := by
  induction a3 generalizing t1 with
  | zero => exact h1
  | succ n ih =>
    unfold State.canRefuse
    split
    · exact h1
    · extract_lets st
      split
      · exact h1
      · exact ih (State.raise_keepsW (State.canHeadReturn_keepsW h1))

theorem State.postFrames_keepsW {s : State} {t1 : State} (h1 : KeepsW s t1) {a2} {a3} : KeepsW s (@State.postFrames t1 a2 a3) := by
  delta State.postFrames
  refine ite_inv ?_ ?_
  · exact h1
  · extract_lets -merge -underBinder +onlyGivenNames x4
    have h4 : KeepsW s (x4) := State.quePost_keepsW h1
    exact ite_inv (State.melberSend_keepsW h4) (ite_inv (State.canRefuse_keepsW h4) h4)

theorem State.queRetire_keepsW {s : State} {t1 : State} (h1 : KeepsW s t1) {a2} {a3} : KeepsW s (@State.queRetire t1 a2 a3) := by
  delta State.queRetire
  exact ite_inv h1 (ite_inv (upd_keepsW h1) (ite_inv h1 (State.qReturn_keepsW h1)))

theorem State.ucSecond_keeps {s : State} {t1 : State} (h1 : Keeps s t1) {a2} {a3} : Keeps s (@State.ucSecond t1 a2 a3) := by
  delta State.ucSecond
  split
  · exact h1
  · exact ite_inv (State.fput_keeps (State.fput_keeps h1)) (ite_inv (State.fput_keeps (State.fput_keeps h1)) h1)

theorem State.readCj_keeps {s : State} {t1 : State} (h1 : Keeps s t1) {a2} {a3} : Keeps s (@State.readCj t1 a2 a3) := by
  delta State.readCj
  split
  · exact h1
  · extract_lets -merge -underBinder +onlyGivenNames x4
    extract_lets -merge -underBinder +onlyGivenNames x5
    exact State.modUc_keeps h1

theorem State.showCj_keeps {s : State} {t1 : State} (h1 : Keeps s t1) {a2} : Keeps s (@State.showCj t1 a2) := by
  delta State.showCj
  extract_lets -merge -underBinder +onlyGivenNames x3
  exact State.setDiagBit_keeps (State.fput_keeps (State.fput_keeps h1))

theorem State.seChecks_keeps {s : State} {t1 : State} (h1 : Keeps s t1) {a2} {a3} {a4} : Keeps s (Prod.fst (@State.seChecks t1 a2 a3 a4)) := by
  induction a4 generalizing t1 with
  | nil => exact h1
  | cons c l ih =>
    unfold State.seChecks
    dsimp only
    split
    · exact ih (State.seCompare_keeps h1)
    · exact State.seCompare_keeps h1

theorem State.sampleIn_keeps {s : State} {t1 : State} (h1 : Keeps s t1) {a2} {a3} {a4} : Keeps s (@State.sampleIn t1 a2 a3 a4) := by
  delta State.sampleIn
  extract_lets -merge -underBinder +onlyGivenNames x5
  have h5 : Keeps s (Prod.fst (x5)) := State.runPipe_keeps h1
  split
  · exact h5
  · exact State.pushSample_keeps h5

theorem execPipelineSample_keeps {s : State} {a1} {a2} {a3} {a4} {a5} {a6} {a7} {t8 : State} (h8 : Keeps s t8) : KeepsO s (@execPipelineSample a1 a2 a3 a4 a5 a6 a7 t8) := by
  delta execPipelineSample
  refine ite_inv ?_ ?_
  · extract_lets -merge -underBinder +onlyGivenNames x9
    extract_lets -merge -underBinder +onlyGivenNames x10
    extract_lets -merge -underBinder +onlyGivenNames x11 x12
    have h11 : Keeps s (x11) := State.ucSecond_keeps (State.readCj_keeps h8)
    have h12 : Keeps s (x12) := ite_inv (ite_inv (State.showCj_keeps h11) h11) h8
    extract_lets -merge -underBinder +onlyGivenNames x13
    refine ite_inv ?_ ?_
    · extract_lets -merge -underBinder +onlyGivenNames x14
      extract_lets -merge -underBinder +onlyGivenNames x15
      exact State.failEngine_keeps h12
    · extract_lets -merge -underBinder +onlyGivenNames x16
      have h16 : Keeps s (Prod.fst (x16)) := State.seChecks_keeps h12
      refine ite_inv ?_ ?_
      · extract_lets -merge -underBinder +onlyGivenNames x17
        exact each_inv (State.setUc_keeps h16) (fun _ h18 _ => State.sampleIn_keeps h18)
      · exact h16
  · exact h8

theorem execJobComplete_keeps {s : State} {a1} {a2} {t3 : State} (h3 : Keeps s t3) : KeepsO s (@execJobComplete a1 a2 t3) := by
  delta execJobComplete
  refine ite_inv ?_ ?_
  · exact h3
  · split
    · exact h3
    · split
      · exact h3
      · extract_lets -merge -underBinder +onlyGivenNames x4
        have h4 : Keeps s (Prod.fst (x4)) := State.seChecks_keeps h3
        refine ite_inv ?_ ?_
        · exact h4
        · extract_lets -merge -underBinder +onlyGivenNames x5
          have h5 : Keeps s (x5) := h4
          extract_lets -merge -underBinder +onlyGivenNames x6
          extract_lets -merge -underBinder +onlyGivenNames x7
          extract_lets -merge -underBinder +onlyGivenNames x8
          have h8 : Keeps s (x8) := State.obsJob_keeps (State.countG_keeps (State.setEngine_keeps h5))
          split
          · exact State.obsJob_keeps h8
          · exact h8

theorem State.ucBad_keeps {s : State} {t1 : State} (h1 : Keeps s t1) {a2} : Keeps s (@State.ucBad t1 a2) := by
  delta State.ucBad
  exact State.fput_keeps (State.pipeBad_keeps h1)

theorem execUcLinkLoss_keeps {s : State} {a1} {t2 : State} (h2 : Keeps s t2) : KeepsO s (@execUcLinkLoss a1 t2) := by
  delta execUcLinkLoss
  refine ite_inv ?_ ?_
  · extract_lets -merge -underBinder +onlyGivenNames x3
    have h3 : Keeps s (x3) := State.setFlag_keeps (State.modUc_keeps h2)
    extract_lets -merge -underBinder +onlyGivenNames x4
    have h4 : Keeps s (x4) := State.ucBad_keeps (State.setFlag_keeps h3)
    exact State.raise_keeps h4
  · exact h2

theorem execBrownout_keeps {s : State} {a1} {a2} {t3 : State} (h3 : Keeps s t3) : KeepsO s (@execBrownout a1 a2 t3) := by
  delta execBrownout
  refine ite_inv ?_ ?_
  · extract_lets -merge -underBinder +onlyGivenNames x4
    have h4 : Keeps s (x4) := State.modUc_keeps h3
    extract_lets -merge -underBinder +onlyGivenNames x5
    have h5 : Keeps s (x5) := State.fput_keeps (State.fput_keeps h4)
    exact State.ucDrive_keeps h5
  · exact h3

theorem execFrontEndRestart_keeps {s : State} {a1} {a2} {a3} {t4 : State} (h4 : Keeps s t4) : KeepsO s (@execFrontEndRestart a1 a2 a3 t4) := by
  delta execFrontEndRestart
  extract_lets -merge -underBinder +onlyGivenNames x5
  refine ite_inv ?_ ?_
  · exact h4
  · refine ite_inv ?_ ?_
    · extract_lets -merge -underBinder +onlyGivenNames x6
      extract_lets -merge -underBinder +onlyGivenNames x7
      extract_lets -merge -underBinder +onlyGivenNames x8
      have h8 : Keeps s (x8) := State.modUc_keeps h4
      extract_lets -merge -underBinder +onlyGivenNames x9
      have h9 : Keeps s (x9) := State.fput_keeps (State.fput_keeps h8)
      extract_lets -merge -underBinder +onlyGivenNames x10
      have h10 : Keeps s (x10) := State.setFlag_keeps (State.fput_keeps h9)
      extract_lets -merge -underBinder +onlyGivenNames x11
      have h11 : Keeps s (x11) := State.fput_keeps h10
      extract_lets -merge -underBinder +onlyGivenNames x12
      have h12 : Keeps s (x12) := State.satBump_keeps (State.setFlag_keeps (State.setFlag_keeps h11))
      exact State.raise_keeps h12
    · exact h4

theorem execCommandLoss_keeps {s : State} {a1} {t2 : State} (h2 : Keeps s t2) : KeepsO s (@execCommandLoss a1 t2) := by
  delta execCommandLoss
  extract_lets -merge -underBinder +onlyGivenNames x3
  exact ite_inv (ite_inv (State.setDiagBit_keeps h2) (State.fput_keeps h2)) h2

theorem execDiagChange_keeps {s : State} {a1} {a2} {a3} {a4} {t5 : State} (h5 : Keeps s t5) : KeepsO s (@execDiagChange a1 a2 a3 a4 t5) := by
  delta execDiagChange
  extract_lets -merge -underBinder +onlyGivenNames x6
  extract_lets -merge -underBinder +onlyGivenNames x7
  refine ite_inv ?_ ?_
  · extract_lets -merge -underBinder +onlyGivenNames x8
    extract_lets -merge -underBinder +onlyGivenNames x9
    extract_lets -merge -underBinder +onlyGivenNames x10
    extract_lets -merge -underBinder +onlyGivenNames x11
    extract_lets -merge -underBinder +onlyGivenNames x12
    extract_lets -merge -underBinder +onlyGivenNames x13
    extract_lets -merge -underBinder +onlyGivenNames x14
    extract_lets -merge -underBinder +onlyGivenNames x15
    have h15 : Keeps s (x15) := State.fput_keeps (State.fput_keeps h5)
    extract_lets -merge -underBinder +onlyGivenNames x16
    have h16 : Keeps s (x16) := State.fput_keeps h15
    exact State.setDiag_keeps h16
  · exact h5

theorem execAdcOverrange_keeps {s : State} {a1} {a2} {a3} {t4 : State} (h4 : Keeps s t4) : KeepsO s (@execAdcOverrange a1 a2 a3 t4) := by
  delta execAdcOverrange
  extract_lets -merge -underBinder +onlyGivenNames x5
  refine ite_inv ?_ ?_
  · extract_lets -merge -underBinder +onlyGivenNames x6
    extract_lets -merge -underBinder +onlyGivenNames x7
    extract_lets -merge -underBinder +onlyGivenNames x8
    extract_lets -merge -underBinder +onlyGivenNames x9
    extract_lets -merge -underBinder +onlyGivenNames x10
    have h10 : Keeps s (x10) := State.modUc_keeps h4
    exact ite_inv (State.setDiagBit_keeps (State.setDiagBit_keeps h10)) h10
  · exact h4

theorem execLoopShort_keeps {s : State} {a1} {a2} {a3} {a4} {t5 : State} (h5 : Keeps s t5) : KeepsO s (@execLoopShort a1 a2 a3 a4 t5) := by
  delta execLoopShort
  extract_lets -merge -underBinder +onlyGivenNames x6
  refine ite_inv ?_ ?_
  · extract_lets -merge -underBinder +onlyGivenNames x7
    extract_lets -merge -underBinder +onlyGivenNames x8
    have h8 : Keeps s (x8) := State.fput_keeps (State.modUc_keeps h5)
    exact State.setDiagBit_keeps h8
  · exact h5

theorem execVoltageOutputShort_keeps {s : State} {a1} {a2} {a3} {t4 : State} (h4 : Keeps s t4) : KeepsO s (@execVoltageOutputShort a1 a2 a3 t4) := by
  delta execVoltageOutputShort
  refine ite_inv ?_ ?_
  · extract_lets -merge -underBinder +onlyGivenNames x5
    exact State.setDiagBit_keeps (State.fput_keeps h4)
  · exact h4

theorem execColdJunctionRestore_keeps {s : State} {a1} {a2} {a3} {t4 : State} (h4 : Keeps s t4) : KeepsO s (@execColdJunctionRestore a1 a2 a3 t4) := by
  delta execColdJunctionRestore
  refine ite_inv ?_ ?_
  · extract_lets -merge -underBinder +onlyGivenNames x5
    have h5 : Keeps s (x5) := State.modUc_keeps h4
    exact State.setDiagBit_keeps h5
  · exact h4

theorem execGroupSupplyMeasure_keeps {s : State} {a1} {a2} {t3 : State} (h3 : Keeps s t3) : KeepsO s (@execGroupSupplyMeasure a1 a2 t3) := by
  delta execGroupSupplyMeasure
  refine ite_inv ?_ ?_
  · extract_lets -merge -underBinder +onlyGivenNames x4
    extract_lets -merge -underBinder +onlyGivenNames x5
    extract_lets -merge -underBinder +onlyGivenNames x6
    have h6 : Keeps s (x6) := State.fput_keeps (State.fput_keeps h3)
    extract_lets -merge -underBinder +onlyGivenNames x7
    have h7 : Keeps s (x7) := each_inv h6 (fun _ h8 _ => State.dioRefresh_keeps (ite_inv (State.dioOff_keeps h8) h8))
    exact ite_inv h7 (State.raise_keeps h7)
  · exact h3

theorem execGroupCurrentTrip_keeps {s : State} {a1} {a2} {t3 : State} (h3 : Keeps s t3) : KeepsO s (@execGroupCurrentTrip a1 a2 t3) := by
  delta execGroupCurrentTrip
  refine ite_inv ?_ ?_
  · extract_lets -merge -underBinder +onlyGivenNames x4
    have h4 : Keeps s (x4) := each_inv (State.setFlag_keeps h3) (fun _ h _ => State.dioOff_keeps h)
    exact State.raise_keeps h4
  · exact h3

theorem State.overload_keeps {s : State} {t1 : State} (h1 : Keeps s t1) {a2} : Keeps s (@State.overload t1 a2) := by
  delta State.overload
  extract_lets -merge -underBinder +onlyGivenNames x3
  extract_lets -merge -underBinder +onlyGivenNames x4
  have h4 : Keeps s (x4) := each_inv h1 (fun _ h _ => State.dioOff_keeps h)
  extract_lets -merge -underBinder +onlyGivenNames x5
  have h5 : Keeps s (x5) := State.setBit_keeps (State.setBit_keeps h4)
  exact State.raise_keeps (State.dioRefresh_keeps h5)

theorem execOverload_keeps {s : State} {a1} {t2 : State} (h2 : Keeps s t2) : KeepsO s (@execOverload a1 t2) := by
  delta execOverload
  exact ite_inv (State.overload_keeps h2) h2

theorem execThermalShutdown_keeps {s : State} {a1} {t2 : State} (h2 : Keeps s t2) : KeepsO s (@execThermalShutdown a1 t2) := by
  delta execThermalShutdown
  exact ite_inv (State.overload_keeps h2) h2

theorem execInputFilter_keeps {s : State} {a1} {a2} {t3 : State} (h3 : Keeps s t3) : KeepsO s (@execInputFilter a1 a2 t3) := by
  delta execInputFilter
  exact ite_inv (State.setDio_keeps h3) h3

theorem State.ctCount_keeps {s : State} {t1 : State} (h1 : Keeps s t1) {a2} {a3} : Keeps s (@State.ctCount t1 a2 a3) := by
  delta State.ctCount
  refine ite_inv ?_ ?_
  · exact h1
  · extract_lets -merge -underBinder +onlyGivenNames x4
    extract_lets -merge -underBinder +onlyGivenNames x5
    have h5 : Keeps s (x5) := State.fput_keeps h1
    extract_lets -merge -underBinder +onlyGivenNames x6
    have h6 : Keeps s (x6) := State.setFlag_keeps h5
    exact ite_inv (State.setCt_keeps (State.setFlag_keeps h6)) h6

theorem State.ctRise_keeps {s : State} {t1 : State} (h1 : Keeps s t1) {a2} : Keeps s (@State.ctRise t1 a2) := by
  delta State.ctRise
  extract_lets -merge -underBinder +onlyGivenNames x3
  extract_lets -merge -underBinder +onlyGivenNames x4
  refine ite_inv ?_ ?_
  · extract_lets -merge -underBinder +onlyGivenNames x5
    have h5 : Keeps s (x5) := State.setCt_keeps h1
    split
    · extract_lets -merge -underBinder +onlyGivenNames x6
      refine ite_inv ?_ ?_
      · exact h5
      · extract_lets -merge -underBinder +onlyGivenNames x7
        have h7 : Keeps s (x7) := State.setCt_keeps h5
        exact State.setFlag_keeps (State.fput_keeps h7)
    · exact h5
  · extract_lets -merge -underBinder +onlyGivenNames x8
    exact State.setCt_keeps h1

theorem execCounterEdge_keeps {s : State} {a1} {a2} {a3} {t4 : State} (h4 : Keeps s t4) : KeepsO s (@execCounterEdge a1 a2 a3 t4) := by
  delta execCounterEdge
  extract_lets -merge -underBinder +onlyGivenNames x5
  refine ite_inv ?_ ?_
  · extract_lets -merge -underBinder +onlyGivenNames x6
    extract_lets -merge -underBinder +onlyGivenNames x7
    extract_lets -merge -underBinder +onlyGivenNames x8
    extract_lets -merge -underBinder +onlyGivenNames x9
    extract_lets -merge -underBinder +onlyGivenNames x10
    extract_lets -merge -underBinder +onlyGivenNames x11
    have h11 : Keeps s (x11) := State.setCt_keeps h4
    refine ite_inv ?_ ?_
    · exact State.ctCount_keeps h11
    · refine ite_inv ?_ ?_
      · exact State.ctCount_keeps h11
      · refine ite_inv ?_ ?_
        · exact State.ctCount_keeps h11
        · refine ite_inv ?_ ?_
          · refine ite_inv ?_ ?_
            · extract_lets -merge -underBinder +onlyGivenNames x12 x13
              have h13 : Keeps s (x13) := State.setCt_keeps (State.setFlag_keeps (State.satBump_keeps h11))
              exact State.raise_keeps h13
            · exact State.ctCount_keeps h11
          · exact ite_inv (State.ctRise_keeps h11) h11
  · exact h4

theorem execNoSignal_keeps {s : State} {a1} {t2 : State} (h2 : Keeps s t2) : KeepsO s (@execNoSignal a1 t2) := by
  delta execNoSignal
  exact ite_inv (State.setFlag_keeps (State.fput_keeps h2)) h2

theorem State.dioStart_keeps {s : State} {t1 : State} (h1 : Keeps s t1) : Keeps s (@State.dioStart t1) := by
  delta State.dioStart
  exact each_inv (upd_keeps h1) (fun _ h2 _ => State.setCt_keeps h2)

theorem State.qAdmit_keeps {s : State} {t1 : State} (h1 : Keeps s t1) {a2} {a3} : Keeps s (Prod.fst (@State.qAdmit t1 a2 a3)) := by
  delta State.qAdmit
  refine ite_inv (P := fun (x : State × _) => Keeps s x.1) ?_ ?_
  · extract_lets -merge -underBinder +onlyGivenNames x4
    have h4 : Keeps s (x4) := State.setFlag_keeps (State.satBump_keeps (State.countG_keeps h1))
    exact fst_inv (P := Keeps s) (State.raise_keeps h4)
  · refine ite_inv (P := fun (x : State × _) => Keeps s x.1) ?_ ?_
    · extract_lets -merge -underBinder +onlyGivenNames x5
      have h5 : Keeps s (x5) := State.setFlag_keeps (State.satBump_keeps (State.countG_keeps h1))
      exact fst_inv (P := Keeps s) (State.raise_keeps h5)
    · exact h1

theorem State.ethDrop_keeps {s : State} {t1 : State} (h1 : Keeps s t1) {a2} : Keeps s (@State.ethDrop t1 a2) := by
  delta State.ethDrop
  exact State.satBump_keeps h1

theorem State.witnessFrame_keeps {s : State} {t1 : State} (h1 : Keeps s t1) {a2} : Keeps s (@State.witnessFrame t1 a2) := by
  delta State.witnessFrame
  split
  · exact ite_inv (upd_keeps h1) h1
  · exact h1

theorem State.remoteSample_keeps {s : State} {t1 : State} (h1 : Keeps s t1) {a2} {a3} {a4} {a5} : Keeps s (@State.remoteSample t1 a2 a3 a4 a5) := by
  delta State.remoteSample
  refine ite_inv ?_ ?_
  · extract_lets -merge -underBinder +onlyGivenNames x6
    have h6 : Keeps s (Prod.fst (x6)) := State.runPipe_keeps h1
    split
    · exact h6
    · exact State.pushSample_keeps h6
  · exact h1

theorem State.runRemote_keeps {s : State} {t1 : State} (h1 : Keeps s t1) {a2} {a3} {a4} {a5} {a6} {a7} : Keeps s (@State.runRemote t1 a2 a3 a4 a5 a6 a7) := by
  delta State.runRemote
  exact each_inv h1 (fun _ h8 _ => by
    extract_lets -merge -underBinder +onlyGivenNames x9
    refine ite_inv ?_ ?_
    · split
      · exact State.remoteSample_keeps h8
      · exact h8
    · exact h8)

theorem State.streamFrame_keeps {s : State} {t1 : State} (h1 : Keeps s t1) {a2} {a3} {a4} : Keeps s (@State.streamFrame t1 a2 a3 a4) := by
  delta State.streamFrame
  extract_lets -merge -underBinder +onlyGivenNames x5
  extract_lets -merge -underBinder +onlyGivenNames x6
  extract_lets -merge -underBinder +onlyGivenNames x7
  refine ite_inv ?_ ?_
  · exact State.ethDrop_keeps h1
  · extract_lets -merge -underBinder +onlyGivenNames x8 x9
    extract_lets -merge -underBinder +onlyGivenNames x10
    extract_lets -merge -underBinder +onlyGivenNames x11
    have h11 : Keeps s (x11) := State.setStream_keeps h1
    refine ite_inv ?_ ?_
    · exact State.satBump_keeps (State.ethDrop_keeps h11)
    · extract_lets -merge -underBinder +onlyGivenNames x12
      extract_lets -merge -underBinder +onlyGivenNames x13
      refine ite_inv ?_ ?_
      · exact State.satBump_keeps h11
      · extract_lets -merge -underBinder +onlyGivenNames x14
        extract_lets -merge -underBinder +onlyGivenNames x15
        extract_lets -merge -underBinder +onlyGivenNames x16
        extract_lets -merge -underBinder +onlyGivenNames x17 x18
        have h18 : Keeps s (x18) := State.setStream_keeps h11
        extract_lets -merge -underBinder +onlyGivenNames x19
        have h19 : Keeps s (x19) := State.wrapBump_keeps h18
        exact State.runRemote_keeps h19

theorem State.rioReceived_keeps {s : State} {t1 : State} (h1 : Keeps s t1) {a2} {a3} : Keeps s (@State.rioReceived t1 a2 a3) := by
  delta State.rioReceived
  extract_lets -merge -underBinder +onlyGivenNames x4
  extract_lets -merge -underBinder +onlyGivenNames x5
  refine ite_inv ?_ ?_
  · exact State.ethDrop_keeps h1
  · refine ite_inv ?_ ?_
    · exact State.witnessFrame_keeps h1
    · split
      · exact State.ethDrop_keeps h1
      · exact ite_inv (State.streamFrame_keeps h1) (State.ethDrop_keeps h1)

theorem State.ipReceived_keeps {s : State} {t1 : State} (h1 : Keeps s t1) {a2} {a3} : Keeps s (@State.ipReceived t1 a2 a3) := by
  delta State.ipReceived
  refine ite_inv ?_ ?_
  · split
    · exact State.send_keeps (State.countG_keeps h1)
    · exact State.send_keeps (State.countG_keeps h1)
    · exact ite_inv (State.send_keeps (State.countG_keeps h1)) h1
    · exact h1
  · exact h1

theorem execEthFrameReceived_keeps {s : State} {a1} {a2} {t3 : State} (h3 : Keeps s t3) : KeepsO s (@execEthFrameReceived a1 a2 t3) := by
  delta execEthFrameReceived
  refine ite_inv ?_ ?_
  · exact h3
  · extract_lets -merge -underBinder +onlyGivenNames x4
    have h4 : Keeps s (x4) := State.countG_keeps h3
    extract_lets -merge -underBinder +onlyGivenNames x5
    extract_lets -merge -underBinder +onlyGivenNames x6
    have h6 : Keeps s (Prod.fst (x6)) := State.qAdmit_keeps h4
    refine ite_inv ?_ ?_
    · exact h6
    · refine ite_inv ?_ ?_
      · exact ite_inv (State.ethDrop_keeps h4) h4
      · extract_lets -merge -underBinder +onlyGivenNames x7
        have h7 : Keeps s (x7) := State.obsFrame_keeps h4
        refine ite_inv ?_ ?_
        · exact State.rioReceived_keeps h7
        · refine ite_inv ?_ ?_
          · exact h7
          · split
            · exact State.ipReceived_keeps h7
            · exact h7

theorem execEthLinkChange_keeps {s : State} {a1} {a2} {a3} {a4} {t5 : State} (h5 : Keeps s t5) : KeepsO s (@execEthLinkChange a1 a2 a3 a4 t5) := by
  delta execEthLinkChange
  refine ite_inv ?_ ?_
  · exact h5
  · extract_lets -merge -underBinder +onlyGivenNames x6
    extract_lets -merge -underBinder +onlyGivenNames x7
    refine ite_inv ?_ ?_
    · exact h5
    · extract_lets -merge -underBinder +onlyGivenNames x8
      have h8 : Keeps s (x8) := State.fput_keeps (State.setFlag_keeps (State.setFlag_keeps h5))
      extract_lets -merge -underBinder +onlyGivenNames x9
      have h9 : Keeps s (x9) := by
        unfold x9
        refine ite_inv ?_ ?_
        · exact h8
        · split
          · exact ite_inv (State.refLost_keeps (upd_keeps h8)) h8
          · exact h8
      extract_lets -merge -underBinder +onlyGivenNames x10
      have h10 : Keeps s (x10) := State.fput_keeps h9
      exact State.raise_keeps h10

theorem State.sessionEvent_keeps {s : State} {t1 : State} (h1 : Keeps s t1) {a2} {a3} {a4} : Keeps s (@State.sessionEvent t1 a2 a3 a4) := by
  delta State.sessionEvent
  exact State.raise_keeps h1

theorem State.setSessions_keeps {s : State} {t1 : State} (h1 : Keeps s t1) {a2} : Keeps s (@State.setSessions t1 a2) := by
  delta State.setSessions
  exact State.fput_keeps (upd_keeps h1)

theorem execSessionConnect_keeps {s : State} {a1} {a2} {a3} {t4 : State} (h4 : Keeps s t4) : KeepsO s (@execSessionConnect a1 a2 a3 t4) := by
  delta execSessionConnect
  exact ite_inv (ite_inv (State.sessionEvent_keeps h4) (ite_inv (State.sessionEvent_keeps h4) (State.setSessions_keeps h4))) h4

theorem execSessionIdleTimeout_keeps {s : State} {a1} {t2 : State} (h2 : Keeps s t2) : KeepsO s (@execSessionIdleTimeout a1 t2) := by
  delta execSessionIdleTimeout
  split
  · exact State.sessionEvent_keeps (State.setSessions_keeps h2)
  · exact h2

theorem execQuePost_keeps {s : State} {a1} {a2} {t3 : State} (h3 : Keeps s t3) : KeepsO s (@execQuePost a1 a2 t3) := by
  delta execQuePost
  exact ite_inv h3 (State.postFrames_keeps h3)

theorem execQueRetire_keeps {s : State} {a1} {a2} {t3 : State} (h3 : Keeps s t3) : KeepsO s (@execQueRetire a1 a2 t3) := by
  delta execQueRetire
  exact ite_inv h3 (State.queRetire_keeps h3)

theorem State.canJudge_keeps {s : State} {t1 : State} (h1 : Keeps s t1) {a2} : Keeps s (@State.canJudge t1 a2) := by
  delta State.canJudge
  extract_lets -merge -underBinder +onlyGivenNames x3
  refine ite_inv ?_ ?_
  · exact h1
  · extract_lets -merge -underBinder +onlyGivenNames x4
    have h4 : Keeps s (x4) := State.setFlag_keeps (State.fput_keeps h1)
    exact State.raise_keeps h4

theorem State.canReceiveOk_keeps {s : State} {t1 : State} (h1 : Keeps s t1) {a2} : Keeps s (@State.canReceiveOk t1 a2) := by
  delta State.canReceiveOk
  refine ite_inv ?_ ?_
  · exact h1
  · extract_lets -merge -underBinder +onlyGivenNames x3
    exact ite_inv h1 (ite_inv (State.fput_keeps h1) (State.draw_keeps (State.fput_keeps h1)))

theorem State.mbOverwrite_keeps {s : State} {t1 : State} (h1 : Keeps s t1) {a2} {a3} {a4} : Keeps s (@State.mbOverwrite t1 a2 a3 a4) := by
  delta State.mbOverwrite
  extract_lets -merge -underBinder +onlyGivenNames x5
  have h5 : Keeps s (x5) := State.setFlag_keeps (State.setFlag_keeps h1)
  exact State.raise_keeps h5

theorem State.softReceive_keeps {s : State} {t1 : State} (h1 : Keeps s t1) {a2} {a3} {a4} {a5} : Keeps s (@State.softReceive t1 a2 a3 a4 a5) := by
  delta State.softReceive
  extract_lets -merge -underBinder +onlyGivenNames x6
  refine ite_inv ?_ ?_
  · extract_lets -merge -underBinder +onlyGivenNames x7
    extract_lets -merge -underBinder +onlyGivenNames x8
    have h8 : Keeps s (x8) := State.setFlag_keeps (State.mbStore_keeps h1)
    exact ite_inv (State.mbOverwrite_keeps h8) h8
  · extract_lets -merge -underBinder +onlyGivenNames x9
    extract_lets -merge -underBinder +onlyGivenNames x10
    have h10 : Keeps s (x10) := State.setFlag_keeps (State.setMb_keeps h1)
    exact ite_inv (State.mbOverwrite_keeps h10) h10

theorem State.imageReceive_keeps {s : State} {t1 : State} (h1 : Keeps s t1) {a2} {a3} {a4} {a5} : Keeps s (@State.imageReceive t1 a2 a3 a4 a5) := by
  delta State.imageReceive
  refine ite_inv ?_ ?_
  · exact State.satBump_keeps h1
  · extract_lets -merge -underBinder +onlyGivenNames x6
    extract_lets -merge -underBinder +onlyGivenNames x7
    have h7 : Keeps s (x7) := State.setFlag_keeps (State.setMb_keeps h1)
    exact State.runRemote_keeps h7

theorem State.qStore_keeps {s : State} {t1 : State} (h1 : Keeps s t1) {a2} {a3} {a4} {a5} : Keeps s (@State.qStore t1 a2 a3 a4 a5) := by
  delta State.qStore
  extract_lets -merge -underBinder +onlyGivenNames x6
  extract_lets -merge -underBinder +onlyGivenNames x7
  extract_lets -merge -underBinder +onlyGivenNames x8
  extract_lets -merge -underBinder +onlyGivenNames x9
  have h9 : Keeps s (x9) := each_inv h1 (fun _ h10 _ => by
    extract_lets -merge -underBinder +onlyGivenNames x11
    extract_lets -merge -underBinder +onlyGivenNames x12
    extract_lets -merge -underBinder +onlyGivenNames x13
    have h13 : Keeps s (x13) := State.breakResv_keeps (State.msetN_keeps h10)
    exact State.rset_keeps (State.rset_keeps h13))
  exact State.qHand_keeps h9

theorem State.qReceive_keeps {s : State} {t1 : State} (h1 : Keeps s t1) {a2} {a3} {a4} : Keeps s (Prod.fst (@State.qReceive t1 a2 a3 a4)) := by
  delta State.qReceive
  extract_lets -merge -underBinder +onlyGivenNames x5
  have h5 : Keeps s (Prod.fst (x5)) := State.qAdmit_keeps h1
  exact ite_inv (P := fun (x : State × _) => Keeps s x.1) (fst_inv (P := Keeps s) (State.qStore_keeps h5)) h5

theorem execCanFrameReceived_keeps {s : State} {a1} {a2} {a3} {t4 : State} (h4 : Keeps s t4) : KeepsO s (@execCanFrameReceived a1 a2 a3 t4) := by
  delta execCanFrameReceived
  refine ite_inv ?_ ?_
  · extract_lets -merge -underBinder +onlyGivenNames x5
    have h5 : Keeps s (x5) := State.countG_keeps h4
    extract_lets -merge -underBinder +onlyGivenNames x6
    have h6 : Keeps s (x6) := State.obsFrame_keeps (State.canJudge_keeps (State.canReceiveOk_keeps h5))
    split
    · exact State.satBump_keeps h6
    · extract_lets -merge -underBinder +onlyGivenNames x7
      exact ite_inv (ite_inv (State.softReceive_keeps h6) (ite_inv (State.imageReceive_keeps h6) h6)) (ite_inv (State.qReceive_keeps h6) h6)
  · exact h4

theorem execTxreq_keeps {s : State} {a1} {a2} {a3} {a4} {a5} {a6} {a7} {a8} {t9 : State} (h9 : Keeps s t9) : KeepsO s (@execTxreq a1 a2 a3 a4 a5 a6 a7 a8 t9) := by
  delta execTxreq
  exact ite_inv h9 (State.txRequest_keeps h9)

theorem execAbortPendingFrame_keeps {s : State} {a1} {a2} {t3 : State} (h3 : Keeps s t3) : KeepsO s (@execAbortPendingFrame a1 a2 t3) := by
  delta execAbortPendingFrame
  exact ite_inv h3 (State.txAbort_keeps h3)

theorem execLaunchTime_keeps {s : State} {a1} {a2} {t3 : State} (h3 : Keeps s t3) : KeepsO s (@execLaunchTime a1 a2 t3) := by
  delta execLaunchTime
  split
  · exact ite_inv (State.setMb_keeps h3) h3
  · exact h3

theorem execTransmitDeadline_keeps {s : State} {a1} {a2} {t3 : State} (h3 : Keeps s t3) : KeepsO s (@execTransmitDeadline a1 a2 t3) := by
  delta execTransmitDeadline
  split
  · exact ite_inv (State.mbWithdraw_keeps h3) h3
  · exact h3

theorem State.setCanPort_keeps {s : State} {t1 : State} (h1 : Keeps s t1) {a2} {a3} : Keeps s (@State.setCanPort t1 a2 a3) := by
  delta State.setCanPort
  exact upd_keeps h1

theorem execArbitrationStart_keeps {s : State} {a1} {a2} {t3 : State} (h3 : Keeps s t3) : KeepsO s (@execArbitrationStart a1 a2 t3) := by
  delta execArbitrationStart
  refine ite_inv ?_ ?_
  · split
    · exact h3
    · refine ite_inv ?_ ?_
      · exact State.setCanPort_keeps h3
      · split
        · exact State.setMb_keeps h3
        · exact h3
  · exact h3

theorem State.canTransmitOk_keeps {s : State} {t1 : State} (h1 : Keeps s t1) {a2} : Keeps s (@State.canTransmitOk t1 a2) := by
  delta State.canTransmitOk
  exact State.canJudge_keeps (State.fput_keeps h1)

theorem execTransmissionComplete_keeps {s : State} {a1} {a2} {t3 : State} (h3 : Keeps s t3) : KeepsO s (@execTransmissionComplete a1 a2 t3) := by
  delta execTransmissionComplete
  refine ite_inv ?_ ?_
  · split
    · extract_lets -merge -underBinder +onlyGivenNames x4 x5
      have h5 : Keeps s (x5) := State.setMb_keeps h3
      extract_lets -merge -underBinder +onlyGivenNames x6
      have h6 : Keeps s (x6) := State.fput_keeps (State.setFlag_keeps h5)
      extract_lets -merge -underBinder +onlyGivenNames x7
      have h7 : Keeps s (x7) := State.rset64_keeps h6
      extract_lets -merge -underBinder +onlyGivenNames x8
      have h8 : Keeps s (x8) := State.obsFrame_keeps (State.canTransmitOk_keeps h7)
      exact State.send_keeps (State.countG_keeps h8)
    · refine ite_inv ?_ ?_
      · split
        · extract_lets -merge -underBinder +onlyGivenNames x9
          extract_lets -merge -underBinder +onlyGivenNames x10 x11
          have h11 : Keeps s (x11) := State.canHeadReturn_keeps (State.setCanPort_keeps h3)
          extract_lets -merge -underBinder +onlyGivenNames x12
          have h12 : Keeps s (x12) := State.obsFrame_keeps (State.canTransmitOk_keeps h11)
          extract_lets -merge -underBinder +onlyGivenNames x13
          have h13 : Keeps s (x13) := State.canRefuse_keeps h12
          exact State.send_keeps (State.countG_keeps h13)
        · exact h3
      · exact h3
  · exact h3

theorem State.canReoffer_keeps {s : State} {t1 : State} (h1 : Keeps s t1) {a2} : Keeps s (@State.canReoffer t1 a2) := by
  delta State.canReoffer
  extract_lets -merge -underBinder +onlyGivenNames x3 x4
  have h4 : Keeps s (x4) := State.setCanPort_keeps h1
  split
  · extract_lets -merge -underBinder +onlyGivenNames x5 x6
    have h6 : Keeps s (x6) := State.setMb_keeps h4
    exact ite_inv (State.mbWithdraw_keeps h6) h6
  · exact h4

theorem execCanError_keeps {s : State} {a1} {a2} {t3 : State} (h3 : Keeps s t3) : KeepsO s (@execCanError a1 a2 t3) := by
  delta execCanError
  refine ite_inv ?_ ?_
  · split
    · exact State.canJudge_keeps (State.satBump_keeps h3)
    · exact State.canJudge_keeps (State.satBump_keeps h3)
    · extract_lets -merge -underBinder +onlyGivenNames x4
      extract_lets -merge -underBinder +onlyGivenNames x5
      have h5 : Keeps s (x5) := State.fput_keeps (State.canReoffer_keeps h3)
      refine ite_inv ?_ ?_
      · extract_lets -merge -underBinder +onlyGivenNames x6
        have h6 : Keeps s (x6) := State.satBump_keeps (State.fput_keeps h5)
        extract_lets -merge -underBinder +onlyGivenNames x7
        have h7 : Keeps s (x7) := State.setFlag_keeps (State.setFlag_keeps h6)
        extract_lets -merge -underBinder +onlyGivenNames x8 x9
        have h9 : Keeps s (x9) := State.setCanPort_keeps h7
        extract_lets -merge -underBinder +onlyGivenNames x10
        have h10 : Keeps s (x10) := State.raise_keeps h9
        exact State.raise_keeps h10
      · exact State.canJudge_keeps h5
  · exact h3

theorem execBusOffRecovery_keeps {s : State} {a1} {t2 : State} (h2 : Keeps s t2) : KeepsO s (@execBusOffRecovery a1 t2) := by
  delta execBusOffRecovery
  refine ite_inv ?_ ?_
  · extract_lets -merge -underBinder +onlyGivenNames x3
    have h3 : Keeps s (x3) := State.fput_keeps (State.fput_keeps (State.fput_keeps h2))
    extract_lets -merge -underBinder +onlyGivenNames x4
    have h4 : Keeps s (x4) := State.setFlag_keeps (State.setFlag_keeps h3)
    extract_lets -merge -underBinder +onlyGivenNames x5
    have h5 : Keeps s (x5) := State.raise_keeps h4
    exact State.raise_keeps h5
  · exact h2

theorem execMailboxHeaderRead_keeps {s : State} {a1} {a2} {a3} {t4 : State} (h4 : Keeps s t4) : KeepsO s (@execMailboxHeaderRead a1 a2 a3 t4) := by
  delta execMailboxHeaderRead
  refine ite_inv ?_ ?_
  · exact h4
  · extract_lets -merge -underBinder +onlyGivenNames x5
    have h5 : Keeps s (Prod.fst (x5)) := State.mbReadHdr_keeps h4
    extract_lets -merge -underBinder +onlyGivenNames x6
    have h6 : Keeps s (x6) := h5
    exact upd_keeps h6

theorem execLastDataWordRead_keeps {s : State} {a1} {a2} {a3} {t4 : State} (h4 : Keeps s t4) : KeepsO s (@execLastDataWordRead a1 a2 a3 t4) := by
  delta execLastDataWordRead
  refine ite_inv ?_ ?_
  · exact h4
  · extract_lets -merge -underBinder +onlyGivenNames x5
    have h5 : Keeps s (Prod.fst (x5)) := State.mbReadData_keeps h4
    extract_lets -merge -underBinder +onlyGivenNames x6
    have h6 : Keeps s (x6) := h5
    exact upd_keeps h6

theorem execLockTimeout_keeps {s : State} {a1} {a2} {t3 : State} (h3 : Keeps s t3) : KeepsO s (@execLockTimeout a1 a2 t3) := by
  delta execLockTimeout
  split
  · exact ite_inv (State.setFlag_keeps (State.mbRelease_keeps h3)) h3
  · exact h3

theorem execSequenceRecoveryReset_keeps {s : State} {a1} {t2 : State} (h2 : Keeps s t2) : KeepsO s (@execSequenceRecoveryReset a1 t2) := by
  delta execSequenceRecoveryReset
  extract_lets -merge -underBinder +onlyGivenNames x3
  exact ite_inv (State.setStream_keeps h2) h2

theorem execGptpSyncInterval_keeps {s : State} {a1} {t2 : State} (h2 : Keeps s t2) : KeepsO s (@execGptpSyncInterval a1 t2) := by
  delta execGptpSyncInterval
  exact ite_inv (State.send_keeps (State.countG_keeps h2)) h2

theorem execEthFrameTransmitted_keeps {s : State} {a1} {a2} {t3 : State} (h3 : Keeps s t3) : KeepsO s (@execEthFrameTransmitted a1 a2 t3) := by
  delta execEthFrameTransmitted
  refine ite_inv ?_ ?_
  · exact h3
  · extract_lets -merge -underBinder +onlyGivenNames x4 x5 x6 x7 x8 x9 x10
    have h8 : Keeps s (x8) := State.rset_keeps h3
    have h9 : Keeps s (x9) := State.obsFrame_keeps (State.qReturn_keeps h8)
    have h10 : KeepsO s (x10) := ite_inv h3 (State.send_keeps (State.countG_keeps h9))
    split
    · exact h10
    · split
      · split
        · extract_lets -merge -underBinder +onlyGivenNames x11
          have h11 : Keeps s (x11) := State.obsFrame_keeps (State.setWindows_keeps h3)
          exact ite_inv (State.send_keeps (State.countG_keeps h11)) h11
        · exact State.setWindows_keeps h3
      · exact h10

theorem execCrossFadeStep_keeps {s : State} {a1} {t2 : State} (h2 : Keeps s t2) : KeepsO s (@execCrossFadeStep a1 t2) := by
  delta execCrossFadeStep
  split
  · exact h2
  · extract_lets -merge -underBinder +onlyGivenNames x3
    extract_lets -merge -underBinder +onlyGivenNames x4
    have h4 : Keeps s (x4) := State.ucDrive_keeps h2
    exact ite_inv (State.modUc_keeps h4) h4

end Sys2Proof.Machine
end

