-- ==== Sys2Proof/Laws/KeepsUnits.lean ====
section
/-!
SUPPORT. `Keeps`, of watchdog, integrity, retain store, modes, clock, observation, recorder, mirror and updates: one lemma for each operation.
-/
set_option linter.unusedVariables false

namespace Sys2Proof.Machine

theorem State.raiseRefusal_keeps {s : State} {t1 : State} (h1 : Keeps s t1) {a2} {a3} : Keeps s (@State.raiseRefusal t1 a2 a3) := by
  delta State.raiseRefusal
  exact State.raise_keeps h1

theorem State.lockoutLeft_keeps {s : State} {t1 : State} (h1 : Keeps s t1) {a2} : Keeps s (@State.lockoutLeft t1 a2) := by
  delta State.lockoutLeft
  extract_lets -merge -underBinder +onlyGivenNames x3 x4
  have h4 : Keeps s (x4) := upd_keeps h1
  exact State.raise_keeps (State.setFlag_keeps h4)

theorem State.announceChange_keeps {s : State} {t1 : State} (h1 : Keeps s t1) {a2} {a3} : Keeps s (@State.announceChange t1 a2 a3) := by
  delta State.announceChange
  exact ite_inv (ite_inv (State.send_keeps h1) (ite_inv (State.send_keeps h1) h1)) h1

theorem State.acceptChange_keeps {s : State} {t1 : State} (h1 : Keeps s t1) {a2} {a3} {a4} {a5} : Keeps s (@State.acceptChange t1 a2 a3 a4 a5) := by
  delta State.acceptChange
  extract_lets -merge -underBinder +onlyGivenNames x6 x7
  have h7 : Keeps s (x7) := upd_keeps h1
  refine ite_inv ?_ ?_
  · extract_lets -merge -underBinder +onlyGivenNames x8 x9
    have h9 : Keeps s (x9) := upd_keeps h7
    exact ite_inv (State.proposeHandover_keeps h9) h9
  · exact State.announceChange_keeps h7

theorem State.modeRequest_keeps {s : State} {t1 : State} (h1 : Keeps s t1) {a2} {a3} : Keeps s (@State.modeRequest t1 a2 a3) := by
  delta State.modeRequest
  refine ite_inv ?_ ?_
  · exact h1
  · extract_lets -merge -underBinder +onlyGivenNames x4
    extract_lets -merge -underBinder +onlyGivenNames x5
    have h5 : Keeps s (x5) := State.fput_keeps (State.fput_keeps (State.wrapBump_keeps h1))
    refine ite_inv ?_ ?_
    · exact State.raiseRefusal_keeps (State.setFlag_keeps h5)
    · refine ite_inv ?_ ?_
      · exact h5
      · extract_lets -merge -underBinder +onlyGivenNames x6
        have h6 : Keeps s (x6) := ite_inv (State.lockoutLeft_keeps h5) h5
        exact State.acceptChange_keeps h6

theorem State.answer_keeps {s : State} {t1 : State} (h1 : Keeps s t1) {a2} {a3} : Keeps s (@State.answer t1 a2 a3) := by
  delta State.answer
  exact tx_keeps h1

theorem State.showReady_keeps {s : State} {t1 : State} (h1 : Keeps s t1) : Keeps s (@State.showReady t1) := by
  delta State.showReady
  refine ite_inv ?_ ?_
  · refine ite_inv ?_ ?_
    · refine ite_inv ?_ ?_
      · exact h1
      · extract_lets -merge -underBinder +onlyGivenNames x2
        have h2 : Keeps s (x2) := State.raise_keeps (State.fput_keeps h1)
        exact upd_keeps h2
    · extract_lets -merge -underBinder +onlyGivenNames x3
      have h3 : Keeps s (x3) := State.fput_keeps h1
      exact upd_keeps h3
  · exact h1

theorem State.cmdEnd_keeps {s : State} {t1 : State} (h1 : Keeps s t1) {a2} : Keeps s (@State.cmdEnd t1 a2) := by
  delta State.cmdEnd
  extract_lets -merge -underBinder +onlyGivenNames x3 x4
  have h4 : Keeps s (x4) := upd_keeps h1
  exact State.fput_keeps (State.setFlag_keeps h4)

theorem State.cmdInteg_keeps {s : State} {t1 : State} (h1 : Keeps s t1) {a2} {a3} : Keeps s (@State.cmdInteg t1 a2 a3) := by
  delta State.cmdInteg
  exact State.cmdEnd_keeps (State.raise_keeps (State.setFlag_keeps h1))

theorem State.readRows_keeps {s : State} {t1 : State} (h1 : Keeps s t1) {a2} : Keeps s (@State.readRows t1 a2) := by
  induction a2 generalizing t1 with
  | zero => exact h1
  | succ n ih =>
    unfold State.readRows
    split
    · exact h1
    · split
      · exact State.cmdEnd_keeps h1
      · split
        · exact h1
        · split
          · exact State.cmdInteg_keeps h1
          · exact ih (upd_keeps (State.wrapBump_keeps (State.breakResv_keeps (State.msetN_keeps h1))))

theorem State.showBusy_keeps {s : State} {t1 : State} (h1 : Keeps s t1) : Keeps s (@State.showBusy t1) := by
  delta State.showBusy
  exact State.fput_keeps h1

theorem State.showDirty_keeps {s : State} {t1 : State} (h1 : Keeps s t1) : Keeps s (@State.showDirty t1) := by
  delta State.showDirty
  extract_lets -merge -underBinder +onlyGivenNames x2
  extract_lets -merge -underBinder +onlyGivenNames x3
  extract_lets -merge -underBinder +onlyGivenNames x4
  extract_lets -merge -underBinder +onlyGivenNames x5
  have h5 : Keeps s (x5) := State.setFlag_keeps (State.fput_keeps h1)
  extract_lets -merge -underBinder +onlyGivenNames x6
  have h6 : Keeps s (x6) := ite_inv (State.setFlag_keeps h5) (ite_inv (State.setFlag_keeps h5) h5)
  exact ite_inv (State.raise_keeps (State.setFlag_keeps h6)) h6

theorem State.showWear_keeps {s : State} {t1 : State} (h1 : Keeps s t1) : Keeps s (@State.showWear t1) := by
  delta State.showWear
  extract_lets -merge -underBinder +onlyGivenNames x2
  extract_lets -merge -underBinder +onlyGivenNames x3
  have h3 : Keeps s (x3) := State.fput_keeps (State.fput_keeps h1)
  exact ite_inv (State.raise_keeps (State.setFlag_keeps (State.setFlag_keeps h3))) h3

theorem State.ringAdvance_keeps {s : State} {t1 : State} (h1 : Keeps s t1) : Keeps s (@State.ringAdvance t1) := by
  delta State.ringAdvance
  extract_lets -merge -underBinder +onlyGivenNames x2
  extract_lets -merge -underBinder +onlyGivenNames x3 x4
  have h4 : Keeps s (x4) := upd_keeps h1
  exact State.fput_keeps h4

theorem State.journalPage_keeps {s : State} {t1 : State} (h1 : Keeps s t1) : Keeps s (Prod.fst (@State.journalPage t1)) := by
  delta State.journalPage
  extract_lets -merge -underBinder +onlyGivenNames x2
  extract_lets -merge -underBinder +onlyGivenNames x3
  extract_lets -merge -underBinder +onlyGivenNames x4
  extract_lets -merge -underBinder +onlyGivenNames x5
  extract_lets -merge -underBinder +onlyGivenNames x6 x7
  have h7 : Keeps s (x7) := upd_keeps h1
  exact fst_inv (P := Keeps s) (State.showDirty_keeps (State.showWear_keeps (State.ringAdvance_keeps h7)))

theorem State.ckptPage_keeps {s : State} {t1 : State} (h1 : Keeps s t1) {a2} : Keeps s (Prod.fst (@State.ckptPage t1 a2)) := by
  delta State.ckptPage
  extract_lets -merge -underBinder +onlyGivenNames x3
  extract_lets -merge -underBinder +onlyGivenNames x4
  extract_lets -merge -underBinder +onlyGivenNames x5
  extract_lets -merge -underBinder +onlyGivenNames x6 x7
  have h7 : Keeps s (x7) := upd_keeps h1
  exact fst_inv (P := Keeps s) (State.showWear_keeps (State.ringAdvance_keeps h7))

theorem State.resolve_keeps {s : State} {t1 : State} (h1 : Keeps s t1) {a2} : Keeps s (Prod.fst (@State.resolve t1 a2)) := by
  delta State.resolve
  refine ite_inv (P := fun (x : State × _) => Keeps s x.1) ?_ ?_
  · refine ite_inv (P := fun (x : State × _) => Keeps s x.1) ?_ ?_
    · exact h1
    · extract_lets -merge -underBinder +onlyGivenNames x3
      have h3 : Keeps s (Prod.fst (x3)) := State.journalPage_keeps h1
      exact h3
  · refine ite_inv (P := fun (x : State × _) => Keeps s x.1) ?_ ?_
    · split
      · exact h1
      · extract_lets -merge -underBinder +onlyGivenNames x4
        have h4 : Keeps s (Prod.fst (x4)) := State.ckptPage_keeps h1
        exact h4
    · exact h1

theorem State.grant_keeps {s : State} {t1 : State} (h1 : Keeps s t1) {a2} : Keeps s (@State.grant t1 a2) := by
  induction a2 generalizing t1 with
  | zero => exact h1
  | succ n ih =>
    unfold State.grant
    split
    · exact h1
    · extract_lets -merge -underBinder +onlyGivenNames a x
      have h2 : Keeps s x.1 := State.resolve_keeps (upd_keeps h1)
      split
      · exact ih h2
      · exact ih (upd_keeps h2)

theorem State.submit_keeps {s : State} {t1 : State} (h1 : Keeps s t1) {a2} : Keeps s (@State.submit t1 a2) := by
  delta State.submit
  extract_lets -merge -underBinder +onlyGivenNames x3 x4
  have h4 : Keeps s (x4) := upd_keeps h1
  exact State.showBusy_keeps (State.grant_keeps h4)

theorem State.cmdStep_keeps {s : State} {t1 : State} (h1 : Keeps s t1) : Keeps s (@State.cmdStep t1) := by
  delta State.cmdStep
  split
  · exact h1
  · refine ite_inv ?_ ?_
    · exact State.readRows_keeps h1
    · refine ite_inv ?_ ?_
      · exact State.cmdEnd_keeps h1
      · extract_lets -merge -underBinder +onlyGivenNames x2
        extract_lets -merge -underBinder +onlyGivenNames x3
        extract_lets -merge -underBinder +onlyGivenNames x4
        have h4 : ∀ y1, Keeps s y1 → ∀ y2, Keeps s (x4 y1 y2) := fun _ h4_1 _ => State.submit_keeps h4_1
        refine ite_inv ?_ ?_
        · extract_lets -merge -underBinder +onlyGivenNames x5
          extract_lets -merge -underBinder +onlyGivenNames x6
          split
          · exact State.cmdInteg_keeps h1
          · exact h4 _ h1 _
        · exact ite_inv (h4 _ h1 _) (ite_inv (ite_inv (h4 _ h1 _) (State.cmdEnd_keeps h1)) (ite_inv (State.cmdEnd_keeps h1) (h4 _ h1 _)))

theorem State.retCommand_keeps {s : State} {t1 : State} (h1 : Keeps s t1) {a2} : Keeps s (@State.retCommand t1 a2) := by
  delta State.retCommand
  refine ite_inv ?_ ?_
  · exact h1
  · refine ite_inv ?_ ?_
    · exact State.fput_keeps h1
    · extract_lets -merge -underBinder +onlyGivenNames x3
      have h3 : Keeps s (x3) := State.fput_keeps h1
      extract_lets -merge -underBinder +onlyGivenNames x4
      extract_lets -merge -underBinder +onlyGivenNames x5
      have h5 : Keeps s (x5) := State.fput_keeps (State.fput_keeps h3)
      refine ite_inv ?_ ?_
      · extract_lets -merge -underBinder +onlyGivenNames x6
        extract_lets -merge -underBinder +onlyGivenNames x7 x8
        have h8 : Keeps s (x8) := upd_keeps h5
        exact State.cmdStep_keeps (State.setFlag_keeps h8)
      · exact h5

theorem State.setQsc_keeps {s : State} {t1 : State} (h1 : Keeps s t1) {a2} {a3} : Keeps s (@State.setQsc t1 a2 a3) := by
  delta State.setQsc
  exact upd_keeps h1

theorem State.qsPump_keeps {s : State} {t1 : State} (h1 : Keeps s t1) {a2} : Keeps s (@State.qsPump t1 a2) := by
  delta State.qsPump
  extract_lets -merge -underBinder +onlyGivenNames x3
  refine ite_inv ?_ ?_
  · exact h1
  · refine ite_inv ?_ ?_
    · extract_lets -merge -underBinder +onlyGivenNames x4
      extract_lets -merge -underBinder +onlyGivenNames x5
      exact State.submit_keeps (State.setQsc_keeps h1)
    · exact State.submit_keeps (State.setQsc_keeps h1)

theorem State.qsAdd_keeps {s : State} {t1 : State} (h1 : Keeps s t1) {a2} {a3} : Keeps s (@State.qsAdd t1 a2 a3) := by
  delta State.qsAdd
  extract_lets -merge -underBinder +onlyGivenNames x4
  extract_lets -merge -underBinder +onlyGivenNames x5
  extract_lets -merge -underBinder +onlyGivenNames x6
  extract_lets -merge -underBinder +onlyGivenNames x7
  have h7 : Keeps s (x7) := State.setQsc_keeps h1
  extract_lets -merge -underBinder +onlyGivenNames x8
  have h8 : Keeps s (x8) := ite_inv (State.raise_keeps (State.setFlag_keeps h7)) h7
  extract_lets -merge -underBinder +onlyGivenNames x9
  have h9 : Keeps s (x9) := ite_inv (State.fput_keeps h8) h8
  exact State.qsPump_keeps h9

theorem State.rtcGo_keeps {s : State} {t1 : State} (h1 : Keeps s t1) {a2} : Keeps s (@State.rtcGo t1 a2) := by
  delta State.rtcGo
  exact ite_inv (State.setFlag_keeps h1) (State.setFlag_keeps (upd_keeps h1))

theorem State.setTrim_keeps {s : State} {t1 : State} (h1 : Keeps s t1) {a2} : Keeps s (@State.setTrim t1 a2) := by
  delta State.setTrim
  exact State.fput_keeps h1

theorem State.showDlv_keeps {s : State} {t1 : State} (h1 : Keeps s t1) : Keeps s (@State.showDlv t1) := by
  delta State.showDlv
  split
  · exact State.setFlag_keeps (State.fput_keeps (State.fput_keeps h1))
  · extract_lets -merge -underBinder +onlyGivenNames x2
    exact State.setFlag_keeps (State.fput_keeps (State.fput_keeps h1))

theorem State.fallBack_keeps {s : State} {t1 : State} (h1 : Keeps s t1) {a2} {a3} {a4} {a5} : Keeps s (@State.fallBack t1 a2 a3 a4 a5) := by
  delta State.fallBack
  extract_lets -merge -underBinder +onlyGivenNames x6
  extract_lets -merge -underBinder +onlyGivenNames x7
  have h7 : Keeps s (x7) := State.markSlot_keeps h1
  extract_lets -merge -underBinder +onlyGivenNames x8 x9 x10 x11
  have h8 : Keeps s (x8) := each_inv h7 (fun _ h12 _ => State.msetN_keeps h12)
  have h11 : Keeps s (x11) := ite_inv (upd_keeps h8) (upd_keeps h7)
  exact State.raise_keeps (State.setFlag_keeps h11)

theorem State.trialFallback_keeps {s : State} {t1 : State} (h1 : Keeps s t1) {a2} : Keeps s (@State.trialFallback t1 a2) := by
  delta State.trialFallback
  extract_lets -merge -underBinder +onlyGivenNames x3
  have h3 : Keeps s (x3) := ite_inv (txP_keeps h1 (by repeat first | exact List.prefix_append _ _ | refine List.IsPrefix.trans ?_ (List.prefix_append _ _))) h1
  exact State.moduleReset_keeps (State.fallBack_keeps h3)

theorem State.plainWrite_keeps {s : State} {t1 : State} (h1 : Keeps s t1) {a2} {a3} {a4} : Keeps s (@State.plainWrite t1 a2 a3 a4) := by
  delta State.plainWrite
  split
  · exact h1
  · extract_lets -merge -underBinder +onlyGivenNames x5
    extract_lets -merge -underBinder +onlyGivenNames x6
    exact State.rset_keeps h1

theorem State.mbWrite_keeps {s : State} {t1 : State} (h1 : Keeps s t1) {a2} {a3} {a4} {a5} {a6} {a7} : Keeps s (@State.mbWrite t1 a2 a3 a4 a5 a6 a7) := by
  delta State.mbWrite
  extract_lets -merge -underBinder +onlyGivenNames x8
  refine ite_inv ?_ ?_
  · extract_lets -merge -underBinder +onlyGivenNames x9
    extract_lets -merge -underBinder +onlyGivenNames x10
    have h10 : Keeps s (x10) := ite_inv (State.txAbort_keeps h1) h1
    exact ite_inv (State.txRequest_keeps h10) h10
  · exact ite_inv (ite_inv h1 (State.plainWrite_keeps h1)) (ite_inv (ite_inv (State.plainWrite_keeps h1) h1) (State.plainWrite_keeps h1))

theorem State.descWrite_keeps {s : State} {t1 : State} (h1 : Keeps s t1) {a2} {a3} {a4} : Keeps s (@State.descWrite t1 a2 a3 a4) := by
  delta State.descWrite
  split
  · exact ite_inv (State.rset_keeps h1) h1
  · exact h1

theorem State.snapshot_keeps {s : State} {t1 : State} (h1 : Keeps s t1) : Keeps s (@State.snapshot t1) := by
  delta State.snapshot
  extract_lets -merge -underBinder +onlyGivenNames x2
  extract_lets -merge -underBinder +onlyGivenNames x3
  have h3 : Keeps s (x3) := State.rset64_keeps (upd_keeps h1)
  exact ite_inv (each_inv h3 (fun _ h4 _ => State.obsPush_keeps h4)) h3

theorem State.clearCounters_keeps {s : State} {t1 : State} (h1 : Keeps s t1) : Keeps s (@State.clearCounters t1) := by
  delta State.clearCounters
  exact upd_keeps h1

theorem State.traceBegin_keeps {s : State} {t1 : State} (h1 : Keeps s t1) : Keeps s (@State.traceBegin t1) := by
  delta State.traceBegin
  extract_lets -merge -underBinder +onlyGivenNames x2
  extract_lets -merge -underBinder +onlyGivenNames x3
  have h3 : Keeps s (x3) := State.answer_keeps h1
  exact ite_inv (upd_keeps h3) h3

theorem State.regWrite_keeps {s : State} {t1 : State} (h1 : Keeps s t1) {a2} {a3} {a4} {a5} : Keeps s (@State.regWrite t1 a2 a3 a4 a5) := by
  delta State.regWrite
  split
  · exact State.mbWrite_keeps h1
  · split
    · exact ite_inv (State.postFrames_keeps h1) h1
    · exact ite_inv (State.queRetire_keeps h1) h1
    · exact State.descWrite_keeps h1
    · refine ite_inv ?_ ?_
      · extract_lets -merge -underBinder +onlyGivenNames x6
        have h6 : Keeps s (x6) := State.plainWrite_keeps h1
        extract_lets -merge -underBinder +onlyGivenNames x7
        have h7 : Keeps s (x7) := ite_inv (State.snapshot_keeps h6) h6
        exact ite_inv (State.clearCounters_keeps h7) h7
      · refine ite_inv ?_ ?_
        · extract_lets -merge -underBinder +onlyGivenNames x8
          have h8 : Keeps s (x8) := State.plainWrite_keeps h1
          extract_lets -merge -underBinder +onlyGivenNames x9
          have h9 : Keeps s (x9) := ite_inv (State.traceEnd_keeps h8) h8
          exact ite_inv (State.traceBegin_keeps h9) h9
        · exact State.plainWrite_keeps h1

theorem State.rcClear_keeps {s : State} {t1 : State} (h1 : Keeps s t1) {a2} {a3} : Keeps s (@State.rcClear t1 a2 a3) := by
  delta State.rcClear
  extract_lets -merge -underBinder +onlyGivenNames x4
  exact ite_inv h1 (State.rset_keeps h1)

theorem State.regRead_keeps {s : State} {t1 : State} (h1 : Keeps s t1) {a2} {a3} {a4} : Keeps s (Prod.fst (@State.regRead t1 a2 a3 a4)) := by
  delta State.regRead
  refine ite_inv (P := fun (x : State × _) => Keeps s x.1) ?_ ?_
  · exact h1
  · split
    · exact State.mbReadHdr_keeps h1
    · exact ite_inv (P := fun (x : State × _) => Keeps s x.1) (State.mbReadData_keeps h1) h1
    · extract_lets -merge -underBinder +onlyGivenNames x5
      split
      · exact fst_inv (P := Keeps s) (upd_keeps h1)
      · exact fst_inv (P := Keeps s) (State.rcClear_keeps h1)

theorem State.keyAct_keeps {s : State} {t1 : State} (h1 : Keeps s t1) {a2} : Keeps s (@State.keyAct t1 a2) := by
  delta State.keyAct
  extract_lets -merge -underBinder +onlyGivenNames x3
  extract_lets -merge -underBinder +onlyGivenNames x4
  exact ite_inv (ite_inv (State.send_keeps h1) h1) (ite_inv (ite_inv h1 (ite_inv (State.raiseRefusal_keeps h1) (State.acceptChange_keeps h1))) (ite_inv (ite_inv (State.acceptChange_keeps h1) h1) (ite_inv (upd_keeps h1) h1)))

theorem State.keepWrite_keeps {s : State} {t1 : State} (h1 : Keeps s t1) {a2} {a3} : Keeps s (@State.keepWrite t1 a2 a3) := by
  delta State.keepWrite
  extract_lets -merge -underBinder +onlyGivenNames x4
  have h4 : Keeps s (x4) := State.msetN_keeps h1
  exact upd_keeps h4

theorem State.takeRetentive_keeps {s : State} {t1 : State} (h1 : Keeps s t1) {a2} : Keeps s (@State.takeRetentive t1 a2) := by
  delta State.takeRetentive
  exact ite_inv h1 (State.showDirty_keeps (each_inv h1 (fun _ h3 _ => State.keepWrite_keeps h3)))

theorem State.takeValues_keeps {s : State} {t1 : State} (h1 : Keeps s t1) {a2} : Keeps s (@State.takeValues t1 a2) := by
  delta State.takeValues
  extract_lets -merge -underBinder +onlyGivenNames x3
  extract_lets -merge -underBinder +onlyGivenNames x4
  have h4 : Keeps s (x4) := each_inv h1 (fun _ h5 _ => by
    extract_lets -merge -underBinder +onlyGivenNames x6
    exact each_inv h5 (fun _ h7 _ => by
      extract_lets -merge -underBinder +onlyGivenNames x8
      split
      · exact img_keeps h7 (fun w => imgMask_wf w)
      · exact h7))
  exact each_inv h4 (fun _ h9 _ => State.swSet_keeps h9)

theorem State.takeoverCommands_keeps {s : State} {t1 : State} (h1 : Keeps s t1) {a2} : Keeps s (@State.takeoverCommands t1 a2) := by
  delta State.takeoverCommands
  extract_lets -merge -underBinder +onlyGivenNames x1 x2
  have h2 : Keeps s x2 := by
    refine each_inv (State.takeValues_keeps h1) (fun u h a => ?_)
    split
    · exact ite_inv (State.ucOutputPipe_keeps h) h
    · exact h
  clear_value x2
  exact ⟨h2.1, h2.2.1, h2.2.2.1, h1.2.2.2⟩

theorem State.copyVoid_keeps {s : State} {t1 : State} (h1 : Keeps s t1) : Keeps s (@State.copyVoid t1) := by
  delta State.copyVoid
  exact State.rowErase_keeps h1

theorem State.raiseMinSvn_keeps {s : State} {t1 : State} (h1 : Keeps s t1) {a2} : Keeps s (@State.raiseMinSvn t1 a2) := by
  delta State.raiseMinSvn
  extract_lets -merge -underBinder +onlyGivenNames x3
  refine ite_inv ?_ ?_
  · extract_lets -merge -underBinder +onlyGivenNames x4 x5 x6
    have h6 : Keeps s (x6) := upd_keeps h1
    exact State.fput_keeps (State.fput_keeps h6)
  · exact h1

theorem State.confirmTrial_keeps {s : State} {t1 : State} (h1 : Keeps s t1) {a2} : Keeps s (@State.confirmTrial t1 a2) := by
  delta State.confirmTrial
  extract_lets -merge -underBinder +onlyGivenNames x3
  extract_lets -merge -underBinder +onlyGivenNames x4
  have h4 : Keeps s (x4) := State.markSlot_keeps (State.markSlot_keeps h1)
  extract_lets -merge -underBinder +onlyGivenNames x5 x6 x7
  have h5 : Keeps s (x5) := State.copyVoid_keeps h4
  have h7 : Keeps s (x7) := State.setFlag_keeps (upd_keeps h5)
  extract_lets -merge -underBinder +onlyGivenNames x8
  have h8 : Keeps s (x8) := State.raiseMinSvn_keeps h7
  exact State.raise_keeps (State.setFlag_keeps h8)

theorem State.trialCheck_keeps {s : State} {t1 : State} (h1 : Keeps s t1) : Keeps s (@State.trialCheck t1) := by
  delta State.trialCheck
  split
  · exact h1
  · extract_lets -merge -underBinder +onlyGivenNames x2
    have h2 : Keeps s (x2) := State.setFlag_keeps (State.setFlag_keeps (State.setFlag_keeps h1))
    exact ite_inv (State.confirmTrial_keeps h2) h2

theorem State.trialCount_keeps {s : State} {t1 : State} (h1 : Keeps s t1) {a2} : Keeps s (@State.trialCount t1 a2) := by
  delta State.trialCount
  split
  · exact h1
  · extract_lets -merge -underBinder +onlyGivenNames x3
    have h3 : Keeps s (x3) := ite_inv (ite_inv (State.wrapBump_keeps h1) h1) (State.fput_keeps h1)
    exact State.trialCheck_keeps (upd_keeps h3)

theorem State.initStatus_keeps {s : State} {t1 : State} (h1 : Keeps s t1) : Keeps s (@State.initStatus t1) := by
  delta State.initStatus
  exact each_inv h1 (fun _ h2 _ => State.swSet_keeps h2)

theorem State.initProgram_keeps {s : State} {t1 : State} (h1 : Keeps s t1) : Keeps s (@State.initProgram t1) := by
  delta State.initProgram
  extract_lets -merge -underBinder +onlyGivenNames x2
  have h2 : Keeps s (x2) := memImg_keeps h1 (fun w => filter_wf _ w) (fun w => filter_wf _ w)
  extract_lets -merge -underBinder +onlyGivenNames x3
  have h3 : Keeps s (x3) := each_inv h2 (fun _ h4 _ => State.mset_keeps h4)
  exact each_inv h3 (fun _ h5 _ => img_keeps h5 (fun w => imgSet_wf w))

theorem State.takeRegions_keeps {s : State} {t1 : State} (h1 : Keeps s t1) {a2} : Keeps s (@State.takeRegions t1 a2) := by
  delta State.takeRegions
  exact each_inv h1 (fun _ h3 _ => State.msetN_keeps h3)

theorem State.activationCopy_keeps {s : State} {t1 : State} (h1 : Keeps s t1) : Keeps s (@State.activationCopy t1) := by
  delta State.activationCopy
  split
  · exact h1
  · refine ite_inv ?_ ?_
    · exact h1
    · extract_lets -merge -underBinder +onlyGivenNames x2
      exact upd_keeps h1

theorem State.classesBegin_keeps {s : State} {t1 : State} (h1 : Keeps s t1) : Keeps s (@State.classesBegin t1) := by
  delta State.classesBegin
  exact each_inv h1 (fun _ h2 _ => by
    extract_lets -merge -underBinder +onlyGivenNames x3
    have h3 : Keeps s (x3) := State.modCls_keeps h2
    exact State.setFlag_keeps (State.fput_keeps (State.fput_keeps h3)))

theorem State.retPut_keeps {s : State} {t1 : State} (h1 : Keeps s t1) {a2} {a3} {a4} : Keeps s (@State.retPut t1 a2 a3 a4) := by
  delta State.retPut
  split
  · exact State.mset_keeps h1
  · exact img_keeps h1 (fun w => imgMask_wf w)

theorem State.retRestore_keeps {s : State} {t1 : State} (h1 : Keeps s t1) : Keeps s (@State.retRestore t1) := by
  delta State.retRestore
  exact each_inv h1 (fun _ h2 _ => each_inv h2 (fun _ h3 _ => State.retPut_keeps h3))

theorem State.forceFlag_keeps {s : State} {t1 : State} (h1 : Keeps s t1) {a2} {a3} : Keeps s (@State.forceFlag t1 a2 a3) := by
  delta State.forceFlag
  split
  · exact ite_inv h1 (State.swSet_keeps h1)
  · exact h1

theorem State.forceShow_keeps {s : State} {t1 : State} (h1 : Keeps s t1) {a2} {a3} : Keeps s (@State.forceShow t1 a2 a3) := by
  delta State.forceShow
  split
  · refine ite_inv ?_ ?_
    · exact h1
    · extract_lets -merge -underBinder +onlyGivenNames x4
      extract_lets -merge -underBinder +onlyGivenNames x5
      have h5 : Keeps s (x5) := upd_keeps h1
      exact State.forceFlag_keeps (img_keeps h1 (fun w => each_inv (P := fun m => imgWf m = true) w (fun _ h _ => imgMask_wf h)))
  · exact h1

theorem State.adoptHeld_keeps {s : State} {t1 : State} (h1 : Keeps s t1) : Keeps s (@State.adoptHeld t1) := by
  delta State.adoptHeld
  extract_lets -merge -underBinder +onlyGivenNames x2
  have h2 : Keeps s (x2) := upd_keeps h1
  extract_lets -merge -underBinder +onlyGivenNames x3
  have h3 : Keeps s (x3) := State.initStatus_keeps (State.retRestore_keeps (State.initProgram_keeps h2))
  extract_lets -merge -underBinder +onlyGivenNames x4
  have h4 : Keeps s (x4) := each_inv h3 (fun _ h5 _ => by
    split
    · exact State.takeRegions_keeps (State.takeValues_keeps h5)
    · exact h5)
  exact each_inv h4 (fun _ h6 _ => State.forceShow_keeps h6)

theorem State.stopAlone_keeps {s : State} {t1 : State} (h1 : Keeps s t1) : Keeps s (@State.stopAlone t1) := by
  delta State.stopAlone
  refine ite_inv ?_ ?_
  · extract_lets -merge -underBinder +onlyGivenNames x2 x3 x4
    have h4 : Keeps s (x4) := upd_keeps h1
    exact ite_inv (State.announceChange_keeps h4) h4
  · exact h1

theorem State.activationReset_keeps {s : State} {t1 : State} (h1 : Keeps s t1) : Keeps s (@State.activationReset t1) := by
  delta State.activationReset
  extract_lets -merge -underBinder +onlyGivenNames x2
  extract_lets -merge -underBinder +onlyGivenNames x3
  have h3 : Keeps s (x3) := State.moduleReset_keeps h1
  exact upd_keeps h3

theorem State.retPutAll_keeps {s : State} {t1 : State} (h1 : Keeps s t1) {a2} : Keeps s (@State.retPutAll t1 a2) := by
  delta State.retPutAll
  exact each_inv h1 (fun _ h3 _ => each_inv h3 (fun _ h4 _ => State.retPut_keeps h4))

theorem State.forceEvent_keeps {s : State} {t1 : State} (h1 : Keeps s t1) {a2} {a3} {a4} {a5} : Keeps s (@State.forceEvent t1 a2 a3 a4 a5) := by
  delta State.forceEvent
  exact State.raise_keeps h1

theorem State.unforce_keeps {s : State} {t1 : State} (h1 : Keeps s t1) {a2} {a3} : Keeps s (@State.unforce t1 a2 a3) := by
  delta State.unforce
  split
  · exact h1
  · exact State.forceEvent_keeps (State.forceFlag_keeps (upd_keeps h1))

theorem State.unforceAll_keeps {s : State} {t1 : State} (h1 : Keeps s t1) : Keeps s (@State.unforceAll t1) := by
  delta State.unforceAll
  extract_lets -merge -underBinder +onlyGivenNames x2
  have h2 : Keeps s (x2) := each_inv h1 (fun _ h3 _ => State.unforce_keeps h3)
  exact upd_keeps h2

theorem State.timersStop_keeps {s : State} {t1 : State} (h1 : Keeps s t1) : Keeps s (@State.timersStop t1) := by
  delta State.timersStop
  split
  · exact h1
  · exact each_inv h1 (fun _ h2 _ => State.mset_keeps h2)

theorem State.restartProgram_keeps {s : State} {t1 : State} (h1 : Keeps s t1) {a2} {a3} : Keeps s (@State.restartProgram t1 a2 a3) := by
  delta State.restartProgram
  extract_lets -merge -underBinder +onlyGivenNames x4
  extract_lets -merge -underBinder +onlyGivenNames x5
  have h5 : Keeps s (x5) := upd_keeps h1
  extract_lets -merge -underBinder +onlyGivenNames x6
  have h6 : Keeps s (x6) := State.initStatus_keeps (State.retPutAll_keeps (State.initProgram_keeps h5))
  extract_lets -merge -underBinder +onlyGivenNames x7
  have h7 : Keeps s (x7) := ite_inv (State.unforceAll_keeps h6) (each_inv h6 (fun _ h8 _ => State.forceShow_keeps h8))
  extract_lets -merge -underBinder +onlyGivenNames x9
  have h9 : Keeps s (x9) := State.setFlag_keeps h7
  extract_lets -merge -underBinder +onlyGivenNames x10
  have h10 : Keeps s (x10) := ite_inv h9 (State.fput_keeps h9)
  extract_lets -merge -underBinder +onlyGivenNames x11
  extract_lets -merge -underBinder +onlyGivenNames x12
  have h12 : Keeps s (x12) := ite_inv (State.timersStop_keeps h10) h10
  exact upd_keeps h12

theorem State.restart_keeps {s : State} {t1 : State} (h1 : Keeps s t1) : Keeps s (@State.restart t1) := by
  delta State.restart
  extract_lets -merge -underBinder +onlyGivenNames x2
  have h2 : Keeps s (x2) := ite_inv h1 (State.reassign_keeps h1)
  split
  · exact State.restartProgram_keeps h2
  · exact State.restartProgram_keeps h2

theorem State.showBeam_keeps {s : State} {t1 : State} (h1 : Keeps s t1) : Keeps s (@State.showBeam t1) := by
  delta State.showBeam
  exact each_inv h1 (fun _ h2 _ => by
    extract_lets -merge -underBinder +onlyGivenNames x3
    exact State.fput_keeps (State.fput_keeps h2))

theorem State.showTable_keeps {s : State} {t1 : State} (h1 : Keeps s t1) : Keeps s (@State.showTable t1) := by
  delta State.showTable
  exact State.fput_keeps (State.setFlag_keeps h1)

theorem State.setWslot_keeps {s : State} {t1 : State} (h1 : Keeps s t1) {a2} {a3} : Keeps s (@State.setWslot t1 a2 a3) := by
  delta State.setWslot
  exact upd_keeps h1

theorem State.wdgDisarm_keeps {s : State} {t1 : State} (h1 : Keeps s t1) {a2} {a3} : Keeps s (@State.wdgDisarm t1 a2 a3) := by
  delta State.wdgDisarm
  exact State.setFlag_keeps (State.setWslot_keeps h1)

theorem State.wdgArm_keeps {s : State} {t1 : State} (h1 : Keeps s t1) {a2} {a3} : Keeps s (@State.wdgArm t1 a2 a3) := by
  delta State.wdgArm
  extract_lets -merge -underBinder +onlyGivenNames x4
  extract_lets -merge -underBinder +onlyGivenNames x5
  have h5 : Keeps s (x5) := State.setWslot_keeps h1
  exact State.setFlag_keeps (State.setFlag_keeps h5)

theorem State.wdgCycle_keeps {s : State} {t1 : State} (h1 : Keeps s t1) {a2} {a3} : Keeps s (@State.wdgCycle t1 a2 a3) := by
  delta State.wdgCycle
  extract_lets -merge -underBinder +onlyGivenNames x4
  exact each_inv h1 (fun _ h5 _ => ite_inv (State.wdgDisarm_keeps h5) (ite_inv (State.wdgArm_keeps h5) h5))

theorem State.noteCycle_keeps {s : State} {t1 : State} (h1 : Keeps s t1) {a2} : Keeps s (@State.noteCycle t1 a2) := by
  delta State.noteCycle
  exact upd_keeps h1

theorem State.timerEt_keeps {s : State} {t1 : State} (h1 : Keeps s t1) {a2} : Keeps s (Prod.fst (@State.timerEt t1 a2)) := by
  delta State.timerEt
  extract_lets -merge -underBinder +onlyGivenNames x3
  split
  · exact h1
  · exact fst_inv (P := Keeps s) (State.draw_keeps h1)

theorem State.timersContinue_keeps {s : State} {t1 : State} (h1 : Keeps s t1) {a2} : Keeps s (@State.timersContinue t1 a2) := by
  delta State.timersContinue
  refine ite_inv ?_ ?_
  · extract_lets -merge -underBinder +onlyGivenNames x3 x4
    have h4 : Keeps s (x4) := upd_keeps h1
    extract_lets -merge -underBinder +onlyGivenNames x5
    split
    · exact h4
    · exact each_inv h4 (fun _ h6 _ => by
        extract_lets -merge -underBinder +onlyGivenNames x7
        have h7 : Keeps s (Prod.fst (x7)) := State.timerEt_keeps h6
        extract_lets -merge -underBinder +onlyGivenNames x8
        exact State.msetN_keeps h7)
  · exact h1

theorem State.setWslot_keepsW {s : State} {t1 : State} (h1 : KeepsW s t1) {a2} {a3} : KeepsW s (@State.setWslot t1 a2 a3) := by
  delta State.setWslot
  exact upd_keepsW h1

theorem State.countRestart_keepsW {s : State} {t1 : State} (h1 : KeepsW s t1) : KeepsW s (@State.countRestart t1) := by
  delta State.countRestart
  extract_lets -merge -underBinder +onlyGivenNames x2
  have h2 : KeepsW s (x2) := State.satBump_keepsW h1
  extract_lets -merge -underBinder +onlyGivenNames x3
  exact upd_keepsW h2

theorem State.recordRestart_keepsW {s : State} {t1 : State} (h1 : KeepsW s t1) : KeepsW s (@State.recordRestart t1) := by
  delta State.recordRestart
  exact upd_keepsW h1

theorem State.wdgEscalate_keepsW {s : State} {t1 : State} (h1 : KeepsW s t1) {a2} : KeepsW s (@State.wdgEscalate t1 a2) := by
  delta State.wdgEscalate
  extract_lets -merge -underBinder +onlyGivenNames x3
  refine ite_inv ?_ ?_
  · exact State.raise_keepsW (State.enterLockout_keepsW h1)
  · extract_lets -merge -underBinder +onlyGivenNames x4
    have h4 : KeepsW s (x4) := State.countRestart_keepsW (State.recordRestart_keepsW h1)
    exact State.moduleReset_keepsW (State.raise_keepsW h4)

theorem State.wdgDisarm_keepsW {s : State} {t1 : State} (h1 : KeepsW s t1) {a2} {a3} : KeepsW s (@State.wdgDisarm t1 a2 a3) := by
  delta State.wdgDisarm
  exact State.setFlag_keepsW (State.setWslot_keepsW h1)

theorem State.wdgArm_keepsW {s : State} {t1 : State} (h1 : KeepsW s t1) {a2} {a3} : KeepsW s (@State.wdgArm t1 a2 a3) := by
  delta State.wdgArm
  extract_lets -merge -underBinder +onlyGivenNames x4
  extract_lets -merge -underBinder +onlyGivenNames x5
  have h5 : KeepsW s (x5) := State.setWslot_keepsW h1
  exact State.setFlag_keepsW (State.setFlag_keepsW h5)

theorem State.wdgFault_keepsW {s : State} {t1 : State} (h1 : KeepsW s t1) {a2} {a3} {a4} {a5} : KeepsW s (@State.wdgFault t1 a2 a3 a4 a5) := by
  delta State.wdgFault
  extract_lets -merge -underBinder +onlyGivenNames x6
  extract_lets -merge -underBinder +onlyGivenNames x7
  extract_lets -merge -underBinder +onlyGivenNames x8
  extract_lets -merge -underBinder +onlyGivenNames x9
  extract_lets -merge -underBinder +onlyGivenNames x10
  have h10 : KeepsW s (x10) := State.setBit_keepsW (State.fput_keepsW h1)
  extract_lets -merge -underBinder +onlyGivenNames x11
  have h11 : KeepsW s (x11) := State.setFlag_keepsW (State.fput_keepsW (State.fput_keepsW h10))
  extract_lets -merge -underBinder +onlyGivenNames x12 x13
  have h13 : KeepsW s (x13) := State.setWslot_keepsW h11
  extract_lets -merge -underBinder +onlyGivenNames x14
  have h14 : KeepsW s (x14) := by
    unfold x14
    split
    · exact upd_keepsW h13
    · exact h13
  extract_lets -merge -underBinder +onlyGivenNames x15
  have h15 : KeepsW s (x15) := State.raise_keepsW h14
  refine ite_inv ?_ ?_
  · exact State.wdgEscalate_keepsW h15
  · refine ite_inv ?_ ?_
    · extract_lets -merge -underBinder +onlyGivenNames x16
      extract_lets -merge -underBinder +onlyGivenNames x17
      have h17 : KeepsW s (x17) := State.wdgDisarm_keepsW h15
      exact each_inv h17 (fun _ h18 _ => State.haltStrand_keepsW h18)
    · extract_lets -merge -underBinder +onlyGivenNames x19
      have h19 : KeepsW s (x19) := State.wdgArm_keepsW h15
      exact State.setWslot_keepsW h19

theorem State.wdgClose_keepsW {s : State} {t1 : State} (h1 : KeepsW s t1) {a2} : KeepsW s (@State.wdgClose t1 a2) := by
  delta State.wdgClose
  extract_lets -merge -underBinder +onlyGivenNames x3
  refine ite_inv ?_ ?_
  · extract_lets -merge -underBinder +onlyGivenNames x4
    have h4 : KeepsW s (x4) := State.satBump_keepsW h1
    extract_lets -merge -underBinder +onlyGivenNames x5
    have h5 : KeepsW s (x5) := ite_inv (State.setFlag_keepsW h4) h4
    exact State.setWslot_keepsW h5
  · extract_lets -merge -underBinder +onlyGivenNames x6
    extract_lets -merge -underBinder +onlyGivenNames x7
    have h7 : KeepsW s (x7) := State.wdgFault_keepsW h1
    exact ite_inv h7 (State.wdgArm_keepsW h7)

theorem State.wdgJudge_keepsW {s : State} {t1 : State} (h1 : KeepsW s t1) {a2} {a3} {a4} : KeepsW s (@State.wdgJudge t1 a2 a3 a4) := by
  delta State.wdgJudge
  extract_lets -merge -underBinder +onlyGivenNames x5
  have h5 : KeepsW s (x5) := ite_inv (State.wdgClose_keepsW h1) h1
  refine ite_inv ?_ ?_
  · exact h5
  · extract_lets -merge -underBinder +onlyGivenNames x6
    refine ite_inv ?_ ?_
    · exact State.wdgFault_keepsW h5
    · extract_lets -merge -underBinder +onlyGivenNames x7
      have h7 : KeepsW s (x7) := State.setWslot_keepsW h5
      exact ite_inv (State.wdgFault_keepsW h7) (ite_inv (State.wdgFault_keepsW h7) (State.setFlag_keepsW (State.setWslot_keepsW h7)))

theorem execChkin_keeps {s : State} {a1} {a2} {t3 : State} (h3 : Keeps s t3) : KeepsO s (@execChkin a1 a2 t3) := by
  delta execChkin
  exact dx_keeps h3 (fun s => (fun _ h4 => by
    extract_lets -merge -underBinder +onlyGivenNames x5
    extract_lets -merge -underBinder +onlyGivenNames x6
    extract_lets -merge -underBinder +onlyGivenNames x7
    refine ite_inv ?_ ?_
    · exact h4
    · refine ite_inv ?_ ?_
      · exact h4
      · extract_lets -merge -underBinder +onlyGivenNames x8
        have h8 : KeepsW s (x8) := State.wdgJudge_keepsW h4
        exact ite_inv h8 h8))

theorem State.rcClear_keepsW {s : State} {t1 : State} (h1 : KeepsW s t1) {a2} {a3} : KeepsW s (@State.rcClear t1 a2 a3) := by
  delta State.rcClear
  extract_lets -merge -underBinder +onlyGivenNames x4
  exact ite_inv h1 (State.rset_keepsW h1)

theorem State.regRead_keepsW {s : State} {t1 : State} (h1 : KeepsW s t1) {a2} {a3} {a4} : KeepsW s (Prod.fst (@State.regRead t1 a2 a3 a4)) := by
  delta State.regRead
  refine ite_inv (P := fun (x : State × _) => KeepsW s x.1) ?_ ?_
  · exact h1
  · split
    · exact State.mbReadHdr_keepsW h1
    · exact ite_inv (P := fun (x : State × _) => KeepsW s x.1) (State.mbReadData_keepsW h1) h1
    · extract_lets -merge -underBinder +onlyGivenNames x5
      split
      · exact fst_inv (P := KeepsW s) (upd_keepsW h1)
      · exact fst_inv (P := KeepsW s) (State.rcClear_keepsW h1)

theorem execRdsys_keeps {s : State} {a1} {a2} {a3} {a4} {t5 : State} (h5 : Keeps s t5) : KeepsO s (@execRdsys a1 a2 a3 a4 t5) := by
  delta execRdsys
  exact dx_keeps h5 (fun s => (fun _ h6 => by
    extract_lets -merge -underBinder +onlyGivenNames x7
    extract_lets -merge -underBinder +onlyGivenNames x8
    split
    · exact h6
    · extract_lets -merge -underBinder +onlyGivenNames x9
      have h9 : KeepsW s (Prod.fst (x9)) := State.regRead_keepsW h6
      exact State.modStrand_keepsW h9))

theorem State.plainWrite_keepsW {s : State} {t1 : State} (h1 : KeepsW s t1) {a2} {a3} {a4} : KeepsW s (@State.plainWrite t1 a2 a3 a4) := by
  delta State.plainWrite
  split
  · exact h1
  · extract_lets -merge -underBinder +onlyGivenNames x5
    extract_lets -merge -underBinder +onlyGivenNames x6
    exact State.rset_keepsW h1

theorem State.mbWrite_keepsW {s : State} {t1 : State} (h1 : KeepsW s t1) {a2} {a3} {a4} {a5} {a6} {a7} : KeepsW s (@State.mbWrite t1 a2 a3 a4 a5 a6 a7) := by
  delta State.mbWrite
  extract_lets -merge -underBinder +onlyGivenNames x8
  refine ite_inv ?_ ?_
  · extract_lets -merge -underBinder +onlyGivenNames x9
    extract_lets -merge -underBinder +onlyGivenNames x10
    have h10 : KeepsW s (x10) := ite_inv (State.txAbort_keepsW h1) h1
    exact ite_inv (State.txRequest_keepsW h10) h10
  · exact ite_inv (ite_inv h1 (State.plainWrite_keepsW h1)) (ite_inv (ite_inv (State.plainWrite_keepsW h1) h1) (State.plainWrite_keepsW h1))

theorem State.descWrite_keepsW {s : State} {t1 : State} (h1 : KeepsW s t1) {a2} {a3} {a4} : KeepsW s (@State.descWrite t1 a2 a3 a4) := by
  delta State.descWrite
  split
  · exact ite_inv (State.rset_keepsW h1) h1
  · exact h1

theorem State.snapshot_keepsW {s : State} {t1 : State} (h1 : KeepsW s t1) : KeepsW s (@State.snapshot t1) := by
  delta State.snapshot
  extract_lets -merge -underBinder +onlyGivenNames x2
  extract_lets -merge -underBinder +onlyGivenNames x3
  have h3 : KeepsW s (x3) := State.rset64_keepsW (upd_keepsW h1)
  exact ite_inv (each_inv h3 (fun _ h4 _ => State.obsPush_keepsW h4)) h3

theorem State.clearCounters_keepsW {s : State} {t1 : State} (h1 : KeepsW s t1) : KeepsW s (@State.clearCounters t1) := by
  delta State.clearCounters
  exact upd_keepsW h1

theorem State.answer_keepsW {s : State} {t1 : State} (h1 : KeepsW s t1) {a2} {a3} : KeepsW s (@State.answer t1 a2 a3) := by
  delta State.answer
  exact tx_keepsW h1

theorem State.traceBegin_keepsW {s : State} {t1 : State} (h1 : KeepsW s t1) : KeepsW s (@State.traceBegin t1) := by
  delta State.traceBegin
  extract_lets -merge -underBinder +onlyGivenNames x2
  extract_lets -merge -underBinder +onlyGivenNames x3
  have h3 : KeepsW s (x3) := State.answer_keepsW h1
  exact ite_inv (upd_keepsW h3) h3

theorem State.regWrite_keepsW {s : State} {t1 : State} (h1 : KeepsW s t1) {a2} {a3} {a4} {a5} : KeepsW s (@State.regWrite t1 a2 a3 a4 a5) := by
  delta State.regWrite
  split
  · exact State.mbWrite_keepsW h1
  · split
    · exact ite_inv (State.postFrames_keepsW h1) h1
    · exact ite_inv (State.queRetire_keepsW h1) h1
    · exact State.descWrite_keepsW h1
    · refine ite_inv ?_ ?_
      · extract_lets -merge -underBinder +onlyGivenNames x6
        have h6 : KeepsW s (x6) := State.plainWrite_keepsW h1
        extract_lets -merge -underBinder +onlyGivenNames x7
        have h7 : KeepsW s (x7) := ite_inv (State.snapshot_keepsW h6) h6
        exact ite_inv (State.clearCounters_keepsW h7) h7
      · refine ite_inv ?_ ?_
        · extract_lets -merge -underBinder +onlyGivenNames x8
          have h8 : KeepsW s (x8) := State.plainWrite_keepsW h1
          extract_lets -merge -underBinder +onlyGivenNames x9
          have h9 : KeepsW s (x9) := ite_inv (State.traceEnd_keepsW h8) h8
          exact ite_inv (State.traceBegin_keepsW h9) h9
        · exact State.plainWrite_keepsW h1

theorem execWrsys_keeps {s : State} {a1} {a2} {a3} {a4} {t5 : State} (h5 : Keeps s t5) : KeepsO s (@execWrsys a1 a2 a3 a4 t5) := by
  delta execWrsys
  exact dx_keeps h5 (fun s => (fun _ h6 => by
    extract_lets -merge -underBinder +onlyGivenNames x7
    extract_lets -merge -underBinder +onlyGivenNames x8
    split
    · exact h6
    · exact ite_inv h6 (State.regWrite_keepsW h6)))

theorem State.keyTo_keeps {s : State} {t1 : State} (h1 : Keeps s t1) {a2} : Keeps s (@State.keyTo t1 a2) := by
  delta State.keyTo
  extract_lets -merge -underBinder +onlyGivenNames x3
  refine ite_inv ?_ ?_
  · exact h1
  · refine ite_inv ?_ ?_
    · exact State.dieReset_keeps h1
    · extract_lets -merge -underBinder +onlyGivenNames x4
      have h4 : Keeps s (x4) := State.setFlag_keeps (State.fput_keeps h1)
      extract_lets -merge -underBinder +onlyGivenNames x5
      have h5 : Keeps s (x5) := State.raise_keeps h4
      extract_lets -merge -underBinder +onlyGivenNames x6
      extract_lets -merge -underBinder +onlyGivenNames x7
      have h7 : Keeps s (x7) := State.withdrawChange_keeps h5
      extract_lets -merge -underBinder +onlyGivenNames x8 x9
      have h9 : Keeps s (x9) := upd_keeps h7
      exact ite_inv (State.acceptChange_keeps h9) (State.keyAct_keeps h9)

theorem execKeyPositionChange_keeps {s : State} {a1} {t2 : State} (h2 : Keeps s t2) : KeepsO s (@execKeyPositionChange a1 t2) := by
  delta execKeyPositionChange
  exact ite_inv h2 (State.keyTo_keeps (State.fput_keeps h2))

theorem execKeyFault_keeps {s : State} {a1} {t2 : State} (h2 : Keeps s t2) : KeepsO s (@execKeyFault a1 t2) := by
  delta execKeyFault
  refine ite_inv ?_ ?_
  · exact h2
  · extract_lets -merge -underBinder +onlyGivenNames x3
    have h3 : Keeps s (x3) := State.fput_keeps h2
    refine ite_inv ?_ ?_
    · exact h3
    · extract_lets -merge -underBinder +onlyGivenNames x4
      have h4 : Keeps s (x4) := State.setFlag_keeps (State.setFlag_keeps h3)
      exact State.raise_keeps h4

theorem execStopRequest_keeps {s : State} {t1 : State} (h1 : Keeps s t1) : KeepsO s (@execStopRequest t1) := by
  delta execStopRequest
  exact State.modeRequest_keeps h1

theorem execProgramRequest_keeps {s : State} {t1 : State} (h1 : Keeps s t1) : KeepsO s (@execProgramRequest t1) := by
  delta execProgramRequest
  exact State.modeRequest_keeps h1

theorem execRunRequest_keeps {s : State} {t1 : State} (h1 : Keeps s t1) : KeepsO s (@execRunRequest t1) := by
  delta execRunRequest
  exact State.modeRequest_keeps h1

theorem execServiceRequest_keeps {s : State} {t1 : State} (h1 : Keeps s t1) : KeepsO s (@execServiceRequest t1) := by
  delta execServiceRequest
  exact State.modeRequest_keeps h1

theorem execDormantRequest_keeps {s : State} {t1 : State} (h1 : Keeps s t1) : KeepsO s (@execDormantRequest t1) := by
  delta execDormantRequest
  exact State.modeRequest_keeps h1

theorem execRestartRequest_keeps {s : State} {a1} {t2 : State} (h2 : Keeps s t2) : KeepsO s (@execRestartRequest a1 t2) := by
  delta execRestartRequest
  exact State.modeRequest_keeps h2

theorem State.deliveryStart_keeps {s : State} {t1 : State} (h1 : Keeps s t1) : Keeps s (@State.deliveryStart t1) := by
  delta State.deliveryStart
  split
  · exact h1
  · extract_lets -merge -underBinder +onlyGivenNames x2
    refine ite_inv ?_ ?_
    · extract_lets -merge -underBinder +onlyGivenNames x3
      extract_lets -merge -underBinder +onlyGivenNames x4 x5
      have h5 : Keeps s (x5) := upd_keeps h1
      exact each_inv (State.showDlv_keeps h5) (fun _ h6 _ => ite_inv (State.setBit_keeps h6) h6)
    · exact h1

theorem State.basePut_keeps {s : State} {t1 : State} (h1 : Keeps s t1) {a2} {a3} : Keeps s (@State.basePut t1 a2 a3) := by
  delta State.basePut
  extract_lets -merge -underBinder +onlyGivenNames x4
  extract_lets -merge -underBinder +onlyGivenNames x5
  have h5 : Keeps s (x5) := upd_keeps h1
  exact State.submit_keeps h5

theorem State.baseClear_keeps {s : State} {t1 : State} (h1 : Keeps s t1) {a2} : Keeps s (@State.baseClear t1 a2) := by
  induction a2 generalizing t1 with
  | zero => exact h1
  | succ n ih =>
    unfold State.baseClear
    extract_lets -merge -underBinder +onlyGivenNames p
    split
    · exact h1
    · extract_lets -merge -underBinder +onlyGivenNames x1 x2
      have h2 : Keeps s x2 := State.submit_keeps (each_inv h1 (fun _ h _ => State.basePut_keeps (State.setQsc_keeps h)))
      split
      · exact ih h2
      · exact h2

theorem State.qsRestore_keeps {s : State} {t1 : State} (h1 : Keeps s t1) : Keeps s (@State.qsRestore t1) := by
  delta State.qsRestore
  extract_lets -merge -underBinder +onlyGivenNames x2
  extract_lets -merge -underBinder +onlyGivenNames x3
  have h3 : Keeps s (x3) := each_inv h1 (fun _ h4 _ => by
    extract_lets -merge -underBinder +onlyGivenNames x5
    extract_lets -merge -underBinder +onlyGivenNames x6
    refine ite_inv ?_ ?_
    · extract_lets -merge -underBinder +onlyGivenNames x7
      extract_lets -merge -underBinder +onlyGivenNames x8
      exact State.setQsc_keeps h4
    · exact h4)
  extract_lets -merge -underBinder +onlyGivenNames x9
  have h9 : Keeps s (x9) := State.baseClear_keeps h3
  exact each_inv h9 (fun _ h10 _ => by
    extract_lets -merge -underBinder +onlyGivenNames x11
    extract_lets -merge -underBinder +onlyGivenNames x12
    extract_lets -merge -underBinder +onlyGivenNames x13
    exact State.qsPump_keeps (State.setQsc_keeps h10))

theorem State.rollClear_keeps {s : State} {t1 : State} (h1 : Keeps s t1) : Keeps s (@State.rollClear t1) := by
  delta State.rollClear
  extract_lets -merge -underBinder +onlyGivenNames x2
  exact ite_inv h1 (State.submit_keeps h1)

theorem State.recPlace_keeps {s : State} {t1 : State} (h1 : Keeps s t1) {a2} : Keeps s (Prod.fst (@State.recPlace t1 a2)) := by
  delta State.recPlace
  refine ite_inv (P := fun (x : State × _) => Keeps s x.1) ?_ ?_
  · extract_lets -merge -underBinder +onlyGivenNames x3
    extract_lets -merge -underBinder +onlyGivenNames x4 x5
    have h5 : Keeps s (x5) := upd_keeps h1
    exact ite_inv (P := fun (x : State × _) => Keeps s x.1) (fst_inv (P := Keeps s) (State.raise_keeps (State.setFlag_keeps h5))) h5
  · extract_lets -merge -underBinder +onlyGivenNames x6
    have h6 : Keeps s (x6) := ite_inv (State.rollClear_keeps h1) h1
    extract_lets -merge -underBinder +onlyGivenNames x7
    exact fst_inv (P := Keeps s) (upd_keeps h6)

theorem State.recSeal_keeps {s : State} {t1 : State} (h1 : Keeps s t1) {a2} {a3} {a4} {a5} {a6} {a7} : Keeps s (@State.recSeal t1 a2 a3 a4 a5 a6 a7) := by
  delta State.recSeal
  extract_lets -merge -underBinder +onlyGivenNames x8
  have h8 : Keeps s (Prod.fst (x8)) := State.recPlace_keeps h1
  extract_lets -merge -underBinder +onlyGivenNames x9
  exact State.submit_keeps h8

theorem State.sealOpenRec_keeps {s : State} {t1 : State} (h1 : Keeps s t1) {a2} : Keeps s (@State.sealOpenRec t1 a2) := by
  delta State.sealOpenRec
  split
  · exact h1
  · exact State.recSeal_keeps (upd_keeps h1)

theorem State.showEvr_keeps {s : State} {t1 : State} (h1 : Keeps s t1) : Keeps s (@State.showEvr t1) := by
  delta State.showEvr
  extract_lets -merge -underBinder +onlyGivenNames x2
  have h2 : Keeps s (x2) := State.setFlag_keeps (State.fput_keeps h1)
  extract_lets -merge -underBinder +onlyGivenNames x3
  have h3 : Keeps s (x3) := State.fput_keeps (State.fput_keeps h2)
  exact State.setFlag_keeps h3

theorem State.recorderStart_keeps {s : State} {t1 : State} (h1 : Keeps s t1) {a2} : Keeps s (@State.recorderStart t1 a2) := by
  delta State.recorderStart
  extract_lets -merge -underBinder +onlyGivenNames x3
  extract_lets -merge -underBinder +onlyGivenNames x4
  have h4 : Keeps s (x4) := State.fput_keeps h1
  extract_lets -merge -underBinder +onlyGivenNames x5
  have h5 : Keeps s (x5) := ite_inv h4 (State.raise_keeps (State.setFlag_keeps h4))
  extract_lets -merge -underBinder +onlyGivenNames x6 x7
  have h7 : Keeps s (x7) := ite_inv (State.sealOpenRec_keeps h5) (upd_keeps h5)
  exact State.showEvr_keeps (ite_inv h7 (State.rollClear_keeps h7))

theorem State.consolShow_keeps {s : State} {t1 : State} (h1 : Keeps s t1) {a2} : Keeps s (@State.consolShow t1 a2) := by
  delta State.consolShow
  extract_lets -merge -underBinder +onlyGivenNames x3
  have h3 : Keeps s (x3) := State.rset64_keeps (State.setFlag_keeps h1)
  extract_lets -merge -underBinder +onlyGivenNames x4
  have h4 : Keeps s (x4) := State.fput_keeps (State.fput_keeps h3)
  extract_lets -merge -underBinder +onlyGivenNames x5
  have h5 : Keeps s (x5) := ite_inv (State.raise_keeps (State.setFlag_keeps h4)) h4
  exact State.raise_keeps h5

theorem State.consolApply_keeps {s : State} {t1 : State} (h1 : Keeps s t1) {a2} : Keeps s (@State.consolApply t1 a2) := by
  delta State.consolApply
  exact each_inv h1 (fun _ h3 _ => each_inv h3 (fun _ h4 _ => ite_inv (State.msetN_keeps h4) h4))

theorem State.showOwner_keeps {s : State} {t1 : State} (h1 : Keeps s t1) : Keeps s (@State.showOwner t1) := by
  delta State.showOwner
  extract_lets -merge -underBinder +onlyGivenNames x2
  have h2 : Keeps s (x2) := State.fput_keeps (State.fput_keeps h1)
  exact State.fput_keeps h2

theorem State.showVersions_keeps {s : State} {t1 : State} (h1 : Keeps s t1) : Keeps s (@State.showVersions t1) := by
  delta State.showVersions
  extract_lets -merge -underBinder +onlyGivenNames x2
  extract_lets -merge -underBinder +onlyGivenNames x3
  extract_lets -merge -underBinder +onlyGivenNames x4
  have h4 : Keeps s (x4) := State.fput_keeps (State.fput_keeps h1)
  exact State.fput_keeps h4

theorem State.flushPump_keeps {s : State} {t1 : State} (h1 : Keeps s t1) : Keeps s (@State.flushPump t1) := by
  delta State.flushPump
  extract_lets -merge -underBinder +onlyGivenNames x2
  extract_lets -merge -underBinder +onlyGivenNames x3
  exact each_inv h1 (fun _ h4 _ => State.submit_keeps h4)

theorem execPfail_keeps {s : State} {t1 : State} (h1 : Keeps s t1) : KeepsO s (@execPfail t1) := by
  delta execPfail
  exact ite_inv h1 (State.flushPump_keeps (upd_keeps h1))

theorem execFlushComplete_keeps {s : State} {t1 : State} (h1 : Keeps s t1) : KeepsO s (@execFlushComplete t1) := by
  delta execFlushComplete
  extract_lets -merge -underBinder +onlyGivenNames x2
  refine ite_inv ?_ ?_
  · exact h1
  · extract_lets -merge -underBinder +onlyGivenNames x3
    extract_lets -merge -underBinder +onlyGivenNames x4
    have h4 : Keeps s (x4) := State.ringAdvance_keeps (State.opEffect_keeps h1)
    extract_lets -merge -underBinder +onlyGivenNames x5
    have h5 : Keeps s (x5) := State.storeSettle_keeps h4
    extract_lets -merge -underBinder +onlyGivenNames x6 x7
    have h7 : Keeps s (x7) := upd_keeps h5
    extract_lets -merge -underBinder +onlyGivenNames x8
    have h8 : Keeps s (x8) := State.storeSettle_keeps (State.sealOpenRec_keeps h7)
    exact State.moduleReset_keeps (upd_keeps h8)

theorem State.dwellAnew_keeps {s : State} {t1 : State} (h1 : Keeps s t1) : Keeps s (@State.dwellAnew t1) := by
  delta State.dwellAnew
  exact upd_keeps h1

theorem execLockstepMismatch_keeps {s : State} {a1} {a2} {t3 : State} (h3 : Keeps s t3) : KeepsO s (@execLockstepMismatch a1 a2 t3) := by
  delta execLockstepMismatch
  refine ite_inv ?_ ?_
  · extract_lets -merge -underBinder +onlyGivenNames x4
    have h4 : Keeps s (x4) := State.modStrand_keeps h3
    extract_lets -merge -underBinder +onlyGivenNames x5
    have h5 : Keeps s (x5) := ite_inv h4 (State.fput_keeps (State.fput_keeps (State.setFlag_keeps h4)))
    extract_lets -merge -underBinder +onlyGivenNames x6
    have h6 : Keeps s (x6) := State.setFlag_keeps (State.setBit_keeps h5)
    extract_lets -merge -underBinder +onlyGivenNames x7
    have h7 : Keeps s (x7) := State.raise_keeps h6
    exact State.enterSafe_keeps h7
  · exact h3

theorem State.stewardCause_keeps {s : State} {t1 : State} (h1 : Keeps s t1) {a2} {a3} : Keeps s (@State.stewardCause t1 a2 a3) := by
  delta State.stewardCause
  split
  · exact ite_inv (upd_keeps h1) h1
  · exact h1

theorem State.forceSafe_keeps {s : State} {t1 : State} (h1 : Keeps s t1) : Keeps s (@State.forceSafe t1) := by
  delta State.forceSafe
  extract_lets -merge -underBinder +onlyGivenNames x2
  have h2 : Keeps s (x2) := each_inv h1 (fun _ h3 _ => by
    refine ite_inv ?_ ?_
    · extract_lets -merge -underBinder +onlyGivenNames x4
      exact State.ucDrive_keeps h3
    · exact h3)
  exact each_inv h2 (fun _ h5 _ => by
    refine ite_inv ?_ ?_
    · extract_lets -merge -underBinder +onlyGivenNames x6
      extract_lets -merge -underBinder +onlyGivenNames x7
      extract_lets -merge -underBinder +onlyGivenNames x8
      extract_lets -merge -underBinder +onlyGivenNames x9 x10
      have h10 : Keeps s (x10) := State.setDio_keeps h5
      extract_lets -merge -underBinder +onlyGivenNames x11
      exact each_inv h10 (fun _ h12 _ => State.dioApply_keeps h12)
    · exact h5)

theorem State.stewardStop_keeps {s : State} {t1 : State} (h1 : Keeps s t1) {a2} {a3} : Keeps s (@State.stewardStop t1 a2 a3) := by
  delta State.stewardStop
  extract_lets -merge -underBinder +onlyGivenNames x4
  have h4 : Keeps s (x4) := State.setFlag_keeps (State.forceSafe_keeps (State.stopAll_keeps h1))
  extract_lets -merge -underBinder +onlyGivenNames x5
  have h5 : Keeps s (x5) := ite_inv h4 (State.sharedOff_keeps h4)
  exact upd_keeps h5

theorem execStewardMismatch_keeps {s : State} {a1} {t2 : State} (h2 : Keeps s t2) : KeepsO s (@execStewardMismatch a1 t2) := by
  delta execStewardMismatch
  exact ite_inv h2 (ite_inv (State.stewardCause_keeps h2) (State.stewardStop_keeps h2))

theorem State.recordRestart_keeps {s : State} {t1 : State} (h1 : Keeps s t1) : Keeps s (@State.recordRestart t1) := by
  exact Keeps.trans h1 (State.recordRestart_keepsW (KeepsW.refl _)).1

theorem execStewardFaultReset_keeps {s : State} {t1 : State} (h1 : Keeps s t1) : KeepsO s (@execStewardFaultReset t1) := by
  delta execStewardFaultReset
  split
  · exact h1
  · exact ite_inv (State.dieReset_keeps (State.recordRestart_keeps (upd_keeps h1))) h1

theorem execCorrectionWriteBack_keeps {s : State} {t1 : State} (h1 : Keeps s t1) : KeepsO s (@execCorrectionWriteBack t1) := by
  delta execCorrectionWriteBack
  exact upd_keeps h1

theorem State.scrubRead_keeps {s : State} {t1 : State} (h1 : Keeps s t1) {a2} {a3} {a4} : Keeps s (Prod.fst (@State.scrubRead t1 a2 a3 a4)) := by
  delta State.scrubRead
  extract_lets -merge -underBinder +onlyGivenNames x5
  clear_value x5
  split
  · exact h1
  · extract_lets -merge -underBinder +onlyGivenNames x6
    extract_lets -merge -underBinder +onlyGivenNames x7
    have h7 : Keeps s (x7) := State.selRecord_keeps h1
    extract_lets -merge -underBinder +onlyGivenNames x8
    have h8 : Keeps s (x8) := ite_inv (State.countG_keeps h7) h7
    extract_lets -merge -underBinder +onlyGivenNames x9 x10
    have h10 : Keeps s (x10) := ite_inv (upd_keeps h8) (ite_inv h8 (upd_keeps h8))
    exact h10

theorem State.scrubNext_keeps {s : State} {t1 : State} (h1 : Keeps s t1) : Keeps s (@State.scrubNext t1) := by
  delta State.scrubNext
  refine ite_inv ?_ ?_
  · exact upd_keeps h1
  · extract_lets -merge -underBinder +onlyGivenNames x2
    extract_lets -merge -underBinder +onlyGivenNames x3 x4
    have h4 : Keeps s (x4) := upd_keeps h1
    extract_lets -merge -underBinder +onlyGivenNames x5
    have h5 : Keeps s (x5) := State.fput_keeps (State.wrapBump_keeps h4)
    exact ite_inv (State.raise_keeps (State.setFlag_keeps h5)) h5

theorem State.integConsequence_keeps {s : State} {t1 : State} (h1 : Keeps s t1) {a2} {a3} {a4} : Keeps s (@State.integConsequence t1 a2 a3 a4) := by
  delta State.integConsequence
  split
  · exact State.stewardStop_keeps h1
  · exact State.enterSafe_keeps h1
  · refine ite_inv ?_ ?_
    · exact State.enterSafe_keeps h1
    · refine ite_inv ?_ ?_
      · exact State.enterSafe_keeps h1
      · refine ite_inv ?_ ?_
        · extract_lets -merge -underBinder +onlyGivenNames x5
          exact ite_inv (State.enterSafe_keeps h1) (ite_inv (State.editAbortFor_keeps h1) h1)
        · refine ite_inv ?_ ?_
          · extract_lets -merge -underBinder +onlyGivenNames x6
            exact ite_inv (State.failEngine_keeps h1) h1
          · exact h1

theorem execScrub_keeps {s : State} {a1} {a2} {a3} {t4 : State} (h4 : Keeps s t4) : KeepsO s (@execScrub a1 a2 a3 t4) := by
  delta execScrub
  refine ite_inv ?_ ?_
  · exact h4
  · extract_lets -merge -underBinder +onlyGivenNames x5
    extract_lets -merge -underBinder +onlyGivenNames x6
    have h6 : Keeps s (Prod.fst (x6)) := State.scrubRead_keeps h4
    extract_lets -merge -underBinder +onlyGivenNames x7
    have h7 : Keeps s (x7) := State.scrubNext_keeps h6
    split
    · exact ite_inv (State.integConsequence_keeps h7) h7
    · exact h7

theorem State.scrubList_keeps {s : State} {t1 : State} (h1 : Keeps s t1) {a2} {a3} : Keeps s (@State.scrubList t1 a2 a3) := by
  delta State.scrubList
  exact each_inv h1 (fun _ h4 _ => State.scrubRead_keeps h4)

theorem execDramScrub_keeps {s : State} {a1} {t2 : State} (h2 : Keeps s t2) : KeepsO s (@execDramScrub a1 t2) := by
  delta execDramScrub
  exact ite_inv h2 (State.scrubList_keeps h2)

theorem execKeepRamScrub_keeps {s : State} {a1} {t2 : State} (h2 : Keeps s t2) : KeepsO s (@execKeepRamScrub a1 t2) := by
  delta execKeepRamScrub
  exact State.scrubList_keeps h2

theorem State.wdgClose_keeps {s : State} {t1 : State} (h1 : Keeps s t1) {a2} : Keeps s (@State.wdgClose t1 a2) := by
  exact Keeps.trans h1 (State.wdgClose_keepsW (KeepsW.refl _)).1

theorem execWatchdogPeriodEnd_keeps {s : State} {a1} {t2 : State} (h2 : Keeps s t2) : KeepsO s (@execWatchdogPeriodEnd a1 t2) := by
  delta execWatchdogPeriodEnd
  exact ite_inv (State.wdgClose_keeps h2) h2

theorem State.wdgJudge_keeps {s : State} {t1 : State} (h1 : Keeps s t1) {a2} {a3} {a4} : Keeps s (@State.wdgJudge t1 a2 a3 a4) := by
  exact Keeps.trans h1 (State.wdgJudge_keepsW (KeepsW.refl _)).1

theorem execStewardCheckIn_keeps {s : State} {a1} {a2} {t3 : State} (h3 : Keeps s t3) : KeepsO s (@execStewardCheckIn a1 a2 t3) := by
  delta execStewardCheckIn
  exact ite_inv (State.wdgJudge_keeps h3) h3

theorem State.wdgEscalate_keeps {s : State} {t1 : State} (h1 : Keeps s t1) {a2} : Keeps s (@State.wdgEscalate t1 a2) := by
  exact Keeps.trans h1 (State.wdgEscalate_keepsW (KeepsW.refl _)).1

theorem execThreadRestartTimeout_keeps {s : State} {a1} {t2 : State} (h2 : Keeps s t2) : KeepsO s (@execThreadRestartTimeout a1 t2) := by
  delta execThreadRestartTimeout
  split
  · exact ite_inv (State.wdgEscalate_keeps (State.setWslot_keeps h2)) h2
  · exact h2

theorem execTrickle_keeps {s : State} {t1 : State} (h1 : Keeps s t1) : KeepsO s (@execTrickle t1) := by
  delta execTrickle
  extract_lets -merge -underBinder +onlyGivenNames x2
  extract_lets -merge -underBinder +onlyGivenNames x3
  extract_lets -merge -underBinder +onlyGivenNames x4
  exact ite_inv (State.submit_keeps h1) h1

theorem execCheckpointPage_keeps {s : State} {t1 : State} (h1 : Keeps s t1) : KeepsO s (@execCheckpointPage t1) := by
  delta execCheckpointPage
  extract_lets -merge -underBinder +onlyGivenNames x2
  exact ite_inv (State.submit_keeps h1) h1

theorem State.baseRoom_keeps {s : State} {t1 : State} (h1 : Keeps s t1) : Keeps s (@State.baseRoom t1) := by
  delta State.baseRoom
  exact ite_inv (State.baseClear_keeps h1) h1

theorem State.qsBase_keeps {s : State} {t1 : State} (h1 : Keeps s t1) {a2} : Keeps s (@State.qsBase t1 a2) := by
  delta State.qsBase
  extract_lets -merge -underBinder +onlyGivenNames x3
  extract_lets -merge -underBinder +onlyGivenNames x4
  extract_lets -merge -underBinder +onlyGivenNames x5
  have h5 : Keeps s (x5) := State.baseRoom_keeps (State.setQsc_keeps h1)
  exact State.basePut_keeps h5

theorem State.qsSwitched_keeps {s : State} {t1 : State} (h1 : Keeps s t1) {a2} : Keeps s (@State.qsSwitched t1 a2) := by
  delta State.qsSwitched
  extract_lets -merge -underBinder +onlyGivenNames x3
  extract_lets -merge -underBinder +onlyGivenNames x4
  extract_lets -merge -underBinder +onlyGivenNames x5
  exact State.qsPump_keeps (State.setQsc_keeps h1)

theorem State.opTag_keeps {s : State} {t1 : State} (h1 : Keeps s t1) {a2} : Keeps s (@State.opTag t1 a2) := by
  delta State.opTag
  split
  · exact h1
  · split
    · exact h1
    · extract_lets -merge -underBinder +onlyGivenNames x3
      have h3 : Keeps s (x3) := State.wrapBump_keeps h1
      exact State.cmdStep_keeps (upd_keeps h3)
  · extract_lets -merge -underBinder +onlyGivenNames x4
    exact State.qsPump_keeps (State.setQsc_keeps h1)
  · exact State.qsBase_keeps h1
  · exact State.qsSwitched_keeps h1
  · extract_lets -merge -underBinder +onlyGivenNames x5
    extract_lets -merge -underBinder +onlyGivenNames x6
    have h6 : Keeps s (x6) := ite_inv (State.rset64_keeps h1) h1
    exact ite_inv (State.setFlag_keeps h6) h6

theorem State.opEnd_keeps {s : State} {t1 : State} (h1 : Keeps s t1) {a2} : Keeps s (@State.opEnd t1 a2) := by
  delta State.opEnd
  extract_lets -merge -underBinder +onlyGivenNames x3
  have h3 : Keeps s (x3) := State.opEffect_keeps h1
  extract_lets -merge -underBinder +onlyGivenNames x4 x5
  have h5 : Keeps s (x5) := upd_keeps h3
  extract_lets -merge -underBinder +onlyGivenNames x6
  have h6 : Keeps s (x6) := State.opTag_keeps h5
  extract_lets -merge -underBinder +onlyGivenNames x7
  have h7 : Keeps s (x7) := by
    unfold x7
    split
    · exact ite_inv (State.cmdStep_keeps h6) h6
    · exact h6
  extract_lets -merge -underBinder +onlyGivenNames x8
  have h8 : Keeps s (x8) := ite_inv (State.flushPump_keeps h7) h7
  exact State.showBusy_keeps (State.grant_keeps h8)

theorem execStoreOperationEnd_keeps {s : State} {a1} {t2 : State} (h2 : Keeps s t2) : KeepsO s (@execStoreOperationEnd a1 t2) := by
  delta execStoreOperationEnd
  refine ite_inv ?_ ?_
  · exact h2
  · split
    · exact h2
    · extract_lets -merge -underBinder +onlyGivenNames x3
      have h3 : Keeps s (x3) := State.opEnd_keeps h2
      exact ite_inv (State.showEvr_keeps h3) h3

theorem execReadCommand_keeps {s : State} {t1 : State} (h1 : Keeps s t1) : KeepsO s (@execReadCommand t1) := by
  delta execReadCommand
  exact State.retCommand_keeps h1

theorem execWriteCommand_keeps {s : State} {t1 : State} (h1 : Keeps s t1) : KeepsO s (@execWriteCommand t1) := by
  delta execWriteCommand
  exact State.retCommand_keeps h1

theorem execPageErase_keeps {s : State} {t1 : State} (h1 : Keeps s t1) : KeepsO s (@execPageErase t1) := by
  delta execPageErase
  exact State.retCommand_keeps h1

theorem execRowProgram_keeps {s : State} {t1 : State} (h1 : Keeps s t1) : KeepsO s (@execRowProgram t1) := by
  delta execRowProgram
  exact State.retCommand_keeps h1

theorem execBitProgram_keeps {s : State} {t1 : State} (h1 : Keeps s t1) : KeepsO s (@execBitProgram t1) := by
  delta execBitProgram
  exact State.retCommand_keeps h1

theorem execQsIncrement_keeps {s : State} {a1} {a2} {t3 : State} (h3 : Keeps s t3) : KeepsO s (@execQsIncrement a1 a2 t3) := by
  delta execQsIncrement
  exact ite_inv h3 (State.qsAdd_keeps h3)

theorem State.recWrite_keeps {s : State} {t1 : State} (h1 : Keeps s t1) {a2} {a3} {a4} : Keeps s (@State.recWrite t1 a2 a3 a4) := by
  delta State.recWrite
  extract_lets -merge -underBinder +onlyGivenNames x5
  exact State.recSeal_keeps (upd_keeps h1)

theorem State.recordEvent_keeps {s : State} {t1 : State} (h1 : Keeps s t1) {a2} : Keeps s (@State.recordEvent t1 a2) := by
  delta State.recordEvent
  extract_lets -merge -underBinder +onlyGivenNames x3
  extract_lets -merge -underBinder +onlyGivenNames x4 x5 x6 x7 x8 x9 x10
  have h4 : Keeps s (x4) := State.sealOpenRec_keeps h1
  have h7 : Keeps s (x7) := ite_inv h4 (State.recWrite_keeps (upd_keeps h4))
  have h10 : Keeps s (x10) := by
    unfold x10
    refine ite_inv ?_ ?_
    · split
      · extract_lets -merge -underBinder +onlyGivenNames x11 x12
        have h12 : Keeps s (x12) := upd_keeps h1
        exact ite_inv (State.sealOpenRec_keeps h12) h12
      · exact h1
    · exact ite_inv (upd_keeps h7) (State.recWrite_keeps h7)
  exact State.showEvr_keeps h10

theorem execEventIntake_keeps {s : State} {t1 : State} (h1 : Keeps s t1) : KeepsO s (@execEventIntake t1) := by
  delta execEventIntake
  split
  · exact h1
  · exact ite_inv h1 (State.recordEvent_keeps (upd_keeps h1))

theorem execSealTimeout_keeps {s : State} {t1 : State} (h1 : Keeps s t1) : KeepsO s (@execSealTimeout t1) := by
  delta execSealTimeout
  split
  · exact h1
  · exact ite_inv h1 (State.showEvr_keeps (State.sealOpenRec_keeps h1))

theorem execConsolidationRequest_keeps {s : State} {t1 : State} (h1 : Keeps s t1) : KeepsO s (@execConsolidationRequest t1) := by
  delta execConsolidationRequest
  refine ite_inv ?_ ?_
  · exact h1
  · extract_lets -merge -underBinder +onlyGivenNames x2
    extract_lets -merge -underBinder +onlyGivenNames x3
    have h3 : Keeps s (x3) := State.consolShow_keeps (State.consolApply_keeps h1)
    exact upd_keeps h3

theorem execRtcSet_keeps {s : State} {t1 : State} (h1 : Keeps s t1) : KeepsO s (@execRtcSet t1) := by
  delta execRtcSet
  exact ite_inv h1 (State.rtcGo_keeps h1)

theorem State.stepKept_keeps {s : State} {t1 : State} (h1 : Keeps s t1) {a2} : Keeps s (@State.stepKept t1 a2) := by
  delta State.stepKept
  extract_lets -merge -underBinder +onlyGivenNames x3
  exact upd_keeps h1

theorem State.applySet_keeps {s : State} {t1 : State} (h1 : Keeps s t1) : Keeps s (@State.applySet t1) := by
  delta State.applySet
  extract_lets -merge -underBinder +onlyGivenNames x2
  extract_lets -merge -underBinder +onlyGivenNames x3
  extract_lets -merge -underBinder +onlyGivenNames x4
  extract_lets -merge -underBinder +onlyGivenNames x5 x6
  have h6 : Keeps s (x6) := upd_keeps h1
  extract_lets -merge -underBinder +onlyGivenNames x7
  have h7 : Keeps s (x7) := State.setFlag_keeps (State.stepKept_keeps h6)
  extract_lets -merge -underBinder +onlyGivenNames x8
  have h8 : Keeps s (x8) := State.setFlag_keeps (State.setFlag_keeps h7)
  exact State.raise_keeps h8

theorem execRtcSetApply_keeps {s : State} {t1 : State} (h1 : Keeps s t1) : KeepsO s (@execRtcSetApply t1) := by
  delta execRtcSetApply
  exact ite_inv (State.applySet_keeps h1) h1

theorem State.stageSet_keeps {s : State} {t1 : State} (h1 : Keeps s t1) {a2} : Keeps s (@State.stageSet t1 a2) := by
  delta State.stageSet
  exact State.rset_keeps (State.rset_keeps h1)

theorem execClockSetRequest_keeps {s : State} {a1} {t2 : State} (h2 : Keeps s t2) : KeepsO s (@execClockSetRequest a1 t2) := by
  delta execClockSetRequest
  exact ite_inv h2 (ite_inv (State.answer_keeps h2) (ite_inv (State.answer_keeps (State.rtcGo_keeps h2)) (State.answer_keeps (State.rtcGo_keeps (State.stageSet_keeps h2)))))

theorem execArm_keeps {s : State} {t1 : State} (h1 : Keeps s t1) : KeepsO s (@execArm t1) := by
  delta execArm
  refine ite_inv ?_ ?_
  · exact h1
  · extract_lets -merge -underBinder +onlyGivenNames x2
    have h2 : Keeps s (x2) := State.setFlag_keeps (State.setFlag_keeps (State.setFlag_keeps h1))
    exact upd_keeps h2

theorem execDisarm_keeps {s : State} {t1 : State} (h1 : Keeps s t1) : KeepsO s (@execDisarm t1) := by
  delta execDisarm
  exact ite_inv h1 (State.setFlag_keeps h1)

theorem execWakeConfig_keeps {s : State} {a1} {a2} {t3 : State} (h3 : Keeps s t3) : KeepsO s (@execWakeConfig a1 a2 t3) := by
  delta execWakeConfig
  refine ite_inv ?_ ?_
  · exact h3
  · extract_lets -merge -underBinder +onlyGivenNames x4
    have h4 : Keeps s (x4) := State.fput_keeps (State.setFlag_keeps h3)
    exact upd_keeps h4

theorem State.wakeUp_keeps {s : State} {t1 : State} (h1 : Keeps s t1) : Keeps s (@State.wakeUp t1) := by
  delta State.wakeUp
  exact ite_inv (State.dieReset_keeps h1) h1

theorem execAlarmFire_keeps {s : State} {t1 : State} (h1 : Keeps s t1) : KeepsO s (@execAlarmFire t1) := by
  delta execAlarmFire
  refine ite_inv ?_ ?_
  · extract_lets -merge -underBinder +onlyGivenNames x2
    extract_lets -merge -underBinder +onlyGivenNames x3 x4
    have h4 : Keeps s (x4) := State.setFlag_keeps (upd_keeps h1)
    extract_lets -merge -underBinder +onlyGivenNames x5
    have h5 : Keeps s (x5) := State.wakeUp_keeps (State.setFlag_keeps (State.setFlag_keeps h4))
    exact State.raise_keeps (State.setFlag_keeps h5)
  · exact h1

theorem execPeriodicWake_keeps {s : State} {t1 : State} (h1 : Keeps s t1) : KeepsO s (@execPeriodicWake t1) := by
  delta execPeriodicWake
  refine ite_inv ?_ ?_
  · extract_lets -merge -underBinder +onlyGivenNames x2 x3
    have h3 : Keeps s (x3) := upd_keeps h1
    exact State.setFlag_keeps (State.wakeUp_keeps h3)
  · exact h1

theorem State.setRefOk_keeps {s : State} {t1 : State} (h1 : Keeps s t1) {a2} : Keeps s (@State.setRefOk t1 a2) := by
  delta State.setRefOk
  exact ite_inv h1 (State.raise_keeps (State.setFlag_keeps h1))

theorem execMainsWindow_keeps {s : State} {a1} {a2} {t3 : State} (h3 : Keeps s t3) : KeepsO s (@execMainsWindow a1 a2 t3) := by
  delta execMainsWindow
  exact ite_inv (ite_inv (State.setRefOk_keeps (State.setTrim_keeps h3)) (State.setRefOk_keeps h3)) h3

theorem execTbLatch_keeps {s : State} {a1} {t2 : State} (h2 : Keeps s t2) : KeepsO s (@execTbLatch a1 t2) := by
  delta execTbLatch
  refine ite_inv ?_ ?_
  · refine ite_inv ?_ ?_
    · extract_lets -merge -underBinder +onlyGivenNames x3
      extract_lets -merge -underBinder +onlyGivenNames x4
      extract_lets -merge -underBinder +onlyGivenNames x5
      extract_lets -merge -underBinder +onlyGivenNames x6
      extract_lets -merge -underBinder +onlyGivenNames x7 x8
      have h8 : Keeps s (x8) := upd_keeps h2
      refine ite_inv ?_ ?_
      · refine ite_inv ?_ ?_
        · exact State.setRefOk_keeps (State.rtcGo_keeps h8)
        · extract_lets -merge -underBinder +onlyGivenNames x9 x10
          have h10 : Keeps s (x10) := upd_keeps h8
          exact State.setRefOk_keeps (State.rtcGo_keeps (State.stageSet_keeps h10))
      · exact State.setRefOk_keeps (State.setTrim_keeps h8)
    · exact State.setRefOk_keeps h2
  · exact h2

theorem State.dlvEvent_keeps {s : State} {t1 : State} (h1 : Keeps s t1) {a2} {a3} : Keeps s (@State.dlvEvent t1 a2 a3) := by
  delta State.dlvEvent
  exact State.raise_keeps (State.fput_keeps h1)

theorem State.eraseSlot_keeps {s : State} {t1 : State} (h1 : Keeps s t1) {a2} {a3} : Keeps s (@State.eraseSlot t1 a2 a3) := by
  delta State.eraseSlot
  extract_lets -merge -underBinder +onlyGivenNames x4
  have h4 : Keeps s (x4) := mem_keeps h1 (fun w => filter_wf _ w)
  exact State.showSlots_keeps (State.mset_keeps h4)

theorem State.mapPlace_keeps {s : State} {t1 : State} (h1 : Keeps s t1) : Keeps s (Prod.fst (@State.mapPlace t1)) := by
  delta State.mapPlace
  split
  · exact h1
  · extract_lets -merge -underBinder +onlyGivenNames x2
    extract_lets -merge -underBinder +onlyGivenNames x3
    exact fst_inv (P := Keeps s) (State.submit_keeps (State.submit_keeps h1))

theorem State.writeRecord_keeps {s : State} {t1 : State} (h1 : Keeps s t1) {a2} {a3} {a4} {a5} : Keeps s (Prod.fst (@State.writeRecord t1 a2 a3 a4 a5)) := by
  delta State.writeRecord
  extract_lets -merge -underBinder +onlyGivenNames x6
  extract_lets -merge -underBinder +onlyGivenNames x7
  have h7 : Keeps s (Prod.fst (x7)) := State.mapPlace_keeps h1
  extract_lets -merge -underBinder +onlyGivenNames x8
  extract_lets -merge -underBinder +onlyGivenNames x9
  have h9 : ∀ y1, Keeps s y1 → ∀ y2, ∀ y3, Keeps s (x9 y1 y2 y3) := fun _ h9_1 _ _ => State.submit_keeps h9_1
  extract_lets -merge -underBinder +onlyGivenNames x10
  have h10 : Keeps s (x10) := h9 _ h7 _ _
  extract_lets -merge -underBinder +onlyGivenNames x11
  have h11 : Keeps s (x11) := h9 _ (h9 _ h10 _ _) _ _
  extract_lets -merge -underBinder +onlyGivenNames x12
  have h12 : Keeps s (x12) := each_inv h11 (fun _ h13 _ => ite_inv (h9 _ h13 _ _) h13)
  exact fst_inv (P := Keeps s) (h9 _ h12 _ _)

theorem execDeliveryStart_keeps {s : State} {a1} {a2} {a3} {t4 : State} (h4 : Keeps s t4) : KeepsO s (@execDeliveryStart a1 a2 a3 t4) := by
  delta execDeliveryStart
  refine ite_inv ?_ ?_
  · exact h4
  · extract_lets -merge -underBinder +onlyGivenNames x5
    extract_lets -merge -underBinder +onlyGivenNames x6
    extract_lets -merge -underBinder +onlyGivenNames x7
    extract_lets -merge -underBinder +onlyGivenNames x8
    refine ite_inv ?_ ?_
    · exact State.dlvEvent_keeps h4
    · refine ite_inv ?_ ?_
      · exact State.fput_keeps h4
      · extract_lets -merge -underBinder +onlyGivenNames x9
        have h9 : Keeps s (x9) := State.markSlot_keeps (State.eraseSlot_keeps h4)
        extract_lets -merge -underBinder +onlyGivenNames x10
        have h10 : Keeps s (x10) := State.msetN_keeps h9
        extract_lets -merge -underBinder +onlyGivenNames x11
        extract_lets -merge -underBinder +onlyGivenNames x12
        have h12 : Keeps s (Prod.fst (x12)) := State.writeRecord_keeps h10
        extract_lets -merge -underBinder +onlyGivenNames x13 x14 x15
        have h13 : Keeps s (x13) := h12
        have h15 : Keeps s (x15) := upd_keeps h13
        extract_lets -merge -underBinder +onlyGivenNames x16
        have h16 : Keeps s (x16) := State.fput_keeps (State.fput_keeps h15)
        exact State.dlvEvent_keeps (State.showVersions_keeps (State.showDlv_keeps h16))

theorem State.chunkMark_keeps {s : State} {t1 : State} (h1 : Keeps s t1) {a2} {a3} : Keeps s (@State.chunkMark t1 a2 a3) := by
  delta State.chunkMark
  extract_lets -merge -underBinder +onlyGivenNames x4
  extract_lets -merge -underBinder +onlyGivenNames x5
  exact State.submit_keeps h1

theorem State.segCheck_keeps {s : State} {t1 : State} (h1 : Keeps s t1) {a2} {a3} : Keeps s (@State.segCheck t1 a2 a3) := by
  delta State.segCheck
  extract_lets -merge -underBinder +onlyGivenNames x4
  extract_lets -merge -underBinder +onlyGivenNames x5
  refine ite_inv ?_ ?_
  · extract_lets -merge -underBinder +onlyGivenNames x6
    have h6 : Keeps s (x6) := State.raise_keeps (State.setBit_keeps h1)
    refine ite_inv ?_ ?_
    · extract_lets -merge -underBinder +onlyGivenNames x7
      have h7 : Keeps s (x7) := State.setFlag_keeps (State.markSlot_keeps h6)
      extract_lets -merge -underBinder +onlyGivenNames x8
      have h8 : Keeps s (x8) := State.raise_keeps h7
      exact upd_keeps h8
    · exact h6
  · extract_lets -merge -underBinder +onlyGivenNames x9
    have h9 : Keeps s (x9) := State.raise_keeps (State.setFlag_keeps (State.setBit_keeps h1))
    extract_lets -merge -underBinder +onlyGivenNames x10
    have h10 : Keeps s (Prod.fst (x10)) := State.writeRecord_keeps h9
    extract_lets -merge -underBinder +onlyGivenNames x11
    have h11 : Keeps s (x11) := h10
    exact upd_keeps h11

theorem execChunk_keeps {s : State} {a1} {a2} {a3} {a4} {t5 : State} (h5 : Keeps s t5) : KeepsO s (@execChunk a1 a2 a3 a4 t5) := by
  delta execChunk
  refine ite_inv ?_ ?_
  · exact h5
  · split
    · exact State.fput_keeps h5
    · extract_lets -merge -underBinder +onlyGivenNames x6
      refine ite_inv ?_ ?_
      · exact State.fput_keeps h5
      · refine ite_inv ?_ ?_
        · exact State.fput_keeps h5
        · refine ite_inv ?_ ?_
          · exact h5
          · extract_lets -merge -underBinder +onlyGivenNames x7
            refine ite_inv ?_ ?_
            · extract_lets -merge -underBinder +onlyGivenNames x8
              have h8 : Keeps s (x8) := State.chunkMark_keeps (State.msetN_keeps h5)
              extract_lets -merge -underBinder +onlyGivenNames x9
              extract_lets -merge -underBinder +onlyGivenNames x10
              exact State.showDlv_keeps (ite_inv (State.segCheck_keeps h8) h8)
            · extract_lets -merge -underBinder +onlyGivenNames x11
              exact State.msetN_keeps (upd_keeps h5)

theorem execAbort_keeps {s : State} {t1 : State} (h1 : Keeps s t1) : KeepsO s (@execAbort t1) := by
  delta execAbort
  exact ite_inv h1 (State.withdrawActivation_keeps (State.fput_keeps (State.showDlv_keeps (upd_keeps h1))))

theorem execFallbackCopyWritten_keeps {s : State} {t1 : State} (h1 : Keeps s t1) : KeepsO s (@execFallbackCopyWritten t1) := by
  delta execFallbackCopyWritten
  split
  · exact h1
  · split
    · exact h1
    · refine ite_inv ?_ ?_
      · exact h1
      · extract_lets -merge -underBinder +onlyGivenNames x2
        have h2 : Keeps s (x2) := each_inv h1 (fun _ h3 _ => State.rowProgram_keeps h3)
        extract_lets -merge -underBinder +onlyGivenNames x4
        have h4 : Keeps s (x4) := State.rowProgram_keeps h2
        exact State.markSlot_keeps (upd_keeps h4)

theorem execReject_keeps {s : State} {t1 : State} (h1 : Keeps s t1) : KeepsO s (@execReject t1) := by
  delta execReject
  exact ite_inv h1 (ite_inv (State.trialFallback_keeps h1) (State.fput_keeps h1))

theorem execTrialWindowEnd_keeps {s : State} {t1 : State} (h1 : Keeps s t1) : KeepsO s (@execTrialWindowEnd t1) := by
  delta execTrialWindowEnd
  split
  · exact h1
  · exact ite_inv h1 (State.trialFallback_keeps h1)

theorem State.updStatus_keeps {s : State} {t1 : State} (h1 : Keeps s t1) {a2} : Keeps s (@State.updStatus t1 a2) := by
  delta State.updStatus
  exact State.fput_keeps h1

theorem execPrivUpdate_keeps {s : State} {a1} {t2 : State} (h2 : Keeps s t2) : KeepsO s (@execPrivUpdate a1 t2) := by
  delta execPrivUpdate
  refine ite_inv ?_ ?_
  · exact h2
  · extract_lets -merge -underBinder +onlyGivenNames x3
    have h3 : Keeps s (x3) := State.setFlag_keeps h2
    extract_lets -merge -underBinder +onlyGivenNames x4
    refine ite_inv ?_ ?_
    · extract_lets -merge -underBinder +onlyGivenNames x5
      have h5 : Keeps s (x5) := ite_inv (each_inv h3 (fun _ h6 _ => State.modUc_keeps h6)) h3
      exact State.updStatus_keeps (upd_keeps h5)
    · exact State.updStatus_keeps h3

theorem execPrivUpdateEnd_keeps {s : State} {a1} {a2} {t3 : State} (h3 : Keeps s t3) : KeepsO s (@execPrivUpdateEnd a1 a2 t3) := by
  delta execPrivUpdateEnd
  split
  · exact h3
  · refine ite_inv ?_ ?_
    · exact h3
    · extract_lets -merge -underBinder +onlyGivenNames x4
      extract_lets -merge -underBinder +onlyGivenNames x5
      have h5 : Keeps s (x5) := ite_inv (State.msetN_keeps h3) h3
      extract_lets -merge -underBinder +onlyGivenNames x6 x7
      have h7 : Keeps s (x7) := State.showVersions_keeps (State.eraseSlot_keeps (upd_keeps h5))
      exact State.raise_keeps (State.updStatus_keeps (State.setFlag_keeps h7))

theorem execEnrol_keeps {s : State} {a1} {a2} {t3 : State} (h3 : Keeps s t3) : KeepsO s (@execEnrol a1 a2 t3) := by
  delta execEnrol
  refine ite_inv ?_ ?_
  · exact ite_inv h3 (State.updStatus_keeps h3)
  · extract_lets -merge -underBinder +onlyGivenNames x4
    refine ite_inv ?_ ?_
    · exact State.updStatus_keeps h3
    · refine ite_inv ?_ ?_
      · exact State.updStatus_keeps h3
      · extract_lets -merge -underBinder +onlyGivenNames x5 x6 x7
        have h7 : Keeps s (x7) := upd_keeps h3
        exact State.raise_keeps (State.updStatus_keeps (State.showOwner_keeps h7))

theorem execRevoke_keeps {s : State} {a1} {a2} {t3 : State} (h3 : Keeps s t3) : KeepsO s (@execRevoke a1 a2 t3) := by
  delta execRevoke
  refine ite_inv ?_ ?_
  · exact ite_inv h3 (State.updStatus_keeps h3)
  · extract_lets -merge -underBinder +onlyGivenNames x4
    extract_lets -merge -underBinder +onlyGivenNames x5
    refine ite_inv ?_ ?_
    · exact State.updStatus_keeps h3
    · refine ite_inv ?_ ?_
      · exact State.updStatus_keeps h3
      · refine ite_inv ?_ ?_
        · exact State.updStatus_keeps h3
        · extract_lets -merge -underBinder +onlyGivenNames x6 x7
          have h7 : Keeps s (x7) := upd_keeps h3
          exact State.raise_keeps (State.updStatus_keeps (State.showOwner_keeps h7))

theorem State.recoverInto_keeps {s : State} {t1 : State} (h1 : Keeps s t1) {a2} {a3} : Keeps s (@State.recoverInto t1 a2 a3) := by
  delta State.recoverInto
  extract_lets -merge -underBinder +onlyGivenNames x4
  have h4 : Keeps s (x4) := State.msetN_keeps (State.eraseSlot_keeps h1)
  exact ite_inv (State.moduleReset_keeps (State.raise_keeps (State.markSlot_keeps h4))) (State.updStatus_keeps h4)

theorem execRecoveryImage_keeps {s : State} {a1} {a2} {t3 : State} (h3 : Keeps s t3) : KeepsO s (@execRecoveryImage a1 a2 t3) := by
  have hu : ∀ c, KeepsO s (.next (t3.updStatus c)) := fun c => State.updStatus_keeps h3
  have hr : ∀ k i, KeepsO s (.next (t3.recoverInto k i)) := fun k i => State.recoverInto_keeps h3
  unfold execRecoveryImage
  split
  · exact h3
  · dsimp only
    generalize findIdx 2 _ = q
    generalize slice a1 0 4096 = m
    cases q with
    | none => exact hu _
    | some k =>
      dsimp only
      split
      · exact hu _
      · split
        · exact hu _
        · exact hr _ _

theorem execAttestationRequest_keeps {s : State} {a1} {t2 : State} (h2 : Keeps s t2) : KeepsO s (@execAttestationRequest a1 t2) := by
  delta execAttestationRequest
  refine ite_inv ?_ ?_
  · exact h2
  · extract_lets -merge -underBinder +onlyGivenNames x3
    exact tx_keeps h2

theorem execObsLinkChange_keeps {s : State} {a1} {t2 : State} (h2 : Keeps s t2) : KeepsO s (@execObsLinkChange a1 t2) := by
  delta execObsLinkChange
  exact ite_inv h2 (State.raise_keeps (State.setFlag_keeps h2))

theorem execTraceStart_keeps {s : State} {t1 : State} (h1 : Keeps s t1) : KeepsO s (@execTraceStart t1) := by
  delta execTraceStart
  exact ite_inv h1 (State.traceBegin_keeps h1)

theorem execTraceStop_keeps {s : State} {t1 : State} (h1 : Keeps s t1) : KeepsO s (@execTraceStop t1) := by
  delta execTraceStop
  exact ite_inv h1 (State.traceEnd_keeps h1)

theorem execTraceDrainEnd_keeps {s : State} {t1 : State} (h1 : Keeps s t1) : KeepsO s (@execTraceDrainEnd t1) := by
  delta execTraceDrainEnd
  refine ite_inv ?_ ?_
  · extract_lets -merge -underBinder +onlyGivenNames x2
    have h2 : Keeps s (x2) := tx_keeps h1
    extract_lets -merge -underBinder +onlyGivenNames x3 x4
    have h4 : Keeps s (x4) := upd_keeps h2
    exact State.setFlag_keeps (State.setFlag_keeps h4)
  · exact h1

theorem execSnap_keeps {s : State} {t1 : State} (h1 : Keeps s t1) : KeepsO s (@execSnap t1) := by
  delta execSnap
  exact ite_inv h1 (State.snapshot_keeps h1)

theorem execClear_keeps {s : State} {t1 : State} (h1 : Keeps s t1) : KeepsO s (@execClear t1) := by
  delta execClear
  exact ite_inv h1 (State.clearCounters_keeps h1)

theorem execFreeze_keeps {s : State} {a1} {t2 : State} (h2 : Keeps s t2) : KeepsO s (@execFreeze a1 t2) := by
  delta execFreeze
  exact ite_inv h2 (State.setFlag_keeps h2)

theorem State.plainEdge_keeps {s : State} {t1 : State} (h1 : Keeps s t1) : Keeps s (@State.plainEdge t1) := by
  delta State.plainEdge
  extract_lets -merge -underBinder +onlyGivenNames x2
  extract_lets -merge -underBinder +onlyGivenNames x3
  extract_lets -merge -underBinder +onlyGivenNames x4 x5
  have h5 : Keeps s (x5) := upd_keeps h1
  exact ite_inv (State.setFlag_keeps h5) h5

theorem State.rtcEdge_keeps {s : State} {t1 : State} (h1 : Keeps s t1) : Keeps s (@State.rtcEdge t1) := by
  delta State.rtcEdge
  exact ite_inv (State.applySet_keeps h1) (State.plainEdge_keeps h1)

theorem execRtcTick_keeps {s : State} {t1 : State} (h1 : Keeps s t1) : KeepsO s (@execRtcTick t1) := by
  delta execRtcTick
  exact State.rtcEdge_keeps h1

theorem execKeyFaultClear_keeps {s : State} {a1} {t2 : State} (h2 : Keeps s t2) : KeepsO s (@execKeyFaultClear a1 t2) := by
  delta execKeyFaultClear
  refine ite_inv ?_ ?_
  · exact h2
  · extract_lets -merge -underBinder +onlyGivenNames x3
    have h3 : Keeps s (x3) := State.setFlag_keeps (State.fput_keeps h2)
    exact State.keyTo_keeps (State.raise_keeps h3)

theorem execMainsRefAbsent_keeps {s : State} {t1 : State} (h1 : Keeps s t1) : KeepsO s (@execMainsRefAbsent t1) := by
  delta execMainsRefAbsent
  exact ite_inv (State.setRefOk_keeps h1) h1

end Sys2Proof.Machine
end

