-- ==== Sys2Proof/Laws/KeepsCycle.lean ====
section
/-!
SUPPORT. `Keeps`, of edits, trials, the pair and the instants of a cycle: one lemma for each operation.
-/
set_option linter.unusedVariables false

namespace Sys2Proof.Machine

theorem State.outputsOff_keeps {s : State} {t1 : State} (h1 : Keeps s t1) : Keeps s (@State.outputsOff t1) := by
  delta State.outputsOff
  extract_lets -merge -underBinder +onlyGivenNames x2
  have h2 : Keeps s (x2) := each_inv h1 (fun _ h _ => State.dioOff_keeps h)
  exact each_inv h2 (fun _ h3 _ => State.modUc_keeps h3)

theorem execClockFault_keeps {s : State} {a1} {a2} {t3 : State} (h3 : Keeps s t3) : KeepsO s (@execClockFault a1 a2 t3) := by
  delta execClockFault
  refine ite_inv ?_ ?_
  · exact h3
  · extract_lets -merge -underBinder +onlyGivenNames x4
    extract_lets -merge -underBinder +onlyGivenNames x5
    have h5 : Keeps s (x5) := State.outputsOff_keeps (State.setFlag_keeps h3)
    extract_lets -merge -underBinder +onlyGivenNames x6
    have h6 : Keeps s (x6) := State.dieReset_keeps h5
    exact upd_keeps h6

theorem execFabricAdmission_keeps {s : State} {t1 : State} (h1 : Keeps s t1) : KeepsO s (@execFabricAdmission t1) := by
  delta execFabricAdmission
  refine ite_inv ?_ ?_
  · exact h1
  · split
    · exact h1
    · extract_lets -merge -underBinder +onlyGivenNames x2
      extract_lets -merge -underBinder +onlyGivenNames x3
      have h3 : Keeps s (x3) := State.countG_keeps (upd_keeps h1)
      exact State.modStrand_keeps h3

theorem State.sendSegments_keeps {s : State} {t1 : State} (h1 : Keeps s t1) {a2} : Keeps s (@State.sendSegments t1 a2) := by
  delta State.sendSegments
  exact each_inv (upd_keeps h1) (fun _ h3 _ => State.send_keeps h3)

theorem State.startAlign_keeps {s : State} {t1 : State} (h1 : Keeps s t1) : Keeps s (@State.startAlign t1) := by
  delta State.startAlign
  exact State.sendSegments_keeps h1

theorem State.trialEnd_keeps {s : State} {t1 : State} (h1 : Keeps s t1) {a2} : Keeps s (@State.trialEnd t1 a2) := by
  delta State.trialEnd
  extract_lets -merge -underBinder +onlyGivenNames x3
  have h3 : Keeps s (x3) := each_inv h1 (fun _ h4 _ => State.modStrand_keeps (State.dropStall_keeps h4))
  exact State.modCls_keeps h3

theorem State.dryAbandon_keeps {s : State} {t1 : State} (h1 : Keeps s t1) {a2} : Keeps s (@State.dryAbandon t1 a2) := by
  delta State.dryAbandon
  exact ite_inv (State.satBump_keeps (State.trialEnd_keeps h1)) h1

theorem State.showOverruns_keeps {s : State} {t1 : State} (h1 : Keeps s t1) {a2} : Keeps s (@State.showOverruns t1 a2) := by
  delta State.showOverruns
  extract_lets -merge -underBinder +onlyGivenNames x3
  extract_lets -merge -underBinder +onlyGivenNames x4
  exact State.fput_keeps (State.fput_keeps (State.setCls_keeps h1))

theorem State.newCycle_keeps {s : State} {t1 : State} (h1 : Keeps s t1) {a2} : Keeps s (@State.newCycle t1 a2) := by
  delta State.newCycle
  extract_lets -merge -underBinder +onlyGivenNames x3
  have h3 : Keeps s (x3) := State.modCls_keeps (State.dryAbandon_keeps h1)
  extract_lets -merge -underBinder +onlyGivenNames x4
  have h4 : Keeps s (x4) := State.showOverruns_keeps h3
  extract_lets -merge -underBinder +onlyGivenNames x5 x6
  have h6 : Keeps s (x6) := ite_inv (upd_keeps h4) h4
  exact State.obsPush_keeps h6

theorem State.takeFilters_keeps {s : State} {t1 : State} (h1 : Keeps s t1) : Keeps s (@State.takeFilters t1) := by
  delta State.takeFilters
  exact upd_keeps h1

theorem State.lockStep_keeps {s : State} {t1 : State} (h1 : Keeps s t1) : Keeps s (@State.lockStep t1) := by
  delta State.lockStep
  exact ite_inv (ite_inv (State.setFlag_keeps h1) (ite_inv (State.setFlag_keeps (State.setMode_keeps h1)) h1)) h1

theorem State.keyAfter_keeps {s : State} {t1 : State} (h1 : Keeps s t1) : Keeps s (@State.keyAfter t1) := by
  delta State.keyAfter
  split
  · exact h1
  · exact State.keyAct_keeps (upd_keeps h1)

theorem State.handoverDone_keeps {s : State} {t1 : State} (h1 : Keeps s t1) {a2} : Keeps s (@State.handoverDone t1 a2) := by
  delta State.handoverDone
  extract_lets -merge -underBinder +onlyGivenNames x3
  have h3 : Keeps s (x3) := State.setFlag_keeps (State.satBump_keeps h1)
  extract_lets -merge -underBinder +onlyGivenNames x4
  have h4 : Keeps s (x4) := State.raise_keeps h3
  exact upd_keeps h4

theorem State.showJournal_keeps {s : State} {t1 : State} (h1 : Keeps s t1) : Keeps s (@State.showJournal t1) := by
  delta State.showJournal
  exact State.fput_keeps h1

theorem State.editFinal_keeps {s : State} {t1 : State} (h1 : Keeps s t1) : Keeps s (@State.editFinal t1) := by
  delta State.editFinal
  split
  · exact h1
  · extract_lets -merge -underBinder +onlyGivenNames x2
    extract_lets -merge -underBinder +onlyGivenNames x3
    refine ite_inv ?_ ?_
    · extract_lets -merge -underBinder +onlyGivenNames x4
      have h4 : Keeps s (x4) := State.showJournal_keeps (State.journalMark_keeps h1)
      extract_lets -merge -underBinder +onlyGivenNames x5
      extract_lets -merge -underBinder +onlyGivenNames x6
      have h6 : Keeps s (x6) := State.raise_keeps h4
      extract_lets -merge -underBinder +onlyGivenNames x7
      have h7 : Keeps s (x7) := ite_inv (State.raise_keeps h6) h6
      exact State.editClear_keeps h7
    · exact h1

theorem State.editAcked_keeps {s : State} {t1 : State} (h1 : Keeps s t1) {a2} : Keeps s (@State.editAcked t1 a2) := by
  delta State.editAcked
  exact ite_inv (State.editFinal_keeps (upd_keeps h1)) h1

theorem State.editFirst_keeps {s : State} {t1 : State} (h1 : Keeps s t1) {a2} : Keeps s (@State.editFirst t1 a2) := by
  delta State.editFirst
  exact ite_inv (State.editFinal_keeps (upd_keeps h1)) h1

theorem State.initInputs_keeps {s : State} {t1 : State} (h1 : Keeps s t1) : Keeps s (@State.initInputs t1) := by
  delta State.initInputs
  extract_lets -merge -underBinder +onlyGivenNames x2
  have h2 : Keeps s (x2) := img_keeps h1 (fun w => filter_wf _ w)
  extract_lets -merge -underBinder +onlyGivenNames x3
  have h3 : Keeps s (x3) := each_inv h2 (fun _ h4 _ => img_keeps h4 (fun w => imgSet_wf w))
  exact each_inv h3 (fun _ h5 _ => State.swSet_keeps h5)

theorem State.placePut_keeps {s : State} {t1 : State} (h1 : Keeps s t1) {a2} {a3} : Keeps s (@State.placePut t1 a2 a3) := by
  delta State.placePut
  split
  · exact State.msetN_keeps h1
  · exact img_keeps h1 (fun w => each_inv (P := fun m => imgWf m = true) w (fun _ h _ => imgSet_wf h))

theorem State.relocate_keeps {s : State} {t1 : State} (h1 : Keeps s t1) {a2} {a3} : Keeps s (@State.relocate t1 a2 a3) := by
  delta State.relocate
  extract_lets -merge -underBinder +onlyGivenNames x4
  extract_lets -merge -underBinder +onlyGivenNames x5
  have h5 : Keeps s (x5) := each_inv h1 (fun _ h6 _ => State.placePut_keeps h6)
  exact each_inv h5 (fun _ h7 _ => State.placePut_keeps h7)

theorem State.proofBase_keeps {s : State} {t1 : State} (h1 : Keeps s t1) {a2} {a3} : Keeps s (@State.proofBase t1 a2 a3) := by
  delta State.proofBase
  extract_lets -merge -underBinder +onlyGivenNames x4
  have h4 : Keeps s (x4) := State.initInputs_keeps (State.initStatus_keeps (State.initProgram_keeps h1))
  extract_lets -merge -underBinder +onlyGivenNames x5
  have h5 : Keeps s (x5) := each_inv h4 (fun _ h6 _ => by
    split
    · exact State.takeValues_keeps h6
    · exact h6)
  exact State.relocate_keeps (State.takeRegions_keeps h5)

theorem State.setWorld_keeps {s : State} {t1 : State} (h1 : Keeps s t1) {a2} {a3} : Keeps s (@State.setWorld t1 a2 a3) := by
  delta State.setWorld
  exact upd_keeps h1

theorem State.scratchFrom_keeps {s : State} {t1 : State} (h1 : Keeps s t1) {t2 : State} (h2 : Keeps s t2) {a3} : Keeps s (@State.scratchFrom t1 t2 a3) := by
  delta State.scratchFrom
  extract_lets -merge -underBinder +onlyGivenNames x4
  extract_lets -merge -underBinder +onlyGivenNames x5
  have h5 : Keeps s (x5) := mem_keeps h1 (fun w => filter_wf _ w)
  exact each_inv h5 (fun _ h6 _ => State.mset_keeps h6)

theorem State.takeShed_keeps {s : State} {t1 : State} (h1 : Keeps s t1) {a2} {a3} : Keeps s (@State.takeShed t1 a2 a3) := by
  delta State.takeShed
  extract_lets -merge -underBinder +onlyGivenNames x4
  have h4 : Keeps s (x4) := each_inv h1 (fun _ h5 _ => by
    extract_lets -merge -underBinder +onlyGivenNames x6
    exact each_inv h5 (fun _ h7 _ => by
      split
      · exact img_keeps h7 (fun w => imgMask_wf w)
      · exact h7))
  exact each_inv h4 (fun _ h8 _ => State.swSet_keeps h8)

theorem State.setProof_keeps {s : State} {t1 : State} (h1 : Keeps s t1) {a2} {a3} : Keeps s (@State.setProof t1 a2 a3) := by
  delta State.setProof
  exact upd_keeps h1

theorem State.weaveStrand_keeps {s : State} {t1 : State} (h1 : Keeps s t1) {a2} {a3} : Keeps s (@State.weaveStrand t1 a2 a3) := by
  delta State.weaveStrand
  extract_lets -merge -underBinder +onlyGivenNames x4
  exact State.modStrand_keeps h1

theorem State.trialStart_keeps {s : State} {t1 : State} (h1 : Keeps s t1) {a2} {a3} {a4} : Keeps s (@State.trialStart t1 a2 a3 a4) := by
  delta State.trialStart
  extract_lets -merge -underBinder +onlyGivenNames x5
  have h5 : Keeps s (x5) := State.modCls_keeps h1
  exact each_inv h5 (fun _ h6 _ => State.weaveStrand_keeps h6)

theorem State.proofStart_keeps {s : State} {t1 : State} (h1 : Keeps s t1) {a2} : Keeps s (@State.proofStart t1 a2) := by
  delta State.proofStart
  split
  · extract_lets -merge -underBinder +onlyGivenNames x3
    refine ite_inv ?_ ?_
    · refine ite_inv ?_ ?_
      · exact State.satBump_keeps h1
      · extract_lets -merge -underBinder +onlyGivenNames x4
        extract_lets -merge -underBinder +onlyGivenNames x5 x6
        have h5 : Keeps s (x5) := State.proofBase_keeps h1
        have h6 : Keeps s (x6) := ite_inv (State.setWorld_keeps (State.scratchFrom_keeps h1 h5)) h1
        extract_lets -merge -underBinder +onlyGivenNames x7
        extract_lets -merge -underBinder +onlyGivenNames x8
        extract_lets -merge -underBinder +onlyGivenNames x9
        have h9 : Keeps s (x9) := State.setWorld_keeps h6
        extract_lets -merge -underBinder +onlyGivenNames x10
        have h10 : Keeps s (x10) := State.setProof_keeps h9
        exact State.setFlag_keeps (State.trialStart_keeps h10)
    · exact h1
  · exact ite_inv (State.satBump_keeps h1) h1
  · exact h1

theorem State.alignStep_keeps {s : State} {t1 : State} (h1 : Keeps s t1) {a2} : Keeps s (@State.alignStep t1 a2) := by
  delta State.alignStep
  refine ite_inv ?_ ?_
  · extract_lets -merge -underBinder +onlyGivenNames x3
    exact upd_keeps h1
  · exact h1

theorem State.holdSet_keeps {s : State} {t1 : State} (h1 : Keeps s t1) {a2} {a3} : Keeps s (@State.holdSet t1 a2 a3) := by
  delta State.holdSet
  extract_lets -merge -underBinder +onlyGivenNames x4
  extract_lets -merge -underBinder +onlyGivenNames x5 x6
  have h6 : Keeps s (x6) := upd_keeps h1
  extract_lets -merge -underBinder +onlyGivenNames x7
  have h7 : Keeps s (x7) := State.takeRetentive_keeps h6
  extract_lets -merge -underBinder +onlyGivenNames x8
  have h8 : Keeps s (x8) := ite_inv (State.editAcked_keeps (State.editFirst_keeps h7)) h7
  extract_lets -merge -underBinder +onlyGivenNames x9
  have h9 : Keeps s (x9) := ite_inv h8 (State.send_keeps h8)
  extract_lets -merge -underBinder +onlyGivenNames x10
  have h10 : Keeps s (x10) := State.takeoverCommands_keeps h9
  extract_lets -merge -underBinder +onlyGivenNames x11
  have h11 : Keeps s (x11) := ite_inv (State.trialCount_keeps h10) h10
  exact State.showReady_keeps (State.proofStart_keeps (State.alignStep_keeps h11))

theorem State.takeAside_keeps {s : State} {t1 : State} (h1 : Keeps s t1) : Keeps s (@State.takeAside t1) := by
  delta State.takeAside
  extract_lets -merge -underBinder +onlyGivenNames x2
  exact each_inv (upd_keeps h1) (fun _ h3 _ => by
    split
    · exact State.holdSet_keeps h3
    · exact h3)

theorem State.enterTrack_keeps {s : State} {t1 : State} (h1 : Keeps s t1) {a2} {a3} : Keeps s (@State.enterTrack t1 a2 a3) := by
  delta State.enterTrack
  extract_lets -merge -underBinder +onlyGivenNames x4
  extract_lets -merge -underBinder +onlyGivenNames x5 x6
  have h6 : Keeps s (x6) := upd_keeps h1
  extract_lets -merge -underBinder +onlyGivenNames x7
  have h7 : Keeps s (x7) := State.traceEnd_keeps (State.setMode_keeps (State.fput_keeps (State.refLost_keeps h6)))
  exact State.batonUpdate_keeps (State.fput_keeps h7)

theorem State.outgoingEnd_keeps {s : State} {t1 : State} (h1 : Keeps s t1) {a2} {a3} : Keeps s (@State.outgoingEnd t1 a2 a3) := by
  delta State.outgoingEnd
  extract_lets -merge -underBinder +onlyGivenNames x4
  extract_lets -merge -underBinder +onlyGivenNames x5
  extract_lets -merge -underBinder +onlyGivenNames x6 x7 x8 x9 x10 x11 x12 x13
  have h8 : Keeps s (x8) := upd_keeps h1
  have h9 : Keeps s (x9) := State.setMode_keeps (State.fput_keeps h1)
  have h10 : Keeps s (x10) := State.takeAside_keeps h9
  have h11 : Keeps s (x11) := State.raise_keeps (State.fput_keeps h10)
  have h13 : Keeps s (x13) := ite_inv (State.enterStop_keeps h8) (ite_inv (State.traceEnd_keeps (upd_keeps h11)) (State.enterTrack_keeps h1))
  extract_lets -merge -underBinder +onlyGivenNames x14
  have h14 : Keeps s (x14) := State.keyAfter_keeps (State.handoverDone_keeps h13)
  split
  · exact ite_inv (State.activationCopy_keeps (upd_keeps h14)) h14
  · exact h14

theorem State.handoverEnd_keeps {s : State} {t1 : State} (h1 : Keeps s t1) {a2} : Keeps s (@State.handoverEnd t1 a2) := by
  delta State.handoverEnd
  refine ite_inv ?_ ?_
  · extract_lets -merge -underBinder +onlyGivenNames x3
    have h3 : Keeps s (x3) := State.fput_keeps h1
    extract_lets -merge -underBinder +onlyGivenNames x4 x5
    have h5 : Keeps s (x5) := upd_keeps h3
    extract_lets -merge -underBinder +onlyGivenNames x6
    extract_lets -merge -underBinder +onlyGivenNames x7
    have h7 : Keeps s (x7) := ite_inv (State.enterStop_keeps h5) (State.enterExec_keeps h5)
    exact State.keyAfter_keeps (State.handoverDone_keeps h7)
  · extract_lets -merge -underBinder +onlyGivenNames x8
    exact ite_inv (State.outgoingEnd_keeps h1) (ite_inv (State.outgoingEnd_keeps h1) h1)

theorem State.roleRef_keeps {s : State} {t1 : State} (h1 : Keeps s t1) : Keeps s (@State.roleRef t1) := by
  delta State.roleRef
  exact ite_inv h1 (State.refLost_keeps h1)

theorem State.handoverStart_keeps {s : State} {t1 : State} (h1 : Keeps s t1) {a2} : Keeps s (@State.handoverStart t1 a2) := by
  delta State.handoverStart
  refine ite_inv ?_ ?_
  · extract_lets -merge -underBinder +onlyGivenNames x3 x4
    have h4 : Keeps s (x4) := upd_keeps h1
    extract_lets -merge -underBinder +onlyGivenNames x5
    have h5 : Keeps s (x5) := State.fput_keeps (State.fput_keeps (State.roleRef_keeps h4))
    exact State.setMode_keeps (State.classesBegin_keeps (State.cancelJobs_keeps (State.adoptHeld_keeps h5)))
  · extract_lets -merge -underBinder +onlyGivenNames x6
    extract_lets -merge -underBinder +onlyGivenNames x7 x8
    have h8 : Keeps s (x8) := upd_keeps h1
    extract_lets -merge -underBinder +onlyGivenNames x9
    have h9 : Keeps s (x9) := State.fput_keeps (State.fput_keeps (State.refLost_keeps h8))
    exact State.setMode_keeps (State.canStop_keeps (State.stopAll_keeps h9))

theorem State.handoverStep_keeps {s : State} {t1 : State} (h1 : Keeps s t1) : Keeps s (@State.handoverStep t1) := by
  delta State.handoverStep
  split
  · exact h1
  · extract_lets -merge -underBinder +onlyGivenNames x2
    exact ite_inv (ite_inv (State.handoverEnd_keeps h1) h1) (ite_inv (ite_inv (State.handoverStart_keeps h1) (State.stopAlone_keeps (upd_keeps h1))) h1)

theorem State.serviceReset_keeps {s : State} {t1 : State} (h1 : Keeps s t1) {a2} : Keeps s (@State.serviceReset t1 a2) := by
  delta State.serviceReset
  extract_lets -merge -underBinder +onlyGivenNames x3
  extract_lets -merge -underBinder +onlyGivenNames x4
  have h4 : Keeps s (x4) := State.moduleReset_keeps h1
  exact upd_keeps h4

theorem State.trialBegins_keeps {s : State} {t1 : State} (h1 : Keeps s t1) : Keeps s (@State.trialBegins t1) := by
  delta State.trialBegins
  split
  · exact upd_keeps h1
  · exact h1

theorem State.bootEnd_keeps {s : State} {t1 : State} (h1 : Keeps s t1) : Keeps s (@State.bootEnd t1) := by
  delta State.bootEnd
  refine ite_inv ?_ ?_
  · extract_lets -merge -underBinder +onlyGivenNames x2
    have h2 : Keeps s (x2) := State.trialBegins_keeps h1
    extract_lets -merge -underBinder +onlyGivenNames x3
    have h3 : Keeps s (x3) := State.fput_keeps h2
    exact State.raise_keeps (upd_keeps h3)
  · exact h1

theorem State.stopAccepted_keeps {s : State} {t1 : State} (h1 : Keeps s t1) {a2} : Keeps s (@State.stopAccepted t1 a2) := by
  delta State.stopAccepted
  extract_lets -merge -underBinder +onlyGivenNames x3
  have h3 : Keeps s (x3) := State.canStop_keeps (State.cancelJobs_keeps h1)
  exact State.bootEnd_keeps (State.setMode_keeps (upd_keeps h3))

theorem State.enterDormant_keeps {s : State} {t1 : State} (h1 : Keeps s t1) {a2} : Keeps s (@State.enterDormant t1 a2) := by
  delta State.enterDormant
  exact State.setMode_keeps (State.outputsOff_keeps (State.traceEnd_keeps (State.canStop_keeps (State.cancelJobs_keeps (State.stopAll_keeps h1)))))

theorem State.refuseExec_keeps {s : State} {t1 : State} (h1 : Keeps s t1) {a2} {a3} : Keeps s (@State.refuseExec t1 a2 a3) := by
  delta State.refuseExec
  extract_lets -merge -underBinder +onlyGivenNames x4
  have h4 : Keeps s (x4) := ite_inv (State.raiseRefusal_keeps (State.setFlag_keeps h1)) (State.raiseRefusal_keeps h1)
  exact ite_inv (State.bootEnd_keeps (State.enterStop_keeps h4)) h4

theorem State.takeRole_keeps {s : State} {t1 : State} (h1 : Keeps s t1) : Keeps s (@State.takeRole t1) := by
  delta State.takeRole
  refine ite_inv ?_ ?_
  · extract_lets -merge -underBinder +onlyGivenNames x2 x3
    have h3 : Keeps s (x3) := upd_keeps h1
    exact State.fput_keeps (State.fput_keeps h3)
  · exact h1

theorem State.startExec_keeps {s : State} {t1 : State} (h1 : Keeps s t1) {a2} {a3} {a4} : Keeps s (@State.startExec t1 a2 a3 a4) := by
  delta State.startExec
  exact ite_inv (State.refuseExec_keeps h1) (ite_inv (State.bootEnd_keeps (State.enterTrack_keeps (State.classesBegin_keeps (State.restart_keeps h1)))) (State.enterExec_keeps (State.takeRole_keeps (State.classesBegin_keeps (State.restart_keeps h1)))))

theorem State.applyMode_keeps {s : State} {t1 : State} (h1 : Keeps s t1) {a2} {a3} {a4} {a5} : Keeps s (@State.applyMode t1 a2 a3 a4 a5) := by
  delta State.applyMode
  extract_lets -merge -underBinder +onlyGivenNames x6
  exact ite_inv (State.serviceReset_keeps h1) (ite_inv h1 (ite_inv (State.stopAccepted_keeps h1) (ite_inv (State.bootEnd_keeps (State.enterTrack_keeps (State.classesBegin_keeps (State.restart_keeps h1)))) (ite_inv (State.traceEnd_keeps (State.setMode_keeps h1)) (ite_inv (State.enterDormant_keeps h1) (ite_inv (State.enterExec_keeps h1) (ite_inv (State.startExec_keeps h1) h1)))))))

theorem State.announcedStep_keeps {s : State} {t1 : State} (h1 : Keeps s t1) : Keeps s (@State.announcedStep t1) := by
  delta State.announcedStep
  split
  · refine ite_inv ?_ ?_
    · extract_lets -merge -underBinder +onlyGivenNames x2 x3
      have h3 : Keeps s (x3) := upd_keeps h1
      exact State.applyMode_keeps h3
    · exact h1
  · exact h1

theorem State.changeStep_keeps {s : State} {t1 : State} (h1 : Keeps s t1) : Keeps s (@State.changeStep t1) := by
  delta State.changeStep
  split
  · exact h1
  · exact ite_inv (State.applyMode_keeps (upd_keeps h1)) h1

theorem State.c0Step_keeps {s : State} {t1 : State} (h1 : Keeps s t1) : Keeps s (@State.c0Step t1) := by
  delta State.c0Step
  extract_lets -merge -underBinder +onlyGivenNames x2
  have h2 : Keeps s (x2) := State.takeFilters_keeps h1
  extract_lets -merge -underBinder +onlyGivenNames x3
  have h3 : Keeps s (x3) := ite_inv (State.snapshot_keeps h2) h2
  extract_lets -merge -underBinder +onlyGivenNames x4
  have h4 : Keeps s (x4) := State.lockStep_keeps (State.handoverStep_keeps h3)
  exact ite_inv (State.activationReset_keeps h4) (State.announcedStep_keeps (State.changeStep_keeps h4))

theorem State.putEntry_keeps {s : State} {t1 : State} (h1 : Keeps s t1) {a2} {a3} : Keeps s (@State.putEntry t1 a2 a3) := by
  delta State.putEntry
  extract_lets -merge -underBinder +onlyGivenNames x4
  have h4 : Keeps s (x4) := upd_keeps h1
  exact ite_inv (State.swSet_keeps h4) h4

theorem State.putSetting_keeps {s : State} {t1 : State} (h1 : Keeps s t1) {a2} {a3} : Keeps s (@State.putSetting t1 a2 a3) := by
  delta State.putSetting
  exact State.rset_keeps h1

theorem State.setStages_keeps {s : State} {t1 : State} (h1 : Keeps s t1) {a2} {a3} : Keeps s (@State.setStages t1 a2 a3) := by
  delta State.setStages
  exact State.fput_keeps (State.setPipe_keeps h1)

theorem State.dropForces_keeps {s : State} {t1 : State} (h1 : Keeps s t1) {a2} : Keeps s (@State.dropForces t1 a2) := by
  delta State.dropForces
  extract_lets -merge -underBinder +onlyGivenNames x3
  exact each_inv h1 (fun _ h4 _ => State.unforce_keeps h4)

theorem State.cancelDeferred_keeps {s : State} {t1 : State} (h1 : Keeps s t1) {a2} : Keeps s (@State.cancelDeferred t1 a2) := by
  delta State.cancelDeferred
  exact each_inv h1 (fun _ h3 _ => by
    extract_lets -merge -underBinder +onlyGivenNames x4
    extract_lets -merge -underBinder +onlyGivenNames x5
    extract_lets -merge -underBinder +onlyGivenNames x6
    have h6 : Keeps s (x6) := State.fput_keeps h3
    exact State.setEngine_keeps h6)

theorem State.editSwap_keeps {s : State} {t1 : State} (h1 : Keeps s t1) {a2} : Keeps s (@State.editSwap t1 a2) := by
  delta State.editSwap
  split
  · exact h1
  · extract_lets -merge -underBinder +onlyGivenNames x3
    extract_lets -merge -underBinder +onlyGivenNames x4
    extract_lets -merge -underBinder +onlyGivenNames x5
    extract_lets -merge -underBinder +onlyGivenNames x6
    have h6 : Keeps s (x6) := State.relocate_keeps h1
    extract_lets -merge -underBinder +onlyGivenNames x7
    have h7 : Keeps s (x7) := each_inv h6 (fun _ h8 _ => upd_keeps h8)
    extract_lets -merge -underBinder +onlyGivenNames x9
    have h9 : Keeps s (x9) := each_inv h7 (fun _ h10 _ => State.putEntry_keeps h10)
    extract_lets -merge -underBinder +onlyGivenNames x11
    have h11 : Keeps s (x11) := each_inv h9 (fun _ h12 _ => State.fput_keeps h12)
    extract_lets -merge -underBinder +onlyGivenNames x13
    have h13 : Keeps s (x13) := ite_inv (each_inv h11 (fun _ h14 _ => State.putSetting_keeps h14)) h11
    extract_lets -merge -underBinder +onlyGivenNames x15
    have h15 : Keeps s (x15) := ite_inv (each_inv h13 (fun _ h16 _ => State.setStages_keeps h16)) h13
    extract_lets -merge -underBinder +onlyGivenNames x17
    have h17 : Keeps s (x17) := upd_keeps h15
    extract_lets -merge -underBinder +onlyGivenNames x18
    have h18 : Keeps s (x18) := State.dropForces_keeps (State.cancelDeferred_keeps h17)
    extract_lets -merge -underBinder +onlyGivenNames x19 x20 x21
    have h21 : Keeps s (x21) := upd_keeps h18
    extract_lets -merge -underBinder +onlyGivenNames x22
    have h22 : Keeps s (x22) := ite_inv (State.send_keeps h21) h21
    exact State.fput_keeps (State.showBeam_keeps (State.showTable_keeps (State.showLoad_keeps h22)))

theorem State.tkoFirst_keeps {s : State} {t1 : State} (h1 : Keeps s t1) {a2} : Keeps s (@State.tkoFirst t1 a2) := by
  delta State.tkoFirst
  split
  · refine ite_inv ?_ ?_
    · extract_lets -merge -underBinder +onlyGivenNames x3
      have h3 : Keeps s (x3) := ite_inv (State.fput_keeps h1) h1
      exact State.takeoverOver_keeps (upd_keeps h3)
    · exact h1
  · exact h1

theorem State.latchReadback_keeps {s : State} {t1 : State} (h1 : Keeps s t1) {a2} {a3} : Keeps s (@State.latchReadback t1 a2 a3) := by
  delta State.latchReadback
  exact each_inv h1 (fun _ h4 _ => by
    extract_lets -merge -underBinder +onlyGivenNames x5
    split
    · exact ite_inv (State.setLatch_keeps (State.fput_keeps h4)) h4
    · exact State.setLatch_keeps h4)

theorem State.latchClass_keeps {s : State} {t1 : State} (h1 : Keeps s t1) {a2} {a3} {a4} {a5} {a6} : Keeps s (@State.latchClass t1 a2 a3 a4 a5 a6) := by
  delta State.latchClass
  extract_lets -merge -underBinder +onlyGivenNames x7
  have h7 : Keeps s (x7) := State.fput_keeps (State.modCls_keeps h1)
  extract_lets -merge -underBinder +onlyGivenNames x8
  have h8 : Keeps s (x8) := State.latchReadback_keeps (State.dioLatch_keeps h7)
  exact each_inv h8 (fun _ h9 _ => State.seCompare_keeps h9)

theorem State.cycleExec_keeps {s : State} {t1 : State} (h1 : Keeps s t1) {a2} {a3} {a4} {a5} {a6} : Keeps s (@State.cycleExec t1 a2 a3 a4 a5 a6) := by
  delta State.cycleExec
  extract_lets -merge -underBinder +onlyGivenNames x7
  extract_lets -merge -underBinder +onlyGivenNames x8
  have h8 : Keeps s (x8) := State.modCls_keeps h1
  extract_lets -merge -underBinder +onlyGivenNames x9
  have h9 : Keeps s (x9) := ite_inv (State.editSwap_keeps h8) h8
  extract_lets -merge -underBinder +onlyGivenNames x10
  have h10 : Keeps s (x10) := State.setFlag_keeps h9
  extract_lets -merge -underBinder +onlyGivenNames x11
  have h11 : Keeps s (x11) := ite_inv (State.bootEnd_keeps h10) h10
  extract_lets -merge -underBinder +onlyGivenNames x12
  have h12 : Keeps s (x12) := State.tkoFirst_keeps (State.wdgCycle_keeps (State.noteCycle_keeps (State.timersContinue_keeps h11)))
  exact State.latchClass_keeps h12

theorem State.cycleSkip_keeps {s : State} {t1 : State} (h1 : Keeps s t1) {a2} : Keeps s (@State.cycleSkip t1 a2) := by
  delta State.cycleSkip
  extract_lets -merge -underBinder +onlyGivenNames x3
  have h3 : Keeps s (x3) := State.modCls_keeps h1
  exact State.fput_keeps (State.setFlag_keeps h3)

theorem State.idleSwap_keeps {s : State} {t1 : State} (h1 : Keeps s t1) {a2} : Keeps s (@State.idleSwap t1 a2) := by
  delta State.idleSwap
  exact ite_inv (ite_inv (State.editSwap_keeps h1) h1) (ite_inv (each_inv h1 (fun _ h3 _ => State.editFirst_keeps (State.editSwap_keeps h3))) h1)

theorem State.cycleBody_keeps {s : State} {t1 : State} (h1 : Keeps s t1) {a2} {a3} {a4} {a5} {a6} : Keeps s (@State.cycleBody t1 a2 a3 a4 a5 a6) := by
  delta State.cycleBody
  extract_lets -merge -underBinder +onlyGivenNames x7
  refine ite_inv ?_ ?_
  · exact h1
  · refine ite_inv ?_ ?_
    · exact ite_inv h1 (ite_inv (ite_inv (State.cycleExec_keeps h1) h1) (ite_inv (State.cycleSkip_keeps h1) (State.cycleExec_keeps h1)))
    · refine ite_inv ?_ ?_
      · extract_lets -merge -underBinder +onlyGivenNames x8
        have h8 : Keeps s (x8) := State.idleSwap_keeps h1
        exact ite_inv (State.latchClass_keeps h8) h8
      · exact h1

theorem State.editBack_keeps {s : State} {t1 : State} (h1 : Keeps s t1) {a2} {a3} : Keeps s (@State.editBack t1 a2 a3) := by
  delta State.editBack
  split
  · exact h1
  · extract_lets -merge -underBinder +onlyGivenNames x4
    extract_lets -merge -underBinder +onlyGivenNames x5
    extract_lets -merge -underBinder +onlyGivenNames x6 x7 x8
    have h6 : Keeps s (x6) := each_inv h1 (fun _ h9 _ => State.mset_keeps h9)
    have h7 : Keeps s (x7) := img_keeps h6 (fun w => each_inv (P := fun m => imgWf m = true) w (fun _ h _ => imgSet_wf h))
    have h8 : Keeps s (x8) := ite_inv (each_inv h7 (fun _ h10 _ => State.placePut_keeps h10)) h1
    extract_lets -merge -underBinder +onlyGivenNames x11
    extract_lets -merge -underBinder +onlyGivenNames x12
    have h12 : Keeps s (x12) := each_inv h8 (fun _ h13 _ => upd_keeps h13)
    extract_lets -merge -underBinder +onlyGivenNames x14
    have h14 : Keeps s (x14) := each_inv h12 (fun _ h15 _ => State.putEntry_keeps h15)
    extract_lets -merge -underBinder +onlyGivenNames x16
    have h16 : Keeps s (x16) := each_inv h14 (fun _ h17 _ => upd_keeps h17)
    extract_lets -merge -underBinder +onlyGivenNames x18
    have h18 : Keeps s (x18) := each_inv h16 (fun _ h19 _ => State.rset_keeps h19)
    extract_lets -merge -underBinder +onlyGivenNames x20
    have h20 : Keeps s (x20) := each_inv h18 (fun _ h21 _ => State.setStages_keeps h21)
    extract_lets -merge -underBinder +onlyGivenNames x22
    have h22 : Keeps s (x22) := upd_keeps h20
    extract_lets -merge -underBinder +onlyGivenNames x23 x24
    have h24 : Keeps s (x24) := upd_keeps h22
    exact State.showBeam_keeps (State.showTable_keeps (State.showLoad_keeps (State.dropForces_keeps h24)))

theorem State.editRevert_keeps {s : State} {t1 : State} (h1 : Keeps s t1) {a2} : Keeps s (@State.editRevert t1 a2) := by
  delta State.editRevert
  refine ite_inv ?_ ?_
  · extract_lets -merge -underBinder +onlyGivenNames x3
    have h3 : Keeps s (x3) := State.editBack_keeps h1
    exact ite_inv (State.editClear_keeps h3) h3
  · exact h1

theorem State.forceApply_keeps {s : State} {t1 : State} (h1 : Keeps s t1) {a2} : Keeps s (@State.forceApply t1 a2) := by
  delta State.forceApply
  refine ite_inv ?_ ?_
  · exact h1
  · split
    · exact State.unforce_keeps h1
    · exact ite_inv h1 (State.forceEvent_keeps (State.forceShow_keeps (upd_keeps h1)))

theorem State.forceStep_keeps {s : State} {t1 : State} (h1 : Keeps s t1) {a2} : Keeps s (@State.forceStep t1 a2) := by
  delta State.forceStep
  extract_lets -merge -underBinder +onlyGivenNames x3
  extract_lets -merge -underBinder +onlyGivenNames x4
  extract_lets -merge -underBinder +onlyGivenNames x5
  have h5 : Keeps s (x5) := upd_keeps h1
  exact each_inv h5 (fun _ h _ => State.forceApply_keeps h)

theorem State.traceStarts_keeps {s : State} {t1 : State} (h1 : Keeps s t1) {a2} : Keeps s (@State.traceStarts t1 a2) := by
  delta State.traceStarts
  split
  · extract_lets -merge -underBinder +onlyGivenNames x3
    extract_lets -merge -underBinder +onlyGivenNames x4
    extract_lets -merge -underBinder +onlyGivenNames x5
    refine ite_inv ?_ ?_
    · extract_lets -merge -underBinder +onlyGivenNames x6
      have h6 : Keeps s (x6) := State.setBit_keeps (State.setFlag_keeps h1)
      extract_lets -merge -underBinder +onlyGivenNames x7
      have h7 : Keeps s (x7) := State.raise_keeps h6
      exact upd_keeps h7
    · exact h1
  · exact h1

theorem State.traceChecked_keeps {s : State} {t1 : State} (h1 : Keeps s t1) {a2} : Keeps s (@State.traceChecked t1 a2) := by
  delta State.traceChecked
  split
  · refine ite_inv ?_ ?_
    · extract_lets -merge -underBinder +onlyGivenNames x3
      have h3 : Keeps s (x3) := State.raise_keeps (State.setBit_keeps h1)
      exact upd_keeps h3
    · exact h1
  · exact h1

theorem execCycleStart_keeps {s : State} {a1} {a2} {a3} {a4} {t5 : State} (h5 : Keeps s t5) : KeepsO s (@execCycleStart a1 a2 a3 a4 t5) := by
  delta execCycleStart
  refine ite_inv ?_ ?_
  · extract_lets -merge -underBinder +onlyGivenNames x6
    have h6 : Keeps s (x6) := State.showReady_keeps (State.newCycle_keeps h5)
    extract_lets -merge -underBinder +onlyGivenNames x7
    have h7 : Keeps s (x7) := ite_inv (State.c0Step_keeps h6) h6
    exact ite_inv (State.cycleBody_keeps (State.editRevert_keeps (State.forceStep_keeps (State.traceStarts_keeps (State.traceChecked_keeps h7))))) h7
  · exact h5

theorem State.takeSnap_keeps {s : State} {t1 : State} (h1 : Keeps s t1) {a2} : Keeps s (@State.takeSnap t1 a2) := by
  delta State.takeSnap
  extract_lets -merge -underBinder +onlyGivenNames x3
  have h3 : Keeps s (x3) := State.released_keeps h1
  exact each_inv h1 (fun _ h4 _ => by
    extract_lets -merge -underBinder +onlyGivenNames x5
    exact ite_inv (State.setCls_keeps h4) h4)

theorem State.ucLatch_keeps {s : State} {t1 : State} (h1 : Keeps s t1) {a2} {a3} : Keeps s (@State.ucLatch t1 a2 a3) := by
  delta State.ucLatch
  extract_lets -merge -underBinder +onlyGivenNames x4
  extract_lets -merge -underBinder +onlyGivenNames x5
  split
  · exact State.setLatch_keeps (State.countG_keeps h1)
  · refine ite_inv ?_ ?_
    · split
      · rename_i v6_1 v6_2 q6
        have h6 : Keeps s (v6_1) := ofEq_inv (P := KeepsP s) (State.ucSample_keeps h1) q6
        exact State.setLatch_keeps h6
      · exact State.setLatch_keeps h1
    · extract_lets -merge -underBinder +onlyGivenNames x7
      split
      · exact State.setLatch_keeps h1
      · exact State.setLatch_keeps h1

theorem State.putItem_keeps {s : State} {t1 : State} (h1 : Keeps s t1) {a2} {a3} {a4} : Keeps s (@State.putItem t1 a2 a3 a4) := by
  delta State.putItem
  refine ite_inv ?_ ?_
  · extract_lets -merge -underBinder +onlyGivenNames x5
    exact img_keeps h1 (fun w => imgMask_wf w)
  · exact img_keeps h1 (fun w => each_inv (P := fun m => imgWf m = true) w (fun _ h _ => imgSet_wf h))

theorem State.shedEntry_keeps {s : State} {t1 : State} (h1 : Keeps s t1) {a2} {a3} {a4} : Keeps s (@State.shedEntry t1 a2 a3 a4) := by
  delta State.shedEntry
  extract_lets -merge -underBinder +onlyGivenNames x5
  extract_lets -merge -underBinder +onlyGivenNames x6
  extract_lets -merge -underBinder +onlyGivenNames x7
  extract_lets -merge -underBinder +onlyGivenNames x8
  extract_lets -merge -underBinder +onlyGivenNames x9
  extract_lets -merge -underBinder +onlyGivenNames x10
  extract_lets -merge -underBinder +onlyGivenNames x11
  extract_lets -merge -underBinder +onlyGivenNames x12
  extract_lets -merge -underBinder +onlyGivenNames x13
  extract_lets -merge -underBinder +onlyGivenNames x14
  extract_lets -merge -underBinder +onlyGivenNames x15
  extract_lets -merge -underBinder +onlyGivenNames x16
  have h16 : Keeps s (x16) := upd_keeps h1
  extract_lets -merge -underBinder +onlyGivenNames x17
  have h17 : Keeps s (x17) := each_inv h16 (fun _ h18 _ => by
    extract_lets -merge -underBinder +onlyGivenNames x19
    exact State.putItem_keeps h18)
  exact State.swSet_keeps h17

theorem State.beatsClear_keeps {s : State} {t1 : State} (h1 : Keeps s t1) {a2} : Keeps s (@State.beatsClear t1 a2) := by
  delta State.beatsClear
  extract_lets -merge -underBinder +onlyGivenNames x3
  have h3 : Keeps s (x3) := State.rset64_keeps (State.rset64_keeps h1)
  exact State.modCls_keeps h3

theorem State.closeWindows_keeps {s : State} {t1 : State} (h1 : Keeps s t1) {a2} : Keeps s (@State.closeWindows t1 a2) := by
  delta State.closeWindows
  extract_lets -merge -underBinder +onlyGivenNames x3
  extract_lets -merge -underBinder +onlyGivenNames x4
  have h4 : Keeps s (x4) := each_inv h1 (fun _ h5 _ => ite_inv (State.setStream_keeps h5) h5)
  extract_lets -merge -underBinder +onlyGivenNames x6
  have h6 : Keeps s (x6) := each_inv h4 (fun _ h7 _ => by
    extract_lets -merge -underBinder +onlyGivenNames x8
    extract_lets -merge -underBinder +onlyGivenNames x9
    extract_lets -merge -underBinder +onlyGivenNames x10
    have h10 : Keeps s (x10) := by
      unfold x10
      split
      · exact State.mbStore_keeps h7
      · exact h7
    extract_lets -merge -underBinder +onlyGivenNames x11
    extract_lets -merge -underBinder +onlyGivenNames x12
    exact State.setFlag_keeps (State.setMb_keeps h10))
  exact State.modCls_keeps h6

theorem State.imageInteg_keeps {s : State} {t1 : State} (h1 : Keeps s t1) {a2} : Keeps s (@State.imageInteg t1 a2) := by
  delta State.imageInteg
  extract_lets -merge -underBinder +onlyGivenNames x3
  extract_lets -merge -underBinder +onlyGivenNames x4
  extract_lets -merge -underBinder +onlyGivenNames x5
  have h5 : Keeps s (x5) := upd_keeps h1
  exact ite_inv h5 (State.enterSafe_keeps h5)

theorem State.shedClass_keeps {s : State} {t1 : State} (h1 : Keeps s t1) {a2} : Keeps s (@State.shedClass t1 a2) := by
  delta State.shedClass
  extract_lets -merge -underBinder +onlyGivenNames x3
  have h3 : Keeps s (x3) := State.takeSnap_keeps h1
  extract_lets -merge -underBinder +onlyGivenNames x4
  extract_lets -merge -underBinder +onlyGivenNames x5
  extract_lets -merge -underBinder +onlyGivenNames x6
  have h6 : Keeps s (x6) := each_inv h3 (fun _ h7 _ => State.ucLatch_keeps h7)
  extract_lets -merge -underBinder +onlyGivenNames x8
  have h8 : Keeps s (x8) := each_inv h6 (fun _ h9 _ => State.shedEntry_keeps h9)
  extract_lets -merge -underBinder +onlyGivenNames x10
  have h10 : Keeps s (x10) := State.modCls_keeps (State.beatsClear_keeps (State.closeWindows_keeps h8))
  extract_lets -merge -underBinder +onlyGivenNames x11
  have h11 : Keeps s (x11) := ite_inv h10 (State.fput_keeps h10)
  exact State.imageInteg_keeps h11

theorem State.weaveStart_keeps {s : State} {t1 : State} (h1 : Keeps s t1) {a2} : Keeps s (@State.weaveStart t1 a2) := by
  delta State.weaveStart
  extract_lets -merge -underBinder +onlyGivenNames x3
  extract_lets -merge -underBinder +onlyGivenNames x4
  have h4 : Keeps s (x4) := State.fput_keeps (State.setCls_keeps h1)
  extract_lets -merge -underBinder +onlyGivenNames x5
  have h5 : Keeps s (x5) := each_inv h4 (fun _ h6 _ => by
    extract_lets -merge -underBinder +onlyGivenNames x7
    extract_lets -merge -underBinder +onlyGivenNames x8
    have h8 : Keeps s (x8) := State.modStrand_keeps (State.weaveStrand_keeps h6)
    exact State.btStart_keeps h8)
  exact State.checkLastEndc_keeps h5

theorem execShed_keeps {s : State} {a1} {t2 : State} (h2 : Keeps s t2) : KeepsO s (@execShed a1 t2) := by
  delta execShed
  extract_lets -merge -underBinder +onlyGivenNames x3
  refine ite_inv ?_ ?_
  · exact h2
  · extract_lets -merge -underBinder +onlyGivenNames x4
    have h4 : Keeps s (x4) := State.shedClass_keeps h2
    exact ite_inv (State.weaveStart_keeps h4) h4

theorem execBeamStart_keeps {s : State} {a1} {t2 : State} (h2 : Keeps s t2) : KeepsO s (@execBeamStart a1 t2) := by
  delta execBeamStart
  split
  · refine ite_inv ?_ ?_
    · exact h2
    · extract_lets -merge -underBinder +onlyGivenNames x3
      have h3 : Keeps s (x3) := State.fput_keeps (State.modCls_keeps h2)
      extract_lets -merge -underBinder +onlyGivenNames x4
      exact ite_inv (upd_keeps h3) h3
  · exact h2

theorem State.commitStatus_keeps {s : State} {t1 : State} (h1 : Keeps s t1) {a2} : Keeps s (@State.commitStatus t1 a2) := by
  delta State.commitStatus
  exact each_inv h1 (fun _ h3 _ => by
    extract_lets -merge -underBinder +onlyGivenNames x4
    extract_lets -merge -underBinder +onlyGivenNames x5
    exact State.swSet_keeps h3)

theorem State.commitForces_keeps {s : State} {t1 : State} (h1 : Keeps s t1) {a2} : Keeps s (@State.commitForces t1 a2) :=
  img_keeps h1 (fun w => forceImage_wf w)

theorem State.mergeStages_keeps {s : State} {t1 : State} (h1 : Keeps s t1) {a2} : Keeps s (@State.mergeStages t1 a2) := by
  delta State.mergeStages
  refine each_inv h1 (fun u h a => ?_)
  extract_lets img v
  have h2 : Keeps s v := img_keeps h (fun w => forceImage_wf (overImage_wf w))
  split
  · exact State.obsPush_keeps h2
  · exact h2

theorem State.deliverStream_keeps {s : State} {t1 : State} (h1 : Keeps s t1) {a2} {a3} : Keeps s (Prod.fst (@State.deliverStream t1 a2 a3)) := by
  delta State.deliverStream
  extract_lets -merge -underBinder +onlyGivenNames x4
  extract_lets -merge -underBinder +onlyGivenNames x5
  split
  · extract_lets -merge -underBinder +onlyGivenNames x6
    have h6 : Keeps s (x6) := State.setStream_keeps h1
    exact fst_inv (P := Keeps s) (State.hardPut_keeps h6)
  · exact fst_inv (P := Keeps s) (State.hardPut_keeps h1)

theorem State.deliverStreams_keeps {s : State} {t1 : State} (h1 : Keeps s t1) {a2} {a3} : Keeps s (Prod.fst (@State.deliverStreams t1 a2 a3)) := by
  delta State.deliverStreams
  exact foldl1_inv h1 (fun _ h4 _ => by
    extract_lets -merge -underBinder +onlyGivenNames x5
    have h5 : Keeps s (Prod.fst (x5)) := State.deliverStream_keeps h4
    exact h5)

theorem State.commitRetentive_keeps {s : State} {t1 : State} (h1 : Keeps s t1) {a2} : Keeps s (@State.commitRetentive t1 a2) := by
  delta State.commitRetentive
  extract_lets -merge -underBinder +onlyGivenNames x3
  extract_lets -merge -underBinder +onlyGivenNames x4
  have h4 : Keeps s (x4) := each_inv h1 (fun _ h5 _ => State.keepWrite_keeps h5)
  extract_lets -merge -underBinder +onlyGivenNames x6 x7
  have h7 : Keeps s (x7) := upd_keeps h4
  extract_lets -merge -underBinder +onlyGivenNames x8
  have h8 : Keeps s (x8) := ite_inv h7 (State.showDirty_keeps h7)
  exact ite_inv (upd_keeps h8) h8

theorem State.commitClass_keeps {s : State} {t1 : State} (h1 : Keeps s t1) {a2} : Keeps s (@State.commitClass t1 a2) := by
  delta State.commitClass
  extract_lets -merge -underBinder +onlyGivenNames x3
  extract_lets -merge -underBinder +onlyGivenNames x4
  extract_lets -merge -underBinder +onlyGivenNames x5
  extract_lets -merge -underBinder +onlyGivenNames x6
  have h6 : Keeps s (x6) := upd_keeps h1
  extract_lets -merge -underBinder +onlyGivenNames x7
  have h7 : Keeps s (x7) := State.commitStatus_keeps (State.commitForces_keeps (State.mergeStages_keeps h6))
  extract_lets -merge -underBinder +onlyGivenNames x8
  have h8 : Keeps s (Prod.fst (x8)) := State.deliverJobs_keeps h7
  extract_lets -merge -underBinder +onlyGivenNames x9
  have h9 : Keeps s (Prod.fst (x9)) := State.deliverStreams_keeps h8
  extract_lets -merge -underBinder +onlyGivenNames x10
  have h10 : Keeps s (x10) := State.commitRetentive_keeps h9
  extract_lets -merge -underBinder +onlyGivenNames x11
  extract_lets -merge -underBinder +onlyGivenNames x12
  have h12 : Keeps s (x12) := State.countG_keeps (State.fput_keeps h10)
  extract_lets -merge -underBinder +onlyGivenNames x13
  have h13 : Keeps s (x13) := each_inv h12 (fun _ h14 _ => State.modStrand_keeps h14)
  exact ite_inv (upd_keeps h13) h13

theorem State.setHbeam_keeps {s : State} {t1 : State} (h1 : Keeps s t1) {a2} {a3} : Keeps s (@State.setHbeam t1 a2 a3) := by
  delta State.setHbeam
  exact upd_keeps h1

theorem State.takeExports_keeps {s : State} {t1 : State} (h1 : Keeps s t1) {a2} : Keeps s (@State.takeExports t1 a2) := by
  delta State.takeExports
  extract_lets -merge -underBinder +onlyGivenNames x3
  exact each_inv h1 (fun _ h4 _ => by
    extract_lets -merge -underBinder +onlyGivenNames x5
    have h5 : Keeps s (x5) := img_keeps h4 (fun w => each_inv (P := fun m => imgWf m = true) w (fun _ h _ => imgMask_wf h))
    extract_lets -merge -underBinder +onlyGivenNames x6
    have h6 : Keeps s (x6) := each_inv h5 (fun _ h7 _ => State.swSet_keeps h7)
    exact each_inv h6 (fun _ h8 _ => upd_keeps h8))

theorem State.noteSlack_keeps {s : State} {t1 : State} (h1 : Keeps s t1) {a2} : Keeps s (@State.noteSlack t1 a2) := by
  delta State.noteSlack
  extract_lets -merge -underBinder +onlyGivenNames x3
  exact upd_keeps h1

theorem State.traceCycle_keeps {s : State} {t1 : State} (h1 : Keeps s t1) {a2} : Keeps s (@State.traceCycle t1 a2) := by
  delta State.traceCycle
  refine ite_inv ?_ ?_
  · extract_lets -merge -underBinder +onlyGivenNames x3 x4
    have h4 : Keeps s (x4) := upd_keeps h1
    exact ite_inv (State.traceEnd_keeps h4) h4
  · exact h1

theorem State.shuttleStart_keeps {s : State} {t1 : State} (h1 : Keeps s t1) {a2} : Keeps s (@State.shuttleStart t1 a2) := by
  delta State.shuttleStart
  refine ite_inv ?_ ?_
  · extract_lets -merge -underBinder +onlyGivenNames x3
    extract_lets -merge -underBinder +onlyGivenNames x4
    extract_lets -merge -underBinder +onlyGivenNames x5
    extract_lets -merge -underBinder +onlyGivenNames x6
    extract_lets -merge -underBinder +onlyGivenNames x7
    exact upd_keeps h1
  · exact h1

theorem State.buildFrames_keeps {s : State} {t1 : State} (h1 : Keeps s t1) {a2} {a3} {a4} {a5} : Keeps s (@State.buildFrames t1 a2 a3 a4 a5) := by
  delta State.buildFrames
  exact State.canBuild_keeps (State.buildStreams_keeps h1)

theorem State.editPrepare_keeps {s : State} {t1 : State} (h1 : Keeps s t1) {a2} : Keeps s (@State.editPrepare t1 a2) := by
  delta State.editPrepare
  split
  · exact h1
  · extract_lets -merge -underBinder +onlyGivenNames x3
    have h3 : Keeps s (x3) := State.journalMark_keeps (State.rset64_keeps h1)
    exact upd_keeps h3

theorem State.editArm_keeps {s : State} {t1 : State} (h1 : Keeps s t1) : Keeps s (@State.editArm t1) := by
  delta State.editArm
  split
  · exact h1
  · exact State.raise_keeps (State.fput_keeps h1)

theorem State.editPropose_keeps {s : State} {t1 : State} (h1 : Keeps s t1) : Keeps s (@State.editPropose t1) := by
  delta State.editPropose
  split
  · exact h1
  · extract_lets -merge -underBinder +onlyGivenNames x2
    extract_lets -merge -underBinder +onlyGivenNames x3
    have h3 : Keeps s (x3) := State.editPrepare_keeps (State.stopTrial_keeps h1)
    extract_lets -merge -underBinder +onlyGivenNames x4
    have h4 : Keeps s (x4) := ite_inv (State.send_keeps h3) h3
    exact ite_inv (State.send_keeps (State.fput_keeps h4)) (State.editArm_keeps h4)

theorem State.proofEnds_keeps {s : State} {t1 : State} (h1 : Keeps s t1) {a2} : Keeps s (@State.proofEnds t1 a2) := by
  delta State.proofEnds
  split
  · exact h1
  · extract_lets -merge -underBinder +onlyGivenNames x3
    have h3 : Keeps s (x3) := State.fput_keeps (State.stopTrial_keeps h1)
    extract_lets -merge -underBinder +onlyGivenNames x4
    have h4 : Keeps s (x4) := State.raise_keeps h3
    exact ite_inv (State.editPropose_keeps h4) h4

theorem State.dryStart_keeps {s : State} {t1 : State} (h1 : Keeps s t1) {a2} : Keeps s (@State.dryStart t1 a2) := by
  delta State.dryStart
  split
  · exact h1
  · extract_lets -merge -underBinder +onlyGivenNames x3
    extract_lets -merge -underBinder +onlyGivenNames x4
    refine ite_inv ?_ ?_
    · refine ite_inv ?_ ?_
      · exact State.proofEnds_keeps h1
      · extract_lets -merge -underBinder +onlyGivenNames x5
        have h5 : Keeps s (x5) := State.setProof_keeps h1
        extract_lets -merge -underBinder +onlyGivenNames x6
        refine ite_inv ?_ ?_
        · extract_lets -merge -underBinder +onlyGivenNames x7
          have h7 : Keeps s (x7) := State.relocate_keeps h5
          extract_lets -merge -underBinder +onlyGivenNames x8
          have h8 : Keeps s (x8) := State.setWorld_keeps (State.scratchFrom_keeps h5 h7)
          exact State.trialStart_keeps h8
        · exact h5
    · exact h1

theorem State.beamEnd_keeps {s : State} {t1 : State} (h1 : Keeps s t1) {a2} : Keeps s (@State.beamEnd t1 a2) := by
  delta State.beamEnd
  extract_lets -merge -underBinder +onlyGivenNames x3
  extract_lets -merge -underBinder +onlyGivenNames x4
  extract_lets -merge -underBinder +onlyGivenNames x5
  extract_lets -merge -underBinder +onlyGivenNames x6
  have h6 : Keeps s (x6) := State.fput_keeps (State.setCls_keeps h1)
  extract_lets -merge -underBinder +onlyGivenNames x7
  have h7 : Keeps s (x7) := State.fput_keeps h6
  extract_lets -merge -underBinder +onlyGivenNames x8
  have h8 : Keeps s (x8) := State.fput_keeps (State.fput_keeps h7)
  extract_lets -merge -underBinder +onlyGivenNames x9
  have h9 : Keeps s (x9) := State.noteSlack_keeps (State.countG_keeps h8)
  extract_lets -merge -underBinder +onlyGivenNames x10
  have h10 : Keeps s (x10) := State.activationCopy_keeps (State.traceCycle_keeps (State.editFirst_keeps h9))
  extract_lets -merge -underBinder +onlyGivenNames x11
  have h11 : Keeps s (x11) := ite_inv (State.trialCount_keeps h10) h10
  extract_lets -merge -underBinder +onlyGivenNames x12
  have h12 : Keeps s (x12) := State.shuttleStart_keeps h11
  extract_lets -merge -underBinder +onlyGivenNames x13
  have h13 : Keeps s (x13) := ite_inv (ite_inv (State.buildFrames_keeps h12) (ite_inv h12 (State.buildFrames_keeps h12))) h12
  exact State.dryStart_keeps h13

theorem State.releaseBeam_keeps {s : State} {t1 : State} (h1 : Keeps s t1) {a2} : Keeps s (@State.releaseBeam t1 a2) := by
  delta State.releaseBeam
  extract_lets -merge -underBinder +onlyGivenNames x3
  split
  · exact h1
  · extract_lets -merge -underBinder +onlyGivenNames x4
    have h4 : Keeps s (x4) := State.takeExports_keeps h1
    extract_lets -merge -underBinder +onlyGivenNames x5 x6
    have h6 : Keeps s (x6) := State.setHbeam_keeps h4
    extract_lets -merge -underBinder +onlyGivenNames x7 x8
    have h8 : Keeps s (x8) := upd_keeps h6
    exact State.beamEnd_keeps (State.fput_keeps h8)

theorem State.hedgeProgress_keeps {s : State} {t1 : State} (h1 : Keeps s t1) {a2} : Keeps s (@State.hedgeProgress t1 a2) := by
  delta State.hedgeProgress
  split
  · exact h1
  · extract_lets -merge -underBinder +onlyGivenNames x3
    refine ite_inv ?_ ?_
    · extract_lets -merge -underBinder +onlyGivenNames x4
      have h4 : Keeps s (x4) := State.setHbeam_keeps h1
      split
      · exact State.send_keeps h4
      · exact State.releaseBeam_keeps (State.send_keeps h4)
    · exact h1

theorem execCommitComplete_keeps {s : State} {a1} {t2 : State} (h2 : Keeps s t2) : KeepsO s (@execCommitComplete a1 t2) := by
  delta execCommitComplete
  split
  · refine ite_inv ?_ ?_
    · exact h2
    · refine ite_inv ?_ ?_
      · exact State.enterSafe_keeps h2
      · extract_lets -merge -underBinder +onlyGivenNames x3
        have h3 : Keeps s (x3) := State.commitClass_keeps h2
        split
        · refine ite_inv ?_ ?_
          · extract_lets -merge -underBinder +onlyGivenNames x4 x5
            have h5 : Keeps s (x5) := State.setHbeam_keeps h3
            extract_lets -merge -underBinder +onlyGivenNames x6
            have h6 : Keeps s (x6) := tx_keeps h5
            exact State.hedgeProgress_keeps h6
          · exact State.beamEnd_keeps h3
        · exact State.beamEnd_keeps h3
  · exact h2

theorem State.overrun_keeps {s : State} {t1 : State} (h1 : Keeps s t1) {a2} : Keeps s (@State.overrun t1 a2) := by
  delta State.overrun
  extract_lets -merge -underBinder +onlyGivenNames x3
  have h3 : Keeps s (x3) := State.spoilTrial_keeps (State.modCls_keeps h1)
  refine ite_inv ?_ ?_
  · exact h3
  · extract_lets -merge -underBinder +onlyGivenNames x4
    have h4 : Keeps s (x4) := State.showOverruns_keeps (State.modCls_keeps h3)
    extract_lets -merge -underBinder +onlyGivenNames x5
    extract_lets -merge -underBinder +onlyGivenNames x6
    have h6 : Keeps s (x6) := State.countG_keeps (State.setFlag_keeps (State.satBump_keeps h4))
    extract_lets -merge -underBinder +onlyGivenNames x7
    have h7 : Keeps s (x7) := State.raise_keeps h6
    extract_lets -merge -underBinder +onlyGivenNames x8
    extract_lets -merge -underBinder +onlyGivenNames x9
    refine ite_inv ?_ ?_
    · extract_lets -merge -underBinder +onlyGivenNames x10
      extract_lets -merge -underBinder +onlyGivenNames x11
      have h11 : Keeps s (x11) := State.setFlag_keeps (State.setFlag_keeps h7)
      extract_lets -merge -underBinder +onlyGivenNames x12
      have h12 : Keeps s (x12) := State.raise_keeps h11
      exact ite_inv (State.enterStop_keeps h12) (State.enterSafe_keeps h12)
    · exact h7

theorem State.judgeDeadline_keeps {s : State} {t1 : State} (h1 : Keeps s t1) {a2} : Keeps s (@State.judgeDeadline t1 a2) := by
  delta State.judgeDeadline
  exact ite_inv (State.overrun_keeps h1) (ite_inv (State.showOverruns_keeps (State.modCls_keeps h1)) h1)

theorem State.onOutputs_keeps {s : State} {t1 : State} (h1 : Keeps s t1) {a2} {f3} (h3 : ∀ u v, Keeps u v → Keeps u (f3 v)) :
    Keeps s (@State.onOutputs t1 a2 f3) := by
  delta State.onOutputs
  extract_lets -merge -underBinder +onlyGivenNames x1 x2
  have h : Keeps _ x2 := h3 _ _ (Keeps.refl _)
  exact ⟨h.1.trans h1.1, h1.2.1.trans h.2.1, fun w => h.2.2.1 (h1.2.2.1 w), h1.2.2.2⟩

theorem State.outputPipes_keeps {s : State} {t1 : State} (h1 : Keeps s t1) {a2} : Keeps s (@State.outputPipes t1 a2) := by
  delta State.outputPipes
  exact each_inv h1 (fun _ h3 _ => by
    split
    · exact ite_inv (State.ucOutputPipe_keeps h3) h3
    · exact h3)

theorem execCommitDeadline_keeps {s : State} {a1} {t2 : State} (h2 : Keeps s t2) : KeepsO s (@execCommitDeadline a1 t2) := by
  delta execCommitDeadline
  extract_lets -merge -underBinder +onlyGivenNames x3
  refine ite_inv ?_ ?_
  · exact h2
  · extract_lets -merge -underBinder +onlyGivenNames x4
    extract_lets -merge -underBinder +onlyGivenNames x5
    have h5 : Keeps s (x5) := State.judgeDeadline_keeps (State.modCls_keeps h2)
    extract_lets -merge -underBinder +onlyGivenNames x6
    have h6 : Keeps s (x6) := State.released_keeps h5
    extract_lets -merge -underBinder +onlyGivenNames x7
    have h7 : Keeps s (x7) := State.modCls_keeps h5
    refine ite_inv ?_ ?_
    · extract_lets -merge -underBinder +onlyGivenNames x8
      have h8 : Keeps s (x8) := State.fput_keeps (State.onOutputs_keeps h7 (fun s => (fun _ h9 => State.outputPipes_keeps h9)))
      exact ite_inv (State.onOutputs_keeps h8 (fun s => (fun _ h10 => State.buildFrames_keeps h10))) h8
    · exact h7

theorem State.showOverrun_keeps {s : State} {t1 : State} (h1 : Keeps s t1) {a2} : Keeps s (@State.showOverrun t1 a2) := by
  delta State.showOverrun
  extract_lets -merge -underBinder +onlyGivenNames x3
  extract_lets -merge -underBinder +onlyGivenNames x4
  extract_lets -merge -underBinder +onlyGivenNames x5
  have h5 : Keeps s (x5) := each_inv h1 (fun _ h6 _ => State.swSet_keeps h6)
  extract_lets -merge -underBinder +onlyGivenNames x7
  exact State.setCls_keeps h5

theorem State.emitUc_keeps {s : State} {t1 : State} (h1 : Keeps s t1) {a2} {a3} : Keeps s (@State.emitUc t1 a2 a3) := by
  delta State.emitUc
  exact each_inv h1 (fun _ h4 _ => by
    refine ite_inv ?_ ?_
    · exact State.ucEmit_keeps h4
    · split
      · exact State.ucEmit_keeps h4
      · exact h4
      · exact State.ucEmit_keeps (State.modUc_keeps h4)
      · exact State.ucEmit_keeps (State.modUc_keeps h4))

theorem State.emitDio_keeps {s : State} {t1 : State} (h1 : Keeps s t1) {a2} {a3} : Keeps s (@State.emitDio t1 a2 a3) := by
  delta State.emitDio
  extract_lets -merge -underBinder +onlyGivenNames x4
  extract_lets -merge -underBinder +onlyGivenNames x5
  exact each_inv (State.dioEmit_keeps h1) (fun _ h6 _ => State.setDio_keeps h6)

theorem State.shiftDone_keeps {s : State} {t1 : State} (h1 : Keeps s t1) {a2} {a3} : Keeps s (@State.shiftDone t1 a2 a3) := by
  delta State.shiftDone
  extract_lets -merge -underBinder +onlyGivenNames x4
  split
  · exact State.takeoverOver_keeps (upd_keeps h1)
  · exact upd_keeps h1
  · exact h1

theorem execEmit_keeps {s : State} {a1} {t2 : State} (h2 : Keeps s t2) : KeepsO s (@execEmit a1 t2) := by
  delta execEmit
  extract_lets -merge -underBinder +onlyGivenNames x3
  refine ite_inv ?_ ?_
  · exact h2
  · extract_lets -merge -underBinder +onlyGivenNames x4
    extract_lets -merge -underBinder +onlyGivenNames x5
    extract_lets -merge -underBinder +onlyGivenNames x6
    have h6 : Keeps s (x6) := ite_inv (State.modCls_keeps h2) h2
    extract_lets -merge -underBinder +onlyGivenNames x7
    extract_lets -merge -underBinder +onlyGivenNames x8
    have h8 : Keeps s (x8) := ite_inv (State.showOverrun_keeps h6) h6
    extract_lets -merge -underBinder +onlyGivenNames x9
    have h9 : Keeps s (x9) := State.onOutputs_keeps h8 (fun s => (fun _ h10 => State.emitUc_keeps (State.emitDio_keeps h10)))
    extract_lets -merge -underBinder +onlyGivenNames x11
    have h11 : Keeps s (x11) := State.shiftDone_keeps h9
    extract_lets -merge -underBinder +onlyGivenNames x12
    have h12 : Keeps s (x12) := ite_inv (State.canEmit_keeps (State.rioOpen_keeps h11)) h11
    extract_lets -merge -underBinder +onlyGivenNames x13
    extract_lets -merge -underBinder +onlyGivenNames x14
    have h14 : Keeps s (x14) := ite_inv (State.buildFrames_keeps h12) h12
    extract_lets -merge -underBinder +onlyGivenNames x15
    have h15 : Keeps s (x15) := State.modCls_keeps h14
    exact ite_inv (State.fput_keeps h15) h15

theorem State.trapAll_keeps {s : State} {t1 : State} (h1 : Keeps s t1) {a2} {a3} {a4} : Keeps s (@State.trapAll t1 a2 a3 a4) := by
  delta State.trapAll
  extract_lets -merge -underBinder +onlyGivenNames x5
  have h5 : Keeps s (x5) := each_inv h1 (fun _ h6 _ => State.recordTrap_keeps h6)
  exact ite_inv h1 (ite_inv (State.enterSafe_keeps (each_inv h5 (fun _ h7 _ => State.haltStrand_keeps h7))) (each_inv h5 (fun _ h8 _ => State.haltStrand_keeps h8)))

theorem State.beatTimeout_keeps {s : State} {t1 : State} (h1 : Keeps s t1) {a2} : Keeps s (@State.beatTimeout t1 a2) := by
  delta State.beatTimeout
  extract_lets -merge -underBinder +onlyGivenNames x3
  extract_lets -merge -underBinder +onlyGivenNames x4
  extract_lets -merge -underBinder +onlyGivenNames x5
  have h5 : Keeps s (x5) := each_inv h1 (fun _ h6 _ => by
    refine ite_inv ?_ ?_
    · exact State.satBump_keeps h6
    · extract_lets -merge -underBinder +onlyGivenNames x7
      have h7 : Keeps s (x7) := State.setBit_keeps (State.satBump_keeps h6)
      exact State.raise_keeps h7)
  exact State.trapAll_keeps h5

theorem State.trapAll_keepsW {s : State} {t1 : State} (h1 : KeepsW s t1) {a2} {a3} {a4} : KeepsW s (@State.trapAll t1 a2 a3 a4) := by
  delta State.trapAll
  extract_lets -merge -underBinder +onlyGivenNames x5
  have h5 : KeepsW s (x5) := each_inv h1 (fun _ h6 _ => State.recordTrap_keepsW h6)
  exact ite_inv h1 (ite_inv (State.enterSafe_keepsW (each_inv h5 (fun _ h7 _ => State.haltStrand_keepsW h7))) (each_inv h5 (fun _ h8 _ => State.haltStrand_keepsW h8)))

theorem State.beatTimeout_keepsW {s : State} {t1 : State} (h1 : KeepsW s t1) {a2} : KeepsW s (@State.beatTimeout t1 a2) := by
  delta State.beatTimeout
  extract_lets -merge -underBinder +onlyGivenNames x3
  extract_lets -merge -underBinder +onlyGivenNames x4
  extract_lets -merge -underBinder +onlyGivenNames x5
  have h5 : KeepsW s (x5) := each_inv h1 (fun _ h6 _ => by
    refine ite_inv ?_ ?_
    · exact State.satBump_keepsW h6
    · extract_lets -merge -underBinder +onlyGivenNames x7
      have h7 : KeepsW s (x7) := State.setBit_keepsW (State.satBump_keepsW h6)
      exact State.raise_keepsW h7)
  exact State.trapAll_keepsW h5

theorem execBeatTimeout_keeps {s : State} {a1} {t2 : State} (h2 : Keeps s t2) : KeepsO s (@execBeatTimeout a1 t2) := by
  unfold execBeatTimeout
  dsimp only
  refine ite_inv h2 (ite_inv (ite_inv ?_ h2) (ite_inv ?_ h2))
  · exact h2.trans (State.swapWorld_back (State.beatTimeout_keepsW (KeepsW.refl _)))
  · exact State.beatTimeout_keeps (State.modCls_keeps h2)

theorem State.forceQueue_keeps {s : State} {t1 : State} (h1 : Keeps s t1) {a2} {a3} {a4} : Keeps s (@State.forceQueue t1 a2 a3 a4) := by
  delta State.forceQueue
  exact upd_keeps h1

theorem State.forceRequest_keeps {s : State} {t1 : State} (h1 : Keeps s t1) {a2} {a3} {a4} : Keeps s (@State.forceRequest t1 a2 a3 a4) := by
  delta State.forceRequest
  split
  · exact ite_inv (State.forceQueue_keeps h1) h1
  · extract_lets -merge -underBinder +onlyGivenNames x5
    extract_lets -merge -underBinder +onlyGivenNames x6
    have h6 : Keeps s (x6) := State.answer_keeps h1
    refine ite_inv ?_ ?_
    · exact h6
    · extract_lets -merge -underBinder +onlyGivenNames x7
      extract_lets -merge -underBinder +onlyGivenNames x8
      have h8 : Keeps s (x8) := State.forceQueue_keeps h6
      exact ite_inv (State.send_keeps h8) h8

theorem execForceSet_keeps {s : State} {a1} {a2} {t3 : State} (h3 : Keeps s t3) : KeepsO s (@execForceSet a1 a2 t3) := by
  delta execForceSet
  exact ite_inv h3 (State.forceRequest_keeps h3)

theorem execForceRelease_keeps {s : State} {a1} {a2} {t3 : State} (h3 : Keeps s t3) : KeepsO s (@execForceRelease a1 a2 t3) := by
  delta execForceRelease
  exact ite_inv h3 (State.forceRequest_keeps h3)

theorem State.showTime_keeps {s : State} {t1 : State} (h1 : Keeps s t1) {a2} : Keeps s (@State.showTime t1 a2) := by
  delta State.showTime
  exact State.fput_keeps h1

theorem State.showDone_keeps {s : State} {t1 : State} (h1 : Keeps s t1) {a2} : Keeps s (@State.showDone t1 a2) := by
  delta State.showDone
  exact State.fput_keeps h1

theorem State.proofCommit_keeps {s : State} {t1 : State} (h1 : Keeps s t1) {a2} {a3} : Keeps s (@State.proofCommit t1 a2 a3) := by
  delta State.proofCommit
  extract_lets -merge -underBinder +onlyGivenNames x4
  have h4 : Keeps s (x4) := State.deliverJobs_keeps h1
  extract_lets -merge -underBinder +onlyGivenNames x5
  extract_lets -merge -underBinder +onlyGivenNames x6
  have h6 : Keeps s (x6) := upd_keeps h4
  extract_lets -merge -underBinder +onlyGivenNames x7
  extract_lets -merge -underBinder +onlyGivenNames x8
  extract_lets -merge -underBinder +onlyGivenNames x9
  have h9 : Keeps s (x9) := State.setWorld_keeps h4
  extract_lets -merge -underBinder +onlyGivenNames x10
  exact each_inv h9 (fun _ h11 _ => by
    refine ite_inv ?_ ?_
    · exact h11
    · extract_lets -merge -underBinder +onlyGivenNames x12
      exact State.setWorld_keeps h11)

theorem State.edited_keeps {s : State} {t1 : State} (h1 : Keeps s t1) {a2} : Keeps s (@State.edited t1 a2) := by
  delta State.edited
  extract_lets -merge -underBinder +onlyGivenNames x3
  have h3 : Keeps s (x3) := upd_keeps h1
  extract_lets -merge -underBinder +onlyGivenNames x4
  have h4 : Keeps s (x4) := each_inv h3 (fun _ h5 _ => State.fput_keeps h5)
  exact each_inv h4 (fun _ h6 _ => State.putSetting_keeps h6)

theorem State.proofCheck_keeps {s : State} {t1 : State} (h1 : Keeps s t1) {a2} : Keeps s (@State.proofCheck t1 a2) := by
  delta State.proofCheck
  split
  · exact h1
  · refine ite_inv ?_ ?_
    · extract_lets -merge -underBinder +onlyGivenNames x3
      extract_lets -merge -underBinder +onlyGivenNames x4
      extract_lets -merge -underBinder +onlyGivenNames x5
      refine ite_inv ?_ ?_
      · extract_lets -merge -underBinder +onlyGivenNames x6
        have h6 : Keeps s (x6) := State.showTime_keeps (State.setProof_keeps (State.trialEnd_keeps h1))
        extract_lets -merge -underBinder +onlyGivenNames x7
        have h7 : Keeps s (x7) := State.showDone_keeps h6
        exact ite_inv (State.proofEnds_keeps h7) h7
      · extract_lets -merge -underBinder +onlyGivenNames x8
        have h8 : Keeps s (x8) := State.showTime_keeps (State.trialEnd_keeps (State.proofCommit_keeps h1))
        extract_lets -merge -underBinder +onlyGivenNames x9
        have h9 : Keeps s (x9) := State.edited_keeps h8
        extract_lets -merge -underBinder +onlyGivenNames x10
        have h10 : Keeps s (x10) := ite_inv (State.satBump_keeps h8) h8
        refine ite_inv ?_ ?_
        · exact h10
        · extract_lets -merge -underBinder +onlyGivenNames x11
          have h11 : Keeps s (x11) := by
            unfold x11
            split
            · exact h10
            · extract_lets -merge -underBinder +onlyGivenNames x12
              have h12 : Keeps s (x12) := ite_inv (State.fput_keeps h10) h10
              exact State.satBump_keeps h12
          extract_lets -merge -underBinder +onlyGivenNames x13
          have h13 : Keeps s (x13) := State.showDone_keeps (State.setProof_keeps h11)
          exact ite_inv (State.proofEnds_keeps h13) h13
    · exact h1

theorem execEndc_keeps {s : State} {st} {t1 : State} (h1 : Keeps s t1) : KeepsO s (@execEndc st t1) := by
  delta execEndc
  have h2 : KeepsO s (dx t1 st (.endc st) .other (fun t => .ok (t.endCycle st (t.strand st).pc) none)) :=
    dx_keeps h1 (fun _ _ h => State.endCycle_keepsW h)
  split
  · next e => exact State.proofCheck_keeps (ofEq_inv (P := KeepsO s) h2 e)
  · exact h2

theorem State.judgePair_keeps {s : State} {t1 : State} (h1 : Keeps s t1) {a2} : Keeps s (@State.judgePair t1 a2) := by
  delta State.judgePair
  refine ite_inv ?_ ?_
  · exact h1
  · extract_lets -merge -underBinder +onlyGivenNames x3
    extract_lets -merge -underBinder +onlyGivenNames x4
    have h4 : Keeps s (x4) := State.fput_keeps (State.setFlag_keeps h1)
    refine ite_inv ?_ ?_
    · extract_lets -merge -underBinder +onlyGivenNames x5
      extract_lets -merge -underBinder +onlyGivenNames x6
      have h6 : Keeps s (x6) := State.raise_keeps h4
      refine ite_inv ?_ ?_
      · exact State.fput_keeps h6
      · extract_lets -merge -underBinder +onlyGivenNames x7
        have h7 : Keeps s (x7) := ite_inv (State.enterStop_keeps h6) h6
        exact State.fput_keeps h7
    · extract_lets -merge -underBinder +onlyGivenNames x8
      extract_lets -merge -underBinder +onlyGivenNames x9 x10
      have h10 : Keeps s (x10) := upd_keeps h4
      extract_lets -merge -underBinder +onlyGivenNames x11
      have h11 : Keeps s (x11) := State.raise_keeps h10
      exact State.fput_keeps h11

theorem execExternalReset_keeps {s : State} {t1 : State} (h1 : Keeps s t1) : KeepsO s (@execExternalReset t1) := by
  delta execExternalReset
  split
  · exact h1
  · extract_lets -merge -underBinder +onlyGivenNames x2
    extract_lets -merge -underBinder +onlyGivenNames x3 x4
    have h4 : Keeps s (x4) := upd_keeps h1
    exact ite_inv h4 (ite_inv (ite_inv (State.draw_keeps h4) (State.moduleReset_keeps (State.draw_keeps h4))) (State.moduleReset_keeps h4))

theorem State.packageTold_keeps {s : State} {t1 : State} (h1 : Keeps s t1) {a2} {a3} {a4} : Keeps s (@State.packageTold t1 a2 a3 a4) := by
  delta State.packageTold
  extract_lets -merge -underBinder +onlyGivenNames x5
  exact ite_inv (State.send_keeps h1) (ite_inv (State.send_keeps (State.send_keeps h1)) h1)

theorem State.editRefuse_keeps {s : State} {t1 : State} (h1 : Keeps s t1) {a2} {a3} {a4} {a5} {a6} : Keeps s (@State.editRefuse t1 a2 a3 a4 a5 a6) := by
  delta State.editRefuse
  exact State.raise_keeps (State.fput_keeps h1)

theorem State.stageCode_keeps {s : State} {t1 : State} (h1 : Keeps s t1) {a2} {a3} : Keeps s (@State.stageCode t1 a2 a3) := by
  delta State.stageCode
  extract_lets -merge -underBinder +onlyGivenNames x4
  extract_lets -merge -underBinder +onlyGivenNames x5
  extract_lets -merge -underBinder +onlyGivenNames x6
  have h6 : Keeps s (x6) := mem_keeps h1 (fun w => filter_wf _ w)
  exact State.msetN_keeps h6

theorem State.proofClear_keeps {s : State} {t1 : State} (h1 : Keeps s t1) : Keeps s (@State.proofClear t1) := by
  delta State.proofClear
  exact State.rset_keeps (State.rset_keeps (State.rset_keeps (State.rset_keeps h1)))

theorem State.editStage_keeps {s : State} {t1 : State} (h1 : Keeps s t1) {a2} : Keeps s (@State.editStage t1 a2) := by
  delta State.editStage
  extract_lets -merge -underBinder +onlyGivenNames x3
  extract_lets -merge -underBinder +onlyGivenNames x4 x5
  have h5 : Keeps s (x5) := upd_keeps h1
  extract_lets -merge -underBinder +onlyGivenNames x6
  have h6 : Keeps s (x6) := each_inv h5 (fun _ h7 _ => State.stageCode_keeps h7)
  extract_lets -merge -underBinder +onlyGivenNames x8
  extract_lets -merge -underBinder +onlyGivenNames x9
  have h9 : Keeps s (x9) := State.fput_keeps (State.fput_keeps (State.proofClear_keeps h6))
  exact State.raise_keeps h9

theorem execEditPackage_keeps {s : State} {a1} {a2} {t3 : State} (h3 : Keeps s t3) : KeepsO s (@execEditPackage a1 a2 t3) := by
  delta execEditPackage
  extract_lets -merge -underBinder +onlyGivenNames x4
  split
  · exact ite_inv (State.editAbortFor_keeps h3) h3
  · refine ite_inv ?_ ?_
    · exact ite_inv (State.fput_keeps h3) h3
    · extract_lets -merge -underBinder +onlyGivenNames x5
      extract_lets -merge -underBinder +onlyGivenNames x6
      have h6 : Keeps s (x6) := State.packageTold_keeps h3
      extract_lets -merge -underBinder +onlyGivenNames x7
      have h7 : Keeps s (x7) := ite_inv (State.fput_keeps h6) h6
      clear_value x5
      split
      · extract_lets -merge -underBinder +onlyGivenNames x8
        have h8 : Keeps s (x8) := State.editRefuse_keeps h7
        exact ite_inv h8 (State.answer_keeps h8)
      · extract_lets -merge -underBinder +onlyGivenNames x9
        have h9 : Keeps s (x9) := State.editStage_keeps h7
        exact ite_inv h9 (State.answer_keeps h9)

theorem execEditConfirm_keeps {s : State} {t1 : State} (h1 : Keeps s t1) : KeepsO s (@execEditConfirm t1) := by
  delta execEditConfirm
  extract_lets -merge -underBinder +onlyGivenNames x2
  exact ite_inv (State.answer_keeps (State.editPropose_keeps h1)) (State.answer_keeps h1)

theorem execPreparedAck_keeps {s : State} {a1} {t2 : State} (h2 : Keeps s t2) : KeepsO s (@execPreparedAck a1 t2) := by
  delta execPreparedAck
  split
  · exact h2
  · exact ite_inv (State.editArm_keeps (upd_keeps h2)) h2

theorem State.proposalLapses_keeps {s : State} {t1 : State} (h1 : Keeps s t1) {a2} : Keeps s (@State.proposalLapses t1 a2) := by
  delta State.proposalLapses
  exact State.raise_keeps (State.fput_keeps (upd_keeps h1))

theorem execProposalLapse_keeps {s : State} {t1 : State} (h1 : Keeps s t1) : KeepsO s (@execProposalLapse t1) := by
  delta execProposalLapse
  split
  · exact h1
  · exact ite_inv (ite_inv (State.send_keeps (State.proposalLapses_keeps h1)) (ite_inv (State.proposalLapses_keeps h1) h1)) h1

theorem execEditAbort_keeps {s : State} {t1 : State} (h1 : Keeps s t1) : KeepsO s (@execEditAbort t1) := by
  delta execEditAbort
  exact ite_inv (State.answer_keeps (State.editAbortFor_keeps h1)) (State.answer_keeps h1)

theorem execDryPassAbandon_keeps {s : State} {a1} {t2 : State} (h2 : Keeps s t2) : KeepsO s (@execDryPassAbandon a1 t2) := by
  delta execDryPassAbandon
  exact ite_inv (State.dryAbandon_keeps h2) h2

theorem execProofCycleAbandon_keeps {s : State} {a1} {t2 : State} (h2 : Keeps s t2) : KeepsO s (@execProofCycleAbandon a1 t2) := by
  delta execProofCycleAbandon
  exact ite_inv (State.satBump_keeps (State.trialEnd_keeps h2)) h2

theorem State.setSplit_keeps {s : State} {t1 : State} (h1 : Keeps s t1) {a2} : Keeps s (@State.setSplit t1 a2) := by
  delta State.setSplit
  refine ite_inv ?_ ?_
  · exact h1
  · extract_lets -merge -underBinder +onlyGivenNames x3
    have h3 : Keeps s (x3) := State.raise_keeps (State.setFlag_keeps h1)
    extract_lets -merge -underBinder +onlyGivenNames x4
    have h4 : Keeps s (x4) := ite_inv (State.setFlag_keeps h3) h3
    exact State.dwellAnew_keeps h4

theorem State.takeReport_keeps {s : State} {t1 : State} (h1 : Keeps s t1) {a2} : Keeps s (@State.takeReport t1 a2) := by
  delta State.takeReport
  split
  · exact h1
  · refine ite_inv ?_ ?_
    · extract_lets -merge -underBinder +onlyGivenNames x3
      have h3 : Keeps s (x3) := State.rset_keeps (State.rset_keeps (State.rset_keeps (State.rset_keeps h1)))
      exact ite_inv (State.proofEnds_keeps h3) h3
    · exact h1

theorem State.editTakeover_keeps {s : State} {t1 : State} (h1 : Keeps s t1) : Keeps s (@State.editTakeover t1) := by
  delta State.editTakeover
  extract_lets -merge -underBinder +onlyGivenNames x2
  have h2 : Keeps s (x2) := State.editAbortFor_keeps h1
  exact ite_inv (State.editClear_keeps (each_inv h2 (fun _ h3 _ => State.editBack_keeps h3))) h2

theorem State.noTakeover_keeps {s : State} {t1 : State} (h1 : Keeps s t1) : Keeps s (@State.noTakeover t1) := by
  delta State.noTakeover
  extract_lets -merge -underBinder +onlyGivenNames x2
  exact State.raise_keeps (State.enterStop_keeps h1)

theorem State.takeover_keeps {s : State} {t1 : State} (h1 : Keeps s t1) {a2} {a3} : Keeps s (@State.takeover t1 a2 a3) := by
  delta State.takeover
  extract_lets -merge -underBinder +onlyGivenNames x4
  extract_lets -merge -underBinder +onlyGivenNames x5
  refine ite_inv ?_ ?_
  · extract_lets -merge -underBinder +onlyGivenNames x6
    extract_lets -merge -underBinder +onlyGivenNames x7
    extract_lets -merge -underBinder +onlyGivenNames x8
    have h8 : Keeps s (x8) := State.editTakeover_keeps h1
    extract_lets -merge -underBinder +onlyGivenNames x9 x10
    have h10 : Keeps s (x10) := State.roleRef_keeps (upd_keeps h8)
    extract_lets -merge -underBinder +onlyGivenNames x11
    have h11 : Keeps s (x11) := State.fput_keeps (State.fput_keeps h10)
    extract_lets -merge -underBinder +onlyGivenNames x12
    have h12 : Keeps s (x12) := State.setFlag_keeps h11
    extract_lets -merge -underBinder +onlyGivenNames x13
    have h13 : Keeps s (x13) := State.withdrawActivation_keeps (State.classesBegin_keeps (State.cancelJobs_keeps (ite_inv h12 (State.adoptHeld_keeps h12))))
    extract_lets -merge -underBinder +onlyGivenNames x14
    have h14 : Keeps s (x14) := State.setFlag_keeps (State.satBump_keeps h13)
    extract_lets -merge -underBinder +onlyGivenNames x15
    have h15 : Keeps s (x15) := State.raise_keeps h14
    exact State.batonUpdate_keeps (State.setSplit_keeps h15)
  · exact State.noTakeover_keeps h1

theorem State.primaryFailed_keeps {s : State} {t1 : State} (h1 : Keeps s t1) {a2} : Keeps s (@State.primaryFailed t1 a2) := by
  delta State.primaryFailed
  refine ite_inv ?_ ?_
  · exact State.send_keeps h1
  · extract_lets -merge -underBinder +onlyGivenNames x3
    have h3 : Keeps s (x3) := ite_inv (State.send_keeps h1) h1
    exact State.takeover_keeps h3

theorem State.unpair_keeps {s : State} {t1 : State} (h1 : Keeps s t1) : Keeps s (@State.unpair t1) := by
  delta State.unpair
  extract_lets -merge -underBinder +onlyGivenNames x2
  extract_lets -merge -underBinder +onlyGivenNames x3 x4
  have h4 : Keeps s (x4) := upd_keeps h1
  exact ite_inv h4 (ite_inv (State.fput_keeps h4) (ite_inv (State.fput_keeps h4) h4))

theorem execExports_keeps {s : State} {a1} {t2 : State} (h2 : Keeps s t2) : KeepsO s (@execExports a1 t2) := by
  delta execExports
  refine ite_inv ?_ ?_
  · exact h2
  · extract_lets -merge -underBinder +onlyGivenNames x3
    exact State.hedgeProgress_keeps (State.setHbeam_keeps h2)

theorem execDone_keeps {s : State} {a1} {a2} {t3 : State} (h3 : Keeps s t3) : KeepsO s (@execDone a1 a2 t3) := by
  delta execDone
  refine ite_inv ?_ ?_
  · exact h3
  · extract_lets -merge -underBinder +onlyGivenNames x4
    exact State.hedgeProgress_keeps (State.setHbeam_keeps h3)

theorem execRelease_keeps {s : State} {a1} {a2} {a3} {t4 : State} (h4 : Keeps s t4) : KeepsO s (@execRelease a1 a2 a3 t4) := by
  delta execRelease
  refine ite_inv ?_ ?_
  · exact h4
  · extract_lets -merge -underBinder +onlyGivenNames x5 x6
    have h6 : Keeps s (x6) := ite_inv (State.setHbeam_keeps h4) h4
    exact State.releaseBeam_keeps h6

theorem State.markLate_keeps {s : State} {t1 : State} (h1 : Keeps s t1) {a2} {a3} : Keeps s (@State.markLate t1 a2 a3) := by
  delta State.markLate
  extract_lets -merge -underBinder +onlyGivenNames x4 x5
  have h5 : Keeps s (x5) := State.setHbeam_keeps h1
  exact State.raise_keeps (State.satBump_keeps (State.setFlag_keeps h5))

theorem execCutInstant_keeps {s : State} {a1} {t2 : State} (h2 : Keeps s t2) : KeepsO s (@execCutInstant a1 t2) := by
  delta execCutInstant
  extract_lets -merge -underBinder +onlyGivenNames x3
  extract_lets -merge -underBinder +onlyGivenNames x4
  exact ite_inv h2 (State.markLate_keeps (State.send_keeps h2))

theorem execLate_keeps {s : State} {a1} {a2} {t3 : State} (h3 : Keeps s t3) : KeepsO s (@execLate a1 a2 t3) := by
  delta execLate
  exact ite_inv h3 (State.markLate_keeps h3)

theorem execCellSwitchOver_keeps {s : State} {t1 : State} (h1 : Keeps s t1) : KeepsO s (@execCellSwitchOver t1) := by
  delta execCellSwitchOver
  exact ite_inv h1 (upd_keeps h1)

theorem execAlwaysOnSupplyLoss_keeps {s : State} {t1 : State} (h1 : Keeps s t1) : KeepsO s (@execAlwaysOnSupplyLoss t1) := by
  delta execAlwaysOnSupplyLoss
  extract_lets -merge -underBinder +onlyGivenNames x2
  have h2 : Keeps s (x2) := State.dieReset_keeps h1
  extract_lets -merge -underBinder +onlyGivenNames x3 x4 x5 x6
  have h6 : Keeps s (x6) := mem_keeps h2 (fun w => filter_wf _ w)
  extract_lets -merge -underBinder +onlyGivenNames x7
  have h7 : Keeps s (x7) := each_inv h6 (fun _ h8 _ => upd_keeps h8)
  extract_lets -merge -underBinder +onlyGivenNames x9
  have h9 : Keeps s (x9) := each_inv h7 (fun _ h10 _ => State.rset_keeps h10)
  exact State.setFlag_keeps h9

theorem execResetNAsserted_keeps {s : State} {t1 : State} (h1 : Keeps s t1) : KeepsO s (@execResetNAsserted t1) := by
  delta execResetNAsserted
  refine ite_inv ?_ ?_
  · exact h1
  · extract_lets -merge -underBinder +onlyGivenNames x2 x3
    have h3 : Keeps s (x3) := upd_keeps h1
    exact ite_inv h3 (State.outputsOff_keeps h3)

theorem execCommitProposalReceived_keeps {s : State} {a1} {a2} {t3 : State} (h3 : Keeps s t3) : KeepsO s (@execCommitProposalReceived a1 a2 t3) := by
  delta execCommitProposalReceived
  split
  · exact h3
  · exact ite_inv (State.send_keeps (State.editArm_keeps (State.editPrepare_keeps (State.stopTrial_keeps h3)))) h3

theorem execSwapAcknowledgement_keeps {s : State} {a1} {t2 : State} (h2 : Keeps s t2) : KeepsO s (@execSwapAcknowledgement a1 t2) := by
  delta execSwapAcknowledgement
  exact State.editAcked_keeps h2

theorem State.takeoverMode_keeps {s : State} {t1 : State} (h1 : Keeps s t1) : Keeps s (@State.takeoverMode t1) := by
  delta State.takeoverMode
  split
  · refine ite_inv ?_ ?_
    · extract_lets -merge -underBinder +onlyGivenNames x2
      exact ite_inv (State.enterStop_keeps h1) (State.enterExec_keeps h1)
    · exact h1
  · exact h1

end Sys2Proof.Machine
end

