-- ==== Sys2Proof/Laws/KeepsCommands.lean ====
section
/-!
SUPPORT. `Keeps`, of the time base, redundancy, the hedge, register accesses, the start and the parts of a tick: one lemma for each operation.
-/
set_option linter.unusedVariables false

namespace Sys2Proof.Machine

theorem State.handoverCommand_keeps {s : State} {t1 : State} (h1 : Keeps s t1) : Keeps s (@State.handoverCommand t1) := by
  delta State.handoverCommand
  extract_lets -merge -underBinder +onlyGivenNames x2
  extract_lets -merge -underBinder +onlyGivenNames x3
  have h3 : Keeps s (x3) := State.answer_keeps h1
  exact ite_inv (State.proposeHandover_keeps h3) h3

theorem State.resync_keeps {s : State} {t1 : State} (h1 : Keeps s t1) : Keeps s (@State.resync t1) := by
  delta State.resync
  exact ite_inv (ite_inv (State.startAlign_keeps h1) (ite_inv (State.showReady_keeps (upd_keeps h1)) h1)) h1

theorem State.arm_keeps {s : State} {t1 : State} (h1 : Keeps s t1) : Keeps s (@State.arm t1) := by
  delta State.arm
  extract_lets -merge -underBinder +onlyGivenNames x2
  have h2 : Keeps s (x2) := State.setFlag_keeps (State.setFlag_keeps (State.setFlag_keeps h1))
  exact upd_keeps h2

theorem State.almWrite_keeps {s : State} {t1 : State} (h1 : Keeps s t1) {a2} : Keeps s (@State.almWrite t1 a2) := by
  delta State.almWrite
  extract_lets -merge -underBinder +onlyGivenNames x3
  refine ite_inv ?_ ?_
  · exact h1
  · extract_lets -merge -underBinder +onlyGivenNames x4
    have h4 : Keeps s (x4) := State.fput_keeps (State.setFlag_keeps h1)
    extract_lets -merge -underBinder +onlyGivenNames x5 x6
    have h6 : Keeps s (x6) := upd_keeps h4
    extract_lets -merge -underBinder +onlyGivenNames x7
    have h7 : Keeps s (x7) := ite_inv (State.arm_keeps h6) h6
    exact ite_inv (ite_inv (State.setFlag_keeps (State.draw_keeps h7)) (State.setFlag_keeps h7)) h7

theorem State.updWrite_keeps {s : State} {t1 : State} (h1 : Keeps s t1) {a2} : Keeps s (@State.updWrite t1 a2) := by
  delta State.updWrite
  exact ite_inv (State.withdrawActivation_keeps (State.fput_keeps (State.showDlv_keeps (upd_keeps h1)))) (ite_inv (ite_inv (State.trialFallback_keeps h1) (State.fput_keeps h1)) h1)

theorem State.stewardWrite_keeps {s : State} {t1 : State} (h1 : Keeps s t1) {a2} {a3} {a4} : Keeps s (@State.stewardWrite t1 a2 a3 a4) := by
  delta State.stewardWrite
  extract_lets -merge -underBinder +onlyGivenNames x5
  exact ite_inv (State.modeRequest_keeps h1) (ite_inv (ite_inv (State.handoverCommand_keeps h1) (ite_inv (State.resync_keeps h1) h1)) (ite_inv (ite_inv (State.retCommand_keeps h1) h1) (ite_inv (State.qsAdd_keeps h1) (ite_inv (ite_inv (State.rtcGo_keeps h1) h1) (ite_inv (ite_inv (State.setTrim_keeps h1) h1) (ite_inv (State.almWrite_keeps h1) (ite_inv (State.updWrite_keeps h1) (State.regWrite_keeps h1))))))))

theorem execRegisterWrite_keeps {s : State} {a1} {a2} {a3} {t4 : State} (h4 : Keeps s t4) : KeepsO s (@execRegisterWrite a1 a2 a3 t4) := by
  delta execRegisterWrite
  exact ite_inv h4 (State.stewardWrite_keeps h4)

theorem State.stewardRead_keeps {s : State} {t1 : State} (h1 : Keeps s t1) {a2} {a3} : Keeps s (@State.stewardRead t1 a2 a3) := by
  delta State.stewardRead
  extract_lets -merge -underBinder +onlyGivenNames x4
  have h4 : Keeps s (Prod.fst (x4)) := State.regRead_keeps h1
  extract_lets -merge -underBinder +onlyGivenNames x5
  have h5 : Keeps s (x5) := h4
  exact upd_keeps h5

theorem execReadClear_keeps {s : State} {a1} {a2} {t3 : State} (h3 : Keeps s t3) : KeepsO s (@execReadClear a1 a2 t3) := by
  delta execReadClear
  exact ite_inv h3 (State.stewardRead_keeps h3)

theorem execHighWordLatch_keeps {s : State} {a1} {t2 : State} (h2 : Keeps s t2) : KeepsO s (@execHighWordLatch a1 t2) := by
  delta execHighWordLatch
  exact ite_inv h2 (State.stewardRead_keeps h2)

theorem State.stepTb_keeps {s : State} {t1 : State} (h1 : Keeps s t1) {a2} : Keeps s (@State.stepTb t1 a2) := by
  delta State.stepTb
  extract_lets -merge -underBinder +onlyGivenNames x3
  extract_lets -merge -underBinder +onlyGivenNames x4
  extract_lets -merge -underBinder +onlyGivenNames x5
  have h5 : Keeps s (x5) := upd_keeps h1
  exact State.raise_keeps (State.setFlag_keeps h5)

theorem State.judgeSync_keeps {s : State} {t1 : State} (h1 : Keeps s t1) {a2} : Keeps s (@State.judgeSync t1 a2) := by
  delta State.judgeSync
  extract_lets -merge -underBinder +onlyGivenNames x3
  exact ite_inv (State.raise_keeps (State.setFlag_keeps (State.setFlag_keeps h1))) (ite_inv (State.raise_keeps (State.setFlag_keeps (State.setFlag_keeps h1))) h1)

theorem State.followRef_keeps {s : State} {t1 : State} (h1 : Keeps s t1) {a2} {a3} : Keeps s (@State.followRef t1 a2 a3) := by
  delta State.followRef
  extract_lets -merge -underBinder +onlyGivenNames x4
  have h4 : Keeps s (x4) := State.fput_keeps h1
  extract_lets -merge -underBinder +onlyGivenNames x5
  extract_lets -merge -underBinder +onlyGivenNames x6
  have h6 : Keeps s (x6) := ite_inv (State.stepTb_keeps h4) h4
  extract_lets -merge -underBinder +onlyGivenNames x7
  extract_lets -merge -underBinder +onlyGivenNames x8
  extract_lets -merge -underBinder +onlyGivenNames x9
  have h9 : Keeps s (x9) := State.setFlag_keeps (State.fput_keeps (State.draw_keeps h6))
  exact State.judgeSync_keeps (State.fput_keeps h9)

theorem State.utcOffset_keeps {s : State} {t1 : State} (h1 : Keeps s t1) {a2} : Keeps s (@State.utcOffset t1 a2) := by
  delta State.utcOffset
  extract_lets -merge -underBinder +onlyGivenNames x3
  exact ite_inv (State.rtcGo_keeps (State.fput_keeps h1)) h1

theorem execGptpMessage_keeps {s : State} {a1} {a2} {t3 : State} (h3 : Keeps s t3) : KeepsO s (@execGptpMessage a1 a2 t3) := by
  delta execGptpMessage
  refine ite_inv ?_ ?_
  · exact h3
  · split
    · exact State.announce_keeps h3
    · exact ite_inv (State.followRef_keeps h3) h3
    · exact ite_inv (State.utcOffset_keeps h3) h3

theorem State.companionReports_keeps {s : State} {t1 : State} (h1 : Keeps s t1) {a2} : Keeps s (@State.companionReports t1 a2) := by
  delta State.companionReports
  extract_lets -merge -underBinder +onlyGivenNames x3
  have h3 : Keeps s (x3) := by
    unfold x3
    split
    · exact State.raise_keeps (upd_keeps h1)
    · exact h1
  extract_lets -merge -underBinder +onlyGivenNames x4
  have h4 : Keeps s (x4) := by
    unfold x4
    split
    · exact State.raise_keeps (upd_keeps h3)
    · exact h3
  extract_lets -merge -underBinder +onlyGivenNames x5
  have h5 : Keeps s (x5) := ite_inv (State.raise_keeps h4) h4
  exact upd_keeps h5

theorem State.readKey_keeps {s : State} {t1 : State} (h1 : Keeps s t1) {a2} : Keeps s (@State.readKey t1 a2) := by
  delta State.readKey
  extract_lets -merge -underBinder +onlyGivenNames x3
  extract_lets -merge -underBinder +onlyGivenNames x4
  have h4 : Keeps s (x4) := State.fput_keeps h1
  refine ite_inv ?_ ?_
  · extract_lets -merge -underBinder +onlyGivenNames x5
    have h5 : Keeps s (x5) := State.setFlag_keeps (State.setFlag_keeps h4)
    exact State.raise_keeps h5
  · exact ite_inv (State.fput_keeps h4) h4

theorem State.registerSlots_keeps {s : State} {t1 : State} (h1 : Keeps s t1) {a2} : Keeps s (@State.registerSlots t1 a2) := by
  delta State.registerSlots
  exact each_inv h1 (fun _ h3 _ => by
    extract_lets -merge -underBinder +onlyGivenNames x4
    extract_lets -merge -underBinder +onlyGivenNames x5
    have h5 : Keeps s (x5) := State.rset_keeps (State.rset_keeps h3)
    extract_lets -merge -underBinder +onlyGivenNames x6
    have h6 : Keeps s (x6) := State.rset_keeps h5
    exact ite_inv (State.wdgArm_keeps h6) h6)

theorem State.stepFails_keeps {s : State} {t1 : State} (h1 : Keeps s t1) {a2} : Keeps s (@State.stepFails t1 a2) := by
  delta State.stepFails
  extract_lets -merge -underBinder +onlyGivenNames x3
  extract_lets -merge -underBinder +onlyGivenNames x4
  extract_lets -merge -underBinder +onlyGivenNames x5
  have h5 : Keeps s (x5) := State.fput_keeps (State.setFlag_keeps (State.fput_keeps (State.draw_keeps h1)))
  extract_lets -merge -underBinder +onlyGivenNames x6 x7
  have h7 : Keeps s (x7) := upd_keeps h5
  exact State.raise_keeps h7

theorem State.comparatorTest_keeps {s : State} {t1 : State} (h1 : Keeps s t1) {a2} : Keeps s (@State.comparatorTest t1 a2) := by
  delta State.comparatorTest
  extract_lets -merge -underBinder +onlyGivenNames x3
  have h3 : Keeps s (x3) := State.rset_keeps h1
  exact ite_inv (upd_keeps h3) h3

theorem State.selectSlot_keeps {s : State} {t1 : State} (h1 : Keeps s t1) {a2} {a3} : Keeps s (Prod.fst (@State.selectSlot t1 a2 a3)) := by
  induction a3 generalizing t1 with
  | zero => exact h1
  | succ n ih =>
    unfold State.selectSlot
    extract_lets
    split
    · exact ih (State.fput_keeps (State.fallBack_keeps (State.draw_keeps h1)))
    · extract_lets
      split
      · exact State.markSlot_keeps h1
      · exact ih (State.markSlot_keeps (State.markSlot_keeps h1))
    · split
      · exact h1
      · extract_lets
        split
        · exact h1
        · exact ih (State.markSlot_keeps h1)

theorem State.enterRecovery_keeps {s : State} {t1 : State} (h1 : Keeps s t1) : Keeps s (@State.enterRecovery t1) := by
  delta State.enterRecovery
  extract_lets -merge -underBinder +onlyGivenNames x2
  exact State.raise_keeps (State.setFlag_keeps (State.stepFails_keeps h1))

theorem State.startTb_keeps {s : State} {t1 : State} (h1 : Keeps s t1) {a2} : Keeps s (@State.startTb t1 a2) := by
  delta State.startTb
  split
  · exact ite_inv (State.followRef_keeps h1) h1
  · extract_lets -merge -underBinder +onlyGivenNames x3
    exact ite_inv (State.stepTb_keeps h1) h1

theorem State.formed_keeps {s : State} {t1 : State} (h1 : Keeps s t1) : Keeps s (@State.formed t1) := by
  delta State.formed
  extract_lets -merge -underBinder +onlyGivenNames x2 x3
  have h3 : Keeps s (x3) := upd_keeps h1
  extract_lets -merge -underBinder +onlyGivenNames x4
  have h4 : Keeps s (x4) := State.setFlag_keeps (State.fput_keeps (State.setFlag_keeps h3))
  exact State.raise_keeps h4

theorem State.judgeForm_keeps {s : State} {t1 : State} (h1 : Keeps s t1) {a2} : Keeps s (@State.judgeForm t1 a2) := by
  delta State.judgeForm
  extract_lets -merge -underBinder +onlyGivenNames x3
  exact ite_inv (State.send_keeps (State.formed_keeps h1)) h1

theorem State.bootStop_keeps {s : State} {t1 : State} (h1 : Keeps s t1) : Keeps s (@State.bootStop t1) := by
  delta State.bootStop
  exact State.bootEnd_keeps (State.setMode_keeps (upd_keeps h1))

theorem State.bootPaired_keeps {s : State} {t1 : State} (h1 : Keeps s t1) {a2} {a3} {a4} : Keeps s (@State.bootPaired t1 a2 a3 a4) := by
  delta State.bootPaired
  extract_lets -merge -underBinder +onlyGivenNames x5
  extract_lets -merge -underBinder +onlyGivenNames x6
  have h6 : Keeps s (x6) := by
    unfold x6
    split
    · exact ite_inv (State.fput_keeps (State.judgePair_keeps (State.fput_keeps h1))) (State.judgePair_keeps h1)
    · exact h1
  exact ite_inv (ite_inv (State.bootStop_keeps h6) (State.acceptChange_keeps h6)) (ite_inv (State.acceptChange_keeps h6) (upd_keeps h6))

theorem State.step8_keeps {s : State} {t1 : State} (h1 : Keeps s t1) {a2} : Keeps s (@State.step8 t1 a2) := by
  delta State.step8
  extract_lets -merge -underBinder +onlyGivenNames x3 x4
  have h4 : Keeps s (x4) := State.startTb_keeps (upd_keeps h1)
  extract_lets -merge -underBinder +onlyGivenNames x5
  have h5 : Keeps s (x5) := ite_inv h4 (State.fput_keeps h4)
  extract_lets -merge -underBinder +onlyGivenNames x6
  extract_lets -merge -underBinder +onlyGivenNames x7
  extract_lets -merge -underBinder +onlyGivenNames x8
  extract_lets -merge -underBinder +onlyGivenNames x9
  have h9 : Keeps s (x9) := ite_inv (State.lockoutLeft_keeps h5) h5
  extract_lets -merge -underBinder +onlyGivenNames x10 x11
  have h11 : Keeps s (x11) := upd_keeps h9
  refine ite_inv ?_ ?_
  · exact State.bootEnd_keeps (State.fput_keeps (State.setMode_keeps h11))
  · extract_lets -merge -underBinder +onlyGivenNames x12
    have h12 : Keeps s (x12) := State.judgeForm_keeps h11
    refine ite_inv ?_ ?_
    · extract_lets -merge -underBinder +onlyGivenNames x13
      have h13 : Keeps s (x13) := by
        unfold x13
        split
        · exact State.judgePair_keeps h12
        · exact h12
      exact State.bootStop_keeps h13
    · exact ite_inv (State.bootPaired_keeps h12) (State.acceptChange_keeps h12)

theorem State.bootClock_keeps {s : State} {t1 : State} (h1 : Keeps s t1) {a2} {a3} : Keeps s (@State.bootClock t1 a2 a3) := by
  delta State.bootClock
  extract_lets -merge -underBinder +onlyGivenNames x4
  exact upd_keeps h1

theorem State.settingsReset_keeps {s : State} {t1 : State} (h1 : Keeps s t1) : Keeps s (@State.settingsReset t1) := by
  delta State.settingsReset
  exact upd_keeps h1

theorem State.imageReg_keeps {s : State} {t1 : State} (h1 : Keeps s t1) {a2} {a3} : Keeps s (@State.imageReg t1 a2 a3) := by
  delta State.imageReg
  split
  · exact h1
  · extract_lets -merge -underBinder +onlyGivenNames x4
    exact ite_inv h1 (ite_inv (State.almWrite_keeps h1) (State.rset_keeps h1))

theorem State.imageLink_keeps {s : State} {t1 : State} (h1 : Keeps s t1) {a2} : Keeps s (@State.imageLink t1 a2) := by
  delta State.imageLink
  extract_lets -merge -underBinder +onlyGivenNames x3
  have h3 : ∀ y1, Keeps s y1 → ∀ y2, ∀ y3, ∀ y4, ∀ y5, Keeps s (x3 y1 y2 y3 y4 y5) := fun _ h3_1 _ _ _ _ => ite_inv (State.fput_keeps (State.fput_keeps (State.setFlag_keeps h3_1))) h3_1
  exact h3 _ (h3 _ h1 _ _ _ _) _ _ _ _

theorem State.imageHedge_keeps {s : State} {t1 : State} (h1 : Keeps s t1) {a2} {a3} : Keeps s (@State.imageHedge t1 a2 a3) := by
  delta State.imageHedge
  refine ite_inv ?_ ?_
  · extract_lets -merge -underBinder +onlyGivenNames x4
    have h4 : Keeps s (x4) := each_inv (State.fput_keeps h1) (fun _ h _ => State.imageLink_keeps h)
    extract_lets -merge -underBinder +onlyGivenNames x5
    extract_lets -merge -underBinder +onlyGivenNames x6
    have h6 : Keeps s (x6) := State.fput_keeps (State.fput_keeps (State.fput_keeps h4))
    extract_lets -merge -underBinder +onlyGivenNames x7
    have h7 : Keeps s (x7) := State.fput_keeps h6
    exact each_inv h7 (fun _ h8 _ => by
      extract_lets -merge -underBinder +onlyGivenNames x9
      exact State.fput_keeps (State.fput_keeps (State.fput_keeps h8)))
  · exact h1

theorem State.imagePipe_keeps {s : State} {t1 : State} (h1 : Keeps s t1) {a2} {a3} : Keeps s (@State.imagePipe t1 a2 a3) := by
  delta State.imagePipe
  exact State.setPipe_keeps h1

theorem State.withImage_keeps {s : State} {t1 : State} (h1 : Keeps s t1) {a2} : Keeps s (@State.withImage t1 a2) := by
  delta State.withImage
  extract_lets -merge -underBinder +onlyGivenNames x3
  extract_lets -merge -underBinder +onlyGivenNames x4
  have h4 : Keeps s (x4) := each_inv (State.settingsReset_keeps h1) (fun _ h5 _ => State.imageReg_keeps h5)
  extract_lets -merge -underBinder +onlyGivenNames x6
  have h6 : Keeps s (x6) := ite_inv (each_inv h4 (fun _ h7 _ => State.setTrim_keeps h7)) h4
  extract_lets -merge -underBinder +onlyGivenNames x8
  have h8 : Keeps s (x8) := State.imageHedge_keeps (State.fput_keeps h6)
  extract_lets -merge -underBinder +onlyGivenNames x9
  have h9 : Keeps s (x9) := each_inv h8 (fun _ h10 _ => upd_keeps h10)
  extract_lets -merge -underBinder +onlyGivenNames x11
  have h11 : Keeps s (x11) := each_inv h9 (fun _ h12 _ => upd_keeps h12)
  extract_lets -merge -underBinder +onlyGivenNames x13
  have h13 : Keeps s (x13) := each_inv h11 (fun _ h14 _ => State.msetN_keeps h14)
  extract_lets -merge -underBinder +onlyGivenNames x15
  have h15 : Keeps s (x15) := each_inv h13 (fun _ h16 _ => State.imagePipe_keeps h16)
  extract_lets -merge -underBinder +onlyGivenNames x17
  have h17 : Keeps s (x17) := each_inv h15 (fun _ h18 _ => State.fput_keeps h18)
  extract_lets -merge -underBinder +onlyGivenNames x19
  have h19 : Keeps s (x19) := each_inv h17 (fun _ h20 _ => upd_keeps h20)
  extract_lets -merge -underBinder +onlyGivenNames x21
  have h21 : Keeps s (x21) := each_inv h19 (fun _ h22 _ => upd_keeps h22)
  exact upd_keeps h21

theorem State.bootFront_keeps {s : State} {t1 : State} (h1 : Keeps s t1) {a2} {a3} : Keeps s (@State.bootFront t1 a2 a3) := by
  delta State.bootFront
  split
  · exact State.raise_keeps (State.setFlag_keeps h1)
  · refine ite_inv ?_ ?_
    · exact State.raise_keeps (State.setFlag_keeps h1)
    · extract_lets -merge -underBinder +onlyGivenNames x4
      extract_lets -merge -underBinder +onlyGivenNames x5
      extract_lets -merge -underBinder +onlyGivenNames x6
      have h6 : Keeps s (x6) := State.setFlag_keeps (State.setFlag_keeps h1)
      extract_lets -merge -underBinder +onlyGivenNames x7
      have h7 : Keeps s (x7) := State.setFlag_keeps (State.setFlag_keeps h6)
      extract_lets -merge -underBinder +onlyGivenNames x8
      have h8 : Keeps s (x8) := State.fput_keeps (State.fput_keeps (State.fput_keeps h7))
      extract_lets -merge -underBinder +onlyGivenNames x9
      have h9 : Keeps s (x9) := State.fput_keeps (State.setFlag_keeps h8)
      extract_lets -merge -underBinder +onlyGivenNames x10
      extract_lets -merge -underBinder +onlyGivenNames x11 x12
      have h12 : Keeps s (x12) := State.setUc_keeps h9
      extract_lets -merge -underBinder +onlyGivenNames x13
      have h13 : Keeps s (x13) := ite_inv h12 (State.raise_keeps (State.setFlag_keeps h12))
      extract_lets -merge -underBinder +onlyGivenNames x14
      have h14 : Keeps s (x14) := ite_inv h13 (State.setFlag_keeps h13)
      exact ite_inv h14 (State.raise_keeps (State.fput_keeps h14))

theorem State.showLoaded_keeps {s : State} {t1 : State} (h1 : Keeps s t1) : Keeps s (@State.showLoaded t1) := by
  delta State.showLoaded
  extract_lets -merge -underBinder +onlyGivenNames x2
  have h2 : Keeps s (x2) := each_inv h1 (fun _ h3 _ => State.fput_keeps h3)
  extract_lets -merge -underBinder +onlyGivenNames x4
  have h4 : Keeps s (x4) := each_inv h2 (fun _ h5 _ => State.fput_keeps h5)
  exact State.setFlag_keeps (State.showBeam_keeps (State.showTable_keeps (State.showLoad_keeps h4)))

theorem State.applyEdit_keeps {s : State} {t1 : State} (h1 : Keeps s t1) {a2} : Keeps s (@State.applyEdit t1 a2) := by
  delta State.applyEdit
  extract_lets -merge -underBinder +onlyGivenNames x3
  have h3 : Keeps s (x3) := State.edited_keeps h1
  extract_lets -merge -underBinder +onlyGivenNames x4
  have h4 : Keeps s (x4) := each_inv h3 (fun _ h5 _ => by
    extract_lets -merge -underBinder +onlyGivenNames x6
    exact State.msetN_keeps (mem_keeps h5 (fun w => filter_wf _ w)))
  extract_lets -merge -underBinder +onlyGivenNames x7
  have h7 : Keeps s (x7) := each_inv h4 (fun _ h8 _ => State.setStages_keeps h8)
  exact upd_keeps h7

theorem State.applyJournal_keeps {s : State} {t1 : State} (h1 : Keeps s t1) : Keeps s (@State.applyJournal t1) := by
  delta State.applyJournal
  extract_lets -merge -underBinder +onlyGivenNames x2
  have h2 : Keeps s (x2) := upd_keeps h1
  exact State.showJournal_keeps (each_inv h2 (fun _ h3 _ => by
    extract_lets -merge -underBinder +onlyGivenNames x4
    split
    · exact State.applyEdit_keeps h3
    · refine ite_inv ?_ ?_
      · extract_lets -merge -underBinder +onlyGivenNames x5
        have h5 : Keeps s (x5) := State.raise_keeps (State.applyEdit_keeps h3)
        exact ite_inv (State.raise_keeps h5) h5
      · exact State.raise_keeps h3
    · exact h3
    · exact h3))

theorem State.loadImage_keeps {s : State} {t1 : State} (h1 : Keeps s t1) {a2} : Keeps s (@State.loadImage t1 a2) := by
  delta State.loadImage
  extract_lets -merge -underBinder +onlyGivenNames x3
  have h3 : Keeps s (x3) := each_inv h1 (fun _ h4 _ => State.bootFront_keeps h4)
  extract_lets -merge -underBinder +onlyGivenNames x5
  have h5 : Keeps s (x5) := State.dioStart_keeps (State.showLoaded_keeps (State.applyJournal_keeps h3))
  extract_lets -merge -underBinder +onlyGivenNames x6 x7
  have h7 : Keeps s (x7) := ite_inv (upd_keeps h5) h5
  exact upd_keeps h7

theorem State.setPort_keeps {s : State} {t1 : State} (h1 : Keeps s t1) {a2} {a3} : Keeps s (@State.setPort t1 a2 a3) := by
  delta State.setPort
  extract_lets -merge -underBinder +onlyGivenNames x4
  have h4 : Keeps s (x4) := State.setBit_keeps (State.fput_keeps h1)
  exact State.raise_keeps (State.setFlag_keeps h4)

theorem State.trainPorts_keeps {s : State} {t1 : State} (h1 : Keeps s t1) {t2 : State} (h2 : Keeps s t2) : Keeps s (@State.trainPorts t1 t2) := by
  delta State.trainPorts
  exact ite_inv (each_inv (State.fput_keeps h1) (fun _ h3 _ => State.setPort_keeps (State.rset_keeps h3))) h1

theorem State.configFault_keeps {s : State} {t1 : State} (h1 : Keeps s t1) {t2 : State} (h2 : Keeps s t2) {a3} {a4} : Keeps s (@State.configFault t1 t2 a3 a4) := by
  delta State.configFault
  extract_lets -merge -underBinder +onlyGivenNames x5
  have h5 : Keeps s (x5) := State.setFlag_keeps (State.fput_keeps (State.setFlag_keeps (State.fput_keeps h1)))
  extract_lets -merge -underBinder +onlyGivenNames x6 x7
  have h6 : Keeps s (x6) := State.fput_keeps h5
  have h7 : Keeps s (x7) := by
    unfold x7
    refine ite_inv ?_ ?_
    · exact h5
    · split
      · extract_lets -merge -underBinder +onlyGivenNames x8
        extract_lets -merge -underBinder +onlyGivenNames x9
        have h9 : Keeps s (x9) := State.fput_keeps (State.fput_keeps (State.fput_keeps h6))
        exact State.raise_keeps h9
      · exact h6
  exact State.raise_keeps h7

theorem State.restoreData_keeps {s : State} {t1 : State} (h1 : Keeps s t1) : Keeps s (@State.restoreData t1) := by
  delta State.restoreData
  extract_lets -merge -underBinder +onlyGivenNames x2
  extract_lets -merge -underBinder +onlyGivenNames x3
  extract_lets -merge -underBinder +onlyGivenNames x4
  extract_lets -merge -underBinder +onlyGivenNames x5
  extract_lets -merge -underBinder +onlyGivenNames x6
  have h6 : Keeps s (x6) := ite_inv (State.draw_keeps h1) h1
  extract_lets -merge -underBinder +onlyGivenNames x7
  have h7 : Keeps s (x7) := State.consolShow_keeps h6
  extract_lets -merge -underBinder +onlyGivenNames x8 x9
  have h9 : Keeps s (x9) := ite_inv h7 (upd_keeps h7)
  extract_lets -merge -underBinder +onlyGivenNames x10
  have h10 : Keeps s (x10) := State.initStatus_keeps (State.initProgram_keeps h9)
  extract_lets -merge -underBinder +onlyGivenNames x11
  extract_lets -merge -underBinder +onlyGivenNames x12
  have h12 : ∀ y1, Keeps s y1 → ∀ y2, ∀ y3, Keeps s (x12 y1 y2 y3) := fun _ h12_1 _ _ => by
    unfold x12
    extract_lets -merge -underBinder +onlyGivenNames x13
    have h13 : Keeps s (x13) := State.fput_keeps h12_1
    exact upd_keeps h13
  refine ite_inv ?_ ?_
  · exact h12 _ h10 _ _
  · refine ite_inv ?_ ?_
    · exact h12 _ (State.retRestore_keeps h10) _ _
    · refine ite_inv ?_ ?_
      · extract_lets -merge -underBinder +onlyGivenNames x14
        have h14 : Keeps s (x14) := State.consolApply_keeps h10
        exact h12 _ (State.retRestore_keeps (upd_keeps h14)) _ _
      · exact h12 _ (State.raise_keeps h10) _ _

theorem State.step7_keeps {s : State} {t1 : State} (h1 : Keeps s t1) {a2} : Keeps s (@State.step7 t1 a2) := by
  delta State.step7
  extract_lets -merge -underBinder +onlyGivenNames x3
  have h3 : Keeps s (x3) := State.fput_keeps (State.setMode_keeps (State.bootClock_keeps h1))
  extract_lets -merge -underBinder +onlyGivenNames x4
  have h4 : Keeps s (x4) := State.unforceAll_keeps (State.fput_keeps h3)
  extract_lets -merge -underBinder +onlyGivenNames x5
  have h5 : Keeps s (x5) := State.withImage_keeps h4
  extract_lets -merge -underBinder +onlyGivenNames x6
  extract_lets -merge -underBinder +onlyGivenNames x7
  have h7 : Keeps s (x7) := ite_inv (State.loadImage_keeps (State.trainPorts_keeps h5 h5)) (State.configFault_keeps (ite_inv h4 (State.trainPorts_keeps h4 h5)) h5)
  extract_lets -merge -underBinder +onlyGivenNames x8
  extract_lets -merge -underBinder +onlyGivenNames x9
  have h9 : Keeps s (x9) := State.deliveryStart_keeps (State.qsRestore_keeps (State.recorderStart_keeps (State.restoreData_keeps h7)))
  extract_lets -merge -underBinder +onlyGivenNames x10
  have h10 : Keeps s (x10) := ite_inv (State.fput_keeps h9) h9
  extract_lets -merge -underBinder +onlyGivenNames x11
  have h11 : Keeps s (x11) := State.showOwner_keeps (State.showVersions_keeps (State.fput_keeps h10))
  exact State.setFlag_keeps h11

theorem State.takeSlot_keeps {s : State} {t1 : State} (h1 : Keeps s t1) {a2} {a3} : Keeps s (@State.takeSlot t1 a2 a3) := by
  delta State.takeSlot
  extract_lets -merge -underBinder +onlyGivenNames x4
  have h4 : Keeps s (x4) := State.setFlag_keeps (State.fput_keeps h1)
  refine ite_inv ?_ ?_
  · extract_lets -merge -underBinder +onlyGivenNames x5
    exact upd_keeps h4
  · exact h4

theorem State.startUp_keeps {s : State} {t1 : State} (h1 : Keeps s t1) {a2} : Keeps s (@State.startUp t1 a2) := by
  delta State.startUp
  extract_lets -merge -underBinder +onlyGivenNames x3
  have h3 : Keeps s (x3) := State.setFlag_keeps (State.companionReports_keeps (State.readKey_keeps h1))
  extract_lets -merge -underBinder +onlyGivenNames x4
  have h4 : Keeps s (x4) := State.registerSlots_keeps h3
  refine ite_inv ?_ ?_
  · exact State.stepFails_keeps h4
  · refine ite_inv ?_ ?_
    · exact State.stepFails_keeps h4
    · extract_lets -merge -underBinder +onlyGivenNames x5
      have h5 : Keeps s (x5) := State.comparatorTest_keeps h4
      refine ite_inv ?_ ?_
      · exact State.stepFails_keeps h5
      · refine ite_inv ?_ ?_
        · exact State.stepFails_keeps h5
        · split
          · rename_i v6_1 q6
            have h6 : Keeps s (v6_1) := ofEq_inv (P := fun e => Keeps s (Prod.fst (e))) (State.selectSlot_keeps h5) q6
            exact State.enterRecovery_keeps h6
          · rename_i v7_1 v7_2 v7_3 q7
            have h7 : Keeps s (v7_1) := ofEq_inv (P := fun e => Keeps s (Prod.fst (e))) (State.selectSlot_keeps h5) q7
            exact State.step8_keeps (State.bootClock_keeps (State.step7_keeps (State.takeSlot_keeps h7)))

theorem State.supplyReturns_keeps {s : State} {t1 : State} (h1 : Keeps s t1) {a2} : Keeps s (@State.supplyReturns t1 a2) := by
  delta State.supplyReturns
  extract_lets -merge -underBinder +onlyGivenNames x3
  extract_lets -merge -underBinder +onlyGivenNames x4 x5 x6
  have h4 : Keeps s (x4) := State.storeTorn_keeps h1
  have h6 : Keeps s (x6) := ite_inv (upd_keeps h4) h1
  extract_lets -merge -underBinder +onlyGivenNames x7 x8
  have h8 : Keeps s (x8) := upd_keeps h6
  exact State.dieReset_keeps h8

theorem execStartUp_keeps {s : State} {a1} {t2 : State} (h2 : Keeps s t2) : KeepsO s (@execStartUp a1 t2) := by
  delta execStartUp
  split
  · exact State.startUp_keeps (State.supplyReturns_keeps h2)
  · exact ite_inv h2 (State.startUp_keeps h2)

theorem execRoleWaitExpiry_keeps {s : State} {t1 : State} (h1 : Keeps s t1) : KeepsO s (@execRoleWaitExpiry t1) := by
  delta execRoleWaitExpiry
  split
  · refine ite_inv ?_ ?_
    · exact h1
    · extract_lets -merge -underBinder +onlyGivenNames x2
      exact State.acceptChange_keeps (upd_keeps h1)
  · exact h1

theorem execMelberLinkUp_keeps {s : State} {a1} {a2} {a3} {t4 : State} (h4 : Keeps s t4) : KeepsO s (@execMelberLinkUp a1 a2 a3 t4) := by
  delta execMelberLinkUp
  refine ite_inv ?_ ?_
  · exact h4
  · refine ite_inv ?_ ?_
    · exact ite_inv (State.judgeForm_keeps (State.melberSend_keeps (State.setPort_keeps h4))) h4
    · refine ite_inv ?_ ?_
      · exact h4
      · extract_lets -merge -underBinder +onlyGivenNames x5
        have h5 : Keeps s (x5) := State.melberSend_keeps (State.setSplit_keeps (State.setFlag_keeps h4))
        split
        · exact ite_inv (State.judgePair_keeps h5) h5
        · exact h5

theorem State.detectFail_keeps {s : State} {t1 : State} (h1 : Keeps s t1) {a2} {a3} {a4} : Keeps s (@State.detectFail t1 a2 a3 a4) := by
  delta State.detectFail
  exact ite_inv (State.enterSafe_keeps (State.send_keeps (State.melFail_keeps h1))) h1

theorem State.pairCut_keeps {s : State} {t1 : State} (h1 : Keeps s t1) : Keeps s (@State.pairCut t1) := by
  delta State.pairCut
  extract_lets -merge -underBinder +onlyGivenNames x2
  have h2 : Keeps s (x2) := State.editAbortFor_keeps h1
  exact ite_inv (State.setSplit_keeps h2) h2

theorem execMelberLinkDown_keeps {s : State} {a1} {t2 : State} (h2 : Keeps s t2) : KeepsO s (@execMelberLinkDown a1 t2) := by
  delta execMelberLinkDown
  refine ite_inv ?_ ?_
  · exact h2
  · refine ite_inv ?_ ?_
    · refine ite_inv ?_ ?_
      · extract_lets -merge -underBinder +onlyGivenNames x3
        have h3 : Keeps s (x3) := ite_inv (State.refLost_keeps h2) h2
        exact State.detectFail_keeps (State.satBump_keeps (State.setPort_keeps h3))
      · exact h2
    · refine ite_inv ?_ ?_
      · extract_lets -merge -underBinder +onlyGivenNames x4
        have h4 : Keeps s (x4) := State.setFlag_keeps h2
        extract_lets -merge -underBinder +onlyGivenNames x5
        have h5 : Keeps s (x5) := ite_inv (State.refLost_keeps h4) h4
        exact ite_inv (State.pairCut_keeps h5) h5
      · exact h2

theorem execFrameResend_keeps {s : State} {a1} {t2 : State} (h2 : Keeps s t2) : KeepsO s (@execFrameResend a1 t2) := by
  delta execFrameResend
  extract_lets -merge -underBinder +onlyGivenNames x3
  refine ite_inv ?_ ?_
  · exact h2
  · extract_lets -merge -underBinder +onlyGivenNames x4
    have h4 : Keeps s (x4) := State.countG_keeps (State.send_keeps h2)
    refine ite_inv ?_ ?_
    · extract_lets -merge -underBinder +onlyGivenNames x5
      have h5 : Keeps s (x5) := State.setFlag_keeps (State.satBump_keeps h4)
      exact State.raise_keeps h5
    · exact h4

theorem State.setMirrorTx_keeps {s : State} {t1 : State} (h1 : Keeps s t1) {a2} {a3} : Keeps s (@State.setMirrorTx t1 a2 a3) := by
  delta State.setMirrorTx
  exact upd_keeps h1

theorem execMirrorCopyComplete_keeps {s : State} {a1} {t2 : State} (h2 : Keeps s t2) : KeepsO s (@execMirrorCopyComplete a1 t2) := by
  delta execMirrorCopyComplete
  split
  · exact ite_inv h2 (State.setMirrorTx_keeps h2)
  · exact h2

theorem execMirrorWindowExpiry_keeps {s : State} {a1} {t2 : State} (h2 : Keeps s t2) : KeepsO s (@execMirrorWindowExpiry a1 t2) := by
  delta execMirrorWindowExpiry
  split
  · refine ite_inv ?_ ?_
    · exact h2
    · refine ite_inv ?_ ?_
      · extract_lets -merge -underBinder +onlyGivenNames x3 x4
        exact State.send_keeps (State.setMirrorTx_keeps h2)
      · extract_lets -merge -underBinder +onlyGivenNames x5
        have h5 : Keeps s (x5) := State.send_keeps (State.setMirrorTx_keeps h2)
        extract_lets -merge -underBinder +onlyGivenNames x6
        have h6 : Keeps s (x6) := State.setFlag_keeps (State.satBump_keeps h5)
        exact State.raise_keeps h6
  · exact h2

theorem State.parkRest_keeps {s : State} {t1 : State} (h1 : Keeps s t1) : Keeps s (@State.parkRest t1) := by
  delta State.parkRest
  exact ite_inv (State.acceptChange_keeps h1) h1

theorem execMirrorSetReceived_keeps {s : State} {a1} {a2} {t3 : State} (h3 : Keeps s t3) : KeepsO s (@execMirrorSetReceived a1 a2 t3) := by
  delta execMirrorSetReceived
  exact ite_inv (ite_inv (State.dwellAnew_keeps h3) (ite_inv (State.send_keeps (upd_keeps h3)) (State.parkRest_keeps (State.holdSet_keeps h3)))) h3

theorem execSetAcknowledged_keeps {s : State} {a1} {a2} {a3} {t4 : State} (h4 : Keeps s t4) : KeepsO s (@execSetAcknowledged a1 a2 a3 t4) := by
  delta execSetAcknowledged
  refine ite_inv ?_ ?_
  · extract_lets -merge -underBinder +onlyGivenNames x5
    have h5 : Keeps s (x5) := by
      unfold x5
      split
      · refine ite_inv ?_ ?_
        · extract_lets -merge -underBinder +onlyGivenNames x6
          exact upd_keeps h4
        · exact h4
      · exact h4
    extract_lets -merge -underBinder +onlyGivenNames x7 x8
    have h8 : Keeps s (x8) := upd_keeps h5
    exact State.takeReport_keeps h8
  · exact h4

theorem execHeartbeat_keeps {s : State} {t1 : State} (h1 : Keeps s t1) : KeepsO s (@execHeartbeat t1) := by
  delta execHeartbeat
  exact ite_inv (State.send_keeps (upd_keeps h1)) h1

theorem State.degradeHandover_keeps {s : State} {t1 : State} (h1 : Keeps s t1) : Keeps s (@State.degradeHandover t1) := by
  delta State.degradeHandover
  extract_lets -merge -underBinder +onlyGivenNames x2
  exact ite_inv (State.proposeHandover_keeps h1) h1

theorem State.answerAlign_keeps {s : State} {t1 : State} (h1 : Keeps s t1) {a2} : Keeps s (@State.answerAlign t1 a2) := by
  delta State.answerAlign
  exact ite_inv (ite_inv (ite_inv (State.startAlign_keeps h1) (ite_inv h1 (State.sendSegments_keeps h1))) (upd_keeps h1)) h1

theorem State.noteAgree_keeps {s : State} {t1 : State} (h1 : Keeps s t1) : Keeps s (@State.noteAgree t1) := by
  delta State.noteAgree
  split
  · exact h1
  · extract_lets -merge -underBinder +onlyGivenNames x2
    exact ite_inv h1 (upd_keeps h1)

theorem execHeartbeatReceived_keeps {s : State} {a1} {a2} {t3 : State} (h3 : Keeps s t3) : KeepsO s (@execHeartbeatReceived a1 a2 t3) := by
  delta execHeartbeatReceived
  refine ite_inv ?_ ?_
  · extract_lets -merge -underBinder +onlyGivenNames x4 x5
    have h5 : Keeps s (x5) := upd_keeps h3
    exact State.parkRest_keeps (State.degradeHandover_keeps (State.answerAlign_keeps (State.setSplit_keeps (State.noteAgree_keeps h5))))
  · exact h3

theorem execHeartbeatTimeout_keeps {s : State} {t1 : State} (h1 : Keeps s t1) : KeepsO s (@execHeartbeatTimeout t1) := by
  delta execHeartbeatTimeout
  exact ite_inv h1 (ite_inv (State.primaryFailed_keeps h1) (State.unpair_keeps (State.setSplit_keeps h1)))

theorem State.batonIn_keeps {s : State} {t1 : State} (h1 : Keeps s t1) {a2} : Keeps s (@State.batonIn t1 a2) := by
  delta State.batonIn
  refine ite_inv ?_ ?_
  · exact h1
  · extract_lets -merge -underBinder +onlyGivenNames x3 x4
    have h4 : Keeps s (x4) := upd_keeps h1
    exact State.noteAgree_keeps (State.setFlag_keeps h4)

theorem execBatonInFall_keeps {s : State} {t1 : State} (h1 : Keeps s t1) : KeepsO s (@execBatonInFall t1) := by
  delta execBatonInFall
  refine ite_inv ?_ ?_
  · exact h1
  · extract_lets -merge -underBinder +onlyGivenNames x2
    have h2 : Keeps s (x2) := State.batonIn_keeps h1
    exact ite_inv (State.primaryFailed_keeps h2) h2

theorem execDualPrimaryYield_keeps {s : State} {t1 : State} (h1 : Keeps s t1) : KeepsO s (@execDualPrimaryYield t1) := by
  delta execDualPrimaryYield
  extract_lets -merge -underBinder +onlyGivenNames x2
  extract_lets -merge -underBinder +onlyGivenNames x3
  refine ite_inv ?_ ?_
  · extract_lets -merge -underBinder +onlyGivenNames x4
    have h4 : Keeps s (x4) := State.enterTrack_keeps (State.canStop_keeps (State.cancelJobs_keeps (State.stopAll_keeps h1)))
    exact State.raise_keeps (State.setFlag_keeps h4)
  · exact h1

theorem State.setBatonFault_keeps {s : State} {t1 : State} (h1 : Keeps s t1) {a2} : Keeps s (@State.setBatonFault t1 a2) := by
  delta State.setBatonFault
  exact State.dwellAnew_keeps (State.raise_keeps (State.setFlag_keeps h1))

theorem execBatonFault_keeps {s : State} {t1 : State} (h1 : Keeps s t1) : KeepsO s (@execBatonFault t1) := by
  delta execBatonFault
  exact ite_inv (State.setBatonFault_keeps h1) h1

theorem execBatonFaultClear_keeps {s : State} {t1 : State} (h1 : Keeps s t1) : KeepsO s (@execBatonFaultClear t1) := by
  delta execBatonFaultClear
  exact ite_inv (State.setBatonFault_keeps h1) h1

theorem execHandover_keeps {s : State} {t1 : State} (h1 : Keeps s t1) : KeepsO s (@execHandover t1) := by
  delta execHandover
  exact ite_inv h1 (State.handoverCommand_keeps h1)

theorem execResync_keeps {s : State} {t1 : State} (h1 : Keeps s t1) : KeepsO s (@execResync t1) := by
  delta execResync
  exact State.resync_keeps h1

theorem execAlignmentSegment_keeps {s : State} {a1} {a2} {a3} {t4 : State} (h4 : Keeps s t4) : KeepsO s (@execAlignmentSegment a1 a2 a3 t4) := by
  delta execAlignmentSegment
  refine ite_inv ?_ ?_
  · refine ite_inv ?_ ?_
    · extract_lets -merge -underBinder +onlyGivenNames x5 x6
      have h6 : Keeps s (x6) := ite_inv h4 (upd_keeps h4)
      extract_lets -merge -underBinder +onlyGivenNames x7
      have h7 : Keeps s (x7) := State.send_keeps (State.takeRegions_keeps (State.takeRetentive_keeps h6))
      exact State.showReady_keeps (upd_keeps h7)
    · exact State.dwellAnew_keeps h4
  · exact h4

theorem State.joinHandover_keeps {s : State} {t1 : State} (h1 : Keeps s t1) {a2} {a3} : Keeps s (@State.joinHandover t1 a2 a3) := by
  delta State.joinHandover
  exact ite_inv h1 (ite_inv (State.proposeAt_keeps (upd_keeps h1)) (ite_inv (State.proposeAt_keeps h1) h1))

theorem State.armHandover_keeps {s : State} {t1 : State} (h1 : Keeps s t1) {a2} {a3} {a4} : Keeps s (@State.armHandover t1 a2 a3 a4) := by
  delta State.armHandover
  exact upd_keeps h1

theorem execHandoverProposal_keeps {s : State} {a1} {a2} {t3 : State} (h3 : Keeps s t3) : KeepsO s (@execHandoverProposal a1 a2 t3) := by
  delta execHandoverProposal
  exact ite_inv h3 (ite_inv (State.joinHandover_keeps h3) (ite_inv (State.send_keeps (State.armHandover_keeps h3)) (ite_inv (State.send_keeps (State.armHandover_keeps h3)) h3)))

theorem execHandoverAck_keeps {s : State} {a1} {t2 : State} (h2 : Keeps s t2) : KeepsO s (@execHandoverAck a1 t2) := by
  delta execHandoverAck
  split
  · exact ite_inv (State.armHandover_keeps h2) h2
  · exact h2

theorem State.proposeAgain_keeps {s : State} {t1 : State} (h1 : Keeps s t1) : Keeps s (@State.proposeAgain t1) := by
  delta State.proposeAgain
  refine ite_inv ?_ ?_
  · exact ite_inv (State.proposeHandover_keeps h1) (State.stopAlone_keeps h1)
  · split
    · exact ite_inv h1 (ite_inv (State.proposeHandover_keeps h1) (State.activationCopy_keeps (upd_keeps h1)))
    · exact h1

theorem execHandoverLapse_keeps {s : State} {t1 : State} (h1 : Keeps s t1) : KeepsO s (@execHandoverLapse t1) := by
  delta execHandoverLapse
  split
  · exact ite_inv (State.proposeAgain_keeps (upd_keeps h1)) h1
  · exact h1

theorem execTakeback_keeps {s : State} {t1 : State} (h1 : Keeps s t1) : KeepsO s (@execTakeback t1) := by
  delta execTakeback
  refine ite_inv ?_ ?_
  · exact h1
  · refine ite_inv ?_ ?_
    · exact State.proposeHandover_keeps h1
    · extract_lets -merge -underBinder +onlyGivenNames x2
      have h2 : Keeps s (x2) := State.raise_keeps (State.satBump_keeps h1)
      exact upd_keeps h2

theorem execTakebackDeferred_keeps {s : State} {t1 : State} (h1 : Keeps s t1) : KeepsO s (@execTakebackDeferred t1) := by
  delta execTakebackDeferred
  refine ite_inv ?_ ?_
  · exact h1
  · extract_lets -merge -underBinder +onlyGivenNames x2 x3
    have h3 : Keeps s (x3) := upd_keeps h1
    exact ite_inv (State.proposeHandover_keeps h3) h3

theorem State.witnessNext_keeps {s : State} {t1 : State} (h1 : Keeps s t1) {a2} : Keeps s (@State.witnessNext t1 a2) := by
  delta State.witnessNext
  exact ite_inv h1 (upd_keeps h1)

theorem execWitnessHeartbeat_keeps {s : State} {a1} {t2 : State} (h2 : Keeps s t2) : KeepsO s (@execWitnessHeartbeat a1 t2) := by
  delta execWitnessHeartbeat
  refine ite_inv ?_ ?_
  · extract_lets -merge -underBinder +onlyGivenNames x3
    have h3 : Keeps s (x3) := State.witnessNext_keeps h2
    extract_lets -merge -underBinder +onlyGivenNames x4 x5
    have h5 : Keeps s (x5) := State.countG_keeps (upd_keeps h3)
    exact State.send_keeps h5
  · exact h2

theorem execFormationTimeout_keeps {s : State} {a1} {t2 : State} (h2 : Keeps s t2) : KeepsO s (@execFormationTimeout a1 t2) := by
  delta execFormationTimeout
  refine ite_inv ?_ ?_
  · exact h2
  · extract_lets -merge -underBinder +onlyGivenNames x3
    have h3 : Keeps s (x3) := State.judgeForm_keeps h2
    split
    · refine ite_inv ?_ ?_
      · exact h3
      · extract_lets -merge -underBinder +onlyGivenNames x4 x5
        have h5 : Keeps s (x5) := upd_keeps h3
        extract_lets -merge -underBinder +onlyGivenNames x6
        exact State.raise_keeps (State.setFlag_keeps h5)
    · exact h3

theorem execModeAnnounce_keeps {s : State} {a1} {t2 : State} (h2 : Keeps s t2) : KeepsO s (@execModeAnnounce a1 t2) := by
  delta execModeAnnounce
  refine ite_inv ?_ ?_
  · exact h2
  · split
    · exact ite_inv (State.formed_keeps h2) h2
    · exact ite_inv (upd_keeps h2) h2
    · extract_lets -merge -underBinder +onlyGivenNames x3
      extract_lets -merge -underBinder +onlyGivenNames x4
      exact ite_inv (State.acceptChange_keeps h2) h2

theorem execTimeMessage_keeps {s : State} {t1 : State} (h1 : Keeps s t1) : KeepsO s (@execTimeMessage t1) := by
  delta execTimeMessage
  extract_lets -merge -underBinder +onlyGivenNames x2
  exact ite_inv (State.send_keeps (upd_keeps h1)) h1

theorem execTimeMessageReceived_keeps {s : State} {a1} {t2 : State} (h2 : Keeps s t2) : KeepsO s (@execTimeMessageReceived a1 t2) := by
  delta execTimeMessageReceived
  refine ite_inv ?_ ?_
  · exact h2
  · extract_lets -merge -underBinder +onlyGivenNames x3
    extract_lets -merge -underBinder +onlyGivenNames x4 x5
    have h5 : Keeps s (x5) := upd_keeps h2
    extract_lets -merge -underBinder +onlyGivenNames x6
    have h6 : Keeps s (x6) := State.followRef_keeps h5
    extract_lets -merge -underBinder +onlyGivenNames x7
    refine ite_inv ?_ ?_
    · extract_lets -merge -underBinder +onlyGivenNames x8
      have h8 : Keeps s (x8) := State.setFlag_keeps (State.fput_keeps h6)
      extract_lets -merge -underBinder +onlyGivenNames x9
      exact State.send_keeps (upd_keeps h8)
    · exact h6

theorem execBeatMessage_keeps {s : State} {a1} {t2 : State} (h2 : Keeps s t2) : KeepsO s (@execBeatMessage a1 t2) := by
  delta execBeatMessage
  extract_lets -merge -underBinder +onlyGivenNames x3
  extract_lets -merge -underBinder +onlyGivenNames x4
  extract_lets -merge -underBinder +onlyGivenNames x5
  refine ite_inv ?_ ?_
  · exact h2
  · extract_lets -merge -underBinder +onlyGivenNames x6
    extract_lets -merge -underBinder +onlyGivenNames x7
    have h7 : Keeps s (x7) := State.modCls_keeps h2
    extract_lets -merge -underBinder +onlyGivenNames x8
    have h8 : Keeps s (x8) := ite_inv (each_inv h7 (fun _ h9 _ => State.swSet_keeps h9)) h7
    exact each_inv h8 (fun _ h10 _ => State.modStrand_keeps h10)

theorem execFail_keeps {s : State} {a1} {a2} {t3 : State} (h3 : Keeps s t3) : KeepsO s (@execFail a1 a2 t3) := by
  delta execFail
  exact ite_inv h3 (State.enterSafe_keeps (State.melFail_keeps h3))

theorem execHedgeHeartbeat_keeps {s : State} {t1 : State} (h1 : Keeps s t1) : KeepsO s (@execHedgeHeartbeat t1) := by
  delta execHedgeHeartbeat
  exact ite_inv (State.send_keeps (upd_keeps h1)) h1

theorem execHedgeHeartbeatTimeout_keeps {s : State} {a1} {t2 : State} (h2 : Keeps s t2) : KeepsO s (@execHedgeHeartbeatTimeout a1 t2) := by
  delta execHedgeHeartbeatTimeout
  exact ite_inv h2 (State.detectFail_keeps h2)

theorem execTbOffsetFault_keeps {s : State} {t1 : State} (h1 : Keeps s t1) : KeepsO s (@execTbOffsetFault t1) := by
  delta execTbOffsetFault
  split
  · exact ite_inv h1 (State.detectFail_keeps h1)
  · exact h1

theorem execTakeoverDistribution_keeps {s : State} {a1} {t2 : State} (h2 : Keeps s t2) : KeepsO s (@execTakeoverDistribution a1 t2) := by
  delta execTakeoverDistribution
  extract_lets -merge -underBinder +onlyGivenNames x3
  exact ite_inv h2 (ite_inv (State.takeover_keeps h2) (State.primaryFailed_keeps h2))

theorem State.answerStrand_keeps {s : State} {t1 : State} (h1 : Keeps s t1) {a2} {a3} : Keeps s (@State.answerStrand t1 a2 a3) := by
  delta State.answerStrand
  exact State.modStrand_keeps h1

theorem State.memberTrap_keeps {s : State} {t1 : State} (h1 : Keeps s t1) {a2} {a3} : Keeps s (@State.memberTrap t1 a2 a3) :=
  ite_inv (h1.trans (State.swapWorld_back (State.trap_keepsW (KeepsW.refl _)))) (State.trap_keeps h1)

theorem execBankedAccessComplete_keeps {s : State} {a1} {a2} {t3 : State} (h3 : Keeps s t3) : KeepsO s (@execBankedAccessComplete a1 a2 t3) := by
  delta execBankedAccessComplete
  refine ite_inv ?_ ?_
  · exact h3
  · split
    · exact ite_inv (State.answerStrand_keeps h3) h3
    · exact ite_inv (State.memberTrap_keeps h3) h3
    · exact ite_inv (State.memberTrap_keeps h3) h3

theorem execScAnswer_keeps {s : State} {a1} {a2} {t3 : State} (h3 : Keeps s t3) : KeepsO s (@execScAnswer a1 a2 t3) := by
  delta execScAnswer
  exact ite_inv h3 (State.answerStrand_keeps h3)

theorem State.activateBegin_keeps {s : State} {t1 : State} (h1 : Keeps s t1) {a2} : Keeps s (@State.activateBegin t1 a2) := by
  delta State.activateBegin
  extract_lets -merge -underBinder +onlyGivenNames x3
  extract_lets -merge -underBinder +onlyGivenNames x4 x5
  have h5 : Keeps s (x5) := upd_keeps h1
  extract_lets -merge -underBinder +onlyGivenNames x6
  have h6 : Keeps s (x6) := State.setFlag_keeps h5
  extract_lets -merge -underBinder +onlyGivenNames x7
  have h7 : Keeps s (x7) := ite_inv (State.send_keeps h6) h6
  extract_lets -merge -underBinder +onlyGivenNames x8
  have h8 : Keeps s (x8) := ite_inv (State.proposeHandover_keeps h7) h7
  exact ite_inv h8 (State.activationCopy_keeps h8)

theorem execActivate_keeps {s : State} {a1} {t2 : State} (h2 : Keeps s t2) : KeepsO s (@execActivate a1 t2) := by
  delta execActivate
  refine ite_inv ?_ ?_
  · exact h2
  · extract_lets -merge -underBinder +onlyGivenNames x3
    extract_lets -merge -underBinder +onlyGivenNames x4
    extract_lets -merge -underBinder +onlyGivenNames x5
    have h5 : Keeps s (x5) := State.raise_keeps (State.fput_keeps h2)
    exact ite_inv (State.activateBegin_keeps h5) h5

theorem State.roleFound_keeps {s : State} {t1 : State} (h1 : Keeps s t1) : Keeps s (@State.roleFound t1) := by
  delta State.roleFound
  refine ite_inv ?_ ?_
  · extract_lets -merge -underBinder +onlyGivenNames x2 x3
    have h3 : Keeps s (x3) := upd_keeps h1
    exact ite_inv (State.bootEnd_keeps (State.setMode_keeps h3)) (State.acceptChange_keeps h3)
  · exact h1

theorem execBatonInRise_keeps {s : State} {t1 : State} (h1 : Keeps s t1) : KeepsO s (@execBatonInRise t1) := by
  delta execBatonInRise
  exact ite_inv h1 (State.roleFound_keeps (State.batonIn_keeps h1))

theorem State.memberAnswer_keeps {s : State} {t1 : State} (h1 : Keeps s t1) {a2} {a3} {a4} {a5} {a6} : Keeps s (@State.memberAnswer t1 a2 a3 a4 a5 a6) := by
  delta State.memberAnswer
  exact State.send_keeps h1

theorem State.memberStore_keeps {s : State} {t1 : State} (h1 : Keeps s t1) {a2} {a3} {a4} {a5} : Keeps s (@State.memberStore t1 a2 a3 a4 a5) := by
  delta State.memberStore
  extract_lets -merge -underBinder +onlyGivenNames x6
  extract_lets -merge -underBinder +onlyGivenNames x7
  have h7 : Keeps s (x7) := State.breakResv_keeps (State.msetN_keeps h1)
  exact each_inv h7 (fun _ h8 _ => upd_keeps h8)

theorem execMemberAccessRequest_keeps {s : State} {a1} {a2} {a3} {t4 : State} (h4 : Keeps s t4) : KeepsO s (@execMemberAccessRequest a1 a2 a3 t4) := by
  delta execMemberAccessRequest
  extract_lets -merge -underBinder +onlyGivenNames x5
  extract_lets -merge -underBinder +onlyGivenNames x6
  refine ite_inv ?_ ?_
  · exact h4
  · split
    · refine ite_inv ?_ ?_
      · split
        · exact State.memberAnswer_keeps (ite_inv (State.integRead_keeps h4) h4)
        · exact State.memberAnswer_keeps h4
      · refine ite_inv ?_ ?_
        · exact State.memberAnswer_keeps h4
        · refine ite_inv ?_ ?_
          · exact State.memberAnswer_keeps (State.integRead_keeps h4)
          · split
            · exact State.memberAnswer_keeps h4
            · exact h4
    · split
      · exact State.memberAnswer_keeps (ite_inv (State.integRead_keeps h4) h4)
      · exact State.memberAnswer_keeps (State.memberStore_keeps h4)
    · split
      · exact State.memberAnswer_keeps (ite_inv (State.integRead_keeps h4) h4)
      · extract_lets -merge -underBinder +onlyGivenNames x7
        have h7 : Keeps s (x7) := upd_keeps h4
        exact State.memberAnswer_keeps h7
    · split
      · exact State.memberAnswer_keeps (ite_inv (State.integRead_keeps h4) h4)
      · extract_lets -merge -underBinder +onlyGivenNames x8
        extract_lets -merge -underBinder +onlyGivenNames x9
        have h9 : Keeps s (x9) := upd_keeps h4
        exact ite_inv (State.memberAnswer_keeps (State.breakResv_keeps (State.msetN_keeps h9))) (State.memberAnswer_keeps h9)

theorem State.tickCounters_keeps {s : State} {t1 : State} (h1 : Keeps s t1) : Keeps s (@State.tickCounters t1) := by
  delta State.tickCounters
  refine ite_inv ?_ ?_
  · extract_lets -merge -underBinder +onlyGivenNames x2
    have h2 : Keeps s (x2) := State.countG_keeps h1
    extract_lets -merge -underBinder +onlyGivenNames x3
    have h3 : Keeps s (x3) := ite_inv (State.countG_keeps h2) h2
    exact each_inv h3 (fun _ h4 _ => by
      extract_lets -merge -underBinder +onlyGivenNames x5
      refine ite_inv ?_ ?_
      · extract_lets -merge -underBinder +onlyGivenNames x6
        have h6 : Keeps s (x6) := State.countS_keeps h4
        split
        · exact h6
        · split
          · exact State.countS_keeps h6
          · exact State.countS_keeps h6
          · exact State.countS_keeps h6
      · exact h4)
  · exact h1

theorem State.tickTb_keeps {s : State} {t1 : State} (h1 : Keeps s t1) : Keeps s (@State.tickTb t1) := by
  delta State.tickTb
  extract_lets -merge -underBinder +onlyGivenNames x2
  extract_lets -merge -underBinder +onlyGivenNames x3
  extract_lets -merge -underBinder +onlyGivenNames x4
  exact upd_keeps h1

theorem State.mirrorEnd_keeps {s : State} {t1 : State} (h1 : Keeps s t1) {a2} : Keeps s (@State.mirrorEnd t1 a2) := by
  delta State.mirrorEnd
  split
  · exact h1
  · refine ite_inv ?_ ?_
    · extract_lets -merge -underBinder +onlyGivenNames x3
      extract_lets -merge -underBinder +onlyGivenNames x4
      have h4 : Keeps s (x4) := State.send_keeps (State.setMirrorTx_keeps h1)
      extract_lets -merge -underBinder +onlyGivenNames x5
      have h5 : Keeps s (x5) := State.fput_keeps (State.fput_keeps h4)
      exact State.countG_keeps h5
    · exact h1

theorem State.outgoingOff_keeps {s : State} {t1 : State} (h1 : Keeps s t1) {a2} : Keeps s (@State.outgoingOff t1 a2) := by
  delta State.outgoingOff
  split
  · exact h1
  · refine ite_inv ?_ ?_
    · extract_lets -merge -underBinder +onlyGivenNames x3
      have h3 : Keeps s (x3) := State.onOutputs_keeps h1 (fun s => (fun _ h4 => each_inv h4 (fun _ h5 _ => by
        split
        · exact ite_inv (State.dioOff_keeps h5) h5
        · exact ite_inv (State.dioOff_keeps h5) h5)))
      exact upd_keeps h3
    · exact h1

theorem State.tickObs_keeps {s : State} {t1 : State} (h1 : Keeps s t1) : Keeps s (@State.tickObs t1) := by
  delta State.tickObs
  refine ite_inv ?_ ?_
  · split
    · exact h1
    · extract_lets -merge -underBinder +onlyGivenNames x2 x3
      have h3 : Keeps s (x3) := upd_keeps h1
      exact State.send_keeps h3
  · exact h1

theorem State.tickTrial_keeps {s : State} {t1 : State} (h1 : Keeps s t1) : Keeps s (@State.tickTrial t1) := by
  delta State.tickTrial
  split
  · exact h1
  · split
    · exact State.trialFallback_keeps h1
    · exact ite_inv h1 (State.trialCheck_keeps h1)

theorem State.tickProofs_keeps {s : State} {t1 : State} (h1 : Keeps s t1) : Keeps s (@State.tickProofs t1) := by
  delta State.tickProofs
  exact each_inv h1 (fun _ h2 _ => ite_inv h2 (State.proofCheck_keeps h2))

theorem State.tickDwell_keeps {s : State} {t1 : State} (h1 : Keeps s t1) : Keeps s (@State.tickDwell t1) := by
  delta State.tickDwell
  exact ite_inv (State.dwellAnew_keeps h1) h1

theorem State.gateAgain_keeps {s : State} {t1 : State} (h1 : Keeps s t1) : Keeps s (@State.gateAgain t1) := by
  delta State.gateAgain
  extract_lets -merge -underBinder +onlyGivenNames x2
  refine ite_inv ?_ ?_
  · extract_lets -merge -underBinder +onlyGivenNames x3 x4
    have h4 : Keeps s (x4) := upd_keeps h1
    exact ite_inv h4 (State.sharedOff_keeps h4)
  · exact h1

end Sys2Proof.Machine
end

