-- ==== Sys2Proof/WellFormed.lean ====
section
/-!
DEFINITION. Which commands are well formed: the bounds that the spec sets on operands and that the operand types do not say
themselves. A command that is not well formed is none that the outside could send; no meaning relies on it.
-/
namespace Sys2Proof

/-- A register address: a word address of the register space (R3, R22). -/
def registerAddr (a : BitVec 32) : Bool := decide (0x40000000 ≤ a.toNat ∧ a.toNat < 0x40130000 ∧ a.toNat % 4 = 0)

/-- A forced bit item takes the value 0 or 1 (R71). -/
def forcesOk (l : List ForceItem) : Bool := l.all (fun x => decide (x.kind.val < 3 → x.value.toNat < 2))

/-- A stage code, or 0x10 and the KIND of a job (R189). -/
def seCheckOk (c : SeCheck) : Bool := decide (c.stage < 0x20)

/-- The comparisons of a t0 (R189). -/
def checksOk (l : List (Fin 8 × Nat × SeCheck)) : Bool := l.all (fun c => seCheckOk c.2.2)

/-- Bytes of the committed image (R80). -/
def imageBytesOk (l : List Nat) : Bool := l.all (fun o => decide (o < 0x180000))

/-- A place of program data lies in a DMEM or in the image (R21, R80). -/
def placeOk (p : DataPlace) (n : Nat) : Bool :=
  match p.dmem with
  | some _ => decide (p.off + n ≤ 0x40000)
  | none => decide (p.off + n ≤ 0x180000)

/-- A retentive range lies in its memory, and its keep RAM granules in the retentive area (R449). -/
def retRangeOk (r : RetRange) : Bool :=
  decide (0 < r.len ∧ 256 ≤ r.granule ∧ r.granule + (r.len + 31) / 32 ≤ 16384 ∧
    r.off + r.len ≤ (if r.dmem.isSome then 0x40000 else 0x180000))

/-- A configuration image names every strand once and keeps its ranges (R25, R80, R449). -/
def imageOk (c : ConfigImage) : Bool :=
  decide (c.strands.length = 16) && imageBytesOk (c.initImg.map (·.1)) && c.retMap.all retRangeOk &&
    c.heddle.all (fun e => decide (e.1 < 16384)) && c.initDmem.all (fun d => decide (d.2.1 < 0x40000))

/-- An edit package names heddle entries of the table and places of the memories (R285). -/
def packageOk (p : EditPkg) : Bool :=
  p.entries.all (fun e => decide (e.1 < 16384)) && p.inits.all (fun i => placeOk i.place i.bytes.length) &&
    p.moves.all (fun m => placeOk m.old m.len && placeOk m.new m.len)

/-- A mirror set carries whole granules (R316). -/
def setOk (m : MirrorSet) (t : SetTrailer) : Bool :=
  (m.values ++ m.retentive).all (fun g => decide (g.2.length = 32)) && decide (t.granules < 2 ^ 32)

/-- A CAN frame has at most 8 data bytes, with CAN FD at most 64; a remote frame has none; a base identifier has 11 bits. -/
def canFrameOk (f : CanFrame) : Bool :=
  decide (f.data.length ≤ (if f.rtr then 0 else if f.fdf then 64 else 8)) && (f.ide || decide (f.id.toNat < 2048)) &&
    !(f.fdf && f.rtr)

/-- The bits of a stored granule that are in error are bits of its 280 (R422). -/
def errorsOk (l : List Nat) : Bool := decide l.Nodup && l.all (fun b => decide (b < 280))

/-- A granule of a memory of `n` granules. -/
def granuleOk (n : Nat) (g : GranuleRead) : Bool := decide (g.granule < n) && errorsOk g.errors

/-- An access of another module has a size of 1, 2 or 4 bytes and is aligned to it; LR and SC are of words (R153, R362). -/
def memberReqOk (r : MemberReq) : Bool :=
  match r with
  | .load _ off size => decide ((size = 1 ∨ size = 2 ∨ size = 4) ∧ off % size = 0)
  | .store off size _ => decide ((size = 1 ∨ size = 2 ∨ size = 4) ∧ off % size = 0)
  | .lr off => decide (off % 4 = 0)
  | .sc off _ => decide (off % 4 = 0)

/-- Whether a command is well formed. DESIGN CHOICE: assumption 3. -/
def Instr.wf (i : Instr) : Bool :=
  match i with
  | .clockFault .. => true
  | .fabricAdmission => true
  | .registerWrite addr _ _ => registerAddr addr
  | .readClear addr _ => registerAddr addr
  | .highWordLatch addr => registerAddr addr
  | .cycleStart _ _ _ found => decide (found.rdbk.map (·.1)).Nodup && checksOk found.checks
  | .shed .. => true
  | .beamStart .. => true
  | .commitComplete .. => true
  | .commitDeadline .. => true
  | .emit .. => true
  | .gateClose .. => true
  | .rioWindowEnd .. => true
  | .beatTimeout .. => true
  | .gptpMessage .. => true
  | .forceSet items _ => forcesOk items
  | .forceRelease items _ => forcesOk items
  | .illegalInstruction st word => (dxDecode st word).isNone
  | .ldb .. => true
  | .ldbn .. => true
  | .andb .. => true
  | .andbn .. => true
  | .orb .. => true
  | .orbn .. => true
  | .xorb .. => true
  | .ldbc .. => true
  | .notb .. => true
  | .pshb .. => true
  | .andpb .. => true
  | .orpb .. => true
  | .xorpb .. => true
  | .popb .. => true
  | .dupb .. => true
  | .outb .. => true
  | .setb .. => true
  | .rstb .. => true
  | .edgr .. => true
  | .edgf .. => true
  | .add .. => true
  | .addi .. => true
  | .adc .. => true
  | .sub .. => true
  | .subi .. => true
  | .sbc .. => true
  | .cmp .. => true
  | .cmpi .. => true
  | .neg .. => true
  | .and .. => true
  | .andi .. => true
  | .or .. => true
  | .ori .. => true
  | .xor .. => true
  | .xori .. => true
  | .not .. => true
  | .tst .. => true
  | .shl .. => true
  | .shr .. => true
  | .sar .. => true
  | .ror .. => true
  | .mul .. => true
  | .mulu .. => true
  | .div .. => true
  | .divu .. => true
  | .rem .. => true
  | .remu .. => true
  | .min .. => true
  | .max .. => true
  | .minu .. => true
  | .maxu .. => true
  | .clz .. => true
  | .mov .. => true
  | .movl .. => true
  | .movh .. => true
  | .sxtb .. => true
  | .sxth .. => true
  | .zxtb .. => true
  | .zxth .. => true
  | .mpy .. => true
  | .mac .. => true
  | .msu .. => true
  | .macp .. => true
  | .msup .. => true
  | .clra .. => true
  | .adda .. => true
  | .suba .. => true
  | .asha .. => true
  | .accr .. => true
  | .rdal .. => true
  | .rdah .. => true
  | .rdag .. => true
  | .wral .. => true
  | .wrah .. => true
  | .wrag .. => true
  | .fmul .. => true
  | .qadd .. => true
  | .qsub .. => true
  | .qneg .. => true
  | .qabs .. => true
  | .lw .. => true
  | .lh .. => true
  | .lhu .. => true
  | .lby .. => true
  | .lbyu .. => true
  | .sw .. => true
  | .sh .. => true
  | .sby .. => true
  | .movp .. => true
  | .rdp .. => true
  | .wrl .. => true
  | .rdl .. => true
  | .lr .. => true
  | .sc .. => true
  | .tsb .. => true
  | .clb .. => true
  | .b .. => true
  | .dbnz .. => true
  | .jr .. => true
  | .call .. => true
  | .callr .. => true
  | .ret .. => true
  | .push .. => true
  | .pop .. => true
  | .adjsp .. => true
  | .rddsp .. => true
  | .rdrsp .. => true
  | .nop .. => true
  | .beat .. => true
  | .endc .. => true
  | .fence .. => true
  | .chkin .. => true
  | .sej .. => true
  | .rdsys .. => true
  | .wrsys .. => true
  | .setbk .. => true
  | .setbki .. => true
  | .rdbk .. => true
  | .rdctx .. => true
  | .trap .. => true
  | .rdfl .. => true
  | .wrfl .. => true
  | .clrq .. => true
  | .rdfxm .. => true
  | .wrfxm .. => true
  | .pipelineSample _ bits _ _ _ _ checks => decide (bits.length ≤ 200000) && checks.all seCheckOk
  | .jobComplete _ checks => checks.all seCheckOk
  | .ucLinkLoss .. => true
  | .brownout .. => true
  | .frontEndRestart .. => true
  | .commandLoss .. => true
  | .diagChange .. => true
  | .adcOverrange .. => true
  | .loopShort .. => true
  | .voltageOutputShort .. => true
  | .coldJunctionRestore .. => true
  | .groupSupplyMeasure .. => true
  | .groupCurrentTrip .. => true
  | .overload .. => true
  | .thermalShutdown .. => true
  | .inputFilter .. => true
  | .counterEdge .. => true
  | .noSignal .. => true
  | .keyPositionChange .. => true
  | .keyFault .. => true
  | .stopRequest => true
  | .programRequest => true
  | .runRequest => true
  | .serviceRequest => true
  | .dormantRequest => true
  | .restartRequest .. => true
  | .startUp x => imageOk x.image && decide (x.fronts.length = 16 ∧ x.loadMs ≤ x.bootMs)
  | .roleWaitExpiry => true
  | .externalReset => true
  | .pfail => true
  | .flushComplete => true
  | .editPackage pkg _ => packageOk pkg
  | .editConfirm => true
  | .preparedAck .. => true
  | .proposalLapse => true
  | .editAbort => true
  | .dryPassAbandon .. => true
  | .proofCycleAbandon .. => true
  | .melberLinkUp .. => true
  | .melberLinkDown .. => true
  | .frameResend .. => true
  | .mirrorCopyComplete .. => true
  | .mirrorWindowExpiry .. => true
  | .mirrorSetReceived m t => setOk m t
  | .setAcknowledged .. => true
  | .heartbeat => true
  | .heartbeatReceived _ x => decide (x.weight ≤ 255)
  | .heartbeatTimeout => true
  | .batonInFall => true
  | .dualPrimaryYield => true
  | .batonFault => true
  | .batonFaultClear => true
  | .handover => true
  | .resync => true
  | .alignmentSegment m t _ => setOk m t
  | .handoverProposal .. => true
  | .handoverAck .. => true
  | .handoverLapse => true
  | .takeback => true
  | .takebackDeferred => true
  | .witnessHeartbeat .. => true
  | .formationTimeout .. => true
  | .modeAnnounce .. => true
  | .timeMessage => true
  | .timeMessageReceived .. => true
  | .beatMessage m => imageBytesOk (m.view.map (·.1))
  | .exports m => imageBytesOk (m.bytes.map (·.1))
  | .done .. => true
  | .release .. => true
  | .cutInstant .. => true
  | .late .. => true
  | .fail .. => true
  | .hedgeHeartbeat => true
  | .hedgeHeartbeatTimeout .. => true
  | .tbOffsetFault => true
  | .takeoverDistribution .. => true
  | .bankedAccessComplete .. => true
  | .scAnswer .. => true
  | .ethFrameReceived _ f => decide (f.payload.length ≤ 1500)
  | .ethLinkChange .. => true
  | .sessionConnect .. => true
  | .sessionIdleTimeout .. => true
  | .quePost .. => true
  | .queRetire .. => true
  | .canFrameReceived _ f _ => canFrameOk f
  | .txreq .. => true
  | .abortPendingFrame .. => true
  | .launchTime .. => true
  | .transmitDeadline .. => true
  | .arbitrationStart .. => true
  | .transmissionComplete .. => true
  | .canError .. => true
  | .busOffRecovery .. => true
  | .mailboxHeaderRead .. => true
  | .lastDataWordRead .. => true
  | .lockTimeout .. => true
  | .lockstepMismatch .. => true
  | .stewardMismatch .. => true
  | .stewardFaultReset => true
  | .correctionWriteBack => true
  | .scrub errors _ _ => errorsOk errors
  | .dramScrub granules => granules.all (granuleOk 67108864)
  | .keepRamScrub granules => granules.all (granuleOk 16384)
  | .watchdogPeriodEnd .. => true
  | .stewardCheckIn .. => true
  | .threadRestartTimeout .. => true
  | .trickle => true
  | .checkpointPage => true
  | .storeOperationEnd .. => true
  | .readCommand => true
  | .writeCommand => true
  | .pageErase => true
  | .rowProgram => true
  | .bitProgram => true
  | .qsIncrement .. => true
  | .eventIntake => true
  | .sealTimeout => true
  | .consolidationRequest => true
  | .rtcSet => true
  | .rtcSetApply => true
  | .clockSetRequest .. => true
  | .arm => true
  | .disarm => true
  | .wakeConfig .. => true
  | .alarmFire => true
  | .periodicWake => true
  | .mainsWindow .. => true
  | .tbLatch .. => true
  | .deliveryStart _ header _ => decide (header.length ≤ 65536)
  | .chunk _ _ bytes _ => decide (bytes.length ≤ 65536)
  | .abort => true
  | .activate .. => true
  | .fallbackCopyWritten => true
  | .reject => true
  | .trialWindowEnd => true
  | .privUpdate .. => true
  | .privUpdateEnd .. => true
  | .enrol .. => true
  | .revoke .. => true
  | .recoveryImage .. => true
  | .attestationRequest .. => true
  | .obsLinkChange .. => true
  | .traceStart => true
  | .traceStop => true
  | .traceDrainEnd => true
  | .snap => true
  | .clear => true
  | .freeze .. => true
  | .rtcTick => true
  | .cellSwitchOver => true
  | .alwaysOnSupplyLoss => true
  | .resetNAsserted => true
  | .batonInRise => true
  | .keyFaultClear .. => true
  | .mainsRefAbsent => true
  | .sequenceRecoveryReset .. => true
  | .gptpSyncInterval .. => true
  | .ethFrameTransmitted .. => true
  | .commitProposalReceived .. => true
  | .swapAcknowledgement .. => true
  | .crossFadeStep .. => true
  | .memberAccessRequest _ _ req => memberReqOk req

end Sys2Proof
end

