-- ==== Sys2Proof/Tests/Slice0.lean ====
section
/-!
SUPPORT. The author's tests: commands that are not well formed, for every statement a state and operands that meet its hypotheses
(witness_…), and single steps whose results the spec gives (test_…).
-/
namespace Sys2Proof.Tests
open Sys2Proof Sys2Proof.Machine

set_option Elab.async false

/-! ## Helpers -/

/-- The state after reset in mode `m`. -/
def inMode (m : Nat) : State := State.reset.fput SYS_MODE_MODE m

/-- Strand 0 weaves in RUN with the registers of `x`. -/
def weave (x : Strand) : State := { inMode mRun with strands := [(0, { x with run := .weaving })] }

def x0 : Strand := Strand.reset

/-- A strand with values in its registers. -/
def regsOf (l : List (Fin 16 × Word)) : Strand := l.foldl (fun x r => { x with w := x.w.set r.1 r.2 }) x0

/-- A heddle entry from its words. -/
def heddleEntry (l : List Nat) : HEntry := BitVec.ofNat 256 (l.foldr (fun w v => w + 2 ^ 32 * v) 0)

/-- A valid entry of class C0: kind, owner, first item, number of items, status word. -/
def entryOfKind (kind owner base count swidx : Nat) : HEntry :=
  heddleEntry [2 ^ 31 + kind * 2 ^ 28 + owner * 2 ^ 16, base, count, 0, 0, 0, swidx]

/-- The state that a step answers, with what is asked of it. -/
def after (o : Out) (p : State → Bool) : Bool :=
  match o with
  | .next t => p t
  | _ => false

/-! ## Commands that are not well formed -/

theorem test_register_address_refused : (Instr.registerWrite 0x40000001 0 0).wf = false ∧ (Instr.readClear 0x40130000 0).wf = false ∧
    (Instr.highWordLatch 0x3FFFFFFC).wf = false ∧ (Instr.registerWrite 0x40000000 0 0).wf = true := by decide

theorem test_forced_bit_refused : (Instr.forceSet [{ kind := 0, idx := 0, value := 2 }] none).wf = false ∧
    (Instr.forceRelease [{ kind := 2, idx := 0, value := 3 }] none).wf = false ∧
    (Instr.forceSet [{ kind := 3, idx := 0, value := 2 }] none).wf = true := by decide

def check0 (stage : Nat) : SeCheck := { stage := stage, r1 := 0, r2 := 1, again1 := 0, again2 := 0 }

theorem test_engine_checks_refused : (Instr.cycleStart 0 0 0 { rdbk := [(1, 7), (1, 8)] }).wf = false ∧
    (Instr.cycleStart 0 0 0 { checks := [(1, 0, check0 0x20)] }).wf = false ∧ (Instr.jobComplete 0 [check0 0x20]).wf = false ∧
    (Instr.pipelineSample 0 [] 0 none none none [check0 0x20]).wf = false ∧
    (Instr.cycleStart 0 0 0 { rdbk := [(1, 7), (2, 7)], checks := [(1, 0, check0 0x1F), (2, 0, check0 0)] }).wf = true := by decide

/-- R169 to R176: words of the fixed encoding, written out, and the instructions that they are; reserved ones are none. -/
theorem test_instruction_words : dxDecode 0 0x10040010 = some (.orb 0 { mode := 0, field := 0x40010 }) ∧
    dxDecode 0 0x2E080400 = some (.edgf 0 false 0x080400) ∧ dxDecode 0 0xF0000000 = some (.nop 0) ∧
    dxDecode 0 0xF0000002 = some (.endc 0) ∧ dxDecode 0 0 = some (.ldb 0 { mode := 0, field := 0 }) ∧
    dxDecode 0 0x444BFFFF = some (.addi 0 1 2 0x3FFFF) ∧ dxDecode 0 0x62680001 = some (.mac 0 1 3 4) ∧
    dxDecode 0 0x81587FFC = some (.lw 0 5 (.base 6 0x7FFC)) ∧ dxDecode 0 0xA448C000 = some (.sc 0 1 3 2) ∧
    dxDecode 0 0xCBFFFFFF = some (.call 0 0x3FFFFFF) := by decide

theorem test_reserved_words : dxDecode 0 0x30000000 = none ∧ dxDecode 0 0x40000040 = none ∧ dxDecode 0 0x8C0C0000 = none ∧
    dxDecode 0 0xF0000040 = none ∧ dxDecode 0 0x1C000018 = none ∧ (Instr.illegalInstruction 0 0xF0000000).wf = false ∧
    (Instr.illegalInstruction 0 0xFFFFFFFF).wf = true := by decide

theorem test_image_bytes_refused :
    (Instr.beatMessage { cls := 0, beat := 0, owner := 16, view := [(0x180000, 0, 0)], forced := false }).wf = false ∧
    (Instr.exports { cls := 0, cycle := 0, sender := 1, bytes := [(0x180000, 0, 0)], sw := [], transfers := [] }).wf = false ∧
    (Instr.beatMessage { cls := 0, beat := 0, owner := 16, view := [(0x17FFFF, 0, 0)], forced := false }).wf = true := by decide

def pkg0 : EditPkg :=
  { seq := 1, base := [], classes := 1, eest := [100], declared := [], code := [], entries := [], prods := [], settings := [], inits := [],
    moves := [], stages := [], retMap := none, size := 100, other := false, vendorOk := true, ownerOk := true,
    bind := { family := 0x4B52, hwType := 0x3216, minRev := 0 } }

theorem test_edit_package_refused : (Instr.editPackage { pkg0 with entries := [(16384, 0)] } {}).wf = false ∧
    (Instr.editPackage { pkg0 with inits := [{ place := { dmem := some 0, off := 0x40000 }, bytes := [0] }] } {}).wf = false ∧
    (Instr.editPackage { pkg0 with moves := [{ old := { dmem := none, off := 0 }, new := { dmem := none, off := 0x180000 },
                                               len := 1 }] } {}).wf = false ∧
    (Instr.editPackage pkg0 {}).wf = true := by decide

def hedgeImage0 : HedgeImage :=
  { paths := [], links := [], uids := [], imports := [], exports := [], hops := [], transferMax := 0, transferEnds := true, others := [] }

def image0 : ConfigImage :=
  { regs := [], strands := List.replicate 16 (1, StrandCfg.default), heddle := [], initImg := [], initDmem := [], code := [], pipes := [],
    pipeSrc := [], streams := [], retMap := [], timers := [], mirror := [], sfmt := [],
    hedge := hedgeImage0, hash := [] }

def view0 : HedgeView := { present := 1, ready := 1, linksUp := true, hashesEqual := true }

def front0 : FrontBoot :=
  { boots := false, calOk := false, calDay := 0, ucode := 0, sfmt := 0, bootVer := 0 }

def bind0 : Binding := { family := 0x4B52, hwType := 0x3216, minRev := 0 }

def slot0 : SlotCheck := { sig := { vendor := true, owner := true }, segments := true, bind := bind0, uids := [] }

def start0 : StartIn :=
  { supply := none, romOk := true, initOk := true, cmpFail := 0, anchorOk := true, verify0 := slot0, verify1 := slot0,
    sig := { vendor := true, owner := true }, bind := bind0, image := image0, ucode := 0, fronts := List.replicate 16 front0, slotId := 0,
    contacts := 1, keyFault := false, batonIn := false, partner := none, hedge := view0, refTime := none, cellMv := 3000, stewardSlots := [],
    loadMs := 1185, bootMs := 3000 }

theorem test_start_refused : (Instr.startUp { start0 with image := { image0 with strands := [] } }).wf = false ∧
    (Instr.startUp { start0 with fronts := [] }).wf = false ∧ (Instr.startUp { start0 with bootMs := 0 }).wf = false ∧
    (Instr.startUp { start0 with image := { image0 with heddle := [(16384, 0)] } }).wf = false ∧
    (Instr.startUp { start0 with image := { image0 with initDmem := [(0, 0x40000, 0)] } }).wf = false ∧
    (Instr.startUp start0).wf = true := by decide

def range0 : RetRange := { cls := 0, dmem := none, off := 0x17FFFF, len := 1, granule := 256, head := 0xFF, tail := 0xFF }

theorem test_retentive_range_refused :
    (Instr.startUp { start0 with image := { image0 with retMap := [{ range0 with granule := 255 }] } }).wf = false ∧
    (Instr.startUp { start0 with image := { image0 with retMap := [{ range0 with len := 2 }] } }).wf = false ∧
    (Instr.startUp { start0 with image := { image0 with retMap := [{ range0 with len := 0 }] } }).wf = false ∧
    (Instr.startUp { start0 with image := { image0 with retMap := [range0] } }).wf = true := by decide

def set0 : MirrorSet :=
  { cls := 0, cycle := 7, t0 := 7000, final := false, align := false, marker := 0, values := [], sw := [], retentive := [], insts := [],
    regions := [], ext := none }

theorem test_mirror_set_refused :
    (Instr.mirrorSetReceived { set0 with values := [(0, [1])] } { crc := 0, granules := 2, complete := true }).wf = false ∧
    (Instr.alignmentSegment { set0 with retentive := [(0, [])] } { crc := 0, granules := 2, complete := true } false).wf = false ∧
    (Instr.mirrorSetReceived set0 { crc := 0, granules := 2 ^ 32, complete := true }).wf = false ∧
    (Instr.mirrorSetReceived set0 { crc := 0, granules := 2, complete := true }).wf = true := by decide

def can0 : CanFrame := { id := 5, ide := false, rtr := false, fdf := false, brs := false, esi := false, dlc := 1, data := [0xAA] }

theorem test_can_frame_refused : (Instr.canFrameReceived 0 { can0 with data := List.replicate 9 0 } 0).wf = false ∧
    (Instr.canFrameReceived 0 { can0 with rtr := true } 0).wf = false ∧ (Instr.canFrameReceived 0 { can0 with id := 2048 } 0).wf = false ∧
    (Instr.canFrameReceived 0 { can0 with fdf := true, rtr := true, data := [] } 0).wf = false ∧
    (Instr.canFrameReceived 0 can0 0).wf = true := by decide

theorem test_granule_errors_refused : (Instr.scrub [280] 0 .plain).wf = false ∧ (Instr.scrub [3, 3] 0 .plain).wf = false ∧
    (Instr.dramScrub [{ granule := 67108864, errors := [], foldXor := 0 }]).wf = false ∧
    (Instr.keepRamScrub [{ granule := 16384, errors := [], foldXor := 0 }]).wf = false ∧ (Instr.scrub [0, 279] 0 .plain).wf = true := by
  decide

theorem test_member_access_refused : (Instr.memberAccessRequest 1 0 (.load 0 0 3)).wf = false ∧
    (Instr.memberAccessRequest 1 0 (.store 2 4 0)).wf = false ∧ (Instr.memberAccessRequest 1 0 (.lr 2)).wf = false ∧
    (Instr.memberAccessRequest 1 0 (.sc 1 0)).wf = false ∧ (Instr.memberAccessRequest 1 0 (.load 0 4 4)).wf = true := by decide

theorem test_lengths_refused : (Instr.heartbeatReceived false { role := 1, ready := false, weight := 256, align := false }).wf = false := by
  decide

/-! ## The strands: witnesses and single steps -/

/-- The hypotheses of ArithmeticAndLogic, ShiftsCountsAndMoves, FixedPointResults (its register forms) and ModesAndSystemRegisters. -/
theorem witness_ready : Ready (weave x0) 0 := by unfold Ready; decide

/-- MultiplyDivide: a divisor other than 0, the corner of R127, and 0. -/
theorem witness_divide : Ready (weave (regsOf [(1, 0x80000000), (2, 0xFFFFFFFF)])) 0 ∧
    ((weave (regsOf [(1, 0x80000000), (2, 0xFFFFFFFF)])).strand 0).w[1] = 0x80000000 ∧
    ((weave (regsOf [(1, 0x80000000), (2, 0xFFFFFFFF)])).strand 0).w[2] = 0xFFFFFFFF ∧
    ((weave (regsOf [(1, 0x80000000), (2, 0xFFFFFFFF)])).strand 0).w[3] = 0 := by unfold Ready; decide

theorem test_add_wraps : after (exec (.add 0 3 1 2) (weave (regsOf [(1, 0x80000000), (2, 0x80000000)]))) (fun t =>
    let x := t.strand 0
    x.w[3] == 0 && x.z && x.c && x.v && !x.n && x.pc == 4) = true := by decide

theorem test_div_corner : after (exec (.div 0 3 1 2) (weave (regsOf [(1, 0x80000000), (2, 0xFFFFFFFF)]))) (fun t =>
    (t.strand 0).w[3] == 0x80000000 && (t.strand 0).v) = true := by decide

/-- R147's example: 2.5 rounds to 2 under TRUNC and HALF_EVEN and to 3 under HALF_UP; -2.5 to -3, -2 and -2. -/
theorem test_round_example : roundShift 0 0x280000000 32 = 2 ∧ roundShift 1 0x280000000 32 = 3 ∧ roundShift 2 0x280000000 32 = 2 ∧
    roundShift 0 (-0x280000000) 32 = -3 ∧ roundShift 1 (-0x280000000) 32 = -2 ∧ roundShift 2 (-0x280000000) 32 = -2 := by decide

/-- RoundAndLimit: a shift, and values on both sides of a limit. -/
theorem witness_limit : 1 ≤ 32 ∧ (16 = 16 ∨ 16 = 32 ∨ 16 = 72) ∧ (-(2 ^ (16 - 1)) : Int) ≤ -0x8000 ∧ (0x7FFF : Int) ≤ 2 ^ (16 - 1) - 1 ∧
    (-0x8001 : Int) < -(2 ^ (16 - 1)) ∧ (2 ^ (16 - 1) - 1 : Int) < 0x8000 := by decide

/-- FixedPointResults: both operands of MACP in DMEM. -/
theorem witness_macp : let x := { x0 with p := (x0.p.set 0 0x80000).set 1 0x80004 }
    let s := weave x
    Ready s 0 ∧ s.macpLoc 0 x.p[0].toNat 4 = .ok (.dmem 0) ∧ s.macpLoc 0 x.p[1].toNat 4 = .ok (.dmem 4) ∧
    s.integ.contains (s.granuleOf 0 (.dmem 0)) = false ∧ s.integ.contains (s.granuleOf 0 (.dmem 4)) = false ∧
    nextPtr x.p[0] x.l[0] 4 = some 0x80004 ∧ nextPtr x.p[1] x.l[1] 4 = some 0x80008 ∧ s.fabricFull = false ∧
    s.loadAt 0 (.dmem 0) 4 = .ok [0, 0, 0, 0] ∧ s.loadAt 0 (.dmem 4) 4 = .ok [0, 0, 0, 0] := by
  unfold Ready; try dsimp only
  (repeat' apply And.intro) <;> decide

/-- PointersAndBank: MODE 0, and the circle of R131's example with LEN 100 in MODE 1. -/
theorem witness_modulo : let x := { x0 with p := x0.p.set 0 0x81060, l := x0.l.set 0 0x40000064 }
    x.l[1].toNat / 2 ^ 30 = 0 ∧ x.l[0].toNat / 2 ^ 30 = 1 ∧ x.l[0].toNat % 2 ^ 19 = 100 ∧ 0 < 100 ∧ 100 ≤ 2 ^ 7 ∧
    0x81000 = x.p[0].toNat / 2 ^ 7 * 2 ^ 7 ∧ x.eff (.ptrImm 0 4) = .ok ⟨0x81060, some (0, 0x81000)⟩ := by
  try dsimp only
  (repeat' apply And.intro) <;> decide

theorem witness_modulo_least : ∀ j, 100 ≤ 2 ^ j → 7 ≤ j := by
  intro j h
  rcases Nat.lt_or_ge j 7 with hj | hj
  · have : 2 ^ j ≤ 2 ^ 6 := Nat.pow_le_pow_right (by decide) (by omega)
    omega
  · exact hj

/-- PointersAndBank: a value of each MODE that WRL takes, values that it refuses, BK values. -/
theorem witness_lengths : Ready (weave (regsOf [(1, 0x40000), (2, 0x40000001), (3, 0x80040000), (4, 0xC0000000)])) 0 ∧
    (0x40000 : Word).toNat = 0 * 2 ^ 30 + 262144 ∧ (0x40000001 : Word).toNat = 1 * 2 ^ 30 + 1 ∧
    (0x80040000 : Word).toNat = 2 * 2 ^ 30 + 2 ^ 18 ∧ (0xC0000000 : Word).toNat / 2 ^ 30 = 3 ∧ (0x80000 : Word).toNat / 2 ^ 19 % 2 ^ 11 ≠ 0 ∧
    262144 < (0x40001 : Word).toNat % 2 ^ 19 ∧ ((0x40000000 : Word).toNat / 2 ^ 30 = 1 ∧ (0x40000000 : Word).toNat % 2 ^ 19 = 0) ∧
    (weave x0).bkValid 0 = true ∧ (weave x0).bkValid 0x0002 = false := by unfold Ready; decide

/-- LoadResults and Stores: words, half-words and bytes in DMEM, in global memory and at the edges of both. -/
theorem witness_loads : let x := regsOf [(1, 0x80000), (2, 0x119FFFFC), (3, 0x800BFFFC)]
    let s := weave x
    Ready s 0 ∧ x.eff (.base 1 0) = .ok ⟨0x80000, none⟩ ∧ x.eff (.base 2 3) = .ok ⟨0x119FFFFF, none⟩ ∧ s.fabricFull = false ∧
    s.locate 0 0x80000 4 false = .ok (.dmem 0) ∧ s.locate 0 0x119FFFFC 2 false = .ok (.glob 0x119FFFFC) ∧
    s.locate 0 0x119FFFFF 1 false = .ok (.glob 0x119FFFFF) ∧ s.integ.contains (s.granuleOf 0 (.dmem 0)) = false ∧
    s.loadAt 0 (.dmem 0) 4 = .ok [0, 0, 0, 0] ∧ s.loadAt 0 (.glob 0x119FFFFF) 1 = .ok [0] := by
  unfold Ready; try dsimp only
  (repeat' apply And.intro) <;> decide

theorem witness_stores : let x := regsOf [(1, 0x80000), (2, 0x119FFFFC)]
    let s := weave x
    Ready s 0 ∧ s.locate 0 0x80000 4 true = .ok (.dmem 0) ∧ s.memKey 0 (.dmem 0) = some (keyDmem 0 0) ∧
    s.locate 0 0x119FFFFE 2 true = .ok (.glob 0x119FFFFE) ∧ s.locate 0 0x119FFFFF 1 true = .ok (.glob 0x119FFFFF) ∧
    s.memKey 0 (.glob 0x119FFFFF) = some 0x119FFFFF ∧ s.integ.contains (s.granuleOf 0 (.dmem 0)) = false ∧ s.fabricFull = false := by
  unfold Ready; try dsimp only
  (repeat' apply And.intro) <;> decide

/-- Strand 0 owns the first word of M. -/
def owning : State := { weave (regsOf [(1, 0x20080000)]) with heddle := [(0, entryOfKind 5 0 0 1 0)] }

theorem witness_store_to_image : Ready owning 0 ∧ (owning.strand 0).eff (.base 1 0) = .ok ⟨0x20080000, none⟩ ∧
    owning.locate 0 0x20080000 4 true = .ok (.img 0x80000) ∧ owning.integ.contains (owning.granuleOf 0 (.img 0x80000)) = false ∧
    owning.fabricFull = false ∧ ∀ j, j < 4 → owning.ownMask 0 (0x80000 + j) = 0xFF := by
  unfold Ready; try dsimp only
  (repeat' apply And.intro) <;> decide

theorem test_store_stages : after (exec (.sw 0 1 (.base 1 0)) owning) (fun t =>
    t.img == [] && tget ⟨0, 0⟩ (t.strand 0).stg 0x80003 == ⟨0xFF, 0x20⟩) = true := by decide

/-- BK names member 1: a store that has no answer yet, and one whose answer has come. -/
def remote (a : Option MemberAnswer) : State := weave { regsOf [(1, 0x80000000)] with bk := 0x100, answer := a }

theorem witness_store_to_member : Ready (remote none) 0 ∧ ((remote none).strand 0).eff (.base 1 0) = .ok ⟨0x80000000, none⟩ ∧
    (remote none).locate 0 0x80000000 4 true = .ok (.remote 1 0 0) ∧ (remote none).integ.contains 0 = false ∧
    ((remote none).strand 0).answer = none ∧ (remote none).fabricFull = false ∧
    ((remote (some ⟨0, false⟩)).strand 0).answer = some ⟨0, false⟩ := by
  unfold Ready; try dsimp only
  (repeat' apply And.intro) <;> decide

/-- DataStack: room for one word, an empty stack, ADJSP within and beyond its limits. -/
theorem witness_stack : let x := { x0 with dsp := 0xBC004 }
    let s := weave x
    Ready s 0 ∧ 0x80000 ≤ x.dsl.toNat ∧ x.dsl.toNat + 4 ≤ x.dsp.toNat ∧ x.dsp.toNat ≤ 0xC0000 ∧
    s.integ.contains (s.dkey 0 (x.dsp.toNat - 4 - 0x80000) / 32) = false ∧ s.integ.contains (s.dkey 0 (x.dsp.toNat - 0x80000) / 32) = false ∧
    x.dsp.toNat % 4 = 0 ∧ (x.dsp.toNat : Int) + 4 * (-1 : BitVec 18).toInt = x.dsl.toNat ∧
    (x.dsp.toNat : Int) + 4 * (0xFFF : BitVec 18).toInt = 0xC0000 := by unfold Ready; decide

theorem witness_stack_limits : let x := { x0 with dsp := x0.dsl }
    x.dsp.toNat < x.dsl.toNat + 4 ∧ (-1 : BitVec 18).toInt < 0 ∧ (x.dsp.toNat : Int) + 4 * (-1 : BitVec 18).toInt < x.dsl.toNat ∧
    (x.dsp.toNat : Int) + 4 * (-1 : BitVec 18).toInt ≤ 0xC0000 ∧ (0xC0000 : Int) < x0.dsp.toNat + 4 * (1 : BitVec 18).toInt ∧
    x0.dsp = 0xC0000 := by decide

theorem test_push_pop : after (exec (.push 0 1) (weave (regsOf [(1, 0x12345678)]))) (fun t =>
    (t.strand 0).dsp == 0xBFFFC && t.mget (keyDmem 0 0x3FFFC) == 0x78 && after (exec (.pop 0 2) t) (fun u =>
      (u.strand 0).w[2] == 0x12345678 && (u.strand 0).dsp == 0xC0000)) = true := by decide

/-- BitLogic: the last index and the first one beyond, a reserved mode, an indexed form; a bit of Q that strand 0 owns. -/
def owningBit : State := { weave (regsOf [(0, 0x40000)]) with heddle := [(0, entryOfKind 1 0 0x47FFF 1 0)] }

theorem witness_bits : Ready owningBit 0 ∧ (0x17FFFF : BitVec 24).toNat / 2 ^ 20 = 1 ∧
    (owningBit.strand 0).bitIndex { mode := 0, field := 0x17FFFF } = .ok 0x17FFFF ∧
    (owningBit.strand 0).bitIndex { mode := 0, field := 0x180000 } = .error 0x04 ∧
    (owningBit.strand 0).bitIndex { mode := 2, field := 0 } = .error 0x02 ∧
    (owningBit.strand 0).bitIndex { mode := 1, field := 0x07FFF } = .ok 0x47FFF ∧ owningBit.imgInteg (0x47FFF / 8) = false ∧
    owningBit.fabricFull = false ∧ owningBit.imgBit 0 (0x47FFF / 8) (0x47FFF % 8) = .ok false := by
  unfold Ready; try dsimp only
  (repeat' apply And.intro) <;> decide

/-- BitLogic: the bit stack empty, full, and in between. -/
theorem witness_bit_stack : x0.bs = [] ∧ x0.bs.length < 16 ∧ ({ x0 with bs := List.replicate 16 true }).bs.length = 16 ∧
    ({ x0 with bs := [true] }).bs = true :: [] := by decide

/-- BitOutputs: a bit that strand 0 owns, one that it does not own, a shared one. -/
theorem witness_bit_outputs : Ready owningBit 0 ∧ (owningBit.ownMask 0 (0x47FFF / 8)).getLsbD (0x47FFF % 8) = true ∧
    (owningBit.strand 0).ba = false ∧ (owningBit.ownMask 0 (0x47FFE / 8)).getLsbD (0x47FFE % 8) = false := by unfold Ready; decide

def trapless : State := owningBit.fput HDL_OWNCFG_OWNV_TRAP 0

theorem witness_discarded_bit : Ready trapless 0 ∧ (trapless.strand 0).bitIndex { mode := 0, field := 0x47FFE } = .ok 0x47FFE ∧
    trapless.fabricFull = false ∧ bitAt (trapless.fget HDL_OWNCFG_OWNV_TRAP) (trapless.cfg 0).cls = false := by
  unfold Ready; try dsimp only
  (repeat' apply And.intro) <;> decide

def sharing : State := { weave x0 with heddle := [(0, entryOfKind 2 0xFF 0x80000 1 0)] }

theorem witness_shared_bit : Ready sharing 0 ∧ (sharing.strand 0).sharedBitIndex { indexed := false, field := 0x80000 } = .ok 0x80000 ∧
    sharing.bitShared 0x80000 = true ∧ sharing.imgInteg (0x80000 / 8) = false ∧ sharing.fabricFull = false := by
  unfold Ready; try dsimp only
  (repeat' apply And.intro) <;> decide

/-- BitOutputs: a bit that the strand does not own, in a class whose OWNV_TRAP bit is set; a forced shared bit; a bit that is not shared. -/
theorem witness_ownv_trap : (owningBit.strand 0).bitIndex { mode := 0, field := 0x47FFE } = .ok 0x47FFE ∧
    bitAt (owningBit.fget HDL_OWNCFG_OWNV_TRAP) (owningBit.cfg 0).cls = true ∧ bitAt (owningBit.fget TRAP_POL_POL) (owningBit.cfg 0).cls = false ∧
    ({ sharing with forces := [(forceKey 2 0x80000, 1)] }).forced 2 0x80000 = some 1 ∧
    (trapless.strand 0).sharedBitIndex { indexed := false, field := 0x47FFE } = .ok 0x47FFE ∧ trapless.bitShared 0x47FFE = false ∧
    trapless.imgInteg (0x47FFE / 8) = false ∧ trapless.imgBit 0 (0x47FFE / 8) (0x47FFE % 8) = .ok false := by
  (repeat' apply And.intro) <;> decide

theorem test_tsb : after (exec (.tsb 0 1 { indexed := false, field := 0x80000 }) sharing) (fun t =>
    imgGet t.img 0x10000 == 1 && (t.strand 0).w[1] == 0) = true := by decide

/-- LoadReservedStoreConditional: the first and the last word of the general region, and each state of the reservation. -/
theorem witness_reserved : let x := regsOf [(1, 0x10000000), (2, 0x119FFFFC)]
    let s := weave x
    Ready s 0 ∧ 0x10000000 ≤ x.w[1].toNat ∧ x.w[2].toNat < 0x11A00000 ∧ x.w[1].toNat % 4 = 0 ∧ x.w[2].toNat % 4 = 0 ∧
    s.integ.contains (x.w[2].toNat / 32) = false ∧ s.fabricFull = false ∧ x.resv = .none ∧ s.member = 0 ∧
    ({ x with resv := .valid 0 (0x10000000 / 32) }).resv = .valid s.member (x.w[1].toNat / 32) ∧
    ({ x with resv := .valid 0 1 }).resv = .valid 0 1 ∧ 1 ≠ x.w[1].toNat / 32 := by unfold Ready; decide

/-- Branches: targets at both ends of the bank and beyond, a reserved condition, the return stack empty, full and in between. -/
theorem witness_branches : let x := { regsOf [(1, 1), (2, 2), (3, 0x80000), (4, 0x7FFFC), (5, 2)] with pc := 0x7FFF8, z := true }
    let s := weave x
    Ready s 0 ∧ s.btOn 0 = false ∧ (0x7FFFC : Int) = (x.pc.toNat : Int) + 4 * (1 : BitVec 22).toInt ∧ (0x7FFFC : Int) < 0x80000 ∧
    (0x80000 : Int) = (x.pc.toNat : Int) + 4 * (2 : BitVec 22).toInt ∧ x.cond 1 = some false ∧ x.cond 0 = some true ∧ x.cond 0xB = none ∧
    x.w[1] = 1 ∧ x.w[2] ≠ 1 ∧ (x.w[4].toNat % 4 = 0 ∧ x.w[4].toNat < 0x80000) ∧ ¬ (x.w[3].toNat % 4 = 0 ∧ x.w[3].toNat < 0x80000) ∧
    x.w[5].toNat % 4 ≠ 0 ∧ x.rs = [] ∧ ({ x with rs := [4] }).rs = 4 :: [] ∧
    ({ x with rs := List.replicate 64 0 }).rs.length = 64 := by unfold Ready; decide

theorem test_dbnz_branches : after (exec (.dbnz 0 2 2) (weave (regsOf [(2, 2)]))) (fun t =>
    (t.strand 0).pc == 8 && (t.strand 0).w[2] == 1) = true := by decide

theorem test_call_return : after (exec (.call 0 4) (weave x0)) (fun t =>
    (t.strand 0).pc == 16 && (t.strand 0).rs == [4] && after (exec (.ret 0) t) (fun u => (u.strand 0).pc == 4)) = true := by decide

/-- ModesAndSystemRegisters: FXM values taken and refused; addresses misaligned, beyond the register space, allowed and not. -/
theorem witness_modes : (0xE : Word).extractLsb' 0 2 ≠ 3 ∧ (3 : Word).extractLsb' 0 2 = 3 ∧ (0x40000002 : Word).toNat % 4 ≠ 0 ∧
    ¬ (0x40000000 ≤ (0x40130000 : Word).toNat ∧ (0x40130000 : Word).toNat < 0x40130000) ∧
    (0x40000000 ≤ (0x4012FFFC : Word).toNat ∧ (0x4012FFFC : Word).toNat < 0x40130000) ∧
    ((weave x0).cfg 0).permRd.getLsbD ((0x40000000 : Word).toNat / 0x10000 - 0x4000) = true ∧
    ((weave x0).cfg 0).permRd.getLsbD ((0x40100000 : Word).toNat / 0x10000 - 0x4000) = false ∧
    ((weave x0).cfg 0).permWr.getLsbD ((0x40000000 : Word).toNat / 0x10000 - 0x4000) = false := by decide

/-- A strand that may write SYSCTL. -/
def writer : State := { weave x0 with scfg := [(0, { StrandCfg.default with permWr := 1 })] }

theorem witness_wrsys : Ready writer 0 ∧ (writer.cfg 0).permWr.getLsbD ((0x40000804 : Word).toNat / 0x10000 - 0x4000) = true := by
  unfold Ready; decide

/-- BeatsAndEndOfCycle: strand 0 produces beat 5 of C0, and no other. -/
def producing : State :=
  let s := (weave x0).fput (BEAT_PROD_PROD 0 5) 1
  s.modCls 0 (fun c => { c with beam := .weaving })

theorem witness_beats : Ready producing 0 ∧ (producing.cfg 0).cls < 4 ∧
    (bitAt (producing.fget (BEAT_PROD_PROD 0 5)) 0 && !(producing.beatDoneMask 0 5).getLsbD 0) = true ∧
    (bitAt (producing.fget (BEAT_PROD_PROD 0 6)) 0 && !(producing.beatDoneMask 0 6).getLsbD 0) = false ∧
    (producing.cls 0).beam = .weaving := by unfold Ready; decide

theorem test_beat_signals : after (exec (.beat 0 5) producing) (fun t => t.beatSig 0 5) = true := by decide

/-- Traps: an address of each kind, and each policy. -/
theorem witness_traps : let x := regsOf [(1, 0x80002), (2, 0xC0000), (3, 0x20180000), (4, 0x80001)]
    let s := weave x
    Ready s 0 ∧ x.eff (.base 1 0) = .ok ⟨0x80002, none⟩ ∧ x.eff (.base 2 0) = .ok ⟨0xC0000, none⟩ ∧
    x.eff (.base 3 0) = .ok ⟨0x20180000, none⟩ ∧ x.eff (.base 4 0) = .ok ⟨0x80001, none⟩ ∧ x.w[0] = 0 ∧ s.bkValid 2 = false ∧
    (s.cfg 0).cls < 4 ∧ s.onTrial (s.cfg 0).cls = false ∧ bitAt (s.fget TRAP_POL_POL) (s.cfg 0).cls = false ∧
    bitAt ((s.fput TRAP_POL_POL 1).fget TRAP_POL_POL) 0 = true ∧ s.evq.length < s.fget (QUE_CFG_DEPTH 30) ∧ 2 ≤ s.mode ∧ s.mode ≤ 7 := by
  unfold Ready; try dsimp only
  (repeat' apply And.intro) <;> decide

theorem test_trap_halts : after (exec (.trap 0 0x30) (weave x0)) (fun t =>
    (t.strand 0).run == .halted && t.fget (TRAP_INFO_CODE 0) == 0x30 && t.fget (TRAP_INFO_COUNT 0) == 1) = true := by decide

/-! ## The cycle: witnesses and single steps -/

/-- Class C0 with the cycle state `c`. -/
def withC0 (s : State) (c : ClassSt) : State := { s with classes := [(0, c)] }

def c0 : ClassSt := ClassSt.reset

theorem shadows_none (s : State) (c : ClassSt) (h : s.classes = [(0, c)]) (hc : c.shadow = .none) : ∀ k, (s.cls k).shadow = .none := by
  intro k
  unfold State.cls
  rw [h]
  unfold tget
  split
  · exact hc
  · rfl

/-- A module at work in RUN whose class C0 is at `c`. -/
def running (c : ClassSt) (tb : Nat) : State := { withC0 (inMode mRun) c with tb := BitVec.ofNat 64 tb }

theorem quiet_running (c : ClassSt) (tb : Nat) (hc : c.shadow = .none) : Quiet (running c tb) := by
  unfold Quiet
  refine ⟨⟨rfl, rfl, rfl, rfl⟩, ⟨rfl, rfl, rfl, shadows_none _ c rfl hc⟩, ⟨rfl, rfl, rfl, rfl, rfl, rfl⟩, ⟨rfl, rfl, rfl, ?_⟩, ⟨rfl, ?_⟩,
    ⟨rfl, rfl, rfl⟩⟩ <;> (change State.flag (running c0 0) _ = false; decide)

/-- CycleStart: the t0 of TB 1,000, executed or skipped. -/
theorem witness_cycle_start : (running c0 1000).t0Comes 0 = true ∧ (running c0 1000).mode = mRun ∧
    ((running c0 1000).cls 0).firstPend = false ∧ ((running c0 1000).cls 0).skipNext = false ∧ ((running c0 1000).cls 0).beam = .none ∧
    (running { c0 with skipNext := true } 1000).t0Comes 0 = true ∧ ((running { c0 with skipNext := true } 1000).cls 0).skipNext = true ∧
    (running { c0 with beam := .weaving } 1000).t0Comes 0 = true ∧ ((running { c0 with beam := .weaving } 1000).cls 0).beam ≠ .none ∧
    (inMode mRun).t0Comes 0 = true ∧ (running c0 1001).t0Comes 0 = false := by decide

theorem test_cycle_start : after (exec (.cycleStart 0 0 0 {}) (running c0 1000)) (fun t =>
    (t.cls 0).cyc == 1 && (t.cls 0).executed && (t.cls 0).latched) = true := by decide +kernel

theorem test_cycle_skipped : after (exec (.cycleStart 0 0 0 {}) (running { c0 with beam := .weaving } 1000)) (fun t =>
    (t.cls 0).skipped && !(t.cls 0).executed && t.flag (CLS_EVT_SKIP 0)) = true := by decide +kernel

/-- ShedAndWeave: at t0 + Dshed of an executed cycle, and of a latched one that is not executed. -/
def latched (x : Bool) : State := running { c0 with started := true, latched := true, executed := x, t0 := 1000 } 1005

theorem witness_shed : (latched true).ctl.held = false ∧ (latched true).ctl.pfail = false ∧ (latched true).integ = [] ∧
    ((latched true).cls 0).latched = true ∧ ((latched true).cls 0).shedDone = false ∧
    ((latched true).cls 0).t0.toNat + (latched true).dshed 0 ≤ (latched true).tbNat ∧ (latched true).copying 0 = false ∧
    (latched true).inputsOf 0 = [] ∧ ((latched true).cls 0).executed = true ∧ modeExecutes (latched true).mode = true ∧
    ((latched false).cls 0).executed = false ∧ ((latched true).cfg 15).cls = 0 := by decide

theorem test_shed_weaves : after (exec (.shed 0) (latched true)) (fun t =>
    (t.cls 0).beam == .weaving && (t.strand 15).run == .weaving && (t.strand 15).pc == 0) = true := by decide +kernel

/-- One word of IW from channel record 0, GOOD in the record, with STALE = 2 and each substitute policy. -/
def inputWord (subst stale : Nat) : HEntry :=
  heddleEntry [2 ^ 31 + 3 * 2 ^ 28 + subst * 2 ^ 4, 0, 1 + stale * 2 ^ 16, 1, 0, 77, 0]

def record0 : List Byte := leBytes 4 5 ++ List.replicate 11 0 ++ [3] ++ List.replicate 16 0

theorem witness_delivery : let s := running { c0 with latch := [(latchKey 1 0, record0)] } 1005
    hKind (inputWord 0 2) = 3 ∧ hCount (inputWord 0 2) = 1 ∧ s.forces = [] ∧
    (s.deliveryOf 0 (inputWord 0 2)).isSome = true := by decide

def delivered0 (cyc : BitVec 64) : State :=
  { running { c0 with cyc := cyc } 1005 with
      entries := [(0, { value := [5], quality := 3, ovr := false, valid := [5], window := 0, delivered := true })] }

theorem witness_no_delivery : (delivered0 2).deliveryOf 0 (inputWord 0 2) = none ∧
    (tget EntrySt.reset (delivered0 2).entries 0).delivered = true ∧ (tget EntrySt.reset (delivered0 2).entries 0).quality.toNat = qGood ∧
    (tget EntrySt.reset (delivered0 2).entries 0).value = [5] ∧ (tget EntrySt.reset (delivered0 2).entries 0).valid = [5] ∧
    (2 ≤ hStale (inputWord 0 2) ∧ hStale (inputWord 0 2) < 3 ∧ hStale (inputWord 0 0) = 0) ∧ hStale (inputWord 1 2) ≠ 0 ∧
    min 255 (((delivered0 2).cls 0).cyc - 0).toNat = 2 ∧ min 255 (((delivered0 3).cls 0).cyc - 0).toNat = 3 := by decide

/-- BeamStartAndCommit: a ready beam alone, behind one that runs; a running beam. -/
def ready0 : State := running { c0 with started := true, executed := true, beam := .ready 3 } 1100

theorem witness_beam_start : (ready0.cls 0).beam = .ready 3 ∧ ready0.ctl.held = false ∧ ready0.ctl.pfail = false ∧
    ready0.copying 0 = false ∧ ∀ j, j < 4 → j ≠ 0 →
      (ready0.cls j).beam = .none ∨ (ready0.cls j).beam = .weaving ∨ (0 < j ∧ (ready0.cls j).beam = .ready 9) := by decide

theorem witness_beam_waits : let s := { ready0 with classes := [(0, ready0.cls 0), (1, { c0 with beam := .running 1 2 })] }
    (s.cls 0).beam = .ready 3 ∧ (s.cls 1).beam = .running 1 2 ∧ (s.hbeam 1).commitAt = none := by decide

def committing : State :=
  { running { c0 with started := true, executed := true, beam := .running 3 4 } 1100 with
      strands := [(0, { x0 with run := .ended, stg := [(0x80000, ⟨0xFF, 0x12⟩)] })],
      heddle := [(0, entryOfKind 5 0 0 1 0)] }

theorem witness_commit : (committing.cls 0).beam = .running 3 4 ∧ (∀ n, n < 8 → committing.engine n = Engine.reset) ∧
    committing.eth.streams = [] ∧ committing.config = none ∧ committing.streamCfg = [] ∧ (committing.cfg 0).cls = 0 ∧
    (committing.strand 0).run = .ended ∧ (tget ⟨0, 0⟩ (committing.strand 0).stg 0x80000).mask.getLsbD 7 = true ∧
    (tget ⟨0, 0⟩ (committing.strand 1).stg 0x80000).mask.getLsbD 7 = false ∧
    (tget ⟨0, 0⟩ (committing.strand 0).stg 0x80001).mask.getLsbD 0 = false := by decide

theorem witness_commit_staging : ∀ st, tabWf (fun _ => (⟨0, 0⟩ : MByte)) (committing.strand st).stg = true := by
  intro st
  unfold State.strand
  change tabWf _ (tget Strand.reset [(0, _)] st).stg = true
  unfold tget
  split <;> rfl

theorem test_commit : after (exec (.commitComplete 0) committing) (fun t =>
    imgGet t.img 0x80000 == 0x12 && (t.cls 0).beam == .none && (t.strand 0).stg == []) = true := by decide +kernel

/-- DeadlinesAndTimeouts: a beam that is over, and one that is outstanding; a strand that waits for a beat at its timeout. -/
def deadline (b : Beam) : State := running { c0 with started := true, executed := true, beam := b, t0 := 1000 } 1780

theorem witness_deadline : ((deadline .none).mode = mStop ∨ (deadline .none).mode = mRun) ∧ ((deadline .none).cls 0).started = true ∧
    ((deadline .none).cls 0).deadlineDone = false ∧
    ((deadline .none).cls 0).t0.toNat + (deadline .none).dout 0 ≤ (deadline .none).tbNat + eprep ∧
    ((deadline .none).cls 0).executed = true ∧ ((deadline .none).cls 0).beam = .none ∧ ((deadline .weaving).cls 0).beam ≠ .none ∧
    ((deadline .weaving).cls 0).consec < (deadline .weaving).fget (CLS_OVRLIM_K_CONSEC 0) ∧
    ((deadline .weaving).cls 0).ovrs.length < (deadline .weaving).fget (CLS_OVRLIM_K_WINDOW 0) := by decide

theorem test_overrun : after (exec (.commitDeadline 0) (deadline .weaving)) (fun t =>
    (t.cls 0).skipNext && (t.cls 0).consec == 1 && t.flag (CLS_EVT_OVR 0)) = true := by decide +kernel

def stalled : State :=
  { running { c0 with started := true, executed := true, beam := .weaving, t0 := 1000 } 1505 with
      strands := [(0, { x0 with run := .weaving, stall := some { on := .beat 5, instr := .nop 0, released := false } })] }

theorem witness_beat_timeout : stalled.ctl.held = false ∧ stalled.onTrial 0 = false ∧ (stalled.cls 0).beam = .weaving ∧
    (stalled.cls 0).beatToDone = false ∧
    stalled.beamT0 0 + stalled.dshed 0 + stalled.fget (BEAT_TO_TO_PCT 0) * stalled.period 0 / 100 ≤ stalled.tbNat ∧
    bitAt (stalled.fget TRAP_POL_POL) 0 = false ∧ (stalled.cfg 0).cls = 0 ∧
    (stalled.strand 0).stall = some { on := .beat 5, instr := .nop 0, released := false } := by decide

theorem test_beat_timeout : after (exec (.beatTimeout 0) stalled) (fun t =>
    (t.strand 0).run == .halted && t.fget (TRAP_INFO_CODE 0) == 0x0E && bitAt (t.fget BEAT_EVT_TIMEOUT) 0) = true := by decide +kernel

/-- EmitAndOutputs: an emit instant; a digital output with its entry, its group on, off and fused. -/
def emitting : State := running { c0 with started := true, executed := true, deadlineDone := true, t0 := 1000 } 1800

theorem witness_emit : emitting.mode = mRun ∧ (emitting.cls 0).started = true ∧ (emitting.cls 0).deadlineDone = true ∧
    (emitting.cls 0).emitDone = false ∧ (emitting.cls 0).t0.toNat + emitting.dout 0 ≤ emitting.tbNat ∧
    (emitting.cls 0).firstPend = false := by decide

def digitalOut : State :=
  { ((running c0 1800).fput (DIO_CH_CFG_DIR 0) 1).fput (DIO_GRP_STAT_STATE 0) 0 with
      heddle := [(0, heddleEntry [2 ^ 31 + 2 ^ 28, 0, 1, 2, 0, 0, 0])], sw := [(0, 3)], img := [(0x8000, 1)] }

theorem witness_digital_output : digitalOut.mode = mRun ∧
    digitalOut.dioEntry 0 = some (heddleEntry [2 ^ 31 + 2 ^ 28, 0, 1, 2, 0, 0, 0], 0) ∧ digitalOut.flag (DIO_CH_CFG_SHARED 0) = false ∧
    digitalOut.gang 0 = [0] ∧ digitalOut.red.tkoLeft = [] ∧ digitalOut.recBit 0 recOverload = false ∧
    (digitalOut.fput (DIO_CH_STAT_REC 0) (2 ^ recOverload)).recBit 0 recOverload = true ∧
    (digitalOut.fput (DIO_GRP_STAT_STATE 0) 2).fget (DIO_GRP_STAT_STATE (0 / 8)) = 2 ∧
    ¬ (digitalOut.fget (DIO_GRP_STAT_STATE (0 / 8)) = 2 ∨ digitalOut.flag (DIO_GRP_STAT_FUSE (0 / 8)) = true ∨
      digitalOut.supply.resetN ≠ none) ∧
    ¬ (digitalOut.swGet 0).toNat % 4 = qBad ∧ (inMode mRun).swGet 0 = 0 := by decide

/-- ForcesAndAdmissions: a bit of M that an entry covers, in PROGRAM and outside; a strand that waits for the fabric. -/
def programming : State := { inMode mProgram with heddle := [(0, entryOfKind 2 0 0 8 0)] }

theorem witness_force : programming.ctl.held = false ∧ programming.red.partner = none ∧ programming.mode = mProgram ∧
    (∀ x, x ∈ [({ kind := 2, idx := 7, value := 1 } : ForceItem)] → (programming.entryOf x.kind.val x.idx.toNat).isSome = true) ∧
    programming.forces.length + programming.forceReq.length + 1 ≤ 1024 ∧ (inMode mRun).mode ≠ mProgram := by decide

theorem test_force_accepted : after (exec (.forceSet [{ kind := 2, idx := 7, value := 1 }] none) programming) (fun t =>
    t.tx == [.sessionAnswer saForce scOk] && t.forceReq == [{ kind := 2, idx := 7, value := some 1, start := 1 }]) = true := by decide +kernel

def waiting : State :=
  { inMode mRun with fabWait := [3, 1], fabServed := [0],
                     strands := [(1, { x0 with run := .weaving, stall := some { on := .fabric, instr := .nop 1, released := false } })] }

theorem witness_admission : waiting.ctl.held = false ∧ waiting.fabricFull = false ∧ 1 ∈ waiting.fabWait ∧ 1 ∉ waiting.fabServed ∧
    (∀ j, j < 1 → j ∈ waiting.fabWait → j ∈ waiting.fabServed) ∧
    (waiting.strand 1).stall = some { on := .fabric, instr := .nop 1, released := false } := by decide

/-! ## Registers, supplies, time: witnesses and single steps -/

/-- RegisterAccesses: a register of each access code, the lock open and closed, an RC register, a register without a command. -/
theorem witness_access_codes : (regRow TRAP_POL).isSome = true ∧ (regRow TRAP_SUM).isSome = true ∧
    ((regRow TRAP_SUM).map (fun r => (BitVec.ofNat 32 r.w1c).getLsbD 15)) = some true ∧
    ((regRow TRAP_POL).map (fun r => (BitVec.ofNat 32 r.lk).getLsbD 3)) = some true ∧
    ((regRow RTC_ALARM_LO).map (fun r => (BitVec.ofNat 32 r.rw).getLsbD 31)) = some true ∧
    ((regRow TRAP_POL).map (fun r => (BitVec.ofNat 32 (r.rw ||| r.lk ||| r.w1c)).getLsbD 4)) = some false ∧
    (inMode mStop).flag SYS_CFGLOCK_LOCK = false ∧ ((inMode mStop).setFlag SYS_CFGLOCK_LOCK true).flag SYS_CFGLOCK_LOCK = true := by
  decide +kernel

theorem witness_steward_access : (inMode mStop).ctl.held = false ∧ (inMode mStop).mode ≠ mDormant ∧ TRAP_SUM < 2 ^ 32 := by decide

theorem test_w1c : after (exec (.registerWrite (BitVec.ofNat 32 TRAP_SUM) 1 0) ((inMode mStop).fput TRAP_SUM_TRAPPED 3)) (fun t =>
    t.fget TRAP_SUM_TRAPPED == 2) = true := by decide +kernel

theorem test_lock : after (exec (.registerWrite (BitVec.ofNat 32 TRAP_POL) 0xF 0) ((inMode mStop).setFlag SYS_CFGLOCK_LOCK true)) (fun t =>
    t.fget TRAP_POL_POL == 0) = true := by decide +kernel

/-- ResetsAndStart: RESET_n low, for 1 ms and for 10 ms; the cell; a start that is due, one with a slot, one without. -/
def pinLow (fab : Nat) : State := { inMode mRun with fab := fab, supply := { Supply.reset with resetN := some 0 } }

theorem witness_pins : (inMode mRun).ctl.held = false ∧ (inMode mRun).mode ≠ mDormant ∧ (inMode mRun).ctl.pfail = false ∧
    (inMode mRun).supply.resetN = none ∧ (pinLow 5000000).supply.resetN = some 0 ∧ 0 + 5000000 ≤ (pinLow 5000000).fab ∧
    (pinLow 499999).fab < 0 + 500000 ∧ (inMode mRun).supply.cellBad = false ∧ State.reset.store.running = [] := by decide

theorem test_external_reset : after (exec .externalReset (pinLow 5000000)) (fun t =>
    t.mode == mPowerUp && t.fget SYS_RSTCAUSE_CAUSE == 1) = true := by decide +kernel

def slots (confirmed : Bool) : State := State.reset.markSlot 0 (if confirmed then mkConfirmed else mkFailed)

theorem witness_start : start0.supply = none ∧ (slots true).ctl.held = false ∧ (slots true).mode = mPowerUp ∧
    (slots true).flag SYS_BOOT_FAIL = false ∧ start0.romOk = true ∧ start0.initOk = true ∧ start0.cmpFail = 0 ∧ start0.anchorOk = true ∧
    ({ start0 with romOk := false }).romOk = false ∧ (inMode mStop).mode ≠ mPowerUp := by decide +kernel

theorem witness_slot_verifies : (slots true).slotVerifies 0 start0.verify0 = true := by
  have h : bind0.ok = true := by simp [Binding.ok, bind0]
  have g : (slots true).slotVerifies 0 start0.verify0 = bind0.ok := by decide +kernel
  rw [g, h]

/-- Observation: the link down and up, a trace that may start, one that captures, one that drains. -/
def tracing : State := ((inMode mStop).fput OBS_RT_BUF_SIZE16 1)

theorem witness_trace : tracing.ctl.held = false ∧ tracing.mode ≠ mDormant ∧ tracing.flag OBS_CFG_LINK ≠ true ∧
    tracing.fget OBS_RT_BUF_SIZE16 ≠ 0 ∧ (tracing.mode = mStop ∨ tracing.mode = mProgram ∨ tracing.mode = mRun) ∧
    tracing.flag OBS_RT_STAT_CAPTURING = false ∧ tracing.flag OBS_RT_STAT_DRAINING = false ∧
    ((inMode mRunLocked).fput OBS_RT_BUF_SIZE16 1).fget OBS_RT_BUF_SIZE16 ≠ 0 ∧ ((inMode mRunLocked).fput OBS_RT_BUF_SIZE16 1).mode = mRunLocked ∧
    (tracing.setFlag OBS_RT_STAT_CAPTURING true).flag OBS_RT_STAT_CAPTURING = true ∧
    ((tracing.setFlag OBS_RT_STAT_DRAINING true).setFlag OBS_CFG_LINK true).flag OBS_CFG_LINK = true ∧ tracing.trace.clear = none ∧
    tabWf regReset tracing.regs = true := by decide +kernel

/-- TimeReference: a slave port with its link up; a pair, a hedge and a standby that send and receive time messages. -/
def slavePort : State := (((inMode mRun).setFlag (ETH_PSTAT_LINK 0) true).fput (ETH_PSTAT_AS_ROLE 0) 2)

theorem witness_gptp : slavePort.ctl.held = false ∧ slavePort.mode ≠ mPowerUp ∧ slavePort.mode ≠ mDormant ∧ slavePort.linkUp 0 = true ∧
    slavePort.flag (ETH_PCFG_AS 0) = true ∧ slavePort.fget (ETH_PSTAT_AS_ROLE 0) = 2 ∧ slavePort.usesGptp = true ∧
    (slavePort.flag CYC_SYNC_STEPOPEN = true ∧ slavePort.tbNs + 1000 < 2000 ∧ slavePort.tbNat < 2000 / 1000 ∧ 2000 / 1000 < 2 ^ 64) ∧
    ¬ (slavePort.tbNs + 1000 < 1000) := by decide +kernel

def primaryOfPair : State := { (inMode mRun).fput RED_STAT_ROLE 1 with red := { Red.reset with partner := some 2 } }

theorem witness_time_messages : primaryOfPair.ctl.held = false ∧ primaryOfPair.mode ≠ mPowerUp ∧ primaryOfPair.mode ≠ mDormant ∧
    (primaryOfPair.paired = true ∧ primaryOfPair.role = 1) ∧ ({ primaryOfPair with fab := 62500 }).hedge.timeAt + 62500 ≤ 62500 ∧
    ({ primaryOfPair with fab := 62499 }).fab < primaryOfPair.hedge.timeAt + 62500 ∧ ((inMode mTrack).fput RED_STAT_ROLE 2).role = 2 := by
  decide +kernel

/-- ClockTicksAndSets: the phase accumulator next to both limits, a pending set. -/
def ticking (acc : Int) : State := { State.reset with rtc := { Rtc.reset with acc := acc, count := 2 ^ 48 - 1 } }

theorem witness_ticks : (ticking 999999999).flag RTC_STAT_PEND = false ∧ (ticking 999999999).rtc.acc.natAbs < 1000000000 ∧
    (ticking (-999999999)).rtc.acc.natAbs < 1000000000 ∧ (ticking 0).rtc.count < 2 ^ 48 ∧
    (sgn 32 ((ticking 0).fget RTC_TRIM_TRIM)).natAbs ≤ 200000 ∧ (sgn 32 200000).natAbs ≤ 200000 := by decide +kernel

theorem test_tick_wraps : after (exec .rtcTick (ticking 0)) (fun t => t.rtc.count == 0 && t.flag RTC_STAT_WRAP) = true := by
  decide +kernel

theorem witness_sets : (State.reset.setFlag RTC_STAT_PEND true).flag RTC_STAT_PEND = true ∧ State.reset.rtc.rel = none ∧
    State.reset.flag RTC_STAT_PEND = false ∧ (inMode mStop).mode ≠ mRunLocked ∧ (inMode mRunLocked).mode = mRunLocked := by decide +kernel

/-- AlarmsAndTrim: an alarm that is due, a wake that is due, DORMANT; each reference. -/
theorem witness_alarms : (State.reset.setFlag RTC_STAT_ARMED true).flag RTC_STAT_ARMED = true ∧ State.reset.alarmAt ≤ State.reset.rtc.count ∧
    State.reset.flag RTC_STAT_ARMED = false ∧ 5 ≤ (5 : BitVec 5).toNat ∧ (4 : BitVec 5).toNat < 5 ∧
    (State.reset.setFlag RTC_ALM_CTRL_WAKE_EN true).flag RTC_ALM_CTRL_WAKE_EN = true ∧ State.reset.rtc.nw ≤ State.reset.rtc.count ∧
    (inMode mDormant).mode = mDormant := by decide +kernel

theorem test_alarm_fires : after (exec .alarmFire (State.reset.setFlag RTC_STAT_ARMED true)) (fun t =>
    t.flag RTC_STAT_FIRED && !t.flag RTC_STAT_ARMED && t.flag RTC_EVT_ALARM) = true := by decide +kernel

def latching : State :=
  { (((State.reset.fput RTC_CFG_REFSRC 2).setFlag CYC_SYNC_SYNC true).fput CYC_SYNC_SOURCE 1) with
      rtc := { Rtc.reset with latched := true }, tb := BitVec.ofNat 64 (1000000 * (946684800 + 37)) }

theorem witness_references : (State.reset.fput RTC_CFG_REFSRC 1).fget RTC_CFG_REFSRC = 1 ∧ latching.fget RTC_CFG_REFSRC = 2 ∧
    latching.tbSynced = true ∧ (latching.rtc.count : Int) = latching.tickOf latching.tbNat ∧ latching.rtc.latched = true ∧
    State.reset.fget RTC_CFG_REFSRC = 2 ∧ State.reset.tbSynced = false ∧
    (-200000 * (327680000 : Int) ≤ (327680000 - 327680000) * 1000000000 ∧
      (327680000 - 327680000 : Int) * 1000000000 ≤ 200000 * 327680000) := by decide +kernel

/-- HedgeTraffic: a formed hedge with a beam that is committed here, and one that is late; a top master at its cut instant. -/
def formedHedge (m : Nat) : State :=
  (((((inMode mRun).setFlag MEL_CFG_HEDGE true).setFlag MEL_STAT_FORMED true).fput MEL_CFG_NMOD 4).fput MEL_CFG_INDEX m).fput MEL_STAT_STATE 2

def hedgeBeam (c : ClassSt) (at_ : Option Nat) : State :=
  { withC0 (formedHedge 0) c with hedge := { Hedge.reset with beams := [(0, { HedgeBeam.reset with commitAt := at_ })] },
                                  tb := BitVec.ofNat 64 1801 }

def running0 : ClassSt := { c0 with executed := true, beam := .running 1 2, t0 := 1000, started := true }

theorem witness_hedge_beam : (hedgeBeam running0 none).ctl.held = false ∧ (hedgeBeam running0 none).flag MEL_STAT_FORMED = true ∧
    (hedgeBeam running0 none).edit.pkg = none ∧ (hedgeBeam running0 none).upd.act = none ∧ (hedgeBeam running0 none).upd.trial = none ∧
    ((hedgeBeam running0 none).hbeam 1).commitAt = none ∧ ((hedgeBeam running0 (some 5)).hbeam 0).commitAt = some 5 ∧
    ((hedgeBeam running0 (some 5)).cls 0).beamCyc = 0 ∧ ((hedgeBeam running0 (some 5)).cls 0).beamCyc ≠ 1 ∧
    (hedgeBeam running0 none).member = 0 ∧ ((hedgeBeam running0 none).cls 0).executed = true ∧
    ((hedgeBeam running0 none).cls 0).beam ≠ .none ∧ ((hedgeBeam running0 none).hbeam 0).late = false ∧
    1000 * (((hedgeBeam running0 none).cls 0).t0.toNat + (hedgeBeam running0 none).dout 0) < (hedgeBeam running0 none).tbNs := by
  decide +kernel

theorem witness_hedge_beam_shadows : ∀ j, ((hedgeBeam running0 none).cls j).shadow = .none := shadows_none _ running0 rfl rfl

/-! ## Ethernet, queues and CAN: witnesses and single steps -/

/-- Port 0 is enabled and up, with a transmit and a receive queue of eight descriptors. -/
def linked : State :=
  (((((inMode mRun).setFlag (ETH_PCFG_EN 0) true).setFlag (ETH_PSTAT_LINK 0) true).fput (QUE_CFG_DEPTH 0) 8).fput
    (QUE_CFG_MAXFRAME 0) 1522)

/-- EthernetReceive: links that come up and go down, a window that starts, is open and has ended. -/
def window0 : RioWindow := { cls := 0, launch := 5000, start := some 5000, left := [3] }
def windowed : State := (linked.setWindows 0 [window0])
def outStream : State :=
  { withC0 (((linked.setFlag (ETH_STR_CFG_EN 3) true).setFlag (ETH_STR_CFG_DIR 3) true).fput (ETH_STR_LEN_LEN 3) 8)
      { c0 with t0 := 100, started := true, executed := true } with tb := BitVec.ofNat 64 899 }

theorem witness_links : linked.ctl.held = false ∧ linked.mode ≠ mDormant ∧ linked.flag (ETH_PCFG_EN 0) = true ∧ linked.linkUp 0 = true ∧
    (linked.setFlag (ETH_PSTAT_LINK 0) false).linkUp 0 = false ∧ (linked.setFlag (ETH_PSTAT_LINK 0) false).flag (ETH_PSTAT_SLOW 0) = false ∧
    windowed.portWindows 0 = window0 :: [] ∧ window0.start = some 5000 := by decide +kernel

theorem witness_gates : modeExecutes outStream.mode = true ∧ outStream.portStreams 0 0 ≠ [] ∧ (outStream.cls 0).started = true ∧
    1000 * ((outStream.cls 0).t0.toNat + outStream.dout 0) ≤ outStream.tbNs + outStream.rioGuard 0 ∧
    outStream.tbNs < 1000 * ((outStream.cls 0).t0.toNat + outStream.dout 0) := by decide +kernel

theorem test_gate_close : after (exec (.gateClose 0 0) outStream) (fun t => t.gatesClosed 0) = true := by decide +kernel

theorem witness_window_end : 5000 + windowed.rioWin 0 0 ≤ ({ windowed with tb := BitVec.ofNat 64 6 }).tbNs ∧
    window0.left.length + windowed.fget (ETH_PCNT_LATE_LATE 0) < 2 ^ 16 := by decide +kernel

/-- EthernetReceive: a frame whose size is at MAXFRAME, with and without a good FCS, and the stream that it belongs to. -/
def inStr : State := (linked.setFlag (ETH_STR_CFG_EN 5) true).fput (ETH_STR_CFG_STREAM 5) 0x0102 |>.fput (ETH_STR_LEN_LEN 5) 4

def rioFrame (ok : Bool) : EthFrame :=
  { src := 0, vlan := 0, rtag := none, etype := BitVec.ofNat 16 (inStr.fget ETH_CFG_ETYPE),
    payload := [1, 1, 2, 1, 9, 0, 0, 0, 0, 0, 0, 0, 0, 0, 0, 0, 0, 0, 0, 0, 4, 0, 0, 0, 1, 0, 0, 0, 0xAA, 0xBB, 0xCC, 0xDD],
    fcsOk := ok, stamp := 77, ip := none }

theorem witness_receive : inStr.ctl.held = false ∧ inStr.mode ≠ mDormant ∧ inStr.mode ≠ mPowerUp ∧ inStr.linkUp 0 = true ∧
    (rioFrame true).etype.toNat = inStr.fget ETH_CFG_ETYPE ∧ frameSize (rioFrame true) ≤ inStr.fget (QUE_CFG_MAXFRAME 0) ∧
    inStr.qNeeds 0 (frameSize (rioFrame true)) ≤ inStr.qFree 0 ∧ inStr.flag OBS_CFG_LINK = false ∧ inStr.pipeSrc = [] ∧
    inStr.fget (ETH_PCNT_DROP_DROP 0) < 65535 ∧ fieldAt (rioFrame true).payload 0 1 = 1 ∧ fieldAt (rioFrame true).payload 1 1 = 1 ∧
    inStr.inStream 0 (fieldAt (rioFrame true).payload 2 2) (rioFrame true) = some 5 ∧ inStr.flag (ETH_STR_CFG_MSG 5) = false ∧
    fieldAt (rioFrame true).payload 20 2 = inStr.fget (ETH_STR_LEN_LEN 5) ∧ (inStr.stream 5).last = none := by decide +kernel

theorem test_stream_frame : after (exec (.ethFrameReceived 0 (rioFrame true)) inStr) (fun t =>
    (t.stream 5).last == some 9 && ((t.stream 5).frames.map RxFrame.data) == [[0xAA, 0xBB, 0xCC, 0xDD]]) = true := by decide +kernel

/-- EthernetSendAndQueues: a frame of a window, a master port, sessions below and at MAXSESS, a replicated stream. -/
def frame3 : OutFrame := { stream := 3, cycle := 1, time := 5, status := 0, apply := 0, data := [], rtag := none }
def sending : State := { windowed with eth := { windowed.eth with outs := [(3, frame3)] } }

def serving (n : Nat) : State :=
  let s := ((linked.setFlag (ETH_PCFG_SESS 0) true).rset (ETH_IPADDR 0) 0xC0A80001).fput ETH_SESS_MAXSESS 1
  { s with eth := { s.eth with sessions := List.replicate n { port := 0, client := 7 } } }

theorem witness_send : sending.ctl.held = false ∧ sending.flag OBS_CFG_LINK = false ∧ sending.linkUp 0 = true ∧
    sending.portWindows 0 = window0 :: [] ∧ window0.left = 3 :: [] ∧ sending.eth.outs.find? (fun y => y.1 == 3) = some (3, frame3) ∧
    (linked.fput (ETH_PSTAT_AS_ROLE 0) 1).fget (ETH_PSTAT_AS_ROLE 0) = 1 := by decide +kernel

theorem witness_sessions : (serving 0).live = true ∧ (serving 0).answersSessions 0 = true ∧ (serving 0).linkUp 0 = true ∧
    (serving 0).eth.sessions.length < (serving 0).fget ETH_SESS_MAXSESS ∧
    (serving 1).fget ETH_SESS_MAXSESS ≤ (serving 1).eth.sessions.length ∧ (serving 1).eth.sessions[0]? = some ⟨0, 7⟩ := by decide +kernel

theorem witness_recovery : ((linked.setFlag (ETH_STR_CFG_EN 5) true).setFlag (ETH_STR_CFG_CB 5) true).flag (ETH_STR_CFG_CB 5) = true ∧
    (linked.stream 5).lastAt + 100000 ≤ ({ linked with tb := BitVec.ofNat 64 100000 }).tbNat := by decide +kernel

/-- EthernetSendAndQueues: posts that are accepted, at an Ethernet, a CAN and a Melber port, one of more descriptors than are free, retires
of none, all and too many. -/
def posting (q : Nat) : State :=
  (linked.rset (QUE_DESC0 (linked.qDesc q 0)) (descWord0 false true true 0 0 64)).fput (QUE_STAT_FULLCNT q) 0

theorem witness_queue : (posting 4).ctl.held = false ∧ (posting 4).mode ≠ mDormant ∧ (posting 4).postStatus 4 1 = scOk ∧
    (posting 4).qFree 4 < 129 ∧ (posting 4).postStatus 4 129 ≠ scOk ∧ (posting 12).postStatus 12 1 = scOk ∧
    ((posting 12).canPort 0).queueOnBus = false ∧ (posting 22).melberUp 0 = false ∧ (posting 22).postStatus 22 1 = scOk ∧
    ((posting 22).fput (MEL_LINK_STATE 0) 2).melberUp 0 = true ∧ ((posting 22).fput (MEL_LINK_STATE 0) 2).postStatus 22 1 = scOk ∧
    (posting 0).fget (QUE_STAT_FULLCNT 0) < 1 ∧ ((posting 0).fput (QUE_STAT_FULLCNT 0) 8).fget (QUE_STAT_FULLCNT 0) = 8 ∧
    0 < (posting 0).fget (QUE_CFG_DEPTH 0) := by decide +kernel

theorem test_post : after (exec (.quePost 4 1) (posting 4)) (fun t =>
    t.fget (QUE_STAT_FULLCNT 4) == 1 && t.fget (QUE_STAT_PIDX 4) == 1) = true := by decide +kernel

/-- CanReceiveMailboxes: a filter that hits, a mailbox with and without a lock and a shadow. -/
def canPort0 : State :=
  ((((inMode mRun).setFlag (CAN_PCFG_EN 0) true).setFlag (CAN_FLT_ID_EN 0 2) true).fput (CAN_FLT_ID_ID 0 2) 5).fput
    (CAN_FLT_MASK_MASK 0 2) 0x1FFFFFFF |>.fput (CAN_FLT_TGT_TARGET 0 2) 63 |>.fput (CAN_MB_CFG_KIND 0 63) mbRxSoft

def canLocked (l : List (CanFrame × Nat)) : State := canPort0.setMb 0 63 { Mb.reset with lock := some (16, 0), shadow := l }

theorem witness_can_receive : canPort0.canOn 0 = true ∧ can0.fdf = false ∧
    (List.range 128).find? (fun j => canPort0.filterHits 0 j can0) = some 2 ∧ canPort0.fget (CAN_FLT_TGT_TARGET 0 2) = 63 ∧
    canPort0.fget (CAN_MB_CFG_KIND 0 63) = mbRxSoft ∧ (canPort0.mb 0 63).lock = none ∧ ((canLocked []).mb 0 63).lock = some (16, 0) ∧
    ((canLocked []).mb 0 63).shadow = [] ∧ 0 + 20 ≤ ({ canLocked [] with tb := BitVec.ofNat 64 20 }).tbNat ∧
    ((canLocked [(can0, 4000)]).mb 0 63).shadow = [(can0, 4000)] ∧ (canLocked []).canOn 0 = true ∧
    (List.range 128).find? (fun j => (canLocked []).filterHits 0 j can0) = some 2 := by decide +kernel

theorem test_mailbox : after (exec (.canFrameReceived 0 can0 5000) canPort0) (fun t =>
    t.flag (CAN_MB_HDR_NEW 0 63) && t.fget (CAN_MB_ID_ID 0 63) == 5 && t.rget (CAN_MB_DATA 0 63 0) == 0xAA) = true := by decide +kernel

/-- CanTransmission: requests that are accepted and refused, a pending frame at its deadline, the bus. -/
def txBox : State :=
  ((((inMode mRun).setFlag (CAN_PCFG_EN 0) true).fput (CAN_MB_CFG_KIND 0 0) mbTxSoft).fput (CAN_MB_DL_DL_US 0 0) 1)

def pend0 : CanTx := { frame := can0, launch := 0, deadline := 10, ready := true, started := false, onBus := false }
def pending0 (x : CanTx) : State := txBox.setMb 0 0 { Mb.reset with pend := some x }

theorem witness_can_send : txBox.ctl.held = false ∧ txBox.txStatus 0 0 txBox.tbNat false false false 8 = scOk ∧
    txBox.txStatus 0 0 txBox.tbNat false true false 8 ≠ scOk ∧ ((pending0 pend0).mb 0 0).pend = some pend0 ∧ pend0.started = false ∧
    ({ pend0 with started := true }).started = true ∧ pend0.launch ≤ (pending0 pend0).tbNat ∧
    pend0.deadline ≤ ({ pending0 pend0 with tb := BitVec.ofNat 64 10 }).tbNat ∧ pend0.onBus = false ∧
    ({ pend0 with onBus := true }).onBus = true := by decide +kernel

theorem witness_bus : (pending0 pend0).flag OBS_CFG_LINK = false ∧ (pending0 pend0).canOn 0 = true ∧
    (pending0 pend0).flag (CAN_PCFG_LISTEN 0) = false ∧ (pending0 pend0).canBusy 0 = false ∧
    pickFrame ((pending0 pend0).readyMbs 0 ++ (pending0 pend0).readyQueue 0) = some (0, can0) ∧
    (pending0 { pend0 with onBus := true }).mbOnBus 0 = some (0, { pend0 with onBus := true }) ∧
    255 < ((pending0 pend0).fput (CAN_PSTAT_TEC 0) 248).fget (CAN_PSTAT_TEC 0) + 8 ∧
    ((pending0 pend0).fput (CAN_PSTAT_STATE 0) 2).fget (CAN_PSTAT_STATE 0) = 2 := by decide +kernel

theorem test_bus_off : after (exec (.canError 0 .transmit) (txBox.fput (CAN_PSTAT_TEC 0) 248)) (fun t =>
    t.fget (CAN_PSTAT_STATE 0) == 2 && t.fget (CAN_BOCNT_BUSOFF 0) == 1) = true := by decide +kernel

/-! ## Signal engines and channels: witnesses and single steps -/

/-- SignalEngineSamples: a running pipeline of a channel in a voltage mode; checks whose repeat differs and does not. -/
def piped (l : List Stage) : State :=
  (((inMode mRun).fput (UC_MODE_MODE 15) 1).setFlag (SE_PIPE_CFG_EN 15) true).setPipe 15 { Pipe.reset with stages := l, st := l.map (fun _ => StageSt.init) }

theorem witness_samples : (piped []).ctl.held = false ∧ (piped []).pipeRuns 15 = true ∧ (15 : Fin 256).val < 16 ∧
    ucInput ((piped []).ucMode 15) = true ∧ ((piped [.scale 1 0 0]).pipe 15).stages = [.scale 1 0 0] ∧ differ 1 0 100 = true ∧
    differ 1 5 5 = false := by decide +kernel

/-- R181, R183: modulator bits of 1 alone are full scale; gain 1 (G = 2^30 with E = 1) and offset -1. -/
theorem test_scale : after (exec (.pipelineSample 15 [true] 3 none none none [])
    ((piped [.scale 0x40000000 1 (-1)]).setUc 15 { Uc.reset with mod := List.replicate 16 true, modCnt := 4 })) (fun t =>
    match (t.pipe 15).samples with
    | y :: _ => y.value == 0x7FFFFFFE
    | [] => false) = true := by decide +kernel

/-- SignalEngineJobs: a descriptor that is accepted, and one whose kind is 0. -/
def jobDesc (w0 : Nat) : List Byte := leBytes 4 w0 ++ leBytes 4 0x80040 ++ leBytes 4 4 ++ leBytes 4 0x10000000 ++ leBytes 4 32 ++
  leBytes 4 0 ++ leBytes 4 1 ++ leBytes 4 0xBFFFC

def jobState (w0 : Nat) : State :=
  let s := (weave (regsOf [(1, 0xBFFE0)])).fput (SE_JOBPERM_PERM 0) 1
  { s with scfg := [(0, { StrandCfg.default with regions := [(0x10000000, 32)] })] }.msetN (s.dkey 0 0x3FFE0) (jobDesc w0)

theorem witness_job : Ready (jobState 0x40) 0 ∧ (((jobState 0x40).strand 0).w.get 1).toNat % 4 = 0 ∧
    inDmem (((jobState 0x40).strand 0).w.get 1).toNat 32 = true ∧
    (jobState 0x40).sejStatus 0 ((jobState 0x40).mgetN ((jobState 0x40).dkey 0 0x3FFE0) 32) = scOk ∧
    (jobState 0).sejStatus 0 ((jobState 0).mgetN ((jobState 0).dkey 0 0x3FFE0) 32) ≠ scOk := by
  unfold Ready; decide +kernel

theorem test_job_accepted : after (exec (.sej 0 2 1) (jobState 0x40)) (fun t =>
    (t.strand 0).w[2] == 0 && (t.engine 0).jobs.length == 1 && t.fget (SE_JOBSTAT_NEXTSEQ 0) == 1) = true := by decide +kernel

/-- SignalEngineJobs: an engine whose oldest waiting job is its second, once late; an engine without one. -/
def job0 : Job :=
  { strand := 0, kind := 4, ticket := 0, src := 0, srcLen := 4, srcCopy := some [1, 2, 3, 4], dst := 0x10000000, dstLen := 32, param := 0,
    paramLen := 0, count := 1, order := 0, status := 0xBFFFC, defer := 0, state := .waiting, late := false }

def engine0 (l : List Job) : State := (inMode mRun).setEngine 0 { jobs := l }

theorem witness_completion : (engine0 []).ctl.held = false ∧ (engine0 []).seFailed 0 = false ∧
    ((engine0 [{ job0 with state := .absent }, job0]).engine 0).jobs.findIdx? (fun x => x.state == .waiting) = some 1 ∧
    ((engine0 [{ job0 with state := .absent }, job0]).engine 0).jobs[1]? = some job0 ∧
    ((engine0 [{ job0 with late := true }]).engine 0).jobs[0]? = some { job0 with late := true } ∧
    ∀ j, j ∈ ((engine0 [{ job0 with state := .absent }]).engine 0).jobs → j.state ≠ .waiting := by decide +kernel

/-- InputChannels: channel 15 in a voltage mode, at full scale for 1 ms and longer; RTD, loop-supply and thermocouple modes. -/
def ucIn (mode : Nat) (u : Uc) : State :=
  (((inMode mRun).fput (UC_MODE_MODE 15) mode).setFlag (UC_STAT_ONLINE 15) true |>.setFlag (UC_STAT_FMT_OK 15) true).setUc 15
    { u with running := true }

theorem witness_inputs : (ucIn 1 Uc.reset).flag (UC_STAT_ONLINE 15) = true ∧ ucInput ((ucIn 1 Uc.reset).ucMode 15) = true ∧
    ((ucIn 1 Uc.reset).uc 15).running = true ∧ (0x7FFFFFFF : BitVec 32).toInt = 2 ^ 31 - 1 ∧ (0x80000000 : BitVec 32).toInt = -(2 ^ 31) ∧
    (ucIn 0x10 Uc.reset).ucMode 15 = 0x10 ∧ (ucIn 0x13 Uc.reset).ucMode 15 = 0x13 ∧ (ucIn 0x09 Uc.reset).ucMode 15 = 0x09 ∧
    (ucIn 0x0B Uc.reset).ucMode 15 = 0x0B ∧ ucTc ((ucIn 0x27 Uc.reset).ucMode 15) = true ∧
    ((ucIn 0x27 { Uc.reset with cjBad := true }).uc 15).cjBad = true := by decide +kernel

theorem test_open : after (exec (.adcOverrange 15 0x7FFFFFFF 1001) (ucIn 0x10 Uc.reset)) (fun t =>
    t.diagBit 15 2 && !t.diagBit 15 3 && t.ucQuality 15 == qBad) = true := by decide +kernel

/-- OutputChannels: a passive output that runs and one that is browned out, a command that is lost, a step 2 ms ago, a voltage output. -/
def stopped (r : Option Int) : State :=
  (ucIn 0x3A Uc.reset).setUc 15 { Uc.reset with running := false, retained := r }

theorem witness_outputs : (ucIn 0x3A Uc.reset).ucMode 15 = 0x3A ∧ ((ucIn 0x3A Uc.reset).uc 15).running = true ∧
    (stopped none).ctl.held = false ∧ (stopped none).mode ≠ mPowerUp ∧ (stopped none).mode ≠ mLoad ∧ ((stopped none).uc 15).running = false ∧
    (stopped none).flag (UC_STAT_FMT_OK 15) = true ∧ ((stopped (some 4000000)).uc 15).retained = some 4000000 ∧
    ((stopped none).uc 15).retained = none ∧ ucOutput ((ucIn 0x30 Uc.reset).ucMode 15) = true ∧ (ucIn 0x30 Uc.reset).diagBit 15 6 = false ∧
    ((ucIn 0x30 Uc.reset).uc 15).cmdAt + 1000 * (ucIn 0x30 Uc.reset).fget (UC_CMDTMO_TMO_MS 15) ≤
      ({ ucIn 0x30 Uc.reset with tb := BitVec.ofNat 64 10000000 }).tbNat ∧
    (ucIn 0x38 Uc.reset).flag (UC_STAT_ONLINE 15) = true ∧
    ((ucIn 0x39 Uc.reset).uc 15).stepAt + 4000 < ({ ucIn 0x39 Uc.reset with tb := BitVec.ofNat 64 4001 }).tbNat ∧
    (ucIn 0x39 Uc.reset).tbNat ≤ ((ucIn 0x39 Uc.reset).uc 15).stepAt + 4000 := by decide +kernel

theorem test_no_brownout : after (exec (.brownout 15 6500) (ucIn 0x3A { Uc.reset with cmd := some 7, out := 7 })) (fun t =>
    (t.uc 15).running && (t.uc 15).out == 7) = true := by decide +kernel

/-- OutputChannels: an incoming and an outgoing unit in a fade, one of them at its end. -/
def fading (up : Bool) : State :=
  { (inMode mRun).setUc 0 { Uc.reset with row := if up then 8 else 5, cmd := some 4000000, fade := some ⟨0, 1000, up, 4000000⟩ } with
      tb := BitVec.ofNat 64 510 }

theorem witness_fades : ((fading true).uc 0).fade = some ⟨0, 1000, true, 4000000⟩ ∧ (fading true).flag (UC_MODE_SHARED 0) = false ∧
    ((fading true).uc 0).row = 8 ∧ ((fading false).uc 0).row = 5 ∧ 0 + 1000 ≤ ({ fading true with tb := BitVec.ofNat 64 1000 }).tbNat ∧
    ¬ (0 + 1000 ≤ (fading false).tbNat) := by decide +kernel

theorem test_fade : after (exec (.crossFadeStep 0) (fading false)) (fun t => (t.uc 0).out == 1960000) = true ∧
    after (exec (.crossFadeStep 0) (fading true)) (fun t => (t.uc 0).out == 2040000) = true := by decide +kernel

/-- OutputGroups: supplies at each limit, a trip current, an output that is on. -/
def dioOn : State := ((inMode mRun).fput (DIO_CH_CFG_DIR 31) 1).setDio 31 { Dio.reset with out := true }

theorem witness_groups : dioOn.measures = true ∧ dioOn.live = true ∧ dioOn.dioOut 31 = true ∧ (dioOn.dio 31).out = true ∧
    (14999 : BitVec 16).toNat < 15000 ∧ 15000 ≤ (15000 : BitVec 16).toNat ∧ (15499 : BitVec 16).toNat < 15500 ∧
    15500 ≤ (15500 : BitVec 16).toNat ∧ (17999 : BitVec 16).toNat < 18000 ∧ 18000 ≤ (18000 : BitVec 16).toNat ∧
    (18499 : BitVec 16).toNat < 18500 ∧ 18500 ≤ (18500 : BitVec 16).toNat ∧ 4400 < (4401 : BitVec 16).toNat := by decide +kernel

theorem test_trip : after (exec (.groupCurrentTrip 3 4401) dioOn) (fun t => !(t.dio 31).out && t.flag (DIO_GRP_STAT_FUSE 3)) = true ∧
    after (exec (.groupCurrentTrip 3 4400) dioOn) (fun t => (t.dio 31).out) = true := by decide +kernel

/-- InputChannels: an input, a counter in each mode with its inputs low and high, 12 s without a period. -/
def counting (mode : Nat) (a : Bool) : State := ((inMode mRun).fput (CT_CFG_MODE 7) mode).setCt 7 { Ct.reset with a := a }

theorem witness_counters : (counting 1 false).measures = true ∧ (counting 1 false).fget (DIO_CH_CFG_DIR 0) = 0 ∧
    (counting 1 false).live = true ∧ ((counting 1 false).ct 7).hold = false ∧ (counting 6 true).ctMode 7 = 6 ∧
    ((counting 6 true).ct 7).a = true ∧ ((counting 3 false).ct 7).a = false ∧ (counting 3 false).fget (CT_CFG_EDGE 7) ≠ 1 ∧
    (counting 7 false).ctMode 7 = 7 ∧
    12 * 10 ^ 9 ≤ 8 * (({ counting 7 false with fab := 6000000000 }).fab / 4 - (((counting 7 false).ct 7).lastRise).getD 0) := by
  decide +kernel

theorem test_quadrature : after (exec (.counterEdge 7 true false) (counting 6 false)) (fun t => t.fget (CT_LIVE_LIVE 7) == 1) = true ∧
    after (exec (.counterEdge 7 true true) (counting 6 false)) (fun t => t.flag (CT_STAT_QERR 7)) = true := by decide +kernel

/-! ## Modes, integrity, watchdog, retain store and recorder: witnesses and single steps -/

/-- The state after reset in mode `m` with the key at `pos` and the key fault `f`. -/
def keyed (m pos : Nat) (f : Bool) : State := ((inMode m).fput SYS_KEY_POS pos).setFlag SYS_KEY_KEYFAULT f

theorem cls_none (s : State) (h : s.classes = []) : ∀ k, (s.cls k).shadow = .none := by
  intro k
  unfold State.cls
  rw [h]
  rfl

theorem quiet_keyed : Quiet (keyed mRun 2 false) ∧ Quiet (keyed mStop 2 false) ∧ Quiet (keyed mStop 2 true) ∧
    Quiet (keyed mProgram 1 false) ∧ Quiet (keyed mRunLocked 3 false) := by
  unfold Quiet
  refine ⟨?_, ?_, ?_, ?_, ?_⟩ <;>
    refine ⟨⟨rfl, rfl, rfl, rfl⟩, ⟨rfl, rfl, rfl, cls_none _ rfl⟩, ⟨rfl, rfl, rfl, rfl, rfl, rfl⟩, ⟨rfl, rfl, rfl, ?_⟩, ⟨rfl, ?_⟩,
      ⟨rfl, rfl, rfl⟩⟩ <;> decide

/-- KeyAndModeRequests: the executing modes, a change and no change of the position, a fault. -/
theorem witness_key : (keyed mRun 2 false).ctl.held = false ∧ (keyed mRun 2 false).flag MEL_CFG_HEDGE = false ∧
    (keyed mRun 2 false).flag SYS_KEY_KEYFAULT = false ∧ (keyed mProgram 1 false).mode = mProgram ∧ (keyed mRun 2 false).mode = mRun ∧
    (keyed mRunLocked 3 false).mode = mRunLocked ∧ (keyed mRun 2 false).fget SYS_KEY_POS = 2 ∧ (keyed mRun 2 false).fget SYS_KEY_POS ≠ 3 ∧
    (keyed mRun 2 false).mode ≠ mDormant ∧ popcount 4 (3 : BitVec 4).toNat ≠ 1 ∧ popcount 4 (0 : BitVec 4).toNat ≠ 1 ∧
    (keyed mStop 0 true).flag SYS_KEY_KEYFAULT = true := by decide +kernel

theorem test_key : after (exec (.keyPositionChange 0) (keyed mRun 2 false)) (fun t =>
    (t.ctl.change.map ModeChange.target) == some mStop && t.fget SYS_KEY_POS == 0) = true := by decide +kernel

/-- KeyAndModeRequests: RUN in STOP is accepted; RUN in RUN is accepted without a change; the key fault and RUN-LOCKED refuse; every code. -/
theorem witness_requests : (keyed mStop 2 false).mode ≠ mDormant ∧ (keyed mStop 2 false).requestStatus 3 = scOk ∧
    (keyed mStop 2 false).mode ≠ requestMode 3 ∧ (keyed mStop 2 false).mode ≠ mLockout ∧ (keyed mRun 2 false).requestStatus 3 = scOk ∧
    (keyed mRun 2 false).mode = requestMode 3 ∧ (keyed mStop 2 true).requestStatus 1 ≠ scOk ∧
    (keyed mStop 2 true).flag SYS_KEY_KEYFAULT = true ∧ (keyed mStop 2 false).ctl.keyAt = none ∧
    (keyed mRunLocked 3 false).fget SYS_KEY_POS = 3 ∧ (keyed mStop 2 false).flag SYS_KEY_KEYFAULT = false ∧
    (keyed mStop 2 false).fget SYS_KEY_POS = 2 ∧ (keyed mStop 2 false).mode = mStop ∧ (keyed mStop 2 false).execBarred = false ∧
    (1, Instr.stopRequest) ∈ [(1, Instr.stopRequest), (2, .programRequest), (3, .runRequest), (4, .serviceRequest), (5, .dormantRequest),
      (6, .restartRequest false)] := by decide +kernel

theorem test_run_request : after (exec .runRequest (keyed mStop 2 false)) (fun t =>
    (t.ctl.change.map ModeChange.target) == some mRun && t.fget SYS_REQSTAT_REQ == 3) = true := by decide +kernel

/-- LockstepAndScrubbing: STOP and HANDOVER, the lowest and highest of the modes; a steward fault 10 ms ago and less. -/
def faulted (fab : Nat) : State :=
  { inMode mRun with fab := fab, ctl := { Control.reset with held := true, stewardFault := some { lane := 7, cause := rcLockstep, at_ := 0 } } }

theorem witness_lockstep : (inMode mStop).compared 0 = true ∧ mStop ≤ (inMode mStop).mode ∧ (inMode mStop).mode ≤ mHandover ∧
    (inMode mHandover).compared 15 = true ∧ (inMode mHandover).mode ≤ mHandover ∧ (inMode mStop).flag INT_LSINFO_VALID = false ∧
    (inMode mStop).ctl.held = false ∧ (inMode mStop).mode ≠ mDormant ∧
    (faulted 5000000).ctl.stewardFault = some { lane := 7, cause := rcLockstep, at_ := 0 } ∧ 0 + 5000000 ≤ (faulted 5000000).fab ∧
    rcLockstep < 8 ∧ (faulted 4999999).fab < 0 + 5000000 := by decide +kernel

theorem test_lockstep : after (exec (.lockstepMismatch 15 6) (inMode mRun)) (fun t =>
    t.mode == mSafe && t.fget INT_LS_LSFAIL == 0x8000 && t.ctl.faultN) = true := by decide +kernel

/-- LockstepAndScrubbing: the first and the last but one granule of a pass, a single error, four errors that are not correctable, the last granules. -/
theorem witness_scrub : (inMode mStop).ctl.held = false ∧ (inMode mStop).mode ≠ mDormant ∧ scrubKey 0 ∉ (inMode mStop).integ ∧
    (inMode mStop).int.scrubAt + 1 < 1703936 ∧ selDecode (selSyndrome [0]) = some [0] ∧ selDecode (selSyndrome [279]) = some [279] ∧
    selDecode (selSyndrome [0, 1, 2]) = none ∧ keyDram 0 / 32 + 67108863 ∉ (inMode mStop).integ ∧
    keyKeep 0 / 32 + 16383 ∉ (inMode mStop).integ := by decide +kernel

/-- R438's decoder corrects any two errors, here at both ends of the word and beside the parity bit. -/
theorem test_two_errors : selDecode (selSyndrome [0, 278]) = some [0, 278] ∧ selDecode (selSyndrome [5, 279]) = some [5, 279] := by
  decide +kernel

/-- WatchdogSlots: a class slot and a steward slot with an open window, a period that has ended with and without a check-in, a thread
that was restarted 10 ms ago. -/
def slotOf (n period fab : Nat) (x : WdgSlot) : State :=
  let s := { ((((weave (regsOf [(1, BitVec.ofNat 32 (n * 2 ^ 16 + 0x1234))])).setFlag (WDG_SLOT_CFG_EN n) true).setFlag
    (WDG_SLOT_STAT_ARMED n) true).fput (WDG_SLOT_P_PER n) period) with fab := fab }
  s.setWslot n { x with expected := 0x1234 }

theorem witness_check_in : Ready (slotOf 23 2 1000000 WdgSlot.reset) 0 ∧ (23 : Fin 32).val < 24 ∧
    ((slotOf 23 2 1000000 WdgSlot.reset).wslot 23).seen = false ∧ (slotOf 23 2 1000000 WdgSlot.reset).wdgArmed 23 = true ∧
    (slotOf 23 2 1000000 WdgSlot.reset).wdgClosed 23 = false ∧ (slotOf 23 2 1000000 WdgSlot.reset).wdgEnabled 23 = true ∧
    ((slotOf 23 2 1000000 WdgSlot.reset).wslot 23).start + (slotOf 23 2 1000000 WdgSlot.reset).wdgPeriod 23 *
      (slotOf 23 2 1000000 WdgSlot.reset).fget (WDG_SLOT_CFG_OPEN_PCT 23) / 100 ≤ (slotOf 23 2 1000000 WdgSlot.reset).wtick ∧
    (slotOf 23 2 1000000 WdgSlot.reset).fget (WDG_SLOT_CFG_CLASS 23) = ((slotOf 23 2 1000000 WdgSlot.reset).cfg 0).cls ∧
    (((slotOf 23 2 1000000 WdgSlot.reset).strand 0).w.get 1).toNat =
      23 * 2 ^ 16 + ((slotOf 23 2 1000000 WdgSlot.reset).wslot 23).expected.toNat := by unfold Ready; decide +kernel

theorem witness_steward_slot : (slotOf 31 1000 0 WdgSlot.reset).ctl.held = false ∧ (slotOf 31 1000 0 WdgSlot.reset).mode ≠ mDormant ∧
    24 ≤ (31 : Fin 32).val ∧ ((slotOf 31 1000 0 WdgSlot.reset).wslot 31).expected = 0x1234 ∧
    (slotOf 31 1000 499999 WdgSlot.reset).wdgClosed 31 = false ∧ (slotOf 31 1000 499999 WdgSlot.reset).wdgEnabled 31 = true ∧
    ((slotOf 31 1000 499999 WdgSlot.reset).wslot 31).start + (slotOf 31 1000 499999 WdgSlot.reset).wdgPeriod 31 *
      (slotOf 31 1000 499999 WdgSlot.reset).fget (WDG_SLOT_CFG_OPEN_PCT 31) / 100 ≤ (slotOf 31 1000 499999 WdgSlot.reset).wtick ∧
    (slotOf 31 1000 0 WdgSlot.reset).wdgArmed 31 = true ∧
    (slotOf 31 1000 0 WdgSlot.reset).flag (WDG_SLOT_STAT_INRUN 31) = false ∧ (slotOf 31 1000 500000 WdgSlot.reset).wdgClosed 31 = true ∧
    ((slotOf 31 1000 500000 WdgSlot.reset).wslot 31).seen = false ∧
    ((slotOf 31 1000 500000 { WdgSlot.reset with seen := true }).wslot 31).seen = true ∧ (24 : Fin 32).val < 25 ∧
    24 < (25 : Fin 32).val := by decide +kernel

theorem witness_thread : ((slotOf 31 1000 5000000 { WdgSlot.reset with thread := some 0 }).wslot 31).thread = some 0 ∧
    0 + 10000 ≤ (slotOf 31 1000 5000000 WdgSlot.reset).wtick ∧
    ((inMode mRun).fput WDG_CFG_ESC_N 1).rst24 < ((inMode mRun).fput WDG_CFG_ESC_N 1).fget WDG_CFG_ESC_N ∧
    ((inMode mRun).fput WDG_CFG_ESC_N 0).fget WDG_CFG_ESC_N ≤ (inMode mRun).rst24 := by decide +kernel

/-- RetainStore: each command with one row or a page of a partition, a blank and a written row, coded and raw rows, a refusal. -/
def retCmd (part row len : Nat) : State :=
  ((((inMode mService).fput RET_CMD_ADDR_PART part).fput RET_CMD_ADDR_ROW row).fput RET_CMD_LEN_LEN len).rset RET_CMD_BUF 0x10000000

theorem witness_ret_commands : (retCmd 4 0x7FFF 1).ctl.held = false ∧ (retCmd 4 0x7FFF 1).ctl.pfail = false ∧
    (retCmd 4 0x7FFF 1).store.running = [] ∧ (retCmd 4 0x7FFF 1).store.waiting = [] ∧ (retCmd 4 0x7FFF 1).store.cmd = none ∧
    (retCmd 4 0x7FFF 1).flag RET_CMD_STAT_ACTIVE = false ∧ (retCmd 4 0x7FFF 2).cmdStatus 0 ≠ scOk ∧
    (∀ op, op < 5 → (retCmd 4 0x7FFF 1).cmdStatus op = scOk) ∧ (retCmd 4 0x7FFF 1).fget RET_CMD_LEN_LEN = 1 ∧
    (retCmd 4 0x7FFF 1).rowInteg (14 * 0x8000 + 0x7FFF) = false ∧ (retCmd 4 0x7FFF 1).rowBlank (14 * 0x8000 + 0x7FFF) = true ∧
    ((retCmd 4 0 1).mset (rowMark (14 * 0x8000)) 0).rowBlank (14 * 0x8000) = false ∧ rowCoded (14 * 0x8000 + 0x7FFF) = false ∧
    rowCoded 0 = true ∧ (retCmd 4 0x7FF0 16).cmdStatus 1 = scOk ∧ (retCmd 4 0x7FF0 16).fget RET_CMD_LEN_LEN = 16 ∧
    ((retCmd 4 0x7FF0 16).partRow0 + (retCmd 4 0x7FF0 16).fget RET_CMD_ADDR_ROW) % 16 = 0 := by decide +kernel

theorem test_ret_read : after (exec .readCommand (retCmd 4 0 1)) (fun t =>
    t.mgetN 0x10000000 32 == List.replicate 32 0xFF && t.fget RET_CMD_STAT_DONE == 1) = true := by decide +kernel

theorem test_ret_range : after (exec .pageErase (retCmd 6 0 1)) (fun t => t.fget RET_CMD_STAT_STATUS == scRange) = true := by decide +kernel

/-- RetainStore: each operation in the last page of the last bank. -/
def operating (op : StoreOp) : State :=
  { inMode mService with store := { Store.reset with running := [{ rank := 5, page := 32767, op := op, tag := .none }] } }

theorem witness_operations : (operating .erase).ctl.held = false ∧ (operating .erase).ctl.pfail = false ∧
    (operating (.row 15 [0])).store.running = [{ rank := 5, page := 32767, op := .row 15 [0], tag := .none }] ∧
    (operating (.bits 0 [0])).store.waiting = [] ∧ (operating .erase).store.cmd = none ∧ 32767 < 32768 ∧ 32767 / 2048 = 15 := by
  decide +kernel

theorem test_bit_program : after (exec (.storeOperationEnd 15) ((operating (.bits 0 [0x0F])).mset (rowKey (16 * 32767)) 0x3C)) (fun t =>
    t.mget (rowKey (16 * 32767)) == 0x0C && t.store.running == []) = true := by decide +kernel

/-- RingAndConsolidation: 14 dirty granules, none; a checkpoint at its last page, none. -/
def dirtyState (n : Nat) : State := { inMode mRun with store := { Store.reset with dirty := (List.range n).map (fun i => (256 + i, 0)) } }
def ckptState (next : Nat) : State := { inMode mRun with store := { Store.reset with ckpt := some { s := 0, copy := [], next := next } } }

theorem witness_ring : (dirtyState 14).live = true ∧ (dirtyState 14).ctl.pfail = false ∧ (dirtyState 14).store.running = [] ∧
    (dirtyState 14).store.waiting = [] ∧ 14 ≤ (dirtyState 14).store.dirty.length ∧ (dirtyState 14).store.journalAt = none ∧
    (dirtyState 0).store.dirty = [] ∧ (ckptState 2303).store.ckpt = some { s := 0, copy := [], next := 2303 } ∧
    (ckptState 2303).store.ckptAt = none ∧ (dirtyState 0).store.ckpt = none ∧ (ckptState 0).live = true := by decide +kernel

theorem test_trickle : after (exec .trickle (dirtyState 15)) (fun t => t.store.dirty == [(270, 0)] && t.store.seq == 1) = true := by
  decide +kernel

/-- CountersAndRecorder: increments up to the room of a counter, and beyond. -/
theorem witness_counters_room : (inMode mRun).ctl.held = false ∧ ¬ ((inMode mRun).qsc 255).room < (0xFFFF : BitVec 16).toNat ∧
    ({ Qs.reset with erases := (200000, 200000), tally := 4095 } : Qs).room < (2 : BitVec 16).toNat := by decide +kernel

theorem test_increment : after (exec (.qsIncrement 7 3) (inMode mRun)) (fun t => (t.qsc 7).value == 3) = true := by decide +kernel

/-- CountersAndRecorder: an event that joins the open record, one that opens a record, one that is written; a record that is open for 60 s. -/
def event (code : BitVec 16) : Event := { code := code, elem := 2, payload := [], tick := 0 }
def openRec : OpenRecord := { seq := 1, code := 0x0201, elem := 2, payload := [], tick := 0, count := 0xFFFD, openedAt := 0 }
def recording (code : BitVec 16) (o : Option OpenRecord) : State :=
  { inMode mRun with evq := [event code], recorder := { Recorder.reset with openRec := o } }

theorem witness_recorder : (recording 0x0201 none).ctl.held = false ∧ (recording 0x0201 none).ctl.pfail = false ∧
    (recording 0x0201 none).store.running = [] ∧ (recording 0x0201 none).store.waiting = [] ∧ (recording 0x0201 none).recorder.lost = 0 ∧
    (recording 0x0201 none).recorder.ff < 1023 ∧ (recording 0x0201 (some openRec)).evq = event 0x0201 :: [] ∧
    (recording 0x0201 (some openRec)).recorder.openRec = some openRec ∧ openRec.code = (event 0x0201).code ∧
    openRec.elem = (event 0x0201).elem ∧ openRec.count + 1 < 0xFFFF ∧ (recording 0x0201 none).recorder.openRec = none ∧
    repeatCounted (event 0x0201).code.toNat = true ∧ repeatCounted (event 0x0101).code.toNat = false ∧
    0 + 60 * 500000000 ≤ ({ recording 0x0201 (some openRec) with fab := 30000000000 }).fab ∧
    (recording 0x0201 (some openRec)).fab < 0 + 60 * 500000000 := by decide +kernel

theorem test_repeat : after (exec .eventIntake (recording 0x0201 (some openRec))) (fun t =>
    (t.recorder.openRec.map OpenRecord.count) == some 0xFFFE && t.evq == []) = true := by decide +kernel

/-- RingAndConsolidation: PFAIL before and after its rise, with nothing left to write. -/
def failing : State := { inMode mRun with ctl := { Control.reset with pfail := true }, store := { Store.reset with slot := 24575 } }

theorem witness_flush : (inMode mRun).ctl.held = false ∧ (inMode mRun).store.dirty = [] ∧ (inMode mRun).ctl.pfail = false ∧
    failing.ctl.pfail = true ∧ failing.ctl.held = false ∧ failing.beamRuns = false ∧ failing.store.running = [] ∧
    failing.store.waiting = [] ∧ failing.recorder.openRec = none ∧ failing.store.slot < ringSlots := by decide +kernel

/-- RingAndConsolidation: SERVICE with an empty ring, and another mode. -/
theorem witness_consolidation : (inMode mService).ctl.held = false ∧ (inMode mService).mode = mService ∧ (inMode mStop).mode ≠ mService ∧
    (inMode mService).consolidate.pages = [] := by decide +kernel

/-! ## Update and online edits: witnesses and single steps -/

/-- The first 112 bytes of a manifest: magic, version 1, KIND, product, no UID, SVN 0, LENGTH 8,192. -/
def hdr (kind : Nat) : List Byte :=
  leBytes 4 0x4D55524B ++ leBytes 2 1 ++ leBytes 1 kind ++ leBytes 1 0 ++ leBytes 2 0x4B52 ++ leBytes 2 0x3216 ++ leBytes 8 0 ++
    leBytes 4 8192 ++ List.replicate 88 0

theorem fieldAt_hdr (kind i n : Nat) (b : List Byte) (h : i + n ≤ 112) :
    mfField (slice (hdr kind ++ b) 0 4096) i n = mfField (hdr kind) i n := by
  unfold mfField fieldAt
  rw [slice_slice _ (by omega), slice_append_left _ _ (by simpa [hdr] using h)]

theorem mfWf_hdr (b : List Byte) : mfWf (slice (hdr 1 ++ b) 0 4096) = true := by
  unfold mfWf
  simp only [fieldAt_hdr _ _ _ _ (show 0 + 4 ≤ 112 by decide), fieldAt_hdr _ _ _ _ (show 4 + 2 ≤ 112 by decide),
    fieldAt_hdr _ _ _ _ (show 6 + 1 ≤ 112 by decide), fieldAt_hdr _ _ _ _ (show 20 + 4 ≤ 112 by decide)]
  decide

theorem mfAuth_hdr (s : State) (v : SigVerdict) (b : List Byte) (hs : s.minSvn = 0) :
    s.mfAuth (slice (hdr 1 ++ b) 0 4096) v = s.sigOk v := by
  unfold State.mfAuth
  simp only [fieldAt_hdr _ _ _ _ (show 13 + 1 ≤ 112 by decide), fieldAt_hdr _ _ _ _ (show 8 + 2 ≤ 112 by decide),
    fieldAt_hdr _ _ _ _ (show 10 + 2 ≤ 112 by decide), fieldAt_hdr _ _ _ _ (show 12 + 1 ≤ 112 by decide), hs]
  simp [Binding.ok, show mfField (hdr 1) 13 1 = 0 by decide, show mfField (hdr 1) 8 2 = 0x4B52 by decide,
    show mfField (hdr 1) 10 2 = 0x3216 by decide, show mfField (hdr 1) 12 1 = 0 by decide]

/-- Deliveries: a source that may not deliver, a header that is no manifest, one that is not authentic, one that is accepted. -/
theorem witness_delivery_start : (inMode mStop).ctl.held = false ∧ (inMode mStop).flag UPD_STAT_RECOVERY = false ∧
    (inMode mStop).sourceOk .member = false ∧ (inMode mStop).sourceOk .session = true ∧ mfWf (slice [] 0 4096) = false ∧
    (inMode mStop).slotState (inMode mStop).inactiveSlot ≠ slTrial ∧ (inMode mStop).slotState (inMode mStop).inactiveSlot ≠ slStarted ∧
    (inMode mStop).upd.trial = none ∧ (inMode mStop).upd.dlv = none := by decide +kernel

theorem witness_delivery_verdict : mfWf (slice (hdr 1 ++ []) 0 4096) = true ∧
    (inMode mStop).mfAuth (slice (hdr 1 ++ []) 0 4096) { vendor := false, owner := true } = false ∧
    (inMode mStop).mfAuth (slice (hdr 1 ++ []) 0 4096) { vendor := true, owner := false } = true :=
  ⟨mfWf_hdr [], mfAuth_hdr _ _ [] (by decide), mfAuth_hdr _ _ [] (by decide)⟩

theorem test_delivery_perm : after (exec (.deliveryStart .member (hdr 1) { vendor := true, owner := true }) (inMode mStop)) (fun t =>
    t.fget UPD_STAT_LASTST == scPerm && t.upd.dlv == none) = true := by decide +kernel

/-- Deliveries: an open delivery of two chunks, one of them received; chunks 1 and 2. -/
def delivery0 : Delivery := { page := 0, seq := 1, length := 8192, count := 2 }
def delivering : State := { inMode mStop with upd := { Upd.reset with dlv := some delivery0 } }

theorem witness_chunks : (inMode mStop).upd.dlv = none ∧ delivering.ctl.held = false ∧ delivering.upd.dlv = some delivery0 ∧
    delivering.sourceOk .member = false ∧ delivering.sourceOk .session = true ∧ delivery0.count ≤ (2 : BitVec 12).toNat ∧
    (1 : BitVec 12).toNat < delivery0.count ∧ delivering.chunkGot delivery0 1 = false ∧
    (delivering.mset (rowKey (chunkRow 0 1)) 0xFD).chunkGot delivery0 1 = true := by decide +kernel

theorem test_chunk_range : after (exec (.chunk .session 2 [] true) delivering) (fun t => t.fget UPD_STAT_LASTST == scRange) = true := by
  decide +kernel

/-- ActivationAndTrial: refused in RUN-LOCKED and without a complete slot; a copy of one granule that is written, for the last granule. -/
def activating : State :=
  { inMode mRun with upd := { Upd.reset with act := some { cold := false, copy := some [(16383, [1])], trialAt := none, handover := false } } }

theorem witness_activation : (inMode mStop).activateStatus { vendor := true, owner := true } ≠ scOk ∧
    activating.upd.act = some { cold := false, copy := some [(16383, [1])], trialAt := none, handover := false } ∧
    256 ≤ 16383 ∧ 16383 < 16384 ∧ (inMode mRunLocked).mode = mRunLocked ∧ (inMode mStop).upd.act = none ∧ activating.ctl.held = false ∧
    modeExecutes (inMode mRun).mode = true ∧ modeExecutes (inMode mStop).mode = false ∧ (inMode mStop).standbyReady = false := by
  decide +kernel

/-- An inactive slot that is complete, with a KIND 1 image. -/
def complete (kind : Nat) (m : Nat) : State :=
  ((inMode m).msetN (keyFlash 1 0x101000) (hdr kind)).msetN (keyFlash 1 0x100000) [0, 0]

theorem complete_fields : let h := (complete 1 mStop).slotHeader (complete 1 mStop).inactiveSlot
    mfField h 13 1 = 0 ∧ mfField h 8 2 = 0x4B52 ∧ mfField h 10 2 = 0x3216 ∧ mfField h 12 1 = 0 ∧ mfField h 7 1 = 0 ∧
    (complete 1 mStop).minSvn = 0 := by decide +kernel

theorem witness_accepted_activation : (complete 1 mStop).activateStatus { vendor := true, owner := true } = scOk := by
  obtain ⟨h13, h8, h10, h12, h7, hs⟩ := complete_fields
  have h : (complete 1 mStop).mfAuth ((complete 1 mStop).slotHeader (complete 1 mStop).inactiveSlot) { vendor := true, owner := true } = true := by
    unfold State.mfAuth
    dsimp only
    rw [h13, h8, h10, h12, hs]
    simp [Binding.ok, show (complete 1 mStop).sigOk { vendor := true, owner := true } = true by decide +kernel]
  unfold State.activateStatus
  dsimp only
  rw [h, h7]
  decide +kernel

/-- ActivationAndTrial: a trial whose window has ended, and one whose window has not; a fallback copy that is valid. -/
def onTrial (fab : Nat) : State :=
  { inMode mRun with fab := fab, upd := { Upd.reset with trial := some ⟨0, 60, false, none, false⟩ } }

theorem witness_trial : (onTrial 0).ctl.held = false ∧ (onTrial 0).store.running = [] ∧ (onTrial 0).upd.trial = some ⟨0, 60, false, none, false⟩ ∧
    (onTrial 0).ctl.booting = false ∧ 0 + 60 * 500000000 ≤ (onTrial 30000000000).fab ∧ (onTrial 29999999999).fab < 0 + 60 * 500000000 ∧
    ((onTrial 0).mset (rowKey (15 * 0x8000 + 16128) + 31) 0x5A).copyValid = true ∧ (inMode mRun).upd.trial = none := by decide +kernel

theorem test_window_open : after (exec .trialWindowEnd (onTrial 29999999999)) (fun t => t.upd.trial.isSome) = true := by decide +kernel

/-- KeysAndPrivilegedUpdates: no key, four keys, a key in force and a revoked one. -/
def owned (n : Nat) (revoked : BitVec 4) : State :=
  { inMode mService with upd := { Upd.reset with otp := { keys := List.replicate n [], revoked := revoked, steps := [] } } }

theorem witness_owner : (owned 0 0).ctl.held = false ∧ (owned 0 0).mode = mService ∧ (owned 0 0).fget SYS_KEY_POS = 0 ∧
    (owned 3 0).upd.otp.keys.length < 4 ∧ (owned 0 0).ownerInForce = none ∧ (owned 3 0).ownerInForce ≠ none ∧
    4 ≤ (owned 4 0).upd.otp.keys.length ∧ (owned 2 1).ownerInForce ≠ some 0 ∧ (0 : Fin 4).val < (owned 2 1).upd.otp.keys.length ∧
    (owned 3 0).upd.otp.keys.length ≤ (3 : Fin 4).val ∧ (inMode mStop).mode ≠ mService ∧ (keyed mService 1 false).fget SYS_KEY_POS ≠ 0 := by
  decide +kernel

theorem test_revoke : after (exec (.revoke 1 true) (owned 2 0)) (fun t => t.upd.otp.revoked == 2 && t.fget UPD_OWNER_INFORCE == 0) = true := by
  decide +kernel

/-- KeysAndPrivilegedUpdates: a complete image of KIND 3 and of KIND 4, an update that runs. -/
def updating : State := { complete 3 mService with upd := { Upd.reset with privKind := some 3 } }

theorem witness_privileged : (complete 3 mService).mode = mService ∧ (complete 3 mService).fget SYS_KEY_POS = 0 ∧
    (complete 3 mService).slotState (complete 3 mService).inactiveSlot = slComplete ∧ (complete 3 mService).upd.privKind = none ∧
    (complete 3 mService).manifest (complete 3 mService).inactiveSlot 6 1 = 3 ∧
    (complete 4 mService).manifest (complete 4 mService).inactiveSlot 6 1 = 4 ∧ updating.upd.privKind = some 3 ∧
    0 + 4096 < updating.manifest updating.inactiveSlot 20 4 ∧ 4095 + 4096 < updating.manifest updating.inactiveSlot 20 4 ∧
    updating.ctl.held = false := by decide +kernel

/-- RecoveryAndAttestation: an image of one segment whose hash its manifest holds; slot 0 free and in use; an image that does not fit. -/
def body : List Byte := List.replicate 4096 0
def recImage : List Byte := hdr 1 ++ (sha512 body ++ (List.replicate 3920 0 ++ body))

theorem hdr_length (kind : Nat) : (hdr kind).length = 112 := by simp [hdr]

theorem recImage_length : recImage.length = 8192 := by
  rw [recImage, List.length_append, List.length_append, List.length_append, hdr_length, sha512_length, List.length_replicate, body,
    List.length_replicate]

theorem witness_recovery_fit : mfWf (slice recImage 0 4096) = true ∧ mfField (slice recImage 0 4096) 6 1 = 1 ∧
    recImage.length = mfField (slice recImage 0 4096) 20 4 := by
  refine ⟨mfWf_hdr _, ?_, ?_⟩
  · exact (fieldAt_hdr _ _ _ _ (by decide)).trans (by decide)
  · exact recImage_length.trans ((fieldAt_hdr _ _ _ _ (by decide)).trans (by decide)).symm

theorem witness_recovery_segments : ∀ k, k < segCount 8192 →
    sha512 (slice recImage (4096 + k * 2 ^ 20) (segLen 8192 k)) = slice recImage (112 + 64 * k) 64 := by
  intro k hk
  have h0 : k = 0 := by have : segCount 8192 = 1 := by decide
                        omega
  subst h0
  have h1 : slice recImage (112 + 64 * 0) 64 = sha512 body := by
    rw [recImage, ← List.append_assoc]
    exact slice_middle _ _ _ (hdr_length 1) (sha512_length _)
  have h2 : slice recImage (4096 + 0 * 2 ^ 20) (segLen 8192 0) = body := by
    have e : recImage = (hdr 1 ++ (sha512 body ++ List.replicate 3920 0)) ++ body ++ [] := by
      rw [recImage, List.append_nil, List.append_assoc, List.append_assoc]
    rw [e]
    refine slice_middle _ _ _ ?_ ?_
    · rw [List.length_append, List.length_append, hdr_length, sha512_length, List.length_replicate]
      norm_num
    · rw [body, List.length_replicate]
      decide
  rw [h1, h2]

/-- Recovery at the position STOP, with the marks of slots 0 and 1. -/
def recovering (m0 m1 : Nat) : State :=
  (((inMode mLockout).setFlag UPD_STAT_RECOVERY true).markSlot 0 m0).markSlot 1 m1

theorem witness_recovery_state : (recovering mkFailed mkRetired).ctl.held = false ∧ (recovering mkFailed mkRetired).flag UPD_STAT_RECOVERY = true ∧
    (recovering mkFailed mkRetired).fget SYS_KEY_POS = 0 ∧ (recovering mkFailed mkRetired).store.running = [] ∧
    (recovering mkFailed mkRetired).slotState 0 = slFailed ∧ (recovering mkRetired mkFailed).slotState 0 ≠ slEmpty ∧
    (recovering mkRetired mkFailed).slotState 0 ≠ slFailed ∧ (recovering mkRetired mkFailed).slotState 1 = slFailed ∧
    (recovering mkRetired mkConfirmed).slotState 1 = slConfirmed ∧ (recovering mkFailed mkRetired).minSvn = 0 ∧
    ([] : List Byte).length ≠ 8192 := by decide +kernel

theorem witness_recovery_auth : (recovering mkFailed mkRetired).mfAuth (slice recImage 0 4096) { vendor := true, owner := false } = true ∧
    (recovering mkFailed mkRetired).mfAuth (slice recImage 0 4096) { vendor := false, owner := false } = false :=
  ⟨mfAuth_hdr _ _ _ (by decide), mfAuth_hdr _ _ _ (by decide)⟩

/-- RecoveryAndAttestation: the steward answers. -/
theorem witness_attestation : (inMode mStop).ctl.held = false := by decide

/-- EditPackages: modes that refuse and permit; a package that a check refuses, one that is accepted, with code for strand 0. -/
def editable : State := inMode mStop
def okPkg : EditPkg := { pkg0 with classes := 0, base := editable.configHash, code := [(0, [0xAB])] }

theorem witness_edit_modes : (inMode mRunLocked).editModeStatus false ≠ scOk ∧ editable.editModeStatus false = scOk ∧
    editable.editRefusal { pkg0 with vendorOk := false } = some (scAuth, 0x01, 0, 0) ∧ editable.red.partner = none ∧
    (inMode mRun).flag EDT_CFG_DRYPROOF = false := by decide +kernel

theorem witness_edit_accepted : editable.editRefusal okPkg = none ∧ okPkg.code = [(0, [0xAB])] ∧ editable.activeBank 0 < 2 := by
  refine ⟨?_, rfl, by decide⟩
  unfold State.editRefusal
  dsimp only
  repeat rw [if_neg (by decide +kernel)]

/-- EditCommitsAndTrials: a single module, a receiving unit and a proposing unit with a checked, proving or proved edit; swapped classes. -/
def staged (st : Nat) (e : EditSt) : State := { (inMode mStop).fput EDT_STAT_STATE st with edit := { e with pkg := some pkg0 } }

theorem witness_edit_commits : (staged edChecked EditSt.reset).edit.pkg = some pkg0 ∧ (staged edChecked EditSt.reset).fget EDT_STAT_STATE = edChecked ∧
    (staged edChecked EditSt.reset).edit.ownMark = false ∧ (staged edChecked EditSt.reset).role ≠ 2 ∧ (staged edChecked EditSt.reset).role ≠ 1 ∧
    (staged edChecked EditSt.reset).mode = mStop ∧ (staged edChecked EditSt.reset).red.partner = none ∧
    (staged edChecked EditSt.reset).flag MEL_STAT_FORMED = false ∧
    (staged edChecked EditSt.reset).commitCycle ((staged edChecked EditSt.reset).cls 0).cyc.toNat < 2 ^ 64 ∧ pkg0.seq = 1 ∧
    edChecked ≠ edSwapping ∧ edChecked ≠ edReverting ∧ (staged edProved { EditSt.reset with ownMark := true }).edit.ownMark = true ∧
    (staged edProved EditSt.reset).fget EDT_STAT_STATE = edProved ∧ (staged edProving EditSt.reset).fget EDT_STAT_STATE = edProving ∧
    (staged edSwapping EditSt.reset).edit.swapped = [] ∧ (staged edSwapping { EditSt.reset with swapped := [0] }).edit.swapped ≠ [] := by
  decide +kernel

theorem witness_edit_late :
    let s := (staged edProved { EditSt.reset with ownMark := true }).rset64 EDT_NCYC_LO EDT_NCYC_HI 5
    let t := staged edProved { EditSt.reset with ownMark := true }
    ¬ (s.epoch + (s.editN : Int) * s.t0us - s.t0us ≤ (s.tbNat : Int)) ∧ s.edit.ownMark = true ∧ s.fget EDT_STAT_STATE = edProved ∧
    (t.epoch + (t.editN : Int) * t.t0us - t.t0us ≤ (t.tbNat : Int)) := by decide +kernel

/-- EditCommitsAndTrials: a dry pass that is due, a proof cycle that is too long, the last acknowledgement of a swap and an earlier one. -/
theorem witness_abandons : ((running { c0 with shadow := .dry } 2000).cls 0).shadow = .dry ∧
    ((running { c0 with shadow := .dry } 2000).cls 0).t0.toNat + (running { c0 with shadow := .dry } 2000).period 0 ≤
      (running { c0 with shadow := .dry } 2000).tbNat + 10 ∧ ((running { c0 with shadow := .proof } 0).cls 0).shadow = .proof ∧
    500 * (running c0 0).period 0 < ({ running c0 0 with fab := 1000000 }).fab - ((running c0 0).proofOf 0).began := by decide +kernel

def swapping (acks : List Nat) : State :=
  staged edSwapping { EditSt.reset with swapped := [0], first := [0], acks := acks }

theorem witness_swaps : (swapping []).edit.pkg = some pkg0 ∧ (0 : Fin 4).val ∉ (swapping []).edit.acks ∧ (swapping []).edState = edSwapping ∧
    (∀ j, j ∈ (swapping []).affected pkg0 → j ∈ (swapping []).edit.swapped ∧ j ∈ (swapping []).edit.first ∧ (j = 0 ∨ j ∈ (swapping []).edit.acks)) ∧
    (staged edArmed EditSt.reset).edState ≠ edSwapping := by decide +kernel

/-! ## The pair and the hedge: witnesses and single steps -/

/-- A paired unit of role `r` in mode `m` with state `st`, its links up, at clock `fab`. -/
def pairUnit (m r st fab : Nat) : State :=
  { (((((inMode m).setFlag RED_CFG_PAIRED true).setFlag RED_STAT_ML4_UP true).setFlag RED_STAT_ML5_UP true).fput RED_STAT_ROLE r).fput
      RED_STAT_STATE st with fab := fab, red := { Red.reset with partner := some 2 } }

/-- BatonAndRoles: BATON_IN high on a standby that is READY and on a primary; a unit that waits for its role; agreement and its lack. -/
def withBaton (s : State) : State := s.setFlag RED_STAT_BATON_IN true
def roleless (st fab : Nat) : State :=
  { pairUnit mStop 0 st fab with red := { Red.reset with waitRole := some 0 } }
def disagreeing (fab : Nat) : State := { pairUnit mRun 1 stAlone fab with red := { Red.reset with partner := some 2, agrees := false } }

theorem witness_baton : (withBaton (pairUnit mTrack 2 stReady 0)).ctl.held = false ∧
    (withBaton (pairUnit mTrack 2 stReady 0)).flag RED_STAT_BATON_IN = true ∧ (withBaton (pairUnit mRun 1 stAlone 0)).standsBy = false ∧
    (withBaton (pairUnit mTrack 2 stReady 0)).standsBy = true ∧ (withBaton (pairUnit mTrack 2 stReady 0)).redState = stReady ∧
    (withBaton (pairUnit mTrack 2 stReady 0)).flag RED_STAT_BATONFLT = false ∧
    (withBaton (pairUnit mTrack 2 stReady 0)).flag MEL_CFG_HEDGE = false ∧ (roleless stWaiting 0).flag RED_STAT_BATON_IN = false ∧
    (roleless stWaiting 0).red.waitRole = some 0 ∧ (roleless stWaiting 0).redState ≠ stRefused ∧
    0 + 3 * 500000000 ≤ (roleless stWaiting 1500000000).fab ∧ (roleless stWaiting 1499999999).fab < 0 + 3 * 500000000 ∧
    (withBaton (pairUnit mRun 1 stAlone 100000)).live = true ∧ (withBaton (pairUnit mRun 1 stAlone 100000)).role = 1 ∧
    (withBaton (pairUnit mRun 1 stAlone 100000)).mode ≠ mHandover := by decide +kernel

theorem witness_yield : let s := withBaton (pairUnit mRun 1 stAlone 100000)
    max s.red.batonAt s.red.roleAt + (if s.preferred then 200 else 100) * 500 ≤ s.fab := by
  dsimp only
  split <;> decide

theorem witness_baton_fault : (disagreeing 5000000).pairLive = true ∧ (disagreeing 5000000).red.agrees = false ∧
    (disagreeing 5000000).flag RED_STAT_BATONFLT = false ∧ (disagreeing 5000000).red.agreeAt + 5000000 ≤ (disagreeing 5000000).fab ∧
    (pairUnit mRun 1 stAlone 5000000000).red.agrees = true ∧
    ((pairUnit mRun 1 stAlone 5000000000).setFlag RED_STAT_BATONFLT true).flag RED_STAT_BATONFLT = true ∧
    (pairUnit mRun 1 stAlone 5000000000).red.agreeAt + 5000000000 ≤ (pairUnit mRun 1 stAlone 5000000000).fab := by decide +kernel

/-- HeartbeatsAndHandovers: heartbeats that are due, a witness port that is up, a link that carries one, 150 µs of silence. -/
def witnessing : State := ((pairUnit mRun 1 stAlone 25000).fput RED_WITNESS_PORTS 8).setFlag (ETH_PSTAT_LINK 3) true

theorem witness_heartbeats : (pairUnit mRun 1 stAlone 25000).pairLive = true ∧ (pairUnit mRun 1 stAlone 25000).pairLinks = true ∧
    (pairUnit mRun 1 stAlone 25000).red.sentAt + 25000 ≤ (pairUnit mRun 1 stAlone 25000).fab ∧ witnessing.live = true ∧
    witnessing.flag RED_CFG_PAIRED = true ∧ bitAt (witnessing.fget RED_WITNESS_PORTS) 3 = true ∧ witnessing.linkUp 3 = true ∧
    tget 0 witnessing.red.sentWitness 3 + 25000 ≤ witnessing.fab ∧ (pairUnit mRun 1 stAlone 0).linkML4 = true ∧
    (pairUnit mRun 1 stAlone 0).linkML5 = true := by decide +kernel

theorem witness_silence : (pairUnit mTrack 2 stReady 75000).pairLive = true ∧ (pairUnit mTrack 2 stReady 75000).witnessOk = false ∧
    (pairUnit mTrack 2 stReady 75000).red.beatAt + 75000 ≤ (pairUnit mTrack 2 stReady 75000).fab ∧
    (pairUnit mTrack 2 stReady 75000).flag MEL_CFG_HEDGE = false ∧ (pairUnit mTrack 2 stReady 75000).standsBy = true ∧
    (pairUnit mTrack 2 stReady 75000).redState = stReady ∧ (pairUnit mTrack 2 stAligning 75000).redState ≠ stReady ∧
    (pairUnit mTrack 2 stAligning 75000).redState ≠ stHandoverOut ∧ (pairUnit mTrack 2 stAligning 75000).standsBy = true ∧
    (pairUnit mTrack 2 stAligning 75000).flag RED_STAT_SPLIT = false ∧ (pairUnit mRun 1 stPrimary 75000).role = 1 ∧
    (pairUnit mRun 1 stPrimary 75000).mode ≠ mHandover := by decide +kernel

theorem test_silence : after (exec .heartbeatTimeout (pairUnit mTrack 2 stReady 75000)) (fun t => t.role == 1) = true ∧
    after (exec .heartbeatTimeout (pairUnit mTrack 2 stAligning 75000)) (fun t => t.mode == mStop) = true := by decide +kernel

/-- MirrorSets: a set in the mirror buffer before and after its copy; a complete set and an incomplete one; a standby and a primary. -/
def mirrorTx0 (copied : Bool) : MirrorTx := { set := set0, commitAt := 0, copyEnd := 5, copied := copied, sendAt := 0, sendEnd := 9, ended := false }
def mirroring (m r st : Nat) (copied : Bool) : State :=
  { (pairUnit m r st 5).setMirrorTx 0 (mirrorTx0 copied) with tb := BitVec.ofNat 64 1000 }

theorem witness_mirror : (mirroring mRun 1 stPrimary false).mirrorTx 0 = some (mirrorTx0 false) ∧
    (mirrorTx0 false).copied = false ∧ (mirrorTx0 false).copyEnd ≤ (mirroring mRun 1 stPrimary false).fab ∧
    (mirrorTx0 false).ended = false ∧
    100 * (mirrorTx0 false).commitAt + (mirroring mRun 1 stPrimary false).mirrorWindow ≤ 100 * (mirroring mRun 1 stPrimary false).tbNat ∧
    (mirrorTx0 false).set.ext = none ∧
    (mirroring mRun 1 stPrimary false).pairLive = true ∧ (mirroring mRun 1 stPrimary false).role = 1 ∧
    (mirrorTx0 false).set.cycle = 7 ∧ (pairUnit mTrack 2 stReady 0).pairLive = true ∧ (pairUnit mTrack 2 stReady 0).standsBy = true ∧
    setComplete set0 (trailerOf set0) = true ∧ setComplete set0 (trailerCut set0 1) = false ∧
    (pairUnit mTrack 2 stReady 0).role = 2 ∧ (pairUnit mTrack 2 stReady 0).mode = mTrack := by decide +kernel

theorem test_set_held : after (exec (.mirrorSetReceived set0 (trailerOf set0)) (pairUnit mTrack 2 stReady 0)) (fun t =>
    tget none t.red.held 0 == some set0) = true := by decide +kernel

/-- HeartbeatsAndHandovers: a primary whose standby is ready; RUN-LOCKED; a proposal three cycles ahead, its acknowledgement, its lapse. -/
def beacon0 : Beacon := { role := 2, ready := true, weight := 0, align := false }
def handing (m r st : Nat) (x : Option Handover) : State :=
  { pairUnit m r st 0 with red := { Red.reset with partner := some 2, beacon := some beacon0, handover := x } }
def handover0 (h : BitVec 64) : Handover := { h := h, trigger := 0, armed := false, incoming := false }

theorem witness_handover : (handing mRun 1 stPrimary none).handoverStatus = scOk ∧
    (handing mStop 1 stPrimary none).handoverStatus ≠ scOk ∧ (handing mRunLocked 1 stPrimary none).mode = mRunLocked ∧
    (handing mRun 1 stPrimary none).ctl.held = false ∧ (handing mTrack 2 stReady none).pairLive = true ∧
    ((handing mTrack 2 stReady none).cls 0).cyc.toNat + 1 < (3 : BitVec 64).toNat ∧ (handing mTrack 2 stReady none).role = 2 ∧
    (handing mTrack 2 stReady none).mode = mTrack ∧ (handing mTrack 2 stReady none).redState = stReady ∧
    (handing mRun 1 stPrimary (some (handover0 3))).red.handover = some (handover0 3) ∧ (handover0 3).armed = false ∧
    (handover0 3).h = 3 ∧ (handing mRun 1 stPrimary (some (handover0 1))).live = true ∧
    (handover0 1).h.toNat ≤ ((handing mRun 1 stPrimary (some (handover0 1))).cls 0).cyc.toNat + 1 ∧
    (handing mRun 1 stPrimary (some (handover0 1))).red.stopAfter = false ∧
    (handing mRun 1 stPrimary (some (handover0 1))).upd.act = none := by decide +kernel

/-- A state whose RED_PREF_UID is the unit's own UID. -/
def prefers (s : State) : State :=
  { s with regs := (List.range 4).foldl (fun t n => tput t (RED_PREF_UID n) (Config.uid.extractLsb' (32 * n) 32)) s.regs }

theorem prefers_rget (s : State) (n : Nat) (hn : n < 4) : (prefers s).rget (RED_PREF_UID n) = Config.uid.extractLsb' (32 * n) 32 := by
  unfold prefers State.rget
  simp only [List.range_succ, List.range_zero, List.nil_append, List.cons_append, List.foldl_cons, List.foldl_nil]
  rcases (show n = 0 ∨ n = 1 ∨ n = 2 ∨ n = 3 by omega) with rfl | rfl | rfl | rfl
  · rw [tget_tput_ne _ _ _ (by decide), tget_tput_ne _ _ _ (by decide), tget_tput_ne _ _ _ (by decide), tget_tput_self]
  · rw [tget_tput_ne _ _ _ (by decide), tget_tput_ne _ _ _ (by decide), tget_tput_self]
  · rw [tget_tput_ne _ _ _ (by decide), tget_tput_self]
  · rw [tget_tput_self]

theorem quarters (K u : Nat) (h : u < K * (K * (K * K))) :
    u % K + (u / K % K * K + (u / K / K % K * (K * K) + u / K / K / K % K * (K * (K * K)))) = u := by
  have hd : u / K / K / K % K = u / K / K / K := by
    apply Nat.mod_eq_of_lt
    exact Nat.div_lt_of_lt_mul (Nat.div_lt_of_lt_mul (Nat.div_lt_of_lt_mul h))
  have e0 := Nat.div_add_mod u K
  have e1 := Nat.div_add_mod (u / K) K
  have e2 := Nat.div_add_mod (u / K / K) K
  rw [hd]
  generalize u / K / K / K = d at *
  generalize u / K / K % K = r2 at *
  generalize u / K % K = r1 at *
  generalize u % K = r0 at *
  rw [← e2] at e1
  rw [← e1] at e0
  rw [← e0]
  simp only [Nat.mul_add]
  ac_rfl

theorem prefers_fget (s : State) (n : Nat) (hn : n < 4) :
    (prefers s).fget (RED_PREF_UID_UID n) = Config.uid.toNat / 2 ^ (32 * n) % 2 ^ 32 := by
  unfold State.fget
  rw [prefers_rget s n hn, BitVec.extractLsb'_toNat, Nat.shiftRight_eq_div_pow]
  unfold bitsAt
  rw [Nat.pow_zero, Nat.div_one, Nat.mod_mod]

theorem four_sum (f : Nat → Nat) : ((List.range 4).map f).sum = f 0 + (f 1 + (f 2 + f 3)) := rfl

theorem quarters32 (u : Nat) (h : u < 2 ^ 128) : u / 2 ^ (32 * 0) % 2 ^ 32 * 2 ^ (32 * 0) + (u / 2 ^ (32 * 1) % 2 ^ 32 * 2 ^ (32 * 1) +
    (u / 2 ^ (32 * 2) % 2 ^ 32 * 2 ^ (32 * 2) + u / 2 ^ (32 * 3) % 2 ^ 32 * 2 ^ (32 * 3))) = u := by
  have e : (2 : Nat) ^ 128 = 2 ^ 32 * (2 ^ 32 * (2 ^ 32 * 2 ^ 32)) := by
    rw [← Nat.pow_add, ← Nat.pow_add, ← Nat.pow_add]
  have e2 : (2 : Nat) ^ (32 * 2) = 2 ^ 32 * 2 ^ 32 := by rw [← Nat.pow_add]
  have e3 : (2 : Nat) ^ (32 * 3) = 2 ^ 32 * (2 ^ 32 * 2 ^ 32) := by rw [← Nat.pow_add, ← Nat.pow_add]
  rw [e] at h
  rw [e2, e3, Nat.mul_zero, Nat.mul_one, Nat.pow_zero, Nat.div_one, Nat.mul_one]
  clear e e2 e3
  generalize (2 : Nat) ^ 32 = K at *
  have q := quarters K u h
  rw [Nat.div_div_eq_div_mul, Nat.div_div_eq_div_mul, Nat.mul_assoc] at q
  exact q

theorem prefers_prefUid (s : State) : (prefers s).prefUid = Config.uid.toNat := by
  unfold State.prefUid
  rw [four_sum, prefers_fget s 0 (by decide), prefers_fget s 1 (by decide), prefers_fget s 2 (by decide), prefers_fget s 3 (by decide)]
  exact quarters32 _ Config.uid.isLt

/-- A preferred standby that has been READY for its dwell time; three takebacks within the hour. -/
def takingBack (n : Nat) (d : Bool) : State :=
  prefers { ((pairUnit mTrack 2 stReady 1000000000000).setFlag RED_CFG_AUTOTB true).fput RED_WITNESS_PORTS 0 with
    red := { Red.reset with partner := some 2, dwell := some 0, takebacks := List.replicate n 999999999999, deferred := d } }

theorem witness_takeback : (takingBack 0 false).takebackHolds = true ∧ (takingBack 0 false).red.deferred = false ∧
    (takingBack 2 false).takebacksHour < 3 ∧ 3 ≤ (takingBack 3 false).takebacksHour ∧ (takingBack 0 true).red.deferred = true ∧
    (handing mRun 1 stPrimary none).takebackHolds = false := by
  refine ⟨?_, by decide +kernel, by decide +kernel, by decide +kernel, by decide +kernel, ?_⟩
  · unfold State.takebackHolds
    rw [show (takingBack 0 false).preferred = true by
      unfold State.preferred takingBack
      rw [prefers_prefUid]
      exact beq_self_eq_true _]
    decide +kernel
  · have h : ((handing mRun 1 stPrimary none).mode == mTrack) = false := by decide +kernel
    simp [State.takebackHolds, h]

/-- HedgeMembers: a top master in STOP that may form and one whose FORM_S has passed; members below it; a failure. -/
def hedgeModule (index m fab : Nat) : State :=
  { ((((inMode m).setFlag MEL_CFG_HEDGE true).fput MEL_CFG_NMOD 2).fput MEL_CFG_INDEX index) with
      fab := fab, hedge := { Hedge.reset with step7At := some 0, offAt := some 0 } }

def formed (s : State) : State := s.setFlag MEL_STAT_FORMED true
def viewAll : HedgeView := { present := 3, ready := 3, linksUp := true, hashesEqual := true }

theorem witness_formation : (hedgeModule 0 mStop 0).ctl.held = false ∧ (hedgeModule 0 mStop 0).flag MEL_CFG_HEDGE = true ∧
    (hedgeModule 0 mStop 0).flag MEL_STAT_FORMED = false ∧ (hedgeModule 0 mStop 0).member = 0 ∧ (hedgeModule 0 mStop 0).mode = mStop ∧
    (hedgeModule 0 mStop 0).flag SYS_MODE_CFGFAULT = false ∧ (hedgeModule 0 mStop 0).formStatus viewAll = scOk ∧
    (hedgeModule 0 mStop 0).formStatus { viewAll with present := 1 } ≠ scOk ∧ (hedgeModule 0 mStop 0).hedge.step7At = some 0 ∧
    0 + (hedgeModule 0 mStop 0).fget MEL_FORM_FORM_S * 500000000 ≤ (hedgeModule 0 mStop 1000000000000).fab ∧
    (hedgeModule 1 mStop 0).member ≠ 0 ∧ modeSheds (hedgeModule 1 mStop 0).mode = true := by decide +kernel

theorem witness_formed : (formed (hedgeModule 1 mRun 500000)).flag MEL_STAT_FORMED = true ∧ (formed (hedgeModule 1 mRun 500000)).member ≠ 0 ∧
    modeSheds (formed (hedgeModule 1 mRun 500000)).mode = true := by decide +kernel

theorem witness_hedge_failure : mStop ≤ (formed (hedgeModule 1 mRun 500000)).mode ∧ (formed (hedgeModule 1 mRun 500000)).mode ≤ mHandover ∧
    (0 : Fin 16).val ≠ (formed (hedgeModule 1 mRun 500000)).member ∧ (formed (hedgeModule 1 mRun 500000)).hedge.offAt = some 0 ∧
    0 + 500000 ≤ (formed (hedgeModule 1 mRun 500000)).fab ∧ (hedgeModule 0 mRun 0).member = 0 ∧
    modeExecutes (hedgeModule 0 mRun 0).mode = true ∧ (hedgeModule 0 mRun 0).mode ≠ mHandover ∧ (hedgeModule 0 mRun 125000).live = true ∧
    (hedgeModule 0 mRun 125000).hedge.sentAt + 125000 ≤ (hedgeModule 0 mRun 125000).fab ∧ mStop ≤ (mRun : Nat) ∧ mRun ≤ mRunLocked ∧
    mRunLocked ≤ mRunLocked := by decide +kernel

def hedgeStandby : State := ((pairUnit mTrack 2 stReady 0).setFlag MEL_CFG_HEDGE true).fput MEL_CFG_INDEX 15

theorem witness_hedge_standby : hedgeStandby.live = true ∧ hedgeStandby.standsBy = true ∧ hedgeStandby.flag MEL_CFG_HEDGE = true ∧
    hedgeStandby.member ≠ 0 ∧ hedgeStandby.redState = stReady ∧ hedgeStandby.ctl.held = false := by decide +kernel

theorem test_fail : after (exec (.fail (some 0) 1) (formed (hedgeModule 1 mRun 0))) (fun t =>
    t.mode == mSafe && t.fget SYS_FAULT_EVCODE == 0x0A03) = true := by decide +kernel

/-- MelberLinks: a hedge port in each state, formed and not; links 4 and 5 of a pair; a partner that fits and one that does not. -/
def port (n st : Nat) : State := ((hedgeModule 1 mRun 0).setFlag (MEL_LINK_EN n) true).fput (MEL_LINK_STATE n) st

theorem witness_links_melber : (port 3 1).ctl.held = false ∧ (port 3 1).mode ≠ mPowerUp ∧ (port 3 1).mode ≠ mDormant ∧ (3 : Fin 6).val < 4 ∧
    (port 3 1).flag (MEL_LINK_EN 3) = true ∧ (port 3 1).fget (MEL_LINK_STATE 3) ≠ 2 ∧ (port 3 2).fget (MEL_LINK_STATE 3) = 2 ∧
    (port 3 2).flag MEL_STAT_FORMED = false ∧ (formed (port 3 2)).flag MEL_STAT_FORMED = true ∧ mStop ≤ (port 3 2).mode ∧
    (port 3 2).mode ≤ mHandover ∧ 4 ≤ (4 : Fin 6).val ∧ (inMode mStop).flag (pairFld 4) = false ∧ (inMode mStop).flag (pairFld 5) = false ∧
    (pairUnit mStop 0 stWaiting 0).flag (pairFld 4) = true ∧ ((inMode mStop).setFlag RED_CFG_PAIRED true).live = true ∧
    ((inMode mStop).setFlag RED_CFG_PAIRED true).flag RED_CFG_PAIRED = true ∧ (inMode mStop).red.partner = none ∧ (inMode mStop).role = 0 ∧
    (inMode mStop).mode ≠ mTrack := by decide +kernel

def unpaired : State := (inMode mStop).setFlag RED_CFG_PAIRED true
def partner0 (mlid : Word) : PartnerInfo :=
  { uid := 0, cfgHash := [], mlid := mlid, hwtype := BitVec.ofNat 16 (unpaired.fget SYS_ID_HWTYPE), paired := true, hedge := false, nmod := 0,
    primary := false }

theorem witness_partner : unpaired.pairStatus (partner0 0) = scOk ∧ unpaired.pairStatus (partner0 1) ≠ scOk := by
  constructor
  · unfold State.pairStatus
    have h : ((partner0 0).uid.toNat == unpaired.prefUid) = true := by decide +kernel
    rw [if_neg (by decide +kernel), h, Bool.or_true]
    decide +kernel
  · decide +kernel

/-- HedgeTraffic: a beat of another module, accesses that wait, the requests of another module at the last word of a buffer. -/
def beatMsg0 : BeatMsg := { cls := 0, beat := 63, owner := 16, view := [], forced := false }
def awaiting (i : Instr) : State :=
  let s := formed (hedgeModule 0 mRun 0)
  { s with strands := [(0, { x0 with run := .weaving, stall := some { on := .member, instr := i, released := false } })] }

theorem witness_member : (awaiting (.lw 0 1 (.base 1 0))).ctl.held = false ∧ (awaiting (.lw 0 1 (.base 1 0))).flag MEL_STAT_FORMED = true ∧
    beatMsg0.owner.toNat / 16 ≠ (awaiting (.lw 0 1 (.base 1 0))).member ∧ (awaiting (.lw 0 1 (.base 1 0))).waitsMember 0 false = true ∧
    (awaiting (.lw 0 1 (.base 1 0))).onTrial ((awaiting (.lw 0 1 (.base 1 0))).cfg 0).cls = false ∧
    bitAt ((awaiting (.lw 0 1 (.base 1 0))).fget TRAP_POL_POL) ((awaiting (.lw 0 1 (.base 1 0))).cfg 0).cls = false ∧
    (awaiting (.sc 0 1 2 3)).waitsMember 0 true = true ∧ (1 : Fin 16).val ≠ (awaiting (.sc 0 1 2 3)).member ∧
    (awaiting (.sc 0 1 2 3)).memberRefusal 0x119FFFFC 4 false = none ∧ (awaiting (.sc 0 1 2 3)).memberRefusal 0x119FFFFC 4 true = none ∧
    0x19FFFFC % 4 = 0 ∧ (16 * 1 + 0, 0x119FFFFC / 32) ∈ ({ awaiting (.sc 0 1 2 3) with remoteResv := [(16, 0x119FFFFC / 32)] }).remoteResv ∧
    (16 * 1 + 0, 0x119FFFFC / 32) ∉ (awaiting (.sc 0 1 2 3)).remoteResv := by decide +kernel

theorem test_member_store : after (exec (.memberAccessRequest 1 0 (.store 0x19FFFFC 4 0x01020304)) (awaiting (.sc 0 1 2 3))) (fun t =>
    t.mgetN 0x119FFFFC 4 == [4, 3, 2, 1]) = true := by decide +kernel

/-! ## The conditions under which the rules let a command act -/

/-- In none of the states of the witnesses is the die powered down; the resets of the witnesses are the first of their clock. -/
theorem witness_awake : (inMode mRun).mode ≠ mDormant ∧ (inMode mStop).mode ≠ mDormant ∧ (inMode mService).mode ≠ mDormant ∧
    State.reset.mode ≠ mDormant ∧ programming.mode ≠ mDormant ∧ sending.mode ≠ mDormant ∧ modeExecutes sending.mode = true ∧
    txBox.mode ≠ mDormant ∧ (piped []).mode ≠ mDormant ∧ (engine0 []).mode ≠ mDormant ∧ (retCmd 4 0 1).mode ≠ mDormant ∧
    (recording 0x0201 none).mode ≠ mDormant ∧ (recording 0x0201 none).mode ≠ mPowerUp ∧ delivering.mode ≠ mDormant ∧
    activating.mode ≠ mDormant ∧ (onTrial 0).mode ≠ mDormant ∧ (owned 0 0).mode ≠ mDormant ∧ updating.mode ≠ mDormant ∧
    (recovering mkFailed mkRetired).mode ≠ mDormant ∧ (handing mRun 1 stPrimary none).mode ≠ mDormant ∧
    (formed (hedgeModule 1 mRun 500000)).mode ≠ mDormant ∧ (awaiting (.sc 0 1 2 3)).mode ≠ mDormant := by decide +kernel

theorem witness_fresh_clock : FreshClock (pinLow 5000000) ∧ FreshClock (faulted 5000000) ∧ FreshClock (onTrial 0) ∧
    FreshClock (recovering mkFailed mkRetired) ∧ FreshClock (slotOf 31 1000 5000000 { WdgSlot.reset with thread := some 0 }) :=
  ⟨nofun, nofun, nofun, nofun, nofun⟩

/-- EthernetSendAndQueues: a port whose queued frame is on the bus. SignalEngineSamples: bits that complete a sample, and that do not.
SignalEngineJobs: a descriptor that reads. -/
theorem witness_queue_on_bus : (({ posting 12 with canPorts := [(0, { CanPort.reset with queueOnBus := true })] }).canPort 0).queueOnBus = true ∧
    ({ posting 12 with canPorts := [(0, { CanPort.reset with queueOnBus := true })] }).postStatus 12 1 = scOk := by decide +kernel

theorem witness_bits_of_samples : (preDecimate { Uc.reset with mod := List.replicate 16 true, modCnt := 4 } [true]).2 = [0x7FFFFFFF] ∧
    (preDecimate Uc.reset [true, true]).2 = [] ∧ Uc.reset.modCnt < 5 ∧ ucTc ((piped []).ucMode 15) = false ∧
    (∀ j, j < 32 → (jobState 0x40).integ.contains
      (((jobState 0x40).dkey 0 ((((jobState 0x40).strand 0).w.get 1).toNat - 0x80000) + j) / 32) = false) := by
  refine ⟨by decide +kernel, by decide, by decide, by decide, fun j _ => rfl⟩

/-- OutputChannels: fades of an output channel, and a brownout with a command that waits. LockstepAndScrubbing: the cause of a reset. -/
theorem witness_fade_modes : ucOutput (((fading true).fput (UC_MODE_MODE 0) 0x38).ucMode 0) = true ∧
    (((fading true).fput (UC_MODE_MODE 0) 0x38).uc 0).fade = some ⟨0, 1000, true, 4000000⟩ ∧
    ((ucIn 0x3A { Uc.reset with cmdNext := some (5, false) }).uc 15).cmdNext = some (5, false) ∧
    (ucIn 0x30 Uc.reset).flag (UC_STAT_ONLINE 15) = true ∧ (ucIn 0x09 Uc.reset).flag (UC_STAT_ONLINE 15) = true ∧ rcLockstep < 8 := by
  decide +kernel

/-- EditPackages: a primary of a pair. EditCommitsAndTrials: a standby whose armed proposal has lapsed, and one
whose partner has ended the edit, before and after the first swap. -/
theorem witness_edit_pair : (pairUnit mStop 1 stPrimary 0).editModeStatus false = scOk ∧ (pairUnit mStop 1 stPrimary 0).paired = true ∧
    (pairUnit mStop 1 stPrimary 0).role = 1 ∧
    (let s := (staged edArmed { EditSt.reset with ownMark := true }).fput RED_STAT_ROLE 2
     s.edit.pkg = some pkg0 ∧ s.edit.ownMark = true ∧ s.fget EDT_STAT_STATE = edArmed ∧ s.role = 2 ∧
       s.epoch + (s.editN : Int) * s.t0us - s.t0us ≤ (s.tbNat : Int)) ∧
    (let s := { pairUnit mRun 2 stReady 0 with edit := { EditSt.reset with pkg := some pkg0 } }
     s.paired = true ∧ s.edit.pkg = some pkg0 ∧ s.edState ≠ edReverting ∧ s.edit.swapped = []) ∧
    (let s := { pairUnit mRun 2 stReady 0 with edit := { EditSt.reset with pkg := some pkg0, swapped := [0] } }
     s.paired = true ∧ s.edState ≠ edReverting ∧ s.edit.swapped ≠ []) := by decide +kernel

theorem witness_edit_pair_accepted : (pairUnit mStop 1 stPrimary 0).editRefusal
    { pkg0 with classes := 0, base := (pairUnit mStop 1 stPrimary 0).configHash } = none := by
  unfold State.editRefusal
  dsimp only
  repeat rw [if_neg (by decide +kernel)]

/-- HeartbeatsAndHandovers: a top master below no other, and a standby whose proposal is no takeback. MirrorSets: a set with an extension
that has been copied and would be sent without it; the outgoing unit of a handover. HedgeMembers: a member's own request. MelberLinks: a
queue with nothing in it. -/
theorem witness_pair_conditions : (handing mTrack 2 stReady none).hedgeBelow = false ∧ ((1 : Fin 4).val ≠ 2) ∧
    (let x : MirrorTx := { mirrorTx0 true with set := { set0 with ext := some { shed := [], sw := [], outputs := [] } }, sendAt := 0 }
     x.set.ext ≠ none ∧ x.copied = true ∧ x.ended = false ∧ x.sendAt + (pairUnit mRun 1 stPrimary 500000).sendClocks
       (32 * setGranules { x.set with ext := none }) ≤ (pairUnit mRun 1 stPrimary 500000).fab) ∧
    (pairUnit mTrack 2 stReady 0).linkML4 = true ∧ (pairUnit mTrack 2 stReady 0).linkML5 = true ∧
    (pairUnit mHandover 2 stHandoverOut 0).redState = stHandoverOut ∧ (pairUnit mHandover 2 stHandoverOut 0).standsBy = true ∧
    (pairUnit mHandover 2 stHandoverOut 0).pairLive = true ∧ (formed (hedgeModule 1 mRun 500000)).requestStatus 1 = scOk ∧
    modeSheds (formed (hedgeModule 1 mRun 500000)).mode = true ∧ (inMode mStop).fget (QUE_STAT_FULLCNT (22 + 4)) = 0 := by decide +kernel

/-! ## Reset and the queue -/

theorem witness_reset_memory : Memory.wf State.reset = true := by decide

theorem witness_front : ({ State.reset with pending := [.nop 0, .stopRequest] }).pending = .nop 0 :: [.stopRequest] ∧
    State.reset.pending = [] := by decide

theorem test_nop : after (step { weave x0 with pending := [.nop 0] }) (fun t => t.pending == [] && (t.strand 0).pc == 4) = true := by
  decide +kernel

end Sys2Proof.Tests
end

section
/-!
SUPPORT. Accesses of the steward to system registers (R3 to R6, R76): what a write leaves in each bit of a register and what it leaves
alone, what a read that clears leaves, and the pair of CYC_TB.
-/
namespace Sys2Proof.Machine

set_option Elab.async false

/-! ### A write by the access codes -/

theorem plainWrite_frame (s : State) (a : Nat) (v hw : Word) : { s.plainWrite a v hw with regs := s.regs } = s := by
  unfold State.plainWrite
  split <;> rfl

theorem rget_plainWrite_ne (s : State) {a b : Nat} (v hw : Word) (h : b ≠ a) : (s.plainWrite a v hw).rget b = s.rget b := by
  unfold State.plainWrite
  split
  · rfl
  · exact rget_rset_ne s _ h

theorem writeMask_bit (s : State) (r : RegRow) {i : Nat} (hi : i < 32) :
    (s.writeMask r).getLsbD i =
      ((BitVec.ofNat 32 r.rw).getLsbD i || (!s.flag SYS_CFGLOCK_LOCK && (BitVec.ofNat 32 r.lk).getLsbD i)) := by
  unfold State.writeMask
  cases s.flag SYS_CFGLOCK_LOCK <;> simp [hi]

/-- A bit of a register after a write: the written value where the mask of the write has it, cleared by a 1 where it is W1C, and set
by hardware there (R3, R5, R6). -/
theorem plainWrite_bit (s : State) {a i : Nat} {r : RegRow} (v hw : Word) (hr : regRow a = some r) (hi : i < 32) :
    ((s.plainWrite a v hw).rget a).getLsbD i =
      ((((s.rget a).getLsbD i && !(s.writeMask r).getLsbD i || v.getLsbD i && (s.writeMask r).getLsbD i) &&
          !(v.getLsbD i && (BitVec.ofNat 32 r.w1c).getLsbD i)) || (hw.getLsbD i && (BitVec.ofNat 32 r.w1c).getLsbD i)) := by
  simp [State.plainWrite, hr, hi]

/-! ### The steward's accesses -/

theorem stewardOff_eq_false {s : State} (hh : s.ctl.held = false) (hm : s.mode ≠ mDormant) : s.stewardOff = false := by
  simp [State.stewardOff, hh, hm]

theorem regWrite_of_not_commandReg (s : State) {agent a : Nat} (v hw : Word) (h : ¬ CommandReg a) :
    s.regWrite agent a v hw = s.plainWrite a v hw := by
  simp only [CommandReg, List.mem_cons, List.not_mem_nil, not_or, Bool.not_eq_true, Option.isSome_eq_false_iff,
    Option.isNone_iff_eq_none] at h
  simp [State.regWrite, h]

theorem stewardWrite_of_not_commandReg (s : State) {a : Nat} (v hw : Word) (h : ¬ CommandReg a) :
    s.stewardWrite a v hw = s.plainWrite a v hw := by
  rw [← regWrite_of_not_commandReg s (agent := 16) v hw h]
  simp only [CommandReg, List.mem_cons, not_or] at h
  simp [State.stewardWrite, h]

/-- A read of a register with a row, that is neither in a mailbox nor the low word of a pair. -/
theorem stewardRead_plain (s : State) {a : Nat} {r : RegRow} (hw : Word) (hr : regRow a = some r) (hmb : mbReg a = none)
    (hhi : hiOf a = none) : s.stewardRead a hw = { s.rcClear a hw with readback := s.regView a } := by
  simp [State.stewardRead, State.regRead, hr, hmb, hhi]

theorem rget_withReadback (s : State) (v : Word) (a : Nat) : ({ s with readback := v } : State).rget a = s.rget a := rfl

theorem rcClear_frame (s : State) (a : Nat) (hw : Word) : { s.rcClear a hw with regs := s.regs } = s := by
  unfold State.rcClear
  exact ite_inv (P := fun t : State => { t with regs := s.regs } = s) rfl rfl

theorem rget_rcClear_ne (s : State) {a b : Nat} (hw : Word) (h : b ≠ a) : (s.rcClear a hw).rget b = s.rget b := by
  unfold State.rcClear
  exact ite_inv (P := fun t : State => t.rget b = s.rget b) rfl (rget_rset_ne s _ h)

theorem rget_rcClear_self (s : State) {a : Nat} {r : RegRow} (hw : Word) (hr : regRow a = some r) :
    (s.rcClear a hw).rget a = (s.rget a &&& ~~~BitVec.ofNat 32 r.rc) ||| (hw &&& BitVec.ofNat 32 r.rc) := by
  simp only [State.rcClear, rcMask, hr]
  split
  · next h =>
    rw [h]
    show s.rget a = (s.rget a &&& ~~~0#32) ||| (hw &&& 0#32)
    rw [BitVec.not_zero, BitVec.and_allOnes, BitVec.and_zero, BitVec.or_zero]
  · simp

/-! ### CYC_TB (R76) -/

theorem hiOf_cyc_tb_lo : hiOf CYC_TB_LO = some CYC_TB_HI := rfl

theorem stewardRead_cyc_tb_lo (s : State) :
    s.stewardRead CYC_TB_LO 0 =
      { s with hiLatch := tset 0 s.hiLatch CYC_TB_HI (BitVec.ofNat 32 (s.tbNat / 2 ^ 32)), readback := BitVec.ofNat 32 s.tbNat } := by
  have hr : (regRow CYC_TB_LO).isNone = false := by decide
  have hv : s.regView CYC_TB_LO = BitVec.ofNat 32 s.tbNat := by simp [State.regView, hiOf_cyc_tb_lo, State.pairValue]
  simp [State.stewardRead, State.regRead, hr, show mbReg CYC_TB_LO = none from rfl, hiOf_cyc_tb_lo, hv, State.pairValue]

theorem regView_cyc_tb_hi (s : State) : s.regView CYC_TB_HI = tget 0 s.hiLatch CYC_TB_HI := by
  have hhi : hiOf CYC_TB_HI = none := by decide
  have hlo : 4 ≤ CYC_TB_HI ∧ (hiOf (CYC_TB_HI - 4)).isSome = true := by decide
  simp only [State.regView, hhi, hlo, Option.isSome_none, Bool.false_eq_true, if_false, and_self, if_true]

end Sys2Proof.Machine
end

section
/-!
SUPPORT. `Spares`: what events, the end of an edit and the start-up leave alone, with one lemma for each operation on the way.
-/
namespace Sys2Proof.Machine

set_option Elab.async false

/-! ### The relation -/

/-- From `s` to `t` the register at `a` has not changed, nor have the memories, the RTC, RESET_n, the OTP fields and the time from step 1
to step 8 of the start. -/
def Spares (a : Nat) (s t : State) : Prop :=
  t.rget a = s.rget a ∧ t.mem = s.mem ∧ t.rtc = s.rtc ∧ t.supply.resetN = s.supply.resetN ∧ t.upd.otp = s.upd.otp ∧
    t.ctl.bootMs = s.ctl.bootMs

section
variable {a : Nat} {s t u : State}

theorem Spares.refl (a : Nat) (s : State) : Spares a s s := ⟨rfl, rfl, rfl, rfl, rfl, rfl⟩

/-- An update of other parts of the state. -/
theorem Spares.upd (h : Spares a s t) (hregs : u.regs = t.regs := by rfl) (hmem : u.mem = t.mem := by rfl)
    (hrtc : u.rtc = t.rtc := by rfl) (hpin : u.supply.resetN = t.supply.resetN := by rfl)
    (hotp : u.upd.otp = t.upd.otp := by rfl) (hms : u.ctl.bootMs = t.ctl.bootMs := by rfl) : Spares a s u := by
  obtain ⟨h1, h2, h3, h4, h5, h6⟩ := h
  exact ⟨by rw [State.rget, hregs]; exact h1, hmem.trans h2, hrtc.trans h3, hpin.trans h4, hotp.trans h5, hms.trans h6⟩

/-! ### Registers and events -/

theorem Spares.rset (h : Spares a s t) {b : Nat} {v : Word} (hb : b ≠ a := by decide) : Spares a s (t.rset b v) :=
  ⟨(rget_rset_ne t v hb.symm).trans h.1, h.2⟩

theorem Spares.fput (h : Spares a s t) {f : Fld} {v : Nat} (hf : f.addr ≠ a := by decide) : Spares a s (t.fput f v) := h.rset hf

theorem Spares.setFlag (h : Spares a s t) {f : Fld} {b : Bool} (hf : f.addr ≠ a := by decide) : Spares a s (t.setFlag f b) := h.fput hf

theorem Spares.raise (h : Spares a s t) {code elem : Nat} {p : List Byte} (hlost : EVR_LOST ≠ a := by decide)
    (hevt : EVR_EVT ≠ a := by decide) : Spares a s (t.raise code elem p) := by
  unfold State.raise
  exact ite_inv h.upd ((h.upd (u := { t with recorder := _ }).fput hlost).setFlag hevt)

theorem Spares.withTx (h : Spares a s t) {l : List Sent} : Spares a s { t with tx := l } := h.upd

theorem Spares.send (h : Spares a s t) {m : Sent} : Spares a s (t.send m) := h.withTx

/-! ### The end of an edit (R297, R302) -/

theorem Spares.withEdit (h : Spares a s t) {e : EditSt} : Spares a s { t with edit := e } := h.upd

theorem Spares.journalMark (h : Spares a s t) {seq : BitVec 16} {m : JournalMark} : Spares a s (t.journalMark seq m) := h.upd

theorem Spares.modStrand (h : Spares a s t) {st : Nat} {f : Strand → Strand} : Spares a s (t.modStrand st f) := h.upd

theorem Spares.modCls (h : Spares a s t) {k : Nat} {f : ClassSt → ClassSt} : Spares a s (t.modCls k f) := h.upd

theorem Spares.stopTrial (h : Spares a s t) (hmode : SYS_MODE ≠ a := by decide) : Spares a s t.stopTrial := by
  unfold State.stopTrial
  exact Spares.setFlag (each_inv h fun _ h _ => ite_inv h (Spares.modCls (each_inv h fun _ h _ => h.modStrand))) hmode

theorem Spares.editAbortFor (h : Spares a s t) {cause : Nat} (hmode : SYS_MODE ≠ a := by decide) (hedt : EDT_STAT ≠ a := by decide)
    (hlost : EVR_LOST ≠ a := by decide) (hevt : EVR_EVT ≠ a := by decide) : Spares a s (t.editAbortFor cause) := by
  unfold State.editAbortFor
  split
  · exact h
  · refine ite_inv h ?_
    extract_lets back marked told raised stopped
    have hmarked : Spares a s marked := h.journalMark.fput hedt
    have htold : Spares a s told := ite_inv hmarked.withTx hmarked
    have hstopped : Spares a s stopped := (htold.raise hlost hevt).stopTrial hmode
    exact ite_inv (hstopped.withEdit.fput hedt) (hstopped.withEdit.fput hedt)

theorem Spares.editReset (h : Spares a s t) (hmode : SYS_MODE ≠ a := by decide) (hedt : EDT_STAT ≠ a := by decide)
    (hlost : EVR_LOST ≠ a := by decide) (hevt : EVR_EVT ≠ a := by decide) : Spares a s t.editReset := by
  unfold State.editReset
  exact ite_inv h (h.editAbortFor hmode hedt hlost hevt)

end

/-! ### The configuration lock under a change of mode (R258, R267) -/

section
variable {s t : State}

theorem Spares.withHedge (h : Spares SYS_CFGLOCK s t) {x : Hedge} : Spares SYS_CFGLOCK s { t with hedge := x } := h.upd

theorem Spares.withRed (h : Spares SYS_CFGLOCK s t) {x : Red} : Spares SYS_CFGLOCK s { t with red := x } := h.upd

theorem Spares.editOnMode (h : Spares SYS_CFGLOCK s t) {old m : Nat} : Spares SYS_CFGLOCK s (t.editOnMode old m) := by
  unfold State.editOnMode
  exact ite_inv h (ite_inv h (ite_inv (ite_inv h h.editAbortFor) (ite_inv h (ite_inv h.stopTrial.fput h.editAbortFor))))

theorem Spares.withdrawActivation (h : Spares SYS_CFGLOCK s t) : Spares SYS_CFGLOCK s t.withdrawActivation := by
  unfold State.withdrawActivation
  split
  · exact h
  · exact Spares.raise (Spares.fput (Spares.setFlag h.upd))

theorem Spares.trialFails (h : Spares SYS_CFGLOCK s t) {cause : Nat} : Spares SYS_CFGLOCK s (t.trialFails cause) := by
  unfold State.trialFails
  split
  · exact h
  · exact h.upd

theorem Spares.melFail (h : Spares SYS_CFGLOCK s t) {member : Option Nat} {cause port : Nat} :
    Spares SYS_CFGLOCK s (t.melFail member cause port) := by
  unfold State.melFail
  extract_lets unformed named raised
  have hraised : Spares SYS_CFGLOCK s raised := h.setFlag.fput.setFlag.fput.setFlag.raise
  exact hraised.withHedge

theorem Spares.hedgeOnFault (h : Spares SYS_CFGLOCK s t) : Spares SYS_CFGLOCK s t.hedgeOnFault := by
  unfold State.hedgeOnFault
  exact ite_inv h.melFail.withTx h

theorem Spares.modUc (h : Spares SYS_CFGLOCK s t) {n : Nat} {f : Uc → Uc} : Spares SYS_CFGLOCK s (t.modUc n f) := h.upd

theorem Spares.dioOff (h : Spares SYS_CFGLOCK s t) {n : Nat} : Spares SYS_CFGLOCK s (t.dioOff n) := by
  unfold State.dioOff State.dioApply
  exact ite_inv h h.upd

theorem Spares.batonUpdate (h : Spares SYS_CFGLOCK s t) : Spares SYS_CFGLOCK s t.batonUpdate := by
  unfold State.batonUpdate
  extract_lets want had set
  have hset : Spares SYS_CFGLOCK s set := h.setFlag
  refine ite_inv ?_ hset
  unfold State.sharedOff
  exact each_inv (each_inv hset fun _ h _ => ite_inv h.dioOff h) fun _ h _ => ite_inv h.modUc h

theorem Spares.setMode (h : Spares SYS_CFGLOCK s t) {m cause : Nat} : Spares SYS_CFGLOCK s (t.setMode m cause) := by
  unfold State.setMode
  extract_lets +onlyGivenNames old
  refine ite_inv h ?_
  extract_lets shown flagged raised ctl led noFault edited noActivation noTrial leaves roleless red noRole
  have hraised : Spares SYS_CFGLOCK s raised := h.fput.fput.setFlag.raise
  clear_value raised
  have hled : Spares SYS_CFGLOCK s led := hraised.upd
  have hnoFault : Spares SYS_CFGLOCK s noFault := ite_inv hled hled.fput
  have hnoActivation : Spares SYS_CFGLOCK s noActivation := ite_inv hnoFault.editOnMode.withdrawActivation hnoFault.editOnMode
  have hnoTrial : Spares SYS_CFGLOCK s noTrial := ite_inv hnoActivation.trialFails.hedgeOnFault hnoActivation
  have hroleless : Spares SYS_CFGLOCK s roleless := hnoTrial.fput.fput
  have hnoRole : Spares SYS_CFGLOCK s noRole := ite_inv hroleless.withRed hnoTrial
  exact hnoRole.batonUpdate

theorem Spares.mbWithdraw (h : Spares SYS_CFGLOCK s t) {p m status : Nat} : Spares SYS_CFGLOCK s (t.mbWithdraw p m status) := by
  have hhdr : CAN_MB_HDR p m ≠ SYS_CFGLOCK := by unfold CAN_MB_HDR SYS_CFGLOCK; omega
  have hevt : CAN_EVT p ≠ SYS_CFGLOCK := by unfold CAN_EVT SYS_CFGLOCK; omega
  unfold State.mbWithdraw
  split
  · exact h
  · exact (((Spares.setFlag h.upd hhdr).fput hhdr).setFlag hevt).raise

theorem Spares.canStop (h : Spares SYS_CFGLOCK s t) : Spares SYS_CFGLOCK s t.canStop := by
  unfold State.canStop
  refine each_inv h fun _ h _ => ite_inv ?_ h
  extract_lets ended
  have hended : Spares SYS_CFGLOCK s ended := by
    unfold ended
    split
    · exact ite_inv h h.mbWithdraw
    · exact h
  exact hended.upd

theorem Spares.released (h : Spares SYS_CFGLOCK s t) : Spares SYS_CFGLOCK s t.released := by
  unfold State.released
  refine each_inv h fun _ h _ => ?_
  split
  · exact each_inv h.upd fun _ h _ => h.upd
  · exact h

theorem Spares.stopAll (h : Spares SYS_CFGLOCK s t) : Spares SYS_CFGLOCK s t.stopAll := by
  have hphase : ∀ k, CLS_STAT k ≠ SYS_CFGLOCK := fun k => by unfold CLS_STAT SYS_CFGLOCK; omega
  unfold State.stopAll
  extract_lets released hedge noBeams stopped waiting idle
  have hnoBeams : Spares SYS_CFGLOCK s noBeams := h.released.withHedge
  have hstopped : Spares SYS_CFGLOCK s stopped := each_inv hnoBeams fun _ h _ => h.modStrand
  have hwaiting : Spares SYS_CFGLOCK s waiting := hstopped.fput
  clear_value waiting
  have hidle : Spares SYS_CFGLOCK s idle := hwaiting.upd
  exact each_inv hidle fun _ h k => h.modCls.fput (hphase k)

theorem Spares.cancelJobs (h : Spares SYS_CFGLOCK s t) : Spares SYS_CFGLOCK s t.cancelJobs := by
  have hpending : ∀ k, SE_JOBSTAT k ≠ SYS_CFGLOCK := fun k => by unfold SE_JOBSTAT SYS_CFGLOCK; omega
  unfold State.cancelJobs
  exact each_inv h fun _ h k => Spares.fput h.upd (hpending k)

theorem Spares.enterStop (h : Spares SYS_CFGLOCK s t) {cause : Nat} : Spares SYS_CFGLOCK s (t.enterStop cause) := by
  unfold State.enterStop
  extract_lets stopped ctl due
  have hstopped : Spares SYS_CFGLOCK s stopped := h.stopAll.cancelJobs.canStop
  clear_value stopped
  have hdue : Spares SYS_CFGLOCK s due := hstopped.upd
  exact hdue.setMode

end
end Sys2Proof.Machine
end

section
/-!
SUPPORT. `Spares` of the configuration lock over step 8 of the start (R274, R276).
-/
namespace Sys2Proof.Machine

set_option Elab.async false

section
variable {s t : State}

/-! ### The reference of the time base (R62 to R64) -/

theorem Spares.stepTb (h : Spares SYS_CFGLOCK s t) {ns : Nat} : Spares SYS_CFGLOCK s (t.stepTb ns) := by
  unfold State.stepTb
  extract_lets us step stepped
  have hstepped : Spares SYS_CFGLOCK s stepped := h.upd
  exact hstepped.setFlag.raise

theorem Spares.judgeSync (h : Spares SYS_CFGLOCK s t) {off : Int} : Spares SYS_CFGLOCK s (t.judgeSync off) := by
  unfold State.judgeSync
  exact ite_inv h.setFlag.setFlag.raise (ite_inv h.setFlag.setFlag.raise h)

theorem Spares.draw (h : Spares SYS_CFGLOCK s t) : Spares SYS_CFGLOCK s t.draw := h.upd

theorem Spares.followRef (h : Spares SYS_CFGLOCK s t) {source ns : Nat} : Spares SYS_CFGLOCK s (t.followRef source ns) := by
  unfold State.followRef
  extract_lets sourced behind stepped off rate slewed
  have hsourced : Spares SYS_CFGLOCK s sourced := h.fput
  have hstepped : Spares SYS_CFGLOCK s stepped := ite_inv hsourced.stepTb hsourced
  have hslewed : Spares SYS_CFGLOCK s slewed := hstepped.draw.fput.setFlag
  exact hslewed.fput.judgeSync

theorem Spares.startTb (h : Spares SYS_CFGLOCK s t) {x : StartIn} : Spares SYS_CFGLOCK s (t.startTb x) := by
  unfold State.startTb
  split
  · exact ite_inv h.followRef h
  · exact ite_inv h.stepTb h

/-! ### Modes, pairing and formation (R267, R269, R309, R351) -/

theorem Spares.withCtl (h : Spares SYS_CFGLOCK s t) {c : Control} (hc : c.bootMs = t.ctl.bootMs := by rfl) :
    Spares SYS_CFGLOCK s { t with ctl := c } := h.upd (hms := hc)

theorem Spares.lockoutLeft (h : Spares SYS_CFGLOCK s t) {how : Nat} : Spares SYS_CFGLOCK s (t.lockoutLeft how) := by
  unfold State.lockoutLeft
  exact h.withCtl.setFlag.raise

theorem Spares.bootEnd (h : Spares SYS_CFGLOCK s t) : Spares SYS_CFGLOCK s t.bootEnd := by
  unfold State.bootEnd
  refine ite_inv ?_ h
  extract_lets begun timed
  have hbegun : Spares SYS_CFGLOCK s begun := by
    unfold begun State.trialBegins
    split
    · exact h.upd
    · exact h
  have htimed : Spares SYS_CFGLOCK s timed := hbegun.fput
  clear_value timed
  exact htimed.withCtl.raise

theorem Spares.bootStop (h : Spares SYS_CFGLOCK s t) : Spares SYS_CFGLOCK s t.bootStop := by
  unfold State.bootStop
  exact h.withCtl.setMode.bootEnd

theorem Spares.proposeHandover (h : Spares SYS_CFGLOCK s t) {trigger : Nat} : Spares SYS_CFGLOCK s (t.proposeHandover trigger) := by
  unfold State.proposeHandover State.proposeAt
  exact (Spares.withRed (ite_inv h.send h)).send

theorem Spares.announceChange (h : Spares SYS_CFGLOCK s t) {target : Nat} {cold : Bool} :
    Spares SYS_CFGLOCK s (t.announceChange target cold) := by
  unfold State.announceChange
  exact ite_inv (ite_inv h.send (ite_inv h.send h)) h

theorem Spares.acceptChange (h : Spares SYS_CFGLOCK s t) {target req cause : Nat} {cold : Bool} :
    Spares SYS_CFGLOCK s (t.acceptChange target req cause cold) := by
  unfold State.acceptChange
  extract_lets +onlyGivenNames ctl accepted
  have haccepted : Spares SYS_CFGLOCK s accepted := h.withCtl
  refine ite_inv ?_ haccepted.announceChange
  exact ite_inv haccepted.withRed.proposeHandover haccepted.withRed

theorem Spares.judgePair (h : Spares SYS_CFGLOCK s t) {x : PartnerInfo} : Spares SYS_CFGLOCK s (t.judgePair x) := by
  unfold State.judgePair
  refine ite_inv h ?_
  extract_lets +onlyGivenNames st judged
  have hjudged : Spares SYS_CFGLOCK s judged := h.setFlag.fput
  refine ite_inv ?_ hjudged.withRed.raise.fput
  refine ite_inv hjudged.raise.fput ?_
  exact Spares.fput (ite_inv hjudged.raise.enterStop hjudged.raise)

theorem Spares.judgeForm (h : Spares SYS_CFGLOCK s t) {v : HedgeView} : Spares SYS_CFGLOCK s (t.judgeForm v) := by
  have hformed : Spares SYS_CFGLOCK s t.formed := h.withHedge.setFlag.fput.setFlag.raise
  unfold State.judgeForm
  exact ite_inv hformed.send h

/-! ### Step 8 -/

theorem Spares.bootPaired (h : Spares SYS_CFGLOCK s t) {x : StartIn} {target req : Nat} :
    Spares SYS_CFGLOCK s (t.bootPaired x target req) := by
  unfold State.bootPaired
  extract_lets takes judged
  have hjudged : Spares SYS_CFGLOCK s judged := by
    unfold judged
    split
    · exact ite_inv h.fput.judgePair.fput h.judgePair
    · exact h
  exact ite_inv (ite_inv hjudged.bootStop hjudged.acceptChange) (ite_inv hjudged.acceptChange hjudged.withRed)

/-- Step 8 notes its begin and how long steps 1 to 7 took, and spares the configuration lock (R276, R281). -/
theorem step8_spares (s : State) (x : StartIn) :
    Spares SYS_CFGLOCK { s with ctl := { s.ctl with bootAt := s.fab, bootMs := x.bootMs } } (s.step8 x) := by
  unfold State.step8
  generalize { s with ctl := { s.ctl with bootAt := s.fab, bootMs := x.bootMs } } = begun
  extract_lets +onlyGivenNames timed
  have htimed : Spares SYS_CFGLOCK begun timed := (Spares.refl _ begun).startTb
  clear_value timed
  extract_lets +onlyGivenNames shown pos stop held unlocked ctl2 booting
  have hshown : Spares SYS_CFGLOCK begun shown := ite_inv htimed htimed.fput
  have hunlocked : Spares SYS_CFGLOCK begun unlocked := ite_inv hshown.lockoutLeft hshown
  have hbooting : Spares SYS_CFGLOCK begun booting := hunlocked.withCtl
  refine ite_inv hbooting.setMode.fput.bootEnd ?_
  extract_lets formed judged
  have hformed : Spares SYS_CFGLOCK begun formed := hbooting.judgeForm
  have hjudged : Spares SYS_CFGLOCK begun judged := by
    unfold judged
    split
    · exact hformed.judgePair
    · exact hformed
  exact ite_inv hjudged.bootStop (ite_inv hformed.bootPaired hformed.acceptChange)

end
end Sys2Proof.Machine
end

section
/-!
SUPPORT. Steps 1 to 6 of the start: what they spare, how a step that fails leaves the module, and which slot is selected (R274, R494,
R506).
-/
namespace Sys2Proof.Machine

set_option Elab.async false

/-! ### Step 1 spares the mode, the slots and the OTP fields -/

section
variable {s t : State} {x : StartIn}

theorem Spares.readKey (h : Spares SYS_MODE s t) : Spares SYS_MODE s (t.readKey x) := by
  unfold State.readKey
  extract_lets +onlyGivenNames raw shown
  have hshown : Spares SYS_MODE s shown := h.fput
  exact ite_inv hshown.setFlag.setFlag.raise (ite_inv hshown.fput hshown)

theorem Spares.companionReports (h : Spares SYS_MODE s t) : Spares SYS_MODE s (t.companionReports x) := by
  unfold State.companionReports
  extract_lets ctl fault keep lane clock
  have hfault : Spares SYS_MODE s fault := by
    unfold fault
    split
    · exact Spares.raise h.upd
    · exact h
  clear_value fault
  have hlane : Spares SYS_MODE s lane := by
    unfold lane
    split
    · exact Spares.raise hfault.upd
    · exact hfault
  have hclock : Spares SYS_MODE s clock := ite_inv hlane.raise hlane
  clear_value clock
  exact hclock.upd

theorem Spares.registerSlots (h : Spares SYS_MODE s t) {l : List (Fin 8 × Word × Word × Word)} :
    Spares SYS_MODE s (t.registerSlots l) := by
  have hcfg : ∀ n, WDG_SLOT_CFG n ≠ SYS_MODE := fun n => by unfold WDG_SLOT_CFG SYS_MODE; omega
  have hper : ∀ n, WDG_SLOT_P n ≠ SYS_MODE := fun n => by unfold WDG_SLOT_P SYS_MODE; omega
  have hseed : ∀ n, WDG_SLOT_SEED n ≠ SYS_MODE := fun n => by unfold WDG_SLOT_SEED SYS_MODE; omega
  have hstat : ∀ n, WDG_SLOT_STAT n ≠ SYS_MODE := fun n => by unfold WDG_SLOT_STAT SYS_MODE; omega
  unfold State.registerSlots
  refine each_inv h fun _ h y => ?_
  extract_lets n configured seeded
  have hseeded : Spares SYS_MODE s seeded := ((h.rset (hcfg n)).rset (hper n)).rset (hseed n)
  clear_value seeded
  refine ite_inv ?_ hseeded
  unfold State.wdgArm
  exact (Spares.setFlag hseeded.upd (hstat n)).setFlag (hstat n)

end

/-- The state in which step 1 leaves the module (R259, R274). -/
def State.step1 (s : State) (x : StartIn) : State :=
  (((s.readKey x).companionReports x).setFlag RED_STAT_BATON_IN x.batonIn).registerSlots x.stewardSlots

theorem step1_spares (s : State) (x : StartIn) : Spares SYS_MODE s (s.step1 x) :=
  (Spares.refl SYS_MODE s).readKey.companionReports.setFlag.registerSlots

theorem comparatorTest_spares (s : State) (fails : Word) : Spares SYS_MODE s (s.comparatorTest fails) := by
  unfold State.comparatorTest
  extract_lets shown
  have hshown : Spares SYS_MODE s shown := (Spares.refl SYS_MODE s).rset
  clear_value shown
  exact ite_inv hshown.upd hshown

/-! ### A step that fails -/

/-- The start has ended at a step: the module stays in POWER-UP with the step shown and FAULT_n asserted (R274). -/
def StoppedAt (step : Nat) (t : State) : Prop :=
  t.mode = mPowerUp ∧ t.fget SYS_BOOT_STEP = step ∧ t.flag SYS_BOOT_FAIL = true ∧ t.ctl.faultN = true

theorem fget_congr {s t : State} {f : Fld} (h : t.rget f.addr = s.rget f.addr) : t.fget f = s.fget f := by
  rw [State.fget, h, State.fget]

theorem flag_congr {s t : State} {f : Fld} (h : t.rget f.addr = s.rget f.addr) : t.flag f = s.flag f := by
  rw [State.flag, fget_congr h, State.flag]

@[simp] theorem raise_ctl (s : State) (code elem : Nat) (p : List Byte) : (s.raise code elem p).ctl = s.ctl := by
  unfold State.raise
  split <;> rfl

/-- An event leaves the registers alone but those of events that were lost. -/
theorem rget_raise (s : State) {code elem a : Nat} {p : List Byte} (hlost : EVR_LOST ≠ a) (hevt : EVR_EVT ≠ a) :
    (s.raise code elem p).rget a = s.rget a := ((Spares.refl a s).raise hlost hevt).1

theorem StoppedAt.of_rget {step : Nat} {s t : State} (h : StoppedAt step s) (hmode : t.rget SYS_MODE = s.rget SYS_MODE)
    (hboot : t.rget SYS_BOOT = s.rget SYS_BOOT) (hctl : t.ctl = s.ctl) : StoppedAt step t := by
  obtain ⟨h1, h2, h3, h4⟩ := h
  exact ⟨(fget_congr hmode).trans h1, (fget_congr hboot).trans h2, (flag_congr hboot).trans h3, by rw [hctl, h4]⟩

theorem fget_boot_step (s : State) {step : Nat} (reason : Nat) (hstep : step < 16) :
    (((s.fput SYS_BOOT_STEP step).setFlag SYS_BOOT_FAIL true).fput SYS_BOOT_REASON reason).fget SYS_BOOT_STEP = step := by
  rw [fget_fput_apart _ SYS_BOOT_REASON SYS_BOOT_STEP _ (by decide) rfl (by decide), State.setFlag,
    fget_fput_apart _ SYS_BOOT_FAIL SYS_BOOT_STEP _ (by decide) rfl (by decide), fget_fput_self _ _ _ (by decide)]
  exact Nat.mod_eq_of_lt hstep

theorem flag_boot_fail (s : State) (reason : Nat) :
    ((s.setFlag SYS_BOOT_FAIL true).fput SYS_BOOT_REASON reason).flag SYS_BOOT_FAIL = true := by
  rw [State.flag, fget_fput_apart _ SYS_BOOT_REASON SYS_BOOT_FAIL _ (by decide) rfl (by decide)]
  exact flag_setFlag_self s SYS_BOOT_FAIL true (by decide) (by decide)

theorem StoppedAt.of_shown {step : Nat} {s : State} {c : Control} (hm : s.mode = mPowerUp) (hstep : s.fget SYS_BOOT_STEP = step)
    (hfail : s.flag SYS_BOOT_FAIL = true) (hc : c.faultN = true) : StoppedAt step { s with ctl := c } := ⟨hm, hstep, hfail, hc⟩

theorem stepFails_stoppedAt {s : State} {step : Nat} (hm : s.mode = mPowerUp) (hstep : step < 16) :
    StoppedAt step (s.stepFails step) := by
  unfold State.stepFails
  extract_lets reason fails shown ctl failed
  have hmode : shown.rget SYS_MODE = s.rget SYS_MODE := (Spares.upd (u := s.draw) (Spares.refl SYS_MODE s)).fput.setFlag.fput.1
  have hfailed : StoppedAt step failed :=
    .of_shown ((fget_congr hmode).trans hm) (fget_boot_step _ _ hstep) (flag_boot_fail _ _) rfl
  exact hfailed.of_rget (rget_raise _ (by decide) (by decide)) (rget_raise _ (by decide) (by decide)) (raise_ctl _ _ _ _)

theorem enterRecovery_stoppedAt {s : State} (hm : s.mode = mPowerUp) : StoppedAt 6 s.enterRecovery := by
  have hfails := stepFails_stoppedAt hm (step := 6) (by decide)
  unfold State.enterRecovery
  refine hfails.of_rget ?_ ?_ (raise_ctl _ _ _ _)
  · exact ((Spares.refl SYS_MODE _).setFlag (f := UPD_STAT_RECOVERY)).raise.1
  · exact ((Spares.refl SYS_BOOT _).setFlag (f := UPD_STAT_RECOVERY)).raise.1

theorem enterRecovery_shown (s : State) : s.enterRecovery.flag UPD_STAT_RECOVERY = true := by
  unfold State.enterRecovery
  exact (flag_congr (rget_raise _ (by decide) (by decide))).trans (flag_setFlag_self _ _ _ (by decide) (by decide))

/-! ### Step 6 -/

theorem mgetN_congr {s t : State} (h : t.mem = s.mem) (key n : Nat) : t.mgetN key n = s.mgetN key n := by
  induction n generalizing key with
  | zero => rfl
  | succ n ih => rw [State.mgetN, State.mgetN, ih, State.mget, State.mget, h]

theorem slotState_congr {s t : State} (h : t.mem = s.mem) (i : Nat) : t.slotState i = s.slotState i := by
  have hmark : ∀ mark, t.markSet i mark = s.markSet i mark := fun mark => by rw [State.markSet, State.markSet, State.mget, State.mget, h]
  simp only [State.slotState, hmark]

theorem slotVerifies_congr {s t : State} (hmem : t.mem = s.mem) (hotp : t.upd.otp = s.upd.otp) (i : Nat) (c : SlotCheck) :
    t.slotVerifies i c = s.slotVerifies i c := by
  have hsig : t.sigOk c.sig = s.sigOk c.sig := by rw [State.sigOk, State.sigOk, State.ownerInForce, State.ownerInForce, hotp]
  have hsvn : t.minSvn = s.minSvn := by rw [State.minSvn, State.minSvn, hotp]
  have himage : t.manifest i 14 2 = s.manifest i 14 2 := by rw [State.manifest, State.manifest, mgetN_congr hmem]
  rw [State.slotVerifies, State.slotVerifies, hsig, hsvn, himage]

theorem selectSlot_of_empty {s : State} (x : StartIn) (n : Nat) (h0 : s.slotState 0 = slEmpty) (h1 : s.slotState 1 = slEmpty) :
    s.selectSlot x (n + 1) = (s, none) := by
  simp [State.selectSlot, findIdx, List.range_succ, h0, h1]

theorem selectSlot_of_confirmed {s : State} (x : StartIn) (n : Nat) (h0 : s.slotState 0 = slConfirmed)
    (h1 : s.slotState 1 = slEmpty) (hv : s.slotVerifies 0 x.verify0 = true) :
    s.selectSlot x (n + 1) = (s, some (0, false)) := by
  simp [State.selectSlot, findIdx, List.range_succ, h0, h1, hv]

/-! ### The start as a whole -/

theorem startUp_of_rom_fails (s : State) {x : StartIn} (hrom : x.romOk = false) : s.startUp x = (s.step1 x).stepFails 2 := by
  simp only [State.startUp, hrom, if_true]
  rfl

/-- The state in which step 5 leaves the module, when steps 2 to 5 pass. -/
def State.step5 (s : State) (x : StartIn) : State := (s.step1 x).comparatorTest 0

theorem step5_spares (s : State) (x : StartIn) : Spares SYS_MODE s (s.step5 x) := by
  obtain ⟨h1, h2, h3, h4, h5, h6⟩ := step1_spares s x
  obtain ⟨g1, g2, g3, g4, g5, g6⟩ := comparatorTest_spares (s.step1 x) 0
  exact ⟨g1.trans h1, g2.trans h2, g3.trans h3, g4.trans h4, g5.trans h5, g6.trans h6⟩

theorem rget_comparatorTest_zero (s : State) : (s.comparatorTest 0).rget SYS_CMPFAIL = 0 := by
  have hshown : (s.rset SYS_CMPFAIL (0 &&& 0x03FFFFFF)).rget SYS_CMPFAIL = 0 := rget_rset_self _ _ _
  unfold State.comparatorTest
  exact ite_inv (P := fun t : State => t.rget SYS_CMPFAIL = 0) hshown hshown

section
variable {x : StartIn} (hrom : x.romOk = true) (hinit : x.initOk = true) (hcmp : x.cmpFail = 0) (hanchor : x.anchorOk = true)
include hrom hinit hcmp hanchor

/-- A start that passes steps 2 to 5 goes on with the slot that it selects. -/
theorem startUp_of_selected {s t : State} {slot : Nat} {trial : Bool} (h : (s.step5 x).selectSlot x 6 = (t, some (slot, trial))) :
    s.startUp x = ((((t.takeSlot slot trial).step7 x).bootClock t.fab x.bootMs).step8 x) := by
  have hcmpfail := rget_comparatorTest_zero (s.step1 x)
  unfold State.step5 State.step1 at h
  unfold State.step1 at hcmpfail
  simp only [State.startUp, hrom, hinit, hcmp, hanchor, hcmpfail, h, Bool.true_eq_false, ne_eq, not_true_eq_false, if_false]

theorem startUp_of_none_selected {s t : State} (h : (s.step5 x).selectSlot x 6 = (t, none)) : s.startUp x = t.enterRecovery := by
  have hcmpfail := rget_comparatorTest_zero (s.step1 x)
  unfold State.step5 State.step1 at h
  unfold State.step1 at hcmpfail
  simp only [State.startUp, hrom, hinit, hcmp, hanchor, hcmpfail, h, Bool.true_eq_false, ne_eq, not_true_eq_false, if_false]

theorem startUp_of_no_slot {s : State} (h0 : s.slotState 0 = slEmpty) (h1 : s.slotState 1 = slEmpty) :
    s.startUp x = (s.step5 x).enterRecovery := by
  have hmem := (step5_spares s x).2.1
  exact startUp_of_none_selected hrom hinit hcmp hanchor
    (selectSlot_of_empty x 5 ((slotState_congr hmem 0).trans h0) ((slotState_congr hmem 1).trans h1))

theorem startUp_of_slot_0 {s : State} (h0 : s.slotState 0 = slConfirmed) (h1 : s.slotState 1 = slEmpty)
    (hv : s.slotVerifies 0 x.verify0 = true) :
    s.startUp x = (((((s.step5 x).takeSlot 0 false).step7 x).bootClock (s.step5 x).fab x.bootMs).step8 x) := by
  obtain ⟨-, hmem, -, -, hotp, -⟩ := step5_spares s x
  exact startUp_of_selected hrom hinit hcmp hanchor
    (selectSlot_of_confirmed x 5 ((slotState_congr hmem 0).trans h0) ((slotState_congr hmem 1).trans h1)
      ((slotVerifies_congr hmem hotp 0 _).trans hv))

end

/-- Step 7 ends with the configuration lock set (R281). -/
theorem step7_locks (s : State) (x : StartIn) : (s.step7 x).flag SYS_CFGLOCK_LOCK = true := by
  unfold State.step7
  exact flag_setFlag_self _ _ _ (by decide) (by decide)

theorem flag_withClock (s : State) (fab : Nat) (tb : BitVec 64) (f : Fld) :
    ({ s with fab := fab, tb := tb } : State).flag f = s.flag f := rfl

theorem flag_bootClock (s : State) (began ms : Nat) (f : Fld) : (s.bootClock began ms).flag f = s.flag f :=
  flag_withClock s _ _ f

theorem step8_of_locked {s : State} (x : StartIn) (h : s.flag SYS_CFGLOCK_LOCK = true) :
    (s.step8 x).flag SYS_CFGLOCK_LOCK = true ∧ (s.step8 x).ctl.bootMs = x.bootMs := by
  obtain ⟨hreg, -, -, -, -, hms⟩ := step8_spares s x
  exact ⟨(flag_congr hreg).trans h, hms⟩

end Sys2Proof.Machine
end

section
/-!
SUPPORT. Outputs that go off, and what a reset of the die leaves (R12, R20, R271, R470).
-/
namespace Sys2Proof.Machine

set_option Elab.async false

/-! ### A table of which entries have been dropped -/

section
variable {α : Type}

theorem tget_of_no_key (d : α) {t : Tab α} {k : Nat} (h : ∀ e ∈ t, e.1 ≠ k) : tget d t k = d := by
  induction t with
  | nil => rfl
  | cons e t ih =>
    obtain ⟨hne, ht⟩ := List.forall_mem_cons.1 h
    rw [tget, if_neg hne, ih ht]

/-- Dropping the entries of other keys. -/
theorem tget_filter_kept (d : α) (t : Tab α) {p : Nat → Bool} {k : Nat} (h : p k = true) :
    tget d (t.filter (fun e => p e.1)) k = tget d t k := by
  induction t with
  | nil => rfl
  | cons e t ih =>
    by_cases he : e.1 = k
    · simp [tget, he, h]
    · cases hp : p e.1 <;> simp [tget, he, hp, ih]

theorem tget_filter_dropped (d : α) (t : Tab α) {p : Nat → Bool} {k : Nat} (h : p k = false) :
    tget d (t.filter (fun e => p e.1)) k = d := by
  refine tget_of_no_key d fun e he hk => ?_
  have hp := (List.mem_filter.1 he).2
  rw [hk, h] at hp
  exact absurd hp (by decide)

end

/-! ### An operation for every index -/

theorem each_append {σ α : Type} (l m : List α) (s : σ) (f : σ → α → σ) : each (l ++ m) s f = each m (each l s f) f :=
  List.foldl_append ..

/-- What `f` establishes at its own index, and keeps at the others, holds at every index after `f` has run for all of them. -/
theorem each_range_establishes {σ : Type} {f : σ → Nat → σ} {I : σ → Prop} {P : Nat → σ → Prop}
    (hinv : ∀ s n, I s → I (f s n)) (hset : ∀ s n, I s → P n (f s n)) (hkeep : ∀ s n m, m ≠ n → P m s → P m (f s n))
    {s : σ} (hs : I s) (N : Nat) : I (each (List.range N) s f) ∧ ∀ n < N, P n (each (List.range N) s f) := by
  induction N with
  | zero => exact ⟨hs, fun n hn => absurd hn (Nat.not_lt_zero n)⟩
  | succ N ih =>
    obtain ⟨hI, hP⟩ := ih
    rw [List.range_succ, each_append]
    refine ⟨hinv _ N hI, fun n hn => ?_⟩
    by_cases he : n = N
    · exact he ▸ hset _ N hI
    · exact hkeep _ N n he (hP n (by omega))

theorem rget_each_rset_zero (l : List Nat) (s : State) (a : Nat) :
    (each l s (fun s a => s.rset a 0)).rget a = if a ∈ l then 0 else s.rget a := by
  induction l generalizing s with
  | nil => rfl
  | cons b l ih =>
    refine (ih (s.rset b 0)).trans ?_
    by_cases hl : a ∈ l
    · simp [hl]
    · by_cases hb : a = b
      · simp [hb]
      · simpa [hl, hb] using rget_rset_ne s 0 hb

/-! ### Outputs -/

theorem uc_modUc_ne (s : State) {n m : Nat} (f : Uc → Uc) (h : m ≠ n) : (s.modUc n f).uc m = s.uc m := tget_tset_ne _ _ _ _ h

@[simp] theorem uc_modUc_self (s : State) (n : Nat) (f : Uc → Uc) : (s.modUc n f).uc n = f (s.uc n) := uc_setUc_self _ _ _

theorem dioOff_out (s : State) (n : Nat) : ((s.dioOff n).dio n).out = false := by
  by_cases h : (s.dio n).out = false
  · simp [State.dioOff, State.dioApply, h]
  · simp [State.dioOff, State.dioApply, h]

theorem dio_dioOff_ne (s : State) {n m : Nat} (h : m ≠ n) : (s.dioOff n).dio m = s.dio m := by
  unfold State.dioOff State.dioApply
  exact ite_inv (P := fun t : State => t.dio m = s.dio m) rfl (tget_tset_ne _ _ _ _ h)

/-- Nothing but output channels differs between two states. -/
def OnlyOutputs (s t : State) : Prop := { t with dios := s.dios, ucs := s.ucs } = s

theorem OnlyOutputs.state {s t : State} (h : OnlyOutputs s t) :
    t.regs = s.regs ∧ t.mem = s.mem ∧ t.img = s.img ∧ t.strands = s.strands ∧ t.supply = s.supply :=
  ⟨(congrArg State.regs h :), (congrArg State.mem h :), (congrArg State.img h :), (congrArg State.strands h :),
    (congrArg State.supply h :)⟩

theorem OnlyOutputs.ucIdle {s t : State} (h : OnlyOutputs s t) (n : Nat) : t.ucIdle n = s.ucIdle n := (congrArg (State.ucIdle · n) h :)

theorem OnlyOutputs.ucMode {s t : State} (h : OnlyOutputs s t) (n : Nat) : t.ucMode n = s.ucMode n := (congrArg (State.ucMode · n) h :)

theorem OnlyOutputs.dioOff {s t : State} (h : OnlyOutputs s t) {n : Nat} : OnlyOutputs s (t.dioOff n) := by
  unfold State.dioOff State.dioApply
  exact ite_inv h h

theorem ucIdle_eq_zero {s : State} {n : Nat} (h : s.ucMode n ≠ 0x3A) : s.ucIdle n = 0 := if_neg h

/-- The digital outputs have gone off. -/
theorem outputsOff_dio (s : State) {n : Nat} (hn : n < 32) : (s.outputsOff.dio n).out = false := by
  unfold State.outputsOff
  refine each_inv (P := fun t : State => (t.dio n).out = false) ?_ fun t h m => h
  exact (each_range_establishes (I := fun _ => True) (P := fun n t => (State.dio t n).out = false) (fun _ _ _ => trivial)
    (fun t m _ => dioOff_out t m) (fun t m j hj h => by rw [dio_dioOff_ne t hj, h]) trivial 32).2 n hn

theorem OnlyOutputs.modUc {s t : State} (h : OnlyOutputs s t) {n : Nat} {f : Uc → Uc} : OnlyOutputs s (t.modUc n f) := h

theorem dioOffs_onlyOutputs (s : State) (l : List Nat) : OnlyOutputs s (each l s fun s n => s.dioOff n) :=
  each_inv (P := OnlyOutputs s) rfl fun _ h _ => h.dioOff

theorem outputsOff_onlyOutputs (s : State) : OnlyOutputs s s.outputsOff := by
  unfold State.outputsOff
  exact each_inv (P := OnlyOutputs s) (dioOffs_onlyOutputs s _) fun _ h _ => h.modUc

/-- The universal outputs are at rest. -/
theorem outputsOff_uc (s : State) {n : Nat} (hn : n < 16) : (s.outputsOff.uc n).out = s.ucIdle n := by
  unfold State.outputsOff
  exact (each_range_establishes (I := OnlyOutputs s) (P := fun n t => (State.uc t n).out = s.ucIdle n) (fun _ _ h => h.modUc)
    (fun t m h => by rw [uc_modUc_self]; exact h.ucIdle m)
    (fun t m j hj h => by rw [uc_modUc_ne t _ hj]; exact h) (dioOffs_onlyOutputs s _) 16).2 n hn

/-! ### Operations of the store end with a reset (R443) -/

/-- Nothing but memories and their integrity differs between two states. -/
def OnlyMem (s t : State) : Prop := { t with mem := s.mem, integ := s.integ } = s

section
variable {s t : State}

theorem OnlyMem.rget (h : OnlyMem s t) (a : Nat) : t.rget a = s.rget a := (congrArg (State.rget · a) h :)

theorem OnlyMem.rtc (h : OnlyMem s t) : t.rtc = s.rtc := (congrArg State.rtc h :)

theorem OnlyMem.supply (h : OnlyMem s t) : t.supply = s.supply := (congrArg State.supply h :)

theorem OnlyMem.mset (h : OnlyMem s t) {key : Nat} {b : Byte} : OnlyMem s (t.mset key b) := h

theorem OnlyMem.withInteg (h : OnlyMem s t) {l : List Nat} : OnlyMem s { t with integ := l } := h

theorem OnlyMem.msetN (h : OnlyMem s t) {key : Nat} {bs : List Byte} : OnlyMem s (t.msetN key bs) := by
  induction bs generalizing t key with
  | nil => exact h
  | cons b bs ih => exact ih h.mset

theorem OnlyMem.rowErase (h : OnlyMem s t) {row : Nat} : OnlyMem s (t.rowErase row) := by
  unfold State.rowErase
  exact h.msetN.mset.withInteg

theorem OnlyMem.rowProgram (h : OnlyMem s t) {row : Nat} {bytes : List Byte} : OnlyMem s (t.rowProgram row bytes) := by
  unfold State.rowProgram
  exact h.msetN.mset.withInteg

theorem OnlyMem.rowBits (h : OnlyMem s t) {row : Nat} {bytes : List Byte} : OnlyMem s (t.rowBits row bytes) := by
  unfold State.rowBits
  exact h.msetN.mset

theorem OnlyMem.opEffect (h : OnlyMem s t) {q : StoreReq} : OnlyMem s (t.opEffect q) := by
  have herase : OnlyMem s (each (pageRows q.page) t State.rowErase) := each_inv (P := OnlyMem s) h fun _ h _ => h.rowErase
  unfold State.opEffect
  split
  · exact each_inv (P := OnlyMem s) herase fun _ h _ => h.rowProgram
  · exact herase
  · exact h.rowProgram
  · exact h.rowBits
  · exact h.rowProgram.rowBits

end

theorem storeSettle_onlyMem (s : State) : OnlyMem s s.storeSettle :=
  each_inv (P := OnlyMem s) rfl fun _ h _ => h.opEffect

/-! ### A reset of the die (R12, R271) -/

/-- The module as a reset finds it: the operations of the store have ended, and a staged edit that was not armed. -/
def State.settled (s : State) : State := s.storeSettle.editReset

theorem settled_ucMode (s : State) (n : Nat) : s.settled.ucMode n = s.ucMode n := by
  have hmode : SYS_MODE ≠ UC_MODE n := by unfold SYS_MODE UC_MODE; omega
  have hedt : EDT_STAT ≠ UC_MODE n := by unfold EDT_STAT UC_MODE; omega
  have hlost : EVR_LOST ≠ UC_MODE n := by unfold EVR_LOST UC_MODE; omega
  have hevt : EVR_EVT ≠ UC_MODE n := by unfold EVR_EVT UC_MODE; omega
  have hstore : s.storeSettle.rget (UC_MODE n) = s.rget (UC_MODE n) := (storeSettle_onlyMem s).rget _
  exact fget_congr (((Spares.refl _ s.storeSettle).editReset hmode hedt hlost hevt).1.trans hstore)

theorem settled_spares (s : State) :
    s.settled.mem = s.storeSettle.mem ∧ s.settled.rtc = s.rtc ∧ s.settled.supply.resetN = s.supply.resetN := by
  obtain ⟨-, hmem, hrtc, hpin, -⟩ := (Spares.refl SYS_CFGLOCK s.storeSettle).editReset
  exact ⟨hmem, hrtc.trans (storeSettle_onlyMem s).rtc, hpin.trans (congrArg Supply.resetN (storeSettle_onlyMem s).supply)⟩

theorem settled_mem {s : State} (h : s.store.running = []) : s.settled.mem = s.mem := by
  rw [(settled_spares s).1, State.storeSettle, h]
  rfl

/-- A register of which a reset keeps nothing is back at its reset value. -/
theorem tget_keptRegs {cause a : Nat} (h : keptMaskFor cause a = 0) (d : Word) (t : Tab Word) : tget d (keptRegs cause t) a = d := by
  refine tget_of_no_key d fun e he hk => ?_
  have hkept := (List.mem_filter.1 he).2
  rw [hk, h] at hkept
  simp at hkept

/-- Nothing but universal channels differs between two states. -/
def OnlyUcs (s t : State) : Prop := { t with ucs := s.ucs } = s

theorem OnlyUcs.state {s t : State} (h : OnlyUcs s t) :
    t.regs = s.regs ∧ t.mem = s.mem ∧ t.img = s.img ∧ t.strands = s.strands ∧ t.dios = s.dios ∧ t.supply = s.supply ∧ t.rtc = s.rtc :=
  ⟨(congrArg State.regs h :), (congrArg State.mem h :), (congrArg State.img h :), (congrArg State.strands h :),
    (congrArg State.dios h :), (congrArg State.supply h :), (congrArg State.rtc h :)⟩

theorem OnlyUcs.modUc {s t : State} (h : OnlyUcs s t) {n : Nat} {f : Uc → Uc} : OnlyUcs s (t.modUc n f) := h

theorem OnlyUcs.refl (s : State) : OnlyUcs s s := rfl

/-- The die when a reset with a cause has cleared it, before the registers of the reset are written: what is gone, and what is kept
of the registers, the memories, the RTC and the supplies. -/
structure Cleared (s : State) (cause : Nat) (t : State) : Prop where
  strands : t.strands = []
  dios : t.dios = []
  img : t.img = []
  supply : t.supply = s.settled.supply
  count : t.rtc.count = s.settled.rtc.count
  mem : t.mem = s.settled.mem.filter (fun c => decide (keyKeep 0 ≤ c.1))
  regs : t.regs = keptRegs cause s.settled.regs
  uc : ∀ n, n < 16 → (t.uc n).out = s.settled.ucIdle n

/-- What a reset does to the die: it clears it, and writes the count, the cause, the LOCKOUT flag and the slot states. -/
theorem dieReset_eq (s : State) (cause : Nat) (wake : Bool) : ∃ t n lockout, Cleared s (s.causeOf cause) t ∧
    s.dieReset cause wake = ((((t.fput SYS_RSTCNT_COUNT n).fput SYS_RSTCAUSE_CAUSE (s.causeOf cause)).setFlag
      SYS_RSTCAUSE_WAKE wake).setFlag SYS_LOCKOUT_FLAG lockout).showSlots := by
  unfold State.dieReset
  extract_lets cause settled base ctl red upd store rtc cleared idle n counted
  have honly : OnlyUcs cleared idle := each_inv (P := OnlyUcs cleared) (OnlyUcs.refl cleared) fun _ h _ => h.modUc
  have hidle := (each_range_establishes (f := fun (t : State) n => t.modUc n (fun u => { u with out := settled.ucIdle n }))
    (s := cleared) (I := fun _ => True) (P := fun n t => (State.uc t n).out = settled.ucIdle n) (fun _ _ _ => trivial)
    (fun t m _ => by rw [uc_modUc_self]) (fun t m j hj h => by rw [uc_modUc_ne t _ hj]; exact h) trivial 16).2
  obtain ⟨hregs, hmem, himg, hstrands, hdios, hsupply, hrtc⟩ := honly.state
  exact ⟨idle, n, _, ⟨hstrands, hdios, himg, hsupply, (congrArg Rtc.count hrtc :), hmem, hregs, hidle⟩, rfl⟩

theorem causeOf_fresh {s : State} (h : FreshClock s) (cause : Nat) : s.causeOf cause = cause := by
  unfold State.causeOf
  split
  · next t c hat => exact if_neg (h (t, c) hat)
  · rfl

theorem keptMaskFor_eq_zero {cause a : Nat} (ha : a ≠ RED_TKOCNT) (h : keptMask a = 0) : keptMaskFor cause a = 0 := by
  rw [keptMaskFor, if_neg (fun hc => ha hc.1), h]

section
variable (s : State) (cause : Nat) (wake : Bool)

theorem dieReset_strands : (s.dieReset cause wake).strands = [] := by
  obtain ⟨t, n, lockout, ht, heq⟩ := dieReset_eq s cause wake
  simp [heq, State.showSlots, ht.strands]

theorem dieReset_dios : (s.dieReset cause wake).dios = [] := by
  obtain ⟨t, n, lockout, ht, heq⟩ := dieReset_eq s cause wake
  simp [heq, State.showSlots, ht.dios]

theorem dieReset_img : (s.dieReset cause wake).img = [] := by
  obtain ⟨t, n, lockout, ht, heq⟩ := dieReset_eq s cause wake
  simp [heq, State.showSlots, ht.img]

theorem dieReset_resetN : (s.dieReset cause wake).supply.resetN = s.supply.resetN := by
  obtain ⟨t, n, lockout, ht, heq⟩ := dieReset_eq s cause wake
  simp [heq, State.showSlots, ht.supply, settled_spares s]

theorem dieReset_count : (s.dieReset cause wake).rtc.count = s.rtc.count := by
  obtain ⟨t, n, lockout, ht, heq⟩ := dieReset_eq s cause wake
  simp [heq, State.showSlots, ht.count, settled_spares s]

theorem dieReset_mem : (s.dieReset cause wake).mem = s.settled.mem.filter (fun c => decide (keyKeep 0 ≤ c.1)) := by
  obtain ⟨t, n, lockout, ht, heq⟩ := dieReset_eq s cause wake
  simp [heq, State.showSlots, ht.mem]

/-- A universal channel is at rest after a reset, but for the draw of a loop-powered output (R219). -/
theorem dieReset_uc {n : Nat} (hn : n < 16) (hmode : s.ucMode n ≠ 0x3A) : ((s.dieReset cause wake).uc n).out = 0 := by
  obtain ⟨t, m, lockout, ht, heq⟩ := dieReset_eq s cause wake
  simp [heq, State.showSlots, ht.uc n hn, ucIdle_eq_zero (settled_ucMode s n ▸ hmode)]

/-- A register of which a reset keeps nothing, and which it does not write, is back at its reset value. -/
theorem rget_dieReset {a : Nat} (hkept : keptMaskFor (s.causeOf cause) a = 0)
    (ha : a ∉ [SYS_RSTCNT, SYS_RSTCAUSE, SYS_LOCKOUT, UPD_SLOT]) : (s.dieReset cause wake).rget a = regReset a := by
  simp only [List.mem_cons, List.not_mem_nil, or_false, not_or] at ha
  obtain ⟨hcnt, hcause, hlockout, hslot⟩ := ha
  obtain ⟨t, n, lockout, ht, heq⟩ := dieReset_eq s cause wake
  rw [heq, State.showSlots, rget_fput_ne _ _ hslot, rget_fput_ne _ _ hslot, rget_setFlag_ne _ _ hlockout,
    rget_setFlag_ne _ _ hcause, rget_fput_ne _ _ hcause, rget_fput_ne _ _ hcnt, State.rget, ht.regs]
  exact tget_keptRegs hkept _ _

/-- A reset records its cause (R13). -/
theorem dieReset_cause : (s.dieReset cause wake).fget SYS_RSTCAUSE_CAUSE = s.causeOf cause % 16 := by
  obtain ⟨t, n, lockout, -, heq⟩ := dieReset_eq s cause wake
  rw [heq, State.showSlots, fget_fput_ne _ _ (by decide), fget_fput_ne _ _ (by decide), fget_setFlag_ne _ _ (by decide),
    State.setFlag, fget_fput_apart _ SYS_RSTCAUSE_WAKE SYS_RSTCAUSE_CAUSE _ (by decide) rfl (by decide),
    fget_fput_self _ _ _ (by decide)]
  rfl

theorem dieReset_mode : (s.dieReset cause wake).mode = mPowerUp := by
  have hmode := rget_dieReset s cause wake (a := SYS_MODE) (keptMaskFor_eq_zero (by decide) (by decide)) (by decide)
  rw [State.mode, State.fget, hmode]
  decide

theorem dieReset_baton : (s.dieReset cause wake).flag RED_STAT_BATON_OUT = false := by
  have hstat := rget_dieReset s cause wake (a := RED_STAT) (keptMaskFor_eq_zero (by decide) (by decide)) (by decide)
  rw [State.flag, State.fget, hstat]
  decide

end
end Sys2Proof.Machine
end

section
/-!
SUPPORT. The loss of the always-on supply (R470, R487).
-/
namespace Sys2Proof.Machine

set_option Elab.async false

/-- What the always-on domain has lost with its supply, and the memories that are left (R470). -/
structure SupplyLost (s t : State) : Prop where
  rtc : t.rtc = Rtc.reset
  openRec : t.recorder.openRec = none
  evq : t.evq = []
  mem : t.mem = (s.settled.mem.filter (fun c => decide (keyKeep 0 ≤ c.1))).filter
    (fun c => !decide (keyKeep 0 ≤ c.1 ∧ c.1 < keyStore 0))

section
variable {s t : State}

theorem SupplyLost.rset (h : SupplyLost s t) {a : Nat} {v : Word} : SupplyLost s (t.rset a v) := ⟨h.rtc, h.openRec, h.evq, h.mem⟩

theorem SupplyLost.withQs (h : SupplyLost s t) {l : Tab Qs} : SupplyLost s { t with qs := l } := ⟨h.rtc, h.openRec, h.evq, h.mem⟩

/-- The companion's registers read 0, the others are as the reset leaves them, but for the LOCKOUT flag. -/
theorem alwaysOnSupplyLoss_next (s : State) : ∃ t, exec .alwaysOnSupplyLoss s = .next t ∧ SupplyLost s t ∧
    ∀ a, a ≠ SYS_LOCKOUT → t.rget a =
      if a ∈ [RTC_TRIM, RTC_ALARM_LO, RTC_ALARM_HI, RTC_ALM_CTRL, RTC_STAT, SYS_RSTCNT] then 0
      else (s.dieReset rcPor false).rget a := by
  show ∃ t, execAlwaysOnSupplyLoss s = .next t ∧ _
  have hmem := dieReset_mem s rcPor false
  unfold execAlwaysOnSupplyLoss
  extract_lets reset recorder supply ctl lost counted cleared
  have hlost : SupplyLost s lost := ⟨rfl, rfl, rfl, congrArg (List.filter _) hmem⟩
  have hcounted : SupplyLost s counted ∧ counted.regs = reset.regs :=
    each_inv (P := fun t => SupplyLost s t ∧ t.regs = reset.regs) ⟨hlost, rfl⟩ fun _ h _ => ⟨h.1.withQs, h.2⟩
  have hcleared : SupplyLost s cleared := each_inv (P := SupplyLost s) hcounted.1 fun _ h _ => h.rset
  have hregs : ∀ a, counted.rget a = reset.rget a := fun a => by rw [State.rget, hcounted.2, State.rget]
  refine ⟨_, rfl, hcleared.rset, fun a ha => ?_⟩
  rw [rget_setFlag_ne _ _ ha, ← hregs a]
  exact rget_each_rset_zero _ counted a

end

theorem SupplyLost.mget_keep {s t : State} (h : SupplyLost s t) {key : Nat} (hlo : keyKeep 0 ≤ key) (hhi : key < keyStore 0) :
    t.mget key = 0 := by
  rw [State.mget, h.mem]
  refine (tget_filter_dropped _ _ (p := fun k => !decide (keyKeep 0 ≤ k ∧ k < keyStore 0)) (by simp [hlo, hhi])).trans ?_
  unfold keyKeep at hlo
  unfold keyStore at hhi
  simp only [memDefault, keyImem, keyDram, keyFlash, keyStore]
  rw [if_neg (by omega), if_neg (by omega), if_neg (by omega)]

theorem SupplyLost.mget_store {s t : State} (h : SupplyLost s t) (hrun : s.store.running = []) {key : Nat} (hlo : keyStore 0 ≤ key) :
    t.mget key = s.mget key := by
  rw [State.mget, h.mem, settled_mem hrun, State.mget]
  have hkeep : keyKeep 0 ≤ key := Nat.le_trans (by decide) hlo
  refine (tget_filter_kept _ _ (p := fun k => !decide (keyKeep 0 ≤ k ∧ k < keyStore 0)) ?_).trans
    (tget_filter_kept _ _ (p := fun k => decide (keyKeep 0 ≤ k)) (decide_eq_true hkeep))
  rw [decide_eq_false (fun h => Nat.not_lt.2 hlo h.2), Bool.not_false]

end Sys2Proof.Machine
end

section
/-!
CERTIFICATE. The accesses to registers; resets, supplies and the start (R3 to R6, R12, R20, R274, R470, R531).
-/
namespace Sys2Proof.Machine

set_option Elab.async false

/-! ### Accesses to registers -/

/-- Settles O21: the access codes bit by bit, and the three accesses of the steward from what a write and a read do. -/
theorem registerAccesses : Obligations.RegisterAccesses := by
  unfold Obligations.RegisterAccesses
  refine ⟨fun s a i r v hw hr hi => ?_, fun s a v hw hheld hmode => ?_⟩
  · have hbit := plainWrite_bit s v hw hr hi
    rw [writeMask_bit s r hi] at hbit
    refine ⟨fun hw1c hrw hlk => ?_, fun hw1c hrw => ?_, fun hw1c hrw hlk => ?_, fun hw1c hrw hlk => ?_,
      fun b hb => rget_plainWrite_ne s v hw hb⟩
    · simp [hbit, hw1c, hrw, hlk]
    · simp [hbit, hw1c, hrw]
    · cases hlock : s.flag SYS_CFGLOCK_LOCK <;> simp [hbit, hw1c, hrw, hlk, hlock]
    · simp [hbit, hw1c, hrw, hlk]
  · have hoff := stewardOff_eq_false hheld hmode
    refine ⟨fun hcmd => ?_, fun r hr hmb hhi => ?_, ?_⟩
    · refine ⟨s.plainWrite a.toNat v hw, ?_, rfl, fun b hb => rget_plainWrite_ne s v hw hb, plainWrite_frame s _ v hw⟩
      show execRegisterWrite a v hw s = _
      rw [execRegisterWrite, hoff, if_neg (by decide), stewardWrite_of_not_commandReg s v hw hcmd]
    · refine ⟨{ s.rcClear a.toNat hw with readback := s.regView a.toNat }, ?_, rfl,
        (rget_withReadback _ _ _).trans (rget_rcClear_self s hw hr),
        fun b hb => (rget_withReadback _ _ _).trans (rget_rcClear_ne s hw hb), ?_⟩
      · show execReadClear a hw s = _
        rw [execReadClear, hoff, if_neg (by decide), stewardRead_plain s hw hr hmb hhi]
      · exact congrArg (fun t : State => { t with readback := s.readback }) (rcClear_frame s a.toNat hw)
    · refine ⟨s.stewardRead CYC_TB_LO 0, ?_, ?_⟩
      · show execHighWordLatch (BitVec.ofNat 32 CYC_TB_LO) s = _
        rw [execHighWordLatch, hoff, if_neg (by decide)]
        rfl
      · rw [regView_cyc_tb_hi, stewardRead_cyc_tb_lo]
        refine ⟨?_, ?_, rfl⟩
        · exact BitVec.eq_of_toNat_eq (by simp [State.tbNat])
        · exact BitVec.eq_of_toNat_eq (by simp [State.tbNat, Nat.shiftRight_eq_div_pow])

/-! ### Clock faults and RESET_n -/

theorem withCtl_leaves (r : State) (c : Control) :
    ({ r with ctl := c } : State).flag RED_STAT_BATON_OUT = r.flag RED_STAT_BATON_OUT ∧ ({ r with ctl := c } : State).mode = r.mode ∧
      ({ r with ctl := c } : State).strands = r.strands ∧ ({ r with ctl := c } : State).dios = r.dios ∧
      ∀ n, ({ r with ctl := c } : State).uc n = r.uc n := ⟨rfl, rfl, rfl, rfl, fun _ => rfl⟩

section
variable {s : State} (hheld : s.ctl.held = false)
include hheld

theorem clockFault_holds_die (hmode : s.mode ≠ mDormant) (cause : Fin 3) (ppm : Int) :
    ∃ t, exec (.clockFault cause ppm) s = .next t ∧ t.ctl.held = true ∧ t.ctl.faultN = true ∧ t.flag RED_STAT_BATON_OUT = false ∧
      t.mode = mPowerUp ∧ t.strands = [] ∧ t.dios = [] ∧ (∀ n, n < 16 → s.ucMode n ≠ 0x3A → (t.uc n).out = 0) ∧
      ∃ rest, t.ctl.clockFault = some (BitVec.ofNat 8 cause :: rest) := by
  have hrun : (s.ctl.held || s.mode == mDormant) = false := stewardOff_eq_false hheld hmode
  show ∃ t, execClockFault cause ppm s = .next t ∧ _
  unfold execClockFault
  rw [if_neg (by rw [hrun]; decide)]
  extract_lets record off reset ctl
  have huc : ∀ n, off.ucMode n = s.ucMode n := fun n =>
    ((outputsOff_onlyOutputs _).ucMode n).trans (fget_setFlag_ne s _ (show UC_MODE n ≠ RED_STAT by unfold UC_MODE RED_STAT; omega))
  obtain ⟨hbaton, hpowerUp, hstrands, hdios, huc'⟩ := withCtl_leaves reset
    { ctl with held := true, faultN := true, clockFault := some record }
  exact ⟨_, rfl, rfl, rfl, hbaton.trans (dieReset_baton off rcPor false), hpowerUp.trans (dieReset_mode off rcPor false),
    hstrands.trans (dieReset_strands off rcPor false), hdios.trans (dieReset_dios off rcPor false),
    fun n hn hloop => (congrArg Uc.out (huc' n)).trans (dieReset_uc off rcPor false hn ((huc n).symm ▸ hloop)), _, rfl⟩

omit hheld in
theorem resetN_takes_outputs_off (hpfail : s.ctl.pfail = false) (hpin : s.supply.resetN = none) :
    ∃ t, exec .resetNAsserted s = .next t ∧ t.supply.resetN = some s.fab ∧ (∀ n, n < 32 → (t.dio n).out = false) ∧
      (∀ n, n < 16 → s.ucMode n ≠ 0x3A → (t.uc n).out = 0) ∧ t.strands = s.strands ∧ t.regs = s.regs ∧ t.mem = s.mem ∧ t.img = s.img := by
  show ∃ t, execResetNAsserted s = .next t ∧ _
  unfold execResetNAsserted
  rw [hpin, if_neg (by decide)]
  extract_lets supply low
  obtain ⟨hregs, hmem, himg, hstrands, hsupply⟩ := (outputsOff_onlyOutputs low).state
  refine ⟨low.outputsOff, if_neg (by simp [low, hpfail]), by rw [hsupply], fun n hn => outputsOff_dio low hn,
    fun n hn hloop => (outputsOff_uc low hn).trans (ucIdle_eq_zero hloop), hstrands, hregs, hmem, himg⟩

theorem externalReset_resets (hmode : s.mode ≠ mDormant) (hpfail : s.ctl.pfail = false) {t0 : Nat}
    (hpin : s.supply.resetN = some t0) (hlong : t0 + 5000000 ≤ s.fab) (hfresh : FreshClock s) :
    ∃ t, exec .externalReset s = .next t ∧ t.mode = mPowerUp ∧ t.fget SYS_RSTCAUSE_CAUSE = 1 ∧ t.strands = [] ∧ t.img = [] ∧
      t.supply.resetN = none ∧ t.rtc.count = s.rtc.count := by
  have hcause := causeOf_fresh (s := { s with supply := { s.supply with resetN := none } }) hfresh rcExt
  refine ⟨({ s with supply := { s.supply with resetN := none } } : State).dieReset rcExt false, ?_, dieReset_mode _ _ _, ?_,
    dieReset_strands _ _ _, dieReset_img _ _ _, dieReset_resetN _ _ _, dieReset_count _ _ _⟩
  · have hms : ¬ s.fab - t0 < 500000 ∧ ¬ s.fab - t0 < 5000000 := by omega
    have hacts : ¬ (s.ctl.pfail || s.ctl.held || s.mode == mDormant || decide (s.fab - t0 < 500000)) = true := by
      simp [hpfail, hheld, hmode, hms.1]
    show execExternalReset s = _
    unfold execExternalReset
    rw [hpin]
    exact (if_neg hacts).trans (if_neg hms.2)
  · rw [dieReset_cause, hcause]
    rfl

omit hheld in
theorem externalReset_ignores_short {t0 : Nat} (hpin : s.supply.resetN = some t0) (hshort : s.fab < t0 + 500000) :
    exec .externalReset s = .next { s with supply := { s.supply with resetN := none } } := by
  have hms : s.fab - t0 < 500000 := by omega
  show execExternalReset s = _
  simp only [execExternalReset, hpin, hms, decide_true, Bool.or_true, if_true]

end

/-! ### The start -/

theorem startUp_ignored {s : State} {x : StartIn} (hsup : x.supply = none)
    (h : s.ctl.held = true ∨ s.mode ≠ mPowerUp ∨ s.flag SYS_BOOT_FAIL = true) : exec (.startUp x) s = .next s := by
  show execStartUp x s = _
  simp only [execStartUp, hsup]
  rcases h with h | h | h <;> simp [h]

section
variable {s : State} {x : StartIn} (hsup : x.supply = none) (hheld : s.ctl.held = false) (hmode : s.mode = mPowerUp)
  (hfail : s.flag SYS_BOOT_FAIL = false)
include hsup hheld hmode hfail

theorem exec_startUp : exec (.startUp x) s = .next (s.startUp x) := by
  show execStartUp x s = _
  simp only [execStartUp, hsup]
  simp [hheld, hmode, hfail]

theorem startUp_rom_fails (hrom : x.romOk = false) : ∃ t, exec (.startUp x) s = .next t ∧ StoppedAt 2 t := by
  have hstep1 : (s.step1 x).mode = mPowerUp := (fget_congr (step1_spares s x).1).trans hmode
  refine ⟨s.startUp x, exec_startUp hsup hheld hmode hfail, ?_⟩
  rw [startUp_of_rom_fails s hrom]
  exact stepFails_stoppedAt hstep1 (by decide)

variable (hrom : x.romOk = true) (hinit : x.initOk = true) (hcmp : x.cmpFail = 0) (hanchor : x.anchorOk = true)
include hrom hinit hcmp hanchor

theorem startUp_recovers (h0 : s.slotState 0 = slEmpty) (h1 : s.slotState 1 = slEmpty) :
    ∃ t, exec (.startUp x) s = .next t ∧ StoppedAt 6 t ∧ t.flag UPD_STAT_RECOVERY = true := by
  have hstep5 : (s.step5 x).mode = mPowerUp := (fget_congr (step5_spares s x).1).trans hmode
  refine ⟨s.startUp x, exec_startUp hsup hheld hmode hfail, ?_⟩
  rw [startUp_of_no_slot hrom hinit hcmp hanchor h0 h1]
  exact ⟨enterRecovery_stoppedAt hstep5, enterRecovery_shown _⟩

theorem startUp_locks (h0 : s.slotState 0 = slConfirmed) (h1 : s.slotState 1 = slEmpty) (hv : s.slotVerifies 0 x.verify0 = true) :
    ∃ t, exec (.startUp x) s = .next t ∧ t.flag SYS_CFGLOCK_LOCK = true ∧ t.ctl.bootMs = x.bootMs := by
  refine ⟨s.startUp x, exec_startUp hsup hheld hmode hfail, ?_⟩
  rw [startUp_of_slot_0 hrom hinit hcmp hanchor h0 h1 hv]
  exact step8_of_locked x ((flag_bootClock _ _ _ _).trans (step7_locks _ x))

end

/-! ### Resets and the start -/

/-- Settles O22: the rules of a reset of the die for clock faults, RESET_n and the loss of the always-on supply; and steps 1 to 8 of the
start, of which the first five spare mode and slots, the seventh sets the configuration lock and the eighth spares it. -/
theorem resetsAndStart : Obligations.ResetsAndStart := by
  unfold Obligations.ResetsAndStart
  refine ⟨fun s cause ppm t0 hheld hmode hpfail => ⟨clockFault_holds_die hheld hmode cause ppm, resetN_takes_outputs_off hpfail,
      fun hpin hlong hfresh => externalReset_resets hheld hmode hpfail hpin hlong hfresh, externalReset_ignores_short, fun hcell => ?_⟩,
    fun s => ?_, fun s x => ⟨startUp_ignored, fun hsup hheld hmode hfail => ⟨startUp_rom_fails hsup hheld hmode hfail,
      fun hrom hinit hcmp hanchor => ⟨startUp_locks hsup hheld hmode hfail hrom hinit hcmp hanchor,
        fun h0 h1 => ?_⟩⟩⟩⟩
  · show execCellSwitchOver s = _
    simp [execCellSwitchOver, hcell]
  · obtain ⟨t, hnext, hlost, hregs⟩ := alwaysOnSupplyLoss_next s
    have hstat : t.rget RTC_STAT = 0 := hregs RTC_STAT (by decide)
    have htrim : t.rget RTC_TRIM = 0 := hregs RTC_TRIM (by decide)
    have hmode : t.rget SYS_MODE = (s.dieReset rcPor false).rget SYS_MODE := hregs SYS_MODE (by decide)
    refine ⟨t, hnext, hlost.rtc, hlost.openRec, hlost.evq, ?_, ?_, (fget_congr hmode).trans (dieReset_mode s rcPor false),
      fun key => hlost.mget_keep, fun hrun key => hlost.mget_store hrun⟩
    · rw [State.flag, State.fget, hstat]
      decide
    · rw [State.fget, htrim]
      decide
  · obtain ⟨t, hnext, ⟨hpowerUp, hstep, hshown, hfault⟩, hrecovery⟩ :=
      startUp_recovers hsup hheld hmode hfail hrom hinit hcmp hanchor h0 h1
    exact ⟨t, hnext, hpowerUp, hstep, hshown, hfault, hrecovery⟩

end Sys2Proof.Machine
end

section
/-!
CERTIFICATE. Every step keeps the memories and the image store in canonical form: `Keeps` of every command and of the clock.
-/
namespace Sys2Proof.Machine

/-- Every command goes on, and keeps the queue, what has been sent and the canonical form of the memories: by the lemma of its meaning. -/
theorem exec_keeps {s t : State} (h : Keeps s t) (c : Instr) : KeepsO s (exec c t) :=
  match c with
  | .clockFault .. => execClockFault_keeps h
  | .fabricAdmission => execFabricAdmission_keeps h
  | .registerWrite .. => execRegisterWrite_keeps h
  | .readClear .. => execReadClear_keeps h
  | .highWordLatch .. => execHighWordLatch_keeps h
  | .cycleStart .. => execCycleStart_keeps h
  | .shed .. => execShed_keeps h
  | .beamStart .. => execBeamStart_keeps h
  | .commitComplete .. => execCommitComplete_keeps h
  | .commitDeadline .. => execCommitDeadline_keeps h
  | .emit .. => execEmit_keeps h
  | .gateClose .. => execGateClose_keeps h
  | .rioWindowEnd .. => execRioWindowEnd_keeps h
  | .beatTimeout .. => execBeatTimeout_keeps h
  | .gptpMessage .. => execGptpMessage_keeps h
  | .forceSet .. => execForceSet_keeps h
  | .forceRelease .. => execForceRelease_keeps h
  | .illegalInstruction .. => execIllegalInstruction_keeps h
  | .ldb .. => execLdb_keeps h
  | .ldbn .. => execLdbn_keeps h
  | .andb .. => execAndb_keeps h
  | .andbn .. => execAndbn_keeps h
  | .orb .. => execOrb_keeps h
  | .orbn .. => execOrbn_keeps h
  | .xorb .. => execXorb_keeps h
  | .ldbc .. => execLdbc_keeps h
  | .notb .. => execNotb_keeps h
  | .pshb .. => execPshb_keeps h
  | .andpb .. => execAndpb_keeps h
  | .orpb .. => execOrpb_keeps h
  | .xorpb .. => execXorpb_keeps h
  | .popb .. => execPopb_keeps h
  | .dupb .. => execDupb_keeps h
  | .outb .. => execOutb_keeps h
  | .setb .. => execSetb_keeps h
  | .rstb .. => execRstb_keeps h
  | .edgr .. => execEdgr_keeps h
  | .edgf .. => execEdgf_keeps h
  | .add .. => execAdd_keeps h
  | .addi .. => execAddi_keeps h
  | .adc .. => execAdc_keeps h
  | .sub .. => execSub_keeps h
  | .subi .. => execSubi_keeps h
  | .sbc .. => execSbc_keeps h
  | .cmp .. => execCmp_keeps h
  | .cmpi .. => execCmpi_keeps h
  | .neg .. => execNeg_keeps h
  | .and .. => execAnd_keeps h
  | .andi .. => execAndi_keeps h
  | .or .. => execOr_keeps h
  | .ori .. => execOri_keeps h
  | .xor .. => execXor_keeps h
  | .xori .. => execXori_keeps h
  | .not .. => execNot_keeps h
  | .tst .. => execTst_keeps h
  | .shl .. => execShl_keeps h
  | .shr .. => execShr_keeps h
  | .sar .. => execSar_keeps h
  | .ror .. => execRor_keeps h
  | .mul .. => execMul_keeps h
  | .mulu .. => execMulu_keeps h
  | .div .. => execDiv_keeps h
  | .divu .. => execDivu_keeps h
  | .rem .. => execRem_keeps h
  | .remu .. => execRemu_keeps h
  | .min .. => execMin_keeps h
  | .max .. => execMax_keeps h
  | .minu .. => execMinu_keeps h
  | .maxu .. => execMaxu_keeps h
  | .clz .. => execClz_keeps h
  | .mov .. => execMov_keeps h
  | .movl .. => execMovl_keeps h
  | .movh .. => execMovh_keeps h
  | .sxtb .. => execSxtb_keeps h
  | .sxth .. => execSxth_keeps h
  | .zxtb .. => execZxtb_keeps h
  | .zxth .. => execZxth_keeps h
  | .mpy .. => execMpy_keeps h
  | .mac .. => execMac_keeps h
  | .msu .. => execMsu_keeps h
  | .macp .. => execMacp_keeps h
  | .msup .. => execMsup_keeps h
  | .clra .. => execClra_keeps h
  | .adda .. => execAdda_keeps h
  | .suba .. => execSuba_keeps h
  | .asha .. => execAsha_keeps h
  | .accr .. => execAccr_keeps h
  | .rdal .. => execRdal_keeps h
  | .rdah .. => execRdah_keeps h
  | .rdag .. => execRdag_keeps h
  | .wral .. => execWral_keeps h
  | .wrah .. => execWrah_keeps h
  | .wrag .. => execWrag_keeps h
  | .fmul .. => execFmul_keeps h
  | .qadd .. => execQadd_keeps h
  | .qsub .. => execQsub_keeps h
  | .qneg .. => execQneg_keeps h
  | .qabs .. => execQabs_keeps h
  | .lw .. => execLw_keeps h
  | .lh .. => execLh_keeps h
  | .lhu .. => execLhu_keeps h
  | .lby .. => execLby_keeps h
  | .lbyu .. => execLbyu_keeps h
  | .sw .. => execSw_keeps h
  | .sh .. => execSh_keeps h
  | .sby .. => execSby_keeps h
  | .movp .. => execMovp_keeps h
  | .rdp .. => execRdp_keeps h
  | .wrl .. => execWrl_keeps h
  | .rdl .. => execRdl_keeps h
  | .lr .. => execLr_keeps h
  | .sc .. => execSc_keeps h
  | .tsb .. => execTsb_keeps h
  | .clb .. => execClb_keeps h
  | .b .. => execB_keeps h
  | .dbnz .. => execDbnz_keeps h
  | .jr .. => execJr_keeps h
  | .call .. => execCall_keeps h
  | .callr .. => execCallr_keeps h
  | .ret .. => execRet_keeps h
  | .push .. => execPush_keeps h
  | .pop .. => execPop_keeps h
  | .adjsp .. => execAdjsp_keeps h
  | .rddsp .. => execRddsp_keeps h
  | .rdrsp .. => execRdrsp_keeps h
  | .nop .. => execNop_keeps h
  | .beat .. => execBeat_keeps h
  | .endc .. => execEndc_keeps h
  | .fence .. => execFence_keeps h
  | .chkin .. => execChkin_keeps h
  | .sej .. => execSej_keeps h
  | .rdsys .. => execRdsys_keeps h
  | .wrsys .. => execWrsys_keeps h
  | .setbk .. => execSetbk_keeps h
  | .setbki .. => execSetbki_keeps h
  | .rdbk .. => execRdbk_keeps h
  | .rdctx .. => execRdctx_keeps h
  | .trap .. => execTrap_keeps h
  | .rdfl .. => execRdfl_keeps h
  | .wrfl .. => execWrfl_keeps h
  | .clrq .. => execClrq_keeps h
  | .rdfxm .. => execRdfxm_keeps h
  | .wrfxm .. => execWrfxm_keeps h
  | .pipelineSample .. => execPipelineSample_keeps h
  | .jobComplete .. => execJobComplete_keeps h
  | .ucLinkLoss .. => execUcLinkLoss_keeps h
  | .brownout .. => execBrownout_keeps h
  | .frontEndRestart .. => execFrontEndRestart_keeps h
  | .commandLoss .. => execCommandLoss_keeps h
  | .diagChange .. => execDiagChange_keeps h
  | .adcOverrange .. => execAdcOverrange_keeps h
  | .loopShort .. => execLoopShort_keeps h
  | .voltageOutputShort .. => execVoltageOutputShort_keeps h
  | .coldJunctionRestore .. => execColdJunctionRestore_keeps h
  | .groupSupplyMeasure .. => execGroupSupplyMeasure_keeps h
  | .groupCurrentTrip .. => execGroupCurrentTrip_keeps h
  | .overload .. => execOverload_keeps h
  | .thermalShutdown .. => execThermalShutdown_keeps h
  | .inputFilter .. => execInputFilter_keeps h
  | .counterEdge .. => execCounterEdge_keeps h
  | .noSignal .. => execNoSignal_keeps h
  | .keyPositionChange .. => execKeyPositionChange_keeps h
  | .keyFault .. => execKeyFault_keeps h
  | .stopRequest => execStopRequest_keeps h
  | .programRequest => execProgramRequest_keeps h
  | .runRequest => execRunRequest_keeps h
  | .serviceRequest => execServiceRequest_keeps h
  | .dormantRequest => execDormantRequest_keeps h
  | .restartRequest .. => execRestartRequest_keeps h
  | .startUp .. => execStartUp_keeps h
  | .roleWaitExpiry => execRoleWaitExpiry_keeps h
  | .externalReset => execExternalReset_keeps h
  | .pfail => execPfail_keeps h
  | .flushComplete => execFlushComplete_keeps h
  | .editPackage .. => execEditPackage_keeps h
  | .editConfirm => execEditConfirm_keeps h
  | .preparedAck .. => execPreparedAck_keeps h
  | .proposalLapse => execProposalLapse_keeps h
  | .editAbort => execEditAbort_keeps h
  | .dryPassAbandon .. => execDryPassAbandon_keeps h
  | .proofCycleAbandon .. => execProofCycleAbandon_keeps h
  | .melberLinkUp .. => execMelberLinkUp_keeps h
  | .melberLinkDown .. => execMelberLinkDown_keeps h
  | .frameResend .. => execFrameResend_keeps h
  | .mirrorCopyComplete .. => execMirrorCopyComplete_keeps h
  | .mirrorWindowExpiry .. => execMirrorWindowExpiry_keeps h
  | .mirrorSetReceived .. => execMirrorSetReceived_keeps h
  | .setAcknowledged .. => execSetAcknowledged_keeps h
  | .heartbeat => execHeartbeat_keeps h
  | .heartbeatReceived .. => execHeartbeatReceived_keeps h
  | .heartbeatTimeout => execHeartbeatTimeout_keeps h
  | .batonInFall => execBatonInFall_keeps h
  | .dualPrimaryYield => execDualPrimaryYield_keeps h
  | .batonFault => execBatonFault_keeps h
  | .batonFaultClear => execBatonFaultClear_keeps h
  | .handover => execHandover_keeps h
  | .resync => execResync_keeps h
  | .alignmentSegment .. => execAlignmentSegment_keeps h
  | .handoverProposal .. => execHandoverProposal_keeps h
  | .handoverAck .. => execHandoverAck_keeps h
  | .handoverLapse => execHandoverLapse_keeps h
  | .takeback => execTakeback_keeps h
  | .takebackDeferred => execTakebackDeferred_keeps h
  | .witnessHeartbeat .. => execWitnessHeartbeat_keeps h
  | .formationTimeout .. => execFormationTimeout_keeps h
  | .modeAnnounce .. => execModeAnnounce_keeps h
  | .timeMessage => execTimeMessage_keeps h
  | .timeMessageReceived .. => execTimeMessageReceived_keeps h
  | .beatMessage .. => execBeatMessage_keeps h
  | .exports .. => execExports_keeps h
  | .done .. => execDone_keeps h
  | .release .. => execRelease_keeps h
  | .cutInstant .. => execCutInstant_keeps h
  | .late .. => execLate_keeps h
  | .fail .. => execFail_keeps h
  | .hedgeHeartbeat => execHedgeHeartbeat_keeps h
  | .hedgeHeartbeatTimeout .. => execHedgeHeartbeatTimeout_keeps h
  | .tbOffsetFault => execTbOffsetFault_keeps h
  | .takeoverDistribution .. => execTakeoverDistribution_keeps h
  | .bankedAccessComplete .. => execBankedAccessComplete_keeps h
  | .scAnswer .. => execScAnswer_keeps h
  | .ethFrameReceived .. => execEthFrameReceived_keeps h
  | .ethLinkChange .. => execEthLinkChange_keeps h
  | .sessionConnect .. => execSessionConnect_keeps h
  | .sessionIdleTimeout .. => execSessionIdleTimeout_keeps h
  | .quePost .. => execQuePost_keeps h
  | .queRetire .. => execQueRetire_keeps h
  | .canFrameReceived .. => execCanFrameReceived_keeps h
  | .txreq .. => execTxreq_keeps h
  | .abortPendingFrame .. => execAbortPendingFrame_keeps h
  | .launchTime .. => execLaunchTime_keeps h
  | .transmitDeadline .. => execTransmitDeadline_keeps h
  | .arbitrationStart .. => execArbitrationStart_keeps h
  | .transmissionComplete .. => execTransmissionComplete_keeps h
  | .canError .. => execCanError_keeps h
  | .busOffRecovery .. => execBusOffRecovery_keeps h
  | .mailboxHeaderRead .. => execMailboxHeaderRead_keeps h
  | .lastDataWordRead .. => execLastDataWordRead_keeps h
  | .lockTimeout .. => execLockTimeout_keeps h
  | .lockstepMismatch .. => execLockstepMismatch_keeps h
  | .stewardMismatch .. => execStewardMismatch_keeps h
  | .stewardFaultReset => execStewardFaultReset_keeps h
  | .correctionWriteBack => execCorrectionWriteBack_keeps h
  | .scrub .. => execScrub_keeps h
  | .dramScrub .. => execDramScrub_keeps h
  | .keepRamScrub .. => execKeepRamScrub_keeps h
  | .watchdogPeriodEnd .. => execWatchdogPeriodEnd_keeps h
  | .stewardCheckIn .. => execStewardCheckIn_keeps h
  | .threadRestartTimeout .. => execThreadRestartTimeout_keeps h
  | .trickle => execTrickle_keeps h
  | .checkpointPage => execCheckpointPage_keeps h
  | .storeOperationEnd .. => execStoreOperationEnd_keeps h
  | .readCommand => execReadCommand_keeps h
  | .writeCommand => execWriteCommand_keeps h
  | .pageErase => execPageErase_keeps h
  | .rowProgram => execRowProgram_keeps h
  | .bitProgram => execBitProgram_keeps h
  | .qsIncrement .. => execQsIncrement_keeps h
  | .eventIntake => execEventIntake_keeps h
  | .sealTimeout => execSealTimeout_keeps h
  | .consolidationRequest => execConsolidationRequest_keeps h
  | .rtcSet => execRtcSet_keeps h
  | .rtcSetApply => execRtcSetApply_keeps h
  | .clockSetRequest .. => execClockSetRequest_keeps h
  | .arm => execArm_keeps h
  | .disarm => execDisarm_keeps h
  | .wakeConfig .. => execWakeConfig_keeps h
  | .alarmFire => execAlarmFire_keeps h
  | .periodicWake => execPeriodicWake_keeps h
  | .mainsWindow .. => execMainsWindow_keeps h
  | .tbLatch .. => execTbLatch_keeps h
  | .deliveryStart .. => execDeliveryStart_keeps h
  | .chunk .. => execChunk_keeps h
  | .abort => execAbort_keeps h
  | .activate .. => execActivate_keeps h
  | .fallbackCopyWritten => execFallbackCopyWritten_keeps h
  | .reject => execReject_keeps h
  | .trialWindowEnd => execTrialWindowEnd_keeps h
  | .privUpdate .. => execPrivUpdate_keeps h
  | .privUpdateEnd .. => execPrivUpdateEnd_keeps h
  | .enrol .. => execEnrol_keeps h
  | .revoke .. => execRevoke_keeps h
  | .recoveryImage .. => execRecoveryImage_keeps h
  | .attestationRequest .. => execAttestationRequest_keeps h
  | .obsLinkChange .. => execObsLinkChange_keeps h
  | .traceStart => execTraceStart_keeps h
  | .traceStop => execTraceStop_keeps h
  | .traceDrainEnd => execTraceDrainEnd_keeps h
  | .snap => execSnap_keeps h
  | .clear => execClear_keeps h
  | .freeze .. => execFreeze_keeps h
  | .rtcTick => execRtcTick_keeps h
  | .cellSwitchOver => execCellSwitchOver_keeps h
  | .alwaysOnSupplyLoss => execAlwaysOnSupplyLoss_keeps h
  | .resetNAsserted => execResetNAsserted_keeps h
  | .batonInRise => execBatonInRise_keeps h
  | .keyFaultClear .. => execKeyFaultClear_keeps h
  | .mainsRefAbsent => execMainsRefAbsent_keeps h
  | .sequenceRecoveryReset .. => execSequenceRecoveryReset_keeps h
  | .gptpSyncInterval .. => execGptpSyncInterval_keeps h
  | .ethFrameTransmitted .. => execEthFrameTransmitted_keeps h
  | .commitProposalReceived .. => execCommitProposalReceived_keeps h
  | .swapAcknowledgement .. => execSwapAcknowledgement_keeps h
  | .crossFadeStep .. => execCrossFadeStep_keeps h
  | .memberAccessRequest .. => execMemberAccessRequest_keeps h

/-! ### One clock -/

theorem resume_keeps {s t : State} (h : Keeps s t) (st : Nat) : Keeps s (t.resume st) := by
  unfold State.resume
  split
  · exact h
  · next w _ =>
    refine ite_inv ?_ h
    have hexec := exec_keeps (State.dropStall_keeps h (a2 := st)) w.instr
    split
    · next u hu => exact ofEq_inv (P := KeepsO s) hexec hu
    · exact h

theorem tick_keeps (s : State) : Keeps s s.tick := by
  unfold State.tick
  extract_lets clocked counted resumed mirrored handed
  have hclocked : Keeps s clocked := upd_keeps (Keeps.refl s)
  have hcounted : Keeps s counted := State.tickCounters_keeps (State.tickTb_keeps hclocked)
  have hresumed : Keeps s resumed := each_inv hcounted fun _ h st => resume_keeps h st
  have hmirrored : Keeps s mirrored := each_inv hresumed fun _ h _ => State.mirrorEnd_keeps h
  have hhanded : Keeps s handed := each_inv hmirrored fun _ h _ => State.outgoingOff_keeps h
  exact ite_inv hclocked (State.tickObs_keeps (State.tickTrial_keeps (State.tickProofs_keeps (State.tickDwell_keeps
    (State.takeoverMode_keeps (State.gateAgain_keeps hhanded))))))

/-! ### One step -/

theorem step_keeps_wf {s t : State} (h : Memory.wf s = true) (hstep : step s = .next t) : Memory.wf t = true := by
  have hkept : (memWf s.mem = true → memWf t.mem = true) ∧ (imgWf s.img = true → imgWf t.img = true) := by
    unfold step at hstep
    split at hstep
    · cases hstep
      exact (tick_keeps s).2.2
    · next c rest _ =>
      have hexec := ofEq_inv (P := KeepsO _) (exec_keeps (Keeps.refl { s with pending := rest }) c) hstep
      exact hexec.2.2
  obtain ⟨hmem, himg⟩ := hkept
  obtain ⟨hm, hi⟩ := Bool.and_eq_true_iff.1 h
  exact Bool.and_eq_true_iff.2 ⟨hmem hm, himg hi⟩

/-- Settles O4: every command and the clock keep the canonical form (`exec_keeps`, `tick_keeps`). -/
theorem stepsKeepMemoryCanonical : Obligations.StepsKeepMemoryCanonical :=
  fun _ _ h hstep => step_keeps_wf h hstep

end Sys2Proof.Machine
end

section
/-!
CERTIFICATE. Force requests of a session, and the admission of a waiting strand to the image fabric (R28, R70 to R72).
-/
namespace Sys2Proof.Machine

/-! ### Force requests (R70 to R72) -/

theorem length_insertUp_le (x : Nat) (l : List Nat) : (insertUp x l).length ≤ l.length + 1 := by
  induction l with
  | nil => exact Nat.le_refl _
  | cons a l ih =>
    rw [insertUp]
    split
    · exact Nat.le_refl _
    · split
      · exact Nat.le_succ _
      · exact Nat.succ_le_succ ih

/-- A fold that takes in at most one number per step grows by at most as many as there are steps. -/
theorem length_foldl_le {α : Type} (items : List α) {f : List Nat → α → List Nat} (hf : ∀ l x, (f l x).length ≤ l.length + 1)
    (l : List Nat) : (items.foldl f l).length ≤ l.length + items.length := by
  induction items generalizing l with
  | nil => exact Nat.le_refl _
  | cons x items ih =>
    have hstep := hf l x
    have hrest := ih (f l x)
    rw [List.foldl_cons, List.length_cons]
    omega

theorem length_forceKeys_le (s : State) : s.forceKeys.length ≤ s.forces.length + s.forceReq.length := by
  have hfold := length_foldl_le s.forceReq
    (f := fun l f => if f.value.isSome then insertUp (forceKey f.kind f.idx) l else l) (fun l f => by
      split
      · exact length_insertUp_le _ l
      · exact Nat.le_succ _) (s.forces.map (·.1))
  rwa [List.length_map] at hfold

/-- The status of a request of a session in PROGRAM whose items entries cover and which leaves room. -/
theorem forceStatus_ok {s : State} {items : List ForceItem} (release : Bool) (hmode : s.mode = mProgram)
    (hcover : ∀ x, x ∈ items → (s.entryOf x.kind.val x.idx.toNat).isSome = true)
    (hroom : s.forces.length + s.forceReq.length + items.length ≤ 1024) : s.forceStatus items release = scOk := by
  have hkeys := length_forceKeys_le s
  have hgrow := length_foldl_le items (f := fun l x => insertUp (forceKey x.kind.val x.idx.toNat) l)
    (fun l _ => length_insertUp_le _ l) s.forceKeys
  have hsize : ¬ (1024 < (items.foldl (fun l x => insertUp (forceKey x.kind.val x.idx.toNat) l) s.forceKeys).length) := by omega
  have hrange : ¬ items.any (fun x => (s.entryOf x.kind.val x.idx.toNat).isNone) = true := by
    simpa [← Option.isSome_iff_ne_none] using hcover
  unfold State.forceStatus
  rw [if_neg (not_not_intro hmode), if_neg (by simp [hsize]), if_neg hrange]

theorem forceStatus_perm {s : State} (items : List ForceItem) (release : Bool) (hmode : s.mode ≠ mProgram) :
    s.forceStatus items release = scPerm := if_pos hmode

/-- A refused request of a session is answered and changes nothing else. -/
theorem forceRequest_refused {s : State} {items : List ForceItem} {release : Bool} (h : s.forceStatus items release ≠ scOk) :
    s.forceRequest items release none = s.answer saForce (s.forceStatus items release) := if_pos h

/-- An accepted request of a session waits for the t0 of its items (R72); an unpaired module forwards nothing. -/
theorem forceRequest_accepted {s : State} {items : List ForceItem} {release : Bool} (h : s.forceStatus items release = scOk)
    (hpair : s.red.partner = none) :
    s.forceRequest items release none = (s.answer saForce scOk).forceQueue items release ((s.cls 0).cyc + 1) := by
  have hpaired : ¬ (((s.answer saForce scOk).forceQueue items release ((s.cls 0).cyc + 1)).paired = true ∧
      ((s.answer saForce scOk).forceQueue items release ((s.cls 0).cyc + 1)).role = 1) := by
    simp [State.paired, State.forceQueue, State.answer, hpair]
  simp only [State.forceRequest, h]
  exact if_neg hpaired

theorem exec_forceSet {s : State} (items : List ForceItem) (hoff : s.stewardOff = false) :
    exec (.forceSet items none) s = .next (s.forceRequest items false none) := if_neg (by simp [hoff])

theorem exec_forceRelease {s : State} (items : List ForceItem) (hoff : s.stewardOff = false) :
    exec (.forceRelease items none) s = .next (s.forceRequest items true none) := if_neg (by simp [hoff])

/-! ### Admission to the image fabric (R28) -/

/-- The first waiting strand that has not been served in this round comes next. -/
theorem fabricNext_eq {s : State} {st : Fin 16} (hwait : st.val ∈ s.fabWait) (hserved : st.val ∉ s.fabServed)
    (hfirst : ∀ j, j < st.val → j ∈ s.fabWait → j ∈ s.fabServed) : s.fabricNext = some st.val := by
  have hfind : (List.range 16).find? (fun j => s.fabWait.contains j && !s.fabServed.contains j) = some st.val := by
    rw [List.find?_range_eq_some]
    refine ⟨by simp [hwait, hserved], List.mem_range.2 st.isLt, fun j hj => ?_⟩
    by_cases hw : j ∈ s.fabWait
    · simp [hfirst j hj hw]
    · simp [hw]
  rw [State.fabricNext, hfind]

theorem fabricAdmission_admits {s : State} {st : Fin 16} {w : Stall} (hheld : s.ctl.held = false) (hfull : s.fabricFull = false)
    (hwait : st.val ∈ s.fabWait) (hserved : st.val ∉ s.fabServed)
    (hfirst : ∀ j, j < st.val → j ∈ s.fabWait → j ∈ s.fabServed) (hstall : (s.strand st).stall = some w) :
    ∃ t, exec .fabricAdmission s = .next t ∧ (t.strand st).stall = some { w with released := true } ∧
      st.val ∉ t.fabWait ∧ st.val ∈ t.fabServed ∧ t.mem = s.mem ∧ t.img = s.img ∧
      ∀ j, j ≠ st.val → t.strand j = s.strand j ∧ (j ∈ s.fabWait ↔ j ∈ t.fabWait) := by
  have hserve : (if s.fabServed.contains st.val then [st.val] else s.fabServed ++ [st.val]) = s.fabServed ++ [st.val] :=
    if_neg (by simpa using hserved)
  show ∃ t, execFabricAdmission s = .next t ∧ _
  simp only [execFabricAdmission, hheld, hfull, Bool.or_self, Bool.false_eq_true, if_false, fabricNext_eq hwait hserved hfirst, hserve]
  generalize hu : ({ s with fabWait := s.fabWait.filter (· != st.val), fabServed := s.fabServed ++ [st.val],
                            inflight := s.inflight + 1 } : State) = u
  have hcount := PmcOnly.countG u 0x43 1
  have hstrand : ∀ j, (u.countG 0x43 1).strand j = s.strand j := fun j => by
    rw [State.strand, hcount.strands, ← hu]
    rfl
  refine ⟨_, rfl, ?_, ?_, ?_, ?_, ?_, fun j hj => ⟨?_, ?_⟩⟩
  · rw [strand_modStrand_self, hstrand, hstall]
    rfl
  · rw [hcount.eq_regs, ← hu]
    simp [State.modStrand, State.setStrand]
  · rw [hcount.eq_regs, ← hu]
    simp [State.modStrand, State.setStrand]
  · rw [hcount.eq_regs, ← hu]
    rfl
  · rw [hcount.eq_regs, ← hu]
    rfl
  · rw [strand_modStrand_ne _ _ hj, hstrand]
  · rw [hcount.eq_regs, ← hu]
    simp [State.modStrand, State.setStrand, hj]

/-- Settles O29: force requests by their status, and the admission of the first waiting strand of the round. -/
theorem forcesAndAdmissions : Obligations.ForcesAndAdmissions := by
  unfold Obligations.ForcesAndAdmissions
  refine ⟨fun s items hheld hmode hpair => ?_, fun s st w hheld hfull hwait hserved hfirst hstall =>
    fabricAdmission_admits hheld hfull hwait hserved hfirst hstall⟩
  have hoff := stewardOff_eq_false hheld hmode
  refine ⟨fun hprogram hcover hroom => ⟨?_, ?_⟩, fun hother => ⟨?_, ?_⟩⟩
  · rw [exec_forceSet items hoff, forceRequest_accepted (forceStatus_ok false hprogram hcover hroom) hpair]
    exact ⟨_, rfl, rfl, rfl, rfl⟩
  · rw [exec_forceRelease items hoff, forceRequest_accepted (forceStatus_ok true hprogram hcover hroom) hpair]
    exact ⟨_, rfl, rfl, rfl, rfl⟩
  · rw [exec_forceSet items hoff, forceRequest_refused (by rw [forceStatus_perm items _ hother]; decide),
      forceStatus_perm items _ hother]
    rfl
  · rw [exec_forceRelease items hoff, forceRequest_refused (by rw [forceStatus_perm items _ hother]; decide),
      forceStatus_perm items _ hother]
    rfl

end Sys2Proof.Machine
end

section
/-!
CERTIFICATE. The stores: what an issued instruction finds, the access of a store that no check refuses, and where it writes (R21, R22, R90,
R128, R129, R133, R154, R362).
-/
namespace Sys2Proof.Machine

/-! ### What an issued instruction finds -/

section
variable {s u : State} {st : Fin 16}

theorem OnlyStrand.member (h : OnlyStrand s u st) : u.member = s.member := by
  simp only [State.member, h.flag MEL_CFG_HEDGE (by decide), h.fget MEL_CFG_INDEX (by decide)]

theorem OnlyStrand.lockedBufs (h : OnlyStrand s u st) : u.lockedBufs = s.lockedBufs := (congrArg State.lockedBufs h.1 :)

theorem OnlyStrand.globOk (h : OnlyStrand s u st) (addr size : Nat) (store : Bool) :
    u.globOk addr size store = s.globOk addr size store := by
  unfold State.globOk
  dsimp only
  rw [h.lockedBufs]
  by_cases hhi : addr < 0x12000000
  · have harea : ¬ pmcCounter (SE_JOBAREA ((addr - 0x11E00000) / 0x40000)) := by
      unfold SE_JOBAREA pmcCounter
      omega
    rw [h.fget (SE_JOBAREA_PIPE_END ((addr - 0x11E00000) / 0x40000)) harea]
  · have hmid : ¬ addr < 0x11E00000 := by omega
    have hlo : ¬ addr < 0x11A00000 := by omega
    simp only [if_neg hhi, if_neg hmid, if_neg hlo]

theorem OnlyStrand.dkey (h : OnlyStrand s u st) (j off : Nat) : u.dkey j off = s.dkey j off := by
  unfold State.dkey
  rw [h.cfg, h.cls]

theorem OnlyStrand.granuleOf (h : OnlyStrand s u st) (j : Nat) (loc : Loc) : u.granuleOf j loc = s.granuleOf j loc := by
  cases loc <;> simp only [State.granuleOf, h.dkey]

theorem OnlyStrand.memKey (h : OnlyStrand s u st) (j : Nat) (loc : Loc) : u.memKey j loc = s.memKey j loc := by
  cases loc <;> simp only [State.memKey, h.dkey]

theorem OnlyStrand.ownMask (h : OnlyStrand s u st) (j off : Nat) : u.ownMask j off = s.ownMask j off := by
  have hentry : u.entryAt = s.entryAt := (congrArg State.entryAt h.1 :)
  unfold State.ownMask State.ownerCode
  rw [hentry, h.member]

theorem OnlyStrand.trans {t : State} (h : OnlyStrand s u st) (g : OnlyStrand u t st) : OnlyStrand s t st := by
  obtain ⟨hrest, hother, hregs⟩ := h
  obtain ⟨grest, gother, gregs⟩ := g
  refine ⟨?_, fun j hj => (gother j hj).trans (hother j hj), fun a ha => (gregs a ha).trans (hregs a ha)⟩
  rw [← hrest]
  rw [← grest]

/-- A state in which the body of an instruction of strand `st` runs: only the age of the reservation and performance counters differ. -/
def Issued (s u : State) (st : Fin 16) : Prop :=
  OnlyStrand s u st ∧ ∃ r n, u.strand st = { s.strand st with resv := r, resvAge := n }

theorem issue_issued (s : State) (st : Fin 16) (kind : DxKind) : Issued s (s.issue st kind) st := issue_only s st kind

theorem Issued.countS (h : Issued s u st) (ev n : Nat) : Issued s (u.countS st ev n) st := by
  obtain ⟨honly, hstrand⟩ := h
  have hcount := PmcOnly.countS u st ev n st.isLt
  exact ⟨hcount.onlyStrand honly, by rwa [State.strand, hcount.strands]⟩

theorem Issued.locate (h : Issued s u st) (addr size : Nat) (store : Bool) :
    u.locate st addr size store = s.locate st addr size store := by
  obtain ⟨honly, r, n, hstrand⟩ := h
  have hdram : ∀ o, u.dramOk st o = s.dramOk st o := fun o => by unfold State.dramOk; rw [honly.cfg]
  simp only [State.locate, honly.globOk, honly.member, hdram, hstrand]

theorem Issued.storeInteg (h : Issued s u st) {loc : Loc} (hinteg : s.integ.contains (s.granuleOf st loc) = false) :
    storeInteg u st (.ok loc) = none := by
  have hl : u.integ = s.integ := (congrArg State.integ h.1.1 :)
  have hread : integTrap u st (.ok loc) = none := by
    rw [integTrap, hl, h.1.granuleOf, hinteg]
    rfl
  cases loc with
  | img off => rfl
  | _ => exact hread

theorem Issued.fabricFull (h : Issued s u st) : u.fabricFull = s.fabricFull := (congrArg State.fabricFull h.1.1 :)

theorem Issued.eff (h : Issued s u st) (m : AddrArg) : (u.strand st).eff m = (s.strand st).eff m := by
  obtain ⟨-, r, n, hstrand⟩ := h
  rw [hstrand]
  cases m <;> rfl

end

theorem effAddr_of_eff {x : Strand} {m : AddrArg} {e : Eff} (h : x.eff m = .ok e) : x.effAddr m = e.addr := by
  cases m with
  | base b imm => cases h; rfl
  | index b i => cases h; rfl
  | ptr n => cases h; rfl
  | ptrImm n stp =>
    simp only [Strand.eff] at h
    split at h <;> cases h
    rfl
  | ptrReg n i =>
    simp only [Strand.eff] at h
    split at h <;> cases h
    rfl

/-! ### The bytes of a register in memory -/

theorem getElem?_leBytes (n v : Nat) {j : Nat} (h : j < n) : (leBytes n v)[j]? = some (BitVec.ofNat 8 (v / 2 ^ (8 * j))) := by
  induction n generalizing v j with
  | zero => exact absurd h (Nat.not_lt_zero j)
  | succ n ih =>
    cases j with
    | zero => simp [leBytes]
    | succ j =>
      have hpow : 256 * 2 ^ (8 * j) = 2 ^ (8 * (j + 1)) := by rw [show 8 * (j + 1) = 8 + 8 * j by omega, Nat.pow_add]
      rw [leBytes, List.getElem?_cons_succ, ih (v / 256) (Nat.lt_of_succ_lt_succ h), Nat.div_div_eq_div_mul, hpow]

theorem getElem?_storeBytes (v : Word) (size : Nat) {j : Nat} (h : j < size) :
    (storeBytes v size)[j]? = some (v.extractLsb' (8 * j) 8) := by
  rw [storeBytes, getElem?_leBytes _ _ h]
  congr 1
  apply BitVec.eq_of_toNat_eq
  rw [BitVec.extractLsb'_toNat, BitVec.toNat_ofNat, Nat.shiftRight_eq_div_pow]

theorem storeBytes_length (v : Word) (size : Nat) : (storeBytes v size).length = size := leBytes_length _ _

theorem mget_msetN_at (s : State) (key : Nat) (bs : List Byte) {j : Nat} {b : Byte} (h : bs[j]? = some b) :
    (s.msetN key bs).mget (key + j) = b := by
  induction bs generalizing s key j with
  | nil => simp at h
  | cons c bs ih =>
    show ((s.mset key c).msetN (key + 1) bs).mget (key + j) = b
    cases j with
    | zero =>
      rw [mget_msetN_below _ _ _ (by omega), Nat.add_zero, mget_mset_self]
      simpa using h
    | succ j =>
      rw [show key + (j + 1) = key + 1 + j by omega]
      exact ih _ _ (by simpa using h)

theorem mget_congr {s t : State} (h : t.mem = s.mem) (a : Nat) : t.mget a = s.mget a := by rw [State.mget, h, State.mget]

/-! ### A store that no check refuses -/

/-- The end of a store: the pointer of a post-modify form, then the PC. -/
def State.storeRetire (t : State) (st : Nat) (upd : Option (Fin 4 × Word)) (pc : Word) : State :=
  (t.modStrand st (fun x => x.applyUpd upd)).modStrand st (fun x => { x with pc := pc, answer := none })

theorem strand_storeRetire (t : State) (st : Nat) (upd : Option (Fin 4 × Word)) (pc : Word) :
    (t.storeRetire st upd pc).strand st = { (t.strand st).applyUpd upd with pc := pc, answer := none } := by
  rw [State.storeRetire, strand_modStrand_self, strand_modStrand_self]

theorem strand_storeRetire_ne (t : State) {st j : Nat} (h : j ≠ st) (upd : Option (Fin 4 × Word)) (pc : Word) :
    (t.storeRetire st upd pc).strand j = t.strand j := by
  rw [State.storeRetire, strand_modStrand_ne _ _ h, strand_modStrand_ne _ _ h]

/-- The access of a store whose operand and place are known. -/
def storeAccess (t : State) (st r : Fin 16) (size : Nat) (e : Eff) (loc : Loc) : Exec :=
  if t.fabricFull && loc.fabric && (t.strand st).answer.isNone then .wait .fabric []
  else
    let x := t.strand st
    let t := if inWindow e.addr then t.countS st 0x0A 1 else t
    match loc with
    | .remote m _ off =>
      if (t.strand st).answer.isNone then
        .wait .member [.memberAccess m st.val true 0 off size (x.w[r].setWidth (8 * size) |>.setWidth 32)]
      else .ok (t.modStrand st (fun x => x.applyUpd e.upd)) none
    | loc => storeEnd t st (t.storeAt st loc (storeBytes x.w[r] size)) e.addr.toNat e.upd

section
variable {s : State} {st : Fin 16} {m : AddrArg} {e : Eff} {loc : Loc} {size : Nat} (hready : Ready s st)
  (heff : (s.strand st.val).eff m = .ok e) (hloc : s.locate st e.addr.toNat size true = .ok loc)
  (hinteg : s.integ.contains (s.granuleOf st loc) = false)
include hready heff hloc hinteg

/-- A store of a ready strand comes to its access, where no check refuses it. -/
theorem store_ready (i : Instr) (r : Fin 16) :
    store s st i r m size = dx s st i .store (fun t => storeAccess t st r size e loc) := by
  have hissued := issue_issued s st .store
  have heff' := (hissued.eff m).trans heff
  have hloc' := (hissued.locate e.addr.toNat size true).trans hloc
  unfold store
  rw [dx_ready hready, dx_ready hready]
  simp only [effAddr_of_eff heff', hloc', hissued.storeInteg hinteg, heff', errOf, lowestTrap, List.foldl_cons, List.foldl_nil]
  rfl

theorem store_completes {r : Fin 16} {t : State} (i : Instr) (hq : t.flag OBS_RT_STAT_CAPTURING = false)
    (h : storeAccess (s.issue st .store) st r size e loc = .ok (t.modStrand st (fun x => x.applyUpd e.upd)) none) :
    store s st i r m size = .next (t.storeRetire st e.upd ((s.strand st).pc + 4)) := by
  rw [store_ready hready heff hloc hinteg, dx_ready hready, h]
  exact congrArg Host.Outcome.next (retire_quiet _ _ _ _ _ hq)

theorem store_waits {r : Fin 16} {on : WaitFor} {msgs : List Sent} (i : Instr)
    (h : storeAccess (s.issue st .store) st r size e loc = .wait on msgs) :
    store s st i r m size = .next (({ s with tx := s.tx ++ msgs } : State).stallOn st on i) := by
  rw [store_ready hready heff hloc hinteg, dx_ready hready, h]

end

section
variable {s u : State} {st : Fin 16} {e : Eff} (h : Issued s u st)
include h

/-- The state on which the access is made: one through the banked window is counted (R519). -/
theorem Issued.counted : Issued s (if inWindow e.addr then u.countS st 0x0A 1 else u) st :=
  ite_inv (P := fun t => Issued s t st) (h.countS _ _) h

theorem Issued.answer : (u.strand st).answer = (s.strand st).answer := by
  obtain ⟨-, r, n, hstrand⟩ := h
  rw [hstrand]

theorem Issued.stg : (u.strand st).stg = (s.strand st).stg := by
  obtain ⟨-, r, n, hstrand⟩ := h
  rw [hstrand]

theorem Issued.w : (u.strand st).w = (s.strand st).w := by
  obtain ⟨-, r, n, hstrand⟩ := h
  rw [hstrand]

theorem Issued.quiet (hready : Ready s st) : u.flag OBS_RT_STAT_CAPTURING = false := by
  obtain ⟨-, -, -, hquiet⟩ := hready
  exact (h.1.flag _ (by decide)).trans hquiet

/-- A store that stays in the module and discards no bit of the image completes (R90, R129). -/
theorem Issued.storeAccess_local (r : Fin 16) (size : Nat) {loc : Loc} (hfull : s.fabricFull = false)
    (hhere : ∀ mem reg off, loc ≠ .remote mem reg off) :
    ∃ v, Issued s v st ∧ ∀ t, v.storeAt st loc (storeBytes (s.strand st).w[r] size) = (t, false) →
      storeAccess u st r size e loc = .ok (t.modStrand st (fun x => x.applyUpd e.upd)) none := by
  refine ⟨_, h.counted (e := e), fun t ht => ?_⟩
  have hfull' := h.fabricFull.trans hfull
  have hstored : storeEnd (if inWindow e.addr then u.countS st 0x0A 1 else u) st
      ((if inWindow e.addr then u.countS st 0x0A 1 else u).storeAt st loc (storeBytes (u.strand st).w[r] size)) e.addr.toNat e.upd =
      .ok (t.modStrand st (fun x => x.applyUpd e.upd)) none := by
    simp only [h.w, ht]
    rfl
  unfold storeAccess
  simp only [hfull', Bool.false_and, Bool.false_eq_true, if_false]
  cases loc with
  | remote mem reg off => exact absurd rfl (hhere mem reg off)
  | _ => exact hstored

/-- A store to another member is asked of it (R133, R362). -/
theorem Issued.storeAccess_asks (r : Fin 16) (mem reg off : Nat) (hfull : s.fabricFull = false) (hnone : (s.strand st).answer = none) :
    storeAccess u st r 4 e (.remote mem reg off) = .wait .member [.memberAccess mem st.val true 0 off 4 (s.strand st).w[r]] := by
  have hfull' := h.fabricFull.trans hfull
  have hnone' := h.counted (e := e) |>.answer.trans hnone
  unfold storeAccess
  simp only [hfull', hnone', h.w, Bool.false_and, Bool.false_eq_true, if_false, Option.isNone_none, if_true, BitVec.setWidth_eq]

/-- A store to another member completes when its answer has come (R133, R362). -/
theorem Issued.storeAccess_answered (r : Fin 16) (size mem reg off : Nat) {a : MemberAnswer} (hsome : (s.strand st).answer = some a) :
    ∃ v, Issued s v st ∧
      storeAccess u st r size e (.remote mem reg off) = .ok (v.modStrand st (fun x => x.applyUpd e.upd)) none := by
  refine ⟨_, h.counted (e := e), ?_⟩
  have hsome' := h.counted (e := e) |>.answer.trans hsome
  unfold storeAccess
  simp only [h.answer, hsome, hsome', Option.isNone_some, Bool.and_false, Bool.false_eq_true, if_false]

end

/-! ### Stores to the memories (R22, R154) -/

theorem msetN_eq (s : State) (key : Nat) (bs : List Byte) : s.msetN key bs = { s with mem := (s.msetN key bs).mem } := by
  induction bs generalizing s key with
  | nil => rfl
  | cons b bs ih => exact ih (s.mset key b) (key + 1)

/-- Nothing but the memories and reservations that are not strand `st`'s differs between two states. -/
def OnlyStored (st : Nat) (s t : State) : Prop :=
  { t with mem := s.mem, strands := s.strands, remoteResv := s.remoteResv } = s ∧ t.strand st = s.strand st ∧
    ∀ j, ∃ r, t.strand j = { s.strand j with resv := r }

theorem OnlyStored.msetN (st : Nat) (s : State) (key : Nat) (bs : List Byte) : OnlyStored st s (s.msetN key bs) := by
  rw [msetN_eq]
  exact ⟨rfl, rfl, fun j => ⟨(s.strand j).resv, rfl⟩⟩

theorem OnlyStored.modStrand {st j : Nat} {s t : State} (h : OnlyStored st s t) (hj : j ≠ st) {f : Strand → Strand}
    (hf : ∀ x, ∃ r, f x = { x with resv := r }) : OnlyStored st s (t.modStrand j f) := by
  obtain ⟨hrest, hown, hother⟩ := h
  refine ⟨hrest, (strand_modStrand_ne t f hj.symm).trans hown, fun i => ?_⟩
  obtain ⟨r, hr⟩ := hother i
  by_cases hi : i = j
  · subst hi
    obtain ⟨r', hr'⟩ := hf (t.strand i)
    exact ⟨r', by rw [strand_modStrand_self, hr', hr]⟩
  · exact ⟨r, (strand_modStrand_ne t f hi).trans hr⟩

theorem OnlyStored.breakResv {st : Nat} {s t : State} (h : OnlyStored st s t) (addr n : Nat) :
    OnlyStored st s (t.breakResv st addr n) ∧ (t.breakResv st addr n).mem = t.mem := by
  unfold State.breakResv
  extract_lets broken
  have hbroken : OnlyStored st s broken ∧ broken.mem = t.mem := by
    refine each_inv (P := fun u => OnlyStored st s u ∧ u.mem = t.mem) ⟨h, rfl⟩ fun u hu j => ?_
    split
    · exact hu
    · next hj =>
      refine ⟨hu.1.modStrand hj fun x => ?_, hu.2⟩
      split
      · split
        · exact ⟨.lost, rfl⟩
        · exact ⟨x.resv, rfl⟩
      · exact ⟨x.resv, rfl⟩
  exact hbroken

/-- A store to DMEM, global memory or DRAM puts the bytes at the key of the place. -/
theorem storeAt_memKey {u : State} {st key : Nat} {loc : Loc} (h : u.memKey st loc = some key) (bs : List Byte) :
    ∃ t, u.storeAt st loc bs = (t, false) ∧ t.mem = (u.msetN key bs).mem ∧ OnlyStored st u t := by
  cases loc with
  | dmem off => exact Option.some.inj h ▸ ⟨_, rfl, rfl, .msetN st u _ bs⟩
  | dram off => exact Option.some.inj h ▸ ⟨_, rfl, rfl, .msetN st u _ bs⟩
  | glob a =>
    cases h
    obtain ⟨hstored, hmem⟩ := (OnlyStored.msetN st u key bs).breakResv key bs.length
    exact ⟨_, rfl, hmem, hstored⟩
  | _ => exact absurd h (by simp [State.memKey])

/-! ### Stores to the image (R90) -/

theorem stageByte_owned {u : State} {st off : Nat} (b : Byte) (h : u.ownMask st off = 0xFF) :
    u.stageByte st off 0xFF b =
      (u.setStrand st { u.strand st with stg := tset ⟨0, 0⟩ (u.strand st).stg off ⟨0xFF, b⟩ }, false) := by
  have hmask : ∀ x : Byte, x ||| 0xFF = 0xFF := by decide
  have hval : ∀ x : Byte, x &&& ~~~0xFF ||| b &&& 0xFF = b := fun x => by
    rw [show (~~~0xFF : Byte) = 0#8 from rfl, BitVec.and_zero, BitVec.zero_or]
    exact BitVec.and_allOnes
  have hboth : (0xFF : Byte) &&& 0xFF = 0xFF := rfl
  simp only [State.stageByte, h, hboth, hmask, hval, bne_self_eq_false]

/-- A store of bytes all of whose bits the strand owns goes to the staging view alone, and no other staged byte changes. -/
theorem stageBytes_owned (u : State) (st : Fin 16) (off : Nat) (bs : List Byte)
    (hown : ∀ j, j < bs.length → u.ownMask st (off + j) = 0xFF) :
    ∃ t stg, u.stageBytes st off bs = (t, false) ∧ OnlyStrand u t st ∧ t.strand st = { u.strand st with stg := stg } ∧
      (∀ j b, bs[j]? = some b → tget ⟨0, 0⟩ stg (off + j) = ⟨0xFF, b⟩) ∧
      ∀ a, a < off ∨ off + bs.length ≤ a → tget ⟨0, 0⟩ stg a = tget ⟨0, 0⟩ (u.strand st).stg a := by
  induction bs generalizing u off with
  | nil => exact ⟨u, (u.strand st).stg, rfl, OnlyStrand.refl u st, rfl, fun j b h => by simp at h, fun _ _ => rfl⟩
  | cons c bs ih =>
    have hfirst : u.stageByte st off 0xFF c = _ := stageByte_owned c (hown 0 (Nat.succ_pos _))
    generalize hv : u.setStrand st { u.strand st with stg := tset ⟨0, 0⟩ (u.strand st).stg off ⟨0xFF, c⟩ } = v at hfirst
    have honly : OnlyStrand u v st := hv ▸ (OnlyStrand.refl u st).set _
    have hstrand : v.strand st = { u.strand st with stg := tset ⟨0, 0⟩ (u.strand st).stg off ⟨0xFF, c⟩ } := by
      rw [← hv, strand_setStrand_self]
    obtain ⟨t, stg, ht, honly', hstrand', hin, hout⟩ := ih v (off + 1) fun j hj => by
      rw [honly.ownMask, show off + 1 + j = off + (j + 1) by omega]
      exact hown (j + 1) (Nat.succ_lt_succ hj)
    refine ⟨t, stg, ?_, ?_, ?_, fun j b hj => ?_, fun a ha => ?_⟩
    · rw [State.stageBytes, hfirst, ht]
      rfl
    · exact honly.trans honly'
    · rw [hstrand', hstrand]
    · cases j with
      | zero =>
        rw [hout _ (.inl (by omega)), hstrand, Nat.add_zero, tget_tset_self]
        simpa using hj
      | succ j =>
        rw [show off + (j + 1) = off + 1 + j by omega]
        exact hin j b (by simpa using hj)
    · rw [List.length_cons] at ha
      rw [hout a (by omega), hstrand, tget_tset_ne _ _ _ _ (by omega)]

/-! ### The three stores -/

/-- A store that has changed the staging view at most retires. -/
theorem Issued.storeRetire {s v t : State} {st : Fin 16} (hv : Issued s v st) (ht : OnlyStrand v t st) {g : Tab MByte}
    (hg : t.strand st = { v.strand st with stg := g }) (upd : Option (Fin 4 × Word)) :
    Retires s (t.storeRetire st upd ((s.strand st).pc + 4)) st { (s.strand st).applyUpd upd with stg := g } := by
  obtain ⟨honly, r, n, hstrand⟩ := hv
  refine ⟨((honly.trans ht).set _).set _, ?_⟩
  rw [strand_storeRetire, hg, hstrand]
  cases upd <;> rfl

/-- An instruction that stores the low `size` bytes of a register. -/
def StoresBytes (i : Instr) (st r : Fin 16) (m : AddrArg) (size : Nat) : Prop :=
  i = .sw st r m ∧ size = 4 ∨ i = .sh st r m ∧ size = 2 ∨ i = .sby st r m ∧ size = 1

theorem StoresBytes.exec_eq {i : Instr} {st r : Fin 16} {m : AddrArg} {size : Nat} (h : StoresBytes i st r m size) (s : State) :
    exec i s = store s st i r m size := by
  rcases h with ⟨rfl, rfl⟩ | ⟨rfl, rfl⟩ | ⟨rfl, rfl⟩ <;> rfl

section
variable {s : State} {st r : Fin 16} {m : AddrArg} {e : Eff} {size : Nat} {i : Instr} (hready : Ready s st)
  (hi : StoresBytes i st r m size) (heff : (s.strand st.val).eff m = .ok e)
include hready hi heff

theorem store_to_memory {loc : Loc} {key : Nat} (hloc : s.locate st e.addr.toNat size true = .ok loc)
    (hkey : s.memKey st loc = some key) (hinteg : s.integ.contains (s.granuleOf st loc) = false) (hfull : s.fabricFull = false) :
    ∃ t, exec i s = .next t ∧
      (∀ j, j < size → t.mget (key + j) = (s.strand st.val).w[r].extractLsb' (8 * j) 8) ∧
      (∀ a, a < key ∨ key + size ≤ a → t.mget a = s.mget a) ∧
      { t with regs := s.regs, strands := s.strands, mem := s.mem, remoteResv := s.remoteResv } = s ∧
      (∀ a, ¬ pmcCounter a → t.rget a = s.rget a) ∧
      (∀ j, j ≠ st.val → ∃ v, t.strand j = { s.strand j with resv := v }) ∧
      ∃ v n, t.strand st =
        { (s.strand st.val).applyUpd e.upd with pc := (s.strand st.val).pc + 4, answer := none, resv := v, resvAge := n } := by
  have hhere : ∀ mem reg off, loc ≠ .remote mem reg off := by
    rintro mem reg off rfl
    exact absurd hkey (by simp [State.memKey])
  obtain ⟨v, hv, hacc⟩ := (issue_issued s st .store).storeAccess_local (e := e) r size hfull hhere
  obtain ⟨t, ht, hmem, hrest, hown, hother⟩ :=
    storeAt_memKey ((hv.1.memKey st loc).trans hkey) (storeBytes (s.strand st.val).w[r] size)
  have hq : t.flag OBS_RT_STAT_CAPTURING = false := by
    have hflag : t.flag OBS_RT_STAT_CAPTURING = v.flag OBS_RT_STAT_CAPTURING := (congrArg (State.flag · _) hrest :)
    exact hflag.trans (hv.quiet hready)
  have hnext := (hi.exec_eq s).trans (store_completes hready heff hloc hinteg i hq (hacc t ht))
  obtain ⟨⟨hvrest, hvother, hvregs⟩, w, n, hvstrand⟩ := hv
  have hvmem : v.mem = s.mem := (congrArg State.mem hvrest :)
  refine ⟨_, hnext, fun j hj => ?_, fun a ha => ?_, ?_, fun a ha => ?_, fun j hj => ?_, w, n, ?_⟩
  · exact (mget_congr hmem (key + j)).trans (mget_msetN_at v key _ (getElem?_storeBytes _ size hj))
  · have hset : (v.msetN key (storeBytes (s.strand st.val).w[r] size)).mget a = v.mget a := by
      rcases ha with ha | ha
      · exact mget_msetN_below v key _ ha
      · exact mget_msetN_above v key _ (by rwa [storeBytes_length])
    exact ((mget_congr hmem a).trans hset).trans (mget_congr hvmem a)
  · have hstored := congrArg (fun u : State => { u with regs := s.regs, strands := s.strands, mem := s.mem,
                                                        remoteResv := s.remoteResv }) hrest
    exact hstored.trans (congrArg (fun u : State => { u with mem := s.mem, remoteResv := s.remoteResv }) hvrest)
  · exact (congrArg (State.rget · a) hrest :).trans (hvregs a ha)
  · obtain ⟨r', hr'⟩ := hother j
    exact ⟨r', by rw [strand_storeRetire_ne _ hj, hr', hvother j hj]⟩
  · rw [strand_storeRetire, hown, hvstrand]
    cases e.upd <;> rfl

theorem store_to_image {off : Nat} (hloc : s.locate st e.addr.toNat size true = .ok (.img off))
    (hinteg : s.integ.contains (s.granuleOf st (.img off)) = false) (hfull : s.fabricFull = false)
    (hown : ∀ j, j < size → s.ownMask st (off + j) = 0xFF) :
    ∃ t stg, exec i s = .next t ∧ Retires s t st { (s.strand st.val).applyUpd e.upd with stg := stg } ∧
      (∀ j, j < size → tget ⟨0, 0⟩ stg (off + j) = ⟨0xFF, (s.strand st.val).w[r].extractLsb' (8 * j) 8⟩) ∧
      ∀ a, a < off ∨ off + size ≤ a → tget ⟨0, 0⟩ stg a = tget ⟨0, 0⟩ (s.strand st.val).stg a := by
  obtain ⟨v, hv, hacc⟩ := (issue_issued s st .store).storeAccess_local (e := e) r size (loc := .img off) hfull (by simp)
  obtain ⟨t, stg, ht, honly, hstg, hin, hout⟩ := stageBytes_owned v st off (storeBytes (s.strand st.val).w[r] size) fun j hj => by
    rw [hv.1.ownMask]
    exact hown j (by rwa [storeBytes_length] at hj)
  have hq : t.flag OBS_RT_STAT_CAPTURING = false := (honly.flag _ (by decide)).trans (hv.quiet hready)
  refine ⟨_, stg, (hi.exec_eq s).trans (store_completes hready heff hloc hinteg i hq (hacc t ht)), hv.storeRetire honly hstg e.upd,
    fun j hj => hin j _ (getElem?_storeBytes _ size hj), fun a ha => ?_⟩
  rw [hout a (by rwa [storeBytes_length]), hv.stg]

end

theorem stallOn_member_waits (s : State) (st : Fin 16) (i : Instr) : (s.stallOn st .member i).issues st = false := by
  have hstall : ((s.stallOn st .member i).strand st).stall = some { on := .member, instr := i, released := false } :=
    congrArg Strand.stall (strand_modStrand_self s st fun x =>
      { x with stall := some { on := .member, instr := i, released := false } })
  simp [State.issues, hstall]

theorem store_asks_member {s : State} {st r : Fin 16} {m : AddrArg} {e : Eff} {mem reg off : Nat} (hready : Ready s st)
    (heff : (s.strand st.val).eff m = .ok e) (hloc : s.locate st e.addr.toNat 4 true = .ok (.remote mem reg off))
    (hinteg : s.integ.contains 0 = false) (hnone : (s.strand st.val).answer = none) (hfull : s.fabricFull = false) :
    ∃ t, exec (.sw st r m) s = .next t ∧ t.tx = s.tx ++ [.memberAccess mem st.val true 0 off 4 (s.strand st.val).w[r]] ∧
      t.issues st = false ∧ t.mem = s.mem := by
  have hacc := (issue_issued s st .store).storeAccess_asks (e := e) r mem reg off hfull hnone
  exact ⟨_, store_waits hready heff hloc hinteg (.sw st r m) hacc, rfl, stallOn_member_waits _ _ _, rfl⟩

theorem applyUpd_stg (x : Strand) (upd : Option (Fin 4 × Word)) : ({ x.applyUpd upd with stg := x.stg } : Strand) = x.applyUpd upd := by
  cases upd <;> rfl

theorem store_answered {s : State} {st r : Fin 16} {m : AddrArg} {e : Eff} {mem reg off : Nat} {a : MemberAnswer} (hready : Ready s st)
    (heff : (s.strand st.val).eff m = .ok e) (hloc : s.locate st e.addr.toNat 4 true = .ok (.remote mem reg off))
    (hinteg : s.integ.contains 0 = false) (hsome : (s.strand st.val).answer = some a) :
    ∃ t, exec (.sw st r m) s = .next t ∧ Retires s t st ((s.strand st.val).applyUpd e.upd) := by
  obtain ⟨v, hv, hacc⟩ := (issue_issued s st .store).storeAccess_answered (e := e) r 4 mem reg off hsome
  refine ⟨_, store_completes hready heff hloc hinteg (.sw st r m) (hv.quiet hready) hacc, ?_⟩
  have hretires := hv.storeRetire (OnlyStrand.refl v st) (g := (v.strand st).stg) rfl e.upd
  rwa [hv.stg, applyUpd_stg] at hretires

/-- Settles O12: a store comes to its access, which writes the memory at its key, stages owned image bytes, or asks another member. -/
theorem stores : Obligations.Stores := by
  unfold Obligations.Stores
  refine ⟨fun s st r m e loc size key i hready hi heff hloc hkey hinteg hfull =>
      store_to_memory hready hi heff hloc hkey hinteg hfull,
    fun s st r m e off size i hready hi heff hloc hinteg hfull hown => store_to_image hready hi heff hloc hinteg hfull hown,
    fun s st r m e mem reg off hready heff hloc hinteg =>
      ⟨store_asks_member hready heff hloc hinteg, fun a => store_answered hready heff hloc hinteg⟩⟩

end Sys2Proof.Machine
end

section
/-!
CERTIFICATE. Retires of Q30, whose FULL descriptors are the events that it holds (R387, R391), against the FULLCNT field of its register.
-/
namespace Sys2Proof.Machine

/-- A retire of Q30 by the steward drops as many events as it names, where the queue holds as many (R387). -/
theorem queRetire_events {s : State} {n : BitVec 11} (hoff : s.stewardOff = false) (hn : n.toNat ≤ s.evq.length) :
    exec (.queRetire 30 n) s = .next { s with evq := s.evq.drop n.toNat, evOut := s.evOut + n.toNat } := by
  have howns : softOwns 30 true = true := by decide
  have hheld : ¬ s.qFull 30 < n.toNat := Nat.not_lt.2 hn
  have hretire : s.queRetire 30 n.toNat = { s with evq := s.evq.drop n.toNat, evOut := s.evOut + n.toNat } := if_neg hheld
  show execQueRetire 30 n s = _
  exact (if_neg (by simp [hoff, howns])).trans (congrArg Host.Outcome.next hretire)

/-- A module in which the first event since its reset waits in Q30. -/
def oneEventWaits : State := State.reset.raise 0x0101 0 []

theorem oneEventWaits_shown : oneEventWaits.ctl.held = false ∧ oneEventWaits.mode ≠ mDormant ∧ oneEventWaits.evq.length = 1 ∧
    oneEventWaits.fget (QUE_STAT_FULLCNT 30) = 0 := by
  decide

/-- Refutes O34: its clause on a retire of more descriptors than FULLCNT counts covers Q30 too, where the model holds the events in
`evq` and leaves FULLCNT at 0. With one event waiting there, a retire of one descriptor is more than FULLCNT and still drops the event. -/
theorem not_ethernetSendAndQueues : ¬ Obligations.EthernetSendAndQueues := by
  unfold Obligations.EthernetSendAndQueues
  intro h
  obtain ⟨hheld, hmode, hone, hcount⟩ := oneEventWaits_shown
  obtain ⟨-, -, -, -, hmany, -⟩ := h.2 oneEventWaits 30 1 hheld hmode
  have hkept : exec (.queRetire 30 1) oneEventWaits = .next oneEventWaits := hmany (hcount ▸ Nat.one_pos)
  rw [queRetire_events (stewardOff_eq_false hheld hmode) (hone ▸ Nat.le_refl 1)] at hkept
  have hevq : oneEventWaits.evq.drop 1 = oneEventWaits.evq := congrArg State.evq (Host.Outcome.next.inj hkept)
  have hlength := congrArg List.length hevq
  rw [List.length_drop, hone] at hlength
  exact absurd hlength (by decide)

end Sys2Proof.Machine
end
section
/-!
SUPPORT. `OffCycle`: what channels, ports, engines, events and records change, and what they leave to the cycle of the strands; with one
lemma for each shared operation.
-/
namespace Sys2Proof.Machine

set_option Elab.async false

/-! ### The relation -/

/-- The state `t` with its channels, ports, engines, memories, events and records as in `s`. -/
def State.backOffCycle (s t : State) : State :=
  { t with regs := s.regs, mem := s.mem, integ := s.integ, evq := s.evq, recorder := s.recorder, obs := s.obs, pmcSnap := s.pmcSnap,
           pipes := s.pipes, engines := s.engines, ucs := s.ucs, dios := s.dios, cts := s.cts, seFailedKeep := s.seFailedKeep,
           eth := s.eth, mbs := s.mbs, canPorts := s.canPorts, wdg := s.wdg, keep := s.keep, store := s.store, free := s.free,
           classes := s.classes,
           ctl := { t.ctl with faultN := s.ctl.faultN, modeAt := s.ctl.modeAt, timersDue := s.ctl.timersDue } }

/-- From `s` to `t` nothing has changed but channels, ports, engines, memories, events, records, the latched records of the classes
and registers outside `K`. -/
def OffCycle (K : Nat → Prop) (s t : State) : Prop :=
  s.backOffCycle t = s ∧ (∀ j, { t.cls j with latch := (s.cls j).latch } = s.cls j) ∧ ∀ a, K a → t.rget a = s.rget a

/-- The registers of the blocks SYSCTL, CYC, HDL and BEAT (R25). -/
abbrev CycleReg (a : Nat) : Prop := a < 0x40040000

section
variable {K : Nat → Prop} {s t u : State}

theorem OffCycle.refl (K : Nat → Prop) (s : State) : OffCycle K s s := ⟨rfl, fun _ => rfl, fun _ _ => rfl⟩

theorem OffCycle.trans (h : OffCycle K s t) (g : OffCycle K t u) : OffCycle K s u := by
  obtain ⟨hrest, hcls, hregs⟩ := h
  obtain ⟨grest, gcls, gregs⟩ := g
  refine ⟨?_, fun j => ?_, fun a ha => (gregs a ha).trans (hregs a ha)⟩
  · calc s.backOffCycle u = s.backOffCycle (t.backOffCycle u) := rfl
      _ = s := by rw [grest, hrest]
  · exact (congrArg (fun c : ClassSt => { c with latch := (s.cls j).latch }) (gcls j)).trans (hcls j)

theorem OffCycle.mono {K' : Nat → Prop} (h : OffCycle K s t) (hK : ∀ a, K' a → K a) : OffCycle K' s t :=
  ⟨h.1, h.2.1, fun a ha => h.2.2 a (hK a ha)⟩

/-- An update of parts of the state that the cycle does not see. -/
theorem OffCycle.upd (h : OffCycle K s t) (hrest : s.backOffCycle u = s.backOffCycle t := by rfl)
    (hcls : u.classes = t.classes := by rfl) (hregs : u.regs = t.regs := by rfl) : OffCycle K s u := by
  refine ⟨hrest.trans h.1, fun j => ?_, fun a ha => ?_⟩
  · rw [State.cls, hcls]
    exact h.2.1 j
  · rw [State.rget, hregs]
    exact h.2.2 a ha

/-! ### What the cycle sees -/

theorem OffCycle.rget (h : OffCycle K s t) {a : Nat} (ha : K a) : t.rget a = s.rget a := h.2.2 a ha

theorem OffCycle.fget (h : OffCycle K s t) {f : Fld} (hf : K f.addr) : t.fget f = s.fget f := fget_congr (h.rget hf)

theorem OffCycle.flag (h : OffCycle K s t) {f : Fld} (hf : K f.addr) : t.flag f = s.flag f := flag_congr (h.rget hf)

theorem OffCycle.mode (h : OffCycle K s t) (hK : K SYS_MODE) : t.mode = s.mode := h.fget hK

theorem OffCycle.img (h : OffCycle K s t) : t.img = s.img := (congrArg State.img h.1 :)

theorem OffCycle.sw (h : OffCycle K s t) : t.sw = s.sw := (congrArg State.sw h.1 :)

theorem OffCycle.strands (h : OffCycle K s t) : t.strands = s.strands := (congrArg State.strands h.1 :)

theorem OffCycle.scfg (h : OffCycle K s t) : t.scfg = s.scfg := (congrArg State.scfg h.1 :)

theorem OffCycle.strand (h : OffCycle K s t) (st : Nat) : t.strand st = s.strand st := by
  rw [State.strand, h.strands, State.strand]

theorem OffCycle.cfg (h : OffCycle K s t) (st : Nat) : t.cfg st = s.cfg st := by
  rw [State.cfg, h.scfg, State.cfg]

/-- The state of a class but for its latched records. -/
theorem OffCycle.cls (h : OffCycle K s t) (j : Nat) : ∃ l, t.cls j = { s.cls j with latch := l } :=
  ⟨(t.cls j).latch, (congrArg (fun c : ClassSt => { c with latch := (t.cls j).latch }) (h.2.1 j) :)⟩

/-! ### Registers, events, counters and records -/

theorem OffCycle.rset (h : OffCycle K s t) {b : Nat} {v : Word} (hb : ¬ K b := by decide) : OffCycle K s (t.rset b v) :=
  ⟨h.1, h.2.1, fun a ha => (rget_rset_ne t v (by rintro rfl; exact hb ha)).trans (h.2.2 a ha)⟩

theorem OffCycle.fput (h : OffCycle K s t) {f : Fld} {v : Nat} (hf : ¬ K f.addr := by decide) : OffCycle K s (t.fput f v) := h.rset hf

theorem OffCycle.setFlag (h : OffCycle K s t) {f : Fld} {b : Bool} (hf : ¬ K f.addr := by decide) : OffCycle K s (t.setFlag f b) :=
  h.rset hf

theorem OffCycle.setBit (h : OffCycle K s t) {f : Fld} {i : Nat} {b : Bool} (hf : ¬ K f.addr := by decide) :
    OffCycle K s (t.setBit f i b) := h.rset hf

theorem OffCycle.satBump (h : OffCycle K s t) {f : Fld} {n : Nat} (hf : ¬ K f.addr := by decide) : OffCycle K s (t.satBump f n) :=
  h.rset hf

theorem OffCycle.raise (h : OffCycle K s t) {code elem : Nat} {p : List Byte} (hlost : ¬ K EVR_LOST := by decide)
    (hevt : ¬ K EVR_EVT := by decide) : OffCycle K s (t.raise code elem p) := by
  unfold State.raise
  exact ite_inv h.upd ((h.upd (u := { t with recorder := _ }).satBump hlost).setFlag hevt)

theorem OffCycle.pmc (h : OffCycle K s t) (g : PmcOnly t u) (hK : ∀ a, pmcCounter a → ¬ K a) : OffCycle K s u := by
  obtain ⟨hrest, hregs⟩ := g
  have hcls : ∀ j, u.cls j = t.cls j := fun j => (congrArg (State.cls · j) hrest :)
  refine h.trans ⟨?_, fun j => ?_, fun a ha => hregs a fun hp => hK a hp ha⟩
  · exact (congrArg t.backOffCycle hrest :)
  · rw [hcls]

theorem not_cycleReg_of_pmcCounter {a : Nat} (h : pmcCounter a) : ¬ CycleReg a := by
  unfold pmcCounter at h
  unfold CycleReg
  omega

theorem OffCycle.obsPush (h : OffCycle K s t) {type src : Nat} {l : List (BitVec 64)} (hlost : ¬ K OBS_LOST := by decide) :
    OffCycle K s (t.obsPush type src l) := by
  unfold State.obsPush
  refine ite_inv h ?_
  extract_lets time rec_ depth marker needM q bumped
  exact ite_inv h.upd (ite_inv (OffCycle.upd (h.satBump hlost)) (OffCycle.upd (h.satBump hlost)))

theorem OffCycle.setLatch (h : OffCycle K s t) {k key : Nat} {l : List Byte} : OffCycle K s (t.setLatch k key l) := by
  refine ⟨h.1, fun j => ?_, h.2.2⟩
  unfold State.setLatch
  by_cases hj : j = k
  · rw [hj, cls_modCls_self]
    exact h.2.1 k
  · rw [cls_modCls_ne _ _ hj]
    exact h.2.1 j

end

/-- What every step of an iteration over a list keeps, for steps that need to know that their element is of the list. -/
theorem each_mem_inv {σ α : Type} {P : σ → Prop} {l : List α} {s : σ} {f : σ → α → σ} (h : P s)
    (hf : ∀ s, P s → ∀ a ∈ l, P (f s a)) : P (each l s f) := by
  induction l generalizing s with
  | nil => exact h
  | cons a l ih =>
    exact ih (hf s h a (List.mem_cons_self ..)) fun s hs b hb => hf s hs b (List.mem_cons_of_mem _ hb)

end Sys2Proof.Machine
end
section
/-!
CERTIFICATE. Following a time reference, and sending TB (R62 to R64, R353, R370).
-/
namespace Sys2Proof.Machine

set_option Elab.async false

/-! ### Signed fields -/

theorem sgn_intBits_16 {v : Int} (hlo : -32768 ≤ v) (hhi : v < 32768) : sgn 16 (intBits 16 v % 2 ^ 16) = v := by
  have hmod : v % 65536 = v ∨ v % 65536 = v + 65536 := by omega
  simp only [sgn, intBits]
  norm_num
  rcases hmod with h | h <;> split <;> omega

theorem sgn_intBits_32 {v : Int} (hlo : -2147483648 ≤ v) (hhi : v < 2147483648) : sgn 32 (intBits 32 v % 2 ^ 32) = v := by
  have hmod : v % 4294967296 = v ∨ v % 4294967296 = v + 4294967296 := by omega
  simp only [sgn, intBits]
  norm_num
  rcases hmod with h | h <;> split <;> omega

theorem clamp32_range (x : Int) : -2147483648 ≤ clamp32 x ∧ clamp32 x < 2147483648 := by
  unfold clamp32
  omega

/-! ### The slew (R63) -/

theorem slewRate_range (s : State) (off : Int) : -10000 ≤ s.slewRate off ∧ s.slewRate off ≤ 10000 := by
  unfold State.slewRate
  dsimp only
  split
  · omega
  · split <;> omega

theorem slewRate_toward (s : State) (off : Int) : (1000 < off → s.slewRate off ≤ 0) ∧ (off < -1000 → 0 ≤ s.slewRate off) := by
  unfold State.slewRate
  dsimp only
  constructor <;> intro h
  · rw [if_pos h]
    omega
  · rw [if_neg (by omega), if_pos h]
    omega

/-! ### The synchronised state (R64) -/

/-- The registers that the judgement of the synchronised state leaves alone. -/
abbrev BesideSync (a : Nat) : Prop := a ∉ [CYC_SYNC, CYC_EVT, EVR_LOST, EVR_EVT]

theorem judgeSync_offCycle (s : State) (off : Int) : OffCycle BesideSync s (s.judgeSync off) := by
  unfold State.judgeSync
  exact ite_inv (OffCycle.refl _ s).setFlag.setFlag.raise (ite_inv (OffCycle.refl _ s).setFlag.setFlag.raise (OffCycle.refl _ s))

/-- An event of a change of the synchronised state leaves the fields of CYC_SYNC alone. -/
theorem fget_sync_raise (s : State) {f e : Fld} {b : Bool} {code elem : Nat} {p : List Byte} (hf : f.addr = CYC_SYNC)
    (he : e.addr = CYC_EVT) : ((s.setFlag e b).raise code elem p).fget f = s.fget f := by
  have hraise := rget_raise (s.setFlag e b) (code := code) (elem := elem) (a := CYC_SYNC) (p := p) (by decide) (by decide)
  exact (fget_congr (hf ▸ hraise)).trans (fget_setFlag_ne s b (by rw [hf, he]; decide))

/-- The other fields of CYC_SYNC stay. -/
theorem judgeSync_fget (s : State) (off : Int) {f : Fld} (hf : f.addr = CYC_SYNC) (hlo : 1 ≤ f.lo) :
    (s.judgeSync off).fget f = s.fget f := by
  have hset : ∀ b, (s.setFlag CYC_SYNC_SYNC b).fget f = s.fget f := fun b =>
    fget_fput_apart s CYC_SYNC_SYNC f _ (by decide) hf (.inr hlo)
  unfold State.judgeSync
  refine ite_inv (P := fun t : State => t.fget f = s.fget f) ?_ (ite_inv (P := fun t : State => t.fget f = s.fget f) ?_ rfl)
  · exact (fget_sync_raise _ hf rfl).trans (hset true)
  · exact (fget_sync_raise _ hf rfl).trans (hset false)

theorem judgeSync_flag_stepped (s : State) (off : Int) : (s.judgeSync off).flag CYC_EVT_TB_STEPPED = s.flag CYC_EVT_TB_STEPPED := by
  have hset : ∀ (e : Fld) (b c : Bool) (elem code : Nat) (p : List Byte), e.addr = CYC_EVT → e.lo + e.width ≤ 2 →
      (((s.setFlag CYC_SYNC_SYNC b).setFlag e c).raise code elem p).flag CYC_EVT_TB_STEPPED = s.flag CYC_EVT_TB_STEPPED :=
    fun e b c elem code p he hlo => by
      rw [flag_congr (rget_raise _ (by decide) (by decide)), State.flag, State.setFlag,
        fget_fput_apart _ e CYC_EVT_TB_STEPPED _ (by omega) he.symm (.inr hlo), fget_setFlag_ne _ _ (by decide), State.flag]
  unfold State.judgeSync
  exact ite_inv (P := fun t : State => t.flag CYC_EVT_TB_STEPPED = _) (hset _ _ _ _ _ _ rfl (by decide))
    (ite_inv (P := fun t : State => t.flag CYC_EVT_TB_STEPPED = _) (hset _ _ _ _ _ _ rfl (by decide)) rfl)

theorem flag_sync_raise (s : State) {e : Fld} {b c : Bool} {code elem : Nat} {p : List Byte} (he : e.addr = CYC_EVT) :
    (((s.setFlag CYC_SYNC_SYNC b).setFlag e c).raise code elem p).flag CYC_SYNC_SYNC = b := by
  rw [State.flag, fget_sync_raise _ rfl he]
  exact flag_setFlag_self s CYC_SYNC_SYNC b (by decide) (by decide)

/-- Synchronisation is gained within 1 µs, lost beyond 2 µs, and stays between. -/
theorem judgeSync_sync (s : State) (off : Int) :
    (off.natAbs ≤ 1000 → (s.judgeSync off).flag CYC_SYNC_SYNC = true) ∧
    (2000 < off.natAbs → (s.judgeSync off).flag CYC_SYNC_SYNC = false) ∧
    (1000 < off.natAbs → off.natAbs ≤ 2000 → (s.judgeSync off).flag CYC_SYNC_SYNC = s.flag CYC_SYNC_SYNC) := by
  unfold State.judgeSync
  cases hsync : s.flag CYC_SYNC_SYNC with
  | false =>
    refine ⟨fun h => ?_, fun h => ?_, fun hlo hhi => ?_⟩
    · rw [if_pos ⟨rfl, h⟩]
      exact flag_sync_raise s rfl
    · rw [if_neg (by omega), if_neg (by simp)]
      exact hsync
    · rw [if_neg (by omega), if_neg (by simp)]
      exact hsync
  | true =>
    refine ⟨fun h => ?_, fun h => ?_, fun hlo hhi => ?_⟩
    · rw [if_neg (by simp), if_neg (by omega)]
      exact hsync
    · rw [if_neg (by simp), if_pos ⟨rfl, h⟩]
      exact flag_sync_raise s rfl
    · rw [if_neg (by simp), if_neg (by omega)]
      exact hsync

/-! ### Steps (R62) -/

/-- TB is stepped to a reference: stepping is open, and TB lies more than 1 µs behind. -/
abbrev StepsTo (s : State) (ref : Nat) : Prop :=
  s.flag CYC_SYNC_STEPOPEN = true ∧ s.tbNs + 1000 < ref ∧ s.tbNat < ref / 1000 ∧ ref / 1000 < 2 ^ 64

/-- The state with TB where a reference is followed from. -/
def State.refStep (s : State) (ref : Nat) : State := if StepsTo s ref then s.stepTb ref else s

/-- The state with the slew shown that brings TB toward a reference. -/
def State.refSlew (s : State) (off : Int) : State :=
  ((s.draw.fput CYC_SYNC_SLEW (intBits 16 (s.slewRate off))).setFlag CYC_SYNC_SLEWING (s.slewRate off != 0)).fput
    CYC_OFFSET_OFFSET_NS (intBits 32 (clamp32 off))

theorem followRef_eq (s : State) (source ref : Nat) :
    s.followRef source ref = (((s.fput CYC_SYNC_SOURCE source).refStep ref).refSlew
      ((((s.fput CYC_SYNC_SOURCE source).refStep ref).tbNs : Int) - ref)).judgeSync
        ((((s.fput CYC_SYNC_SOURCE source).refStep ref).tbNs : Int) - ref) := by
  have hbehind : ∀ u : State, (if (u.flag CYC_SYNC_STEPOPEN && decide (u.tbNs + 1000 < ref ∧ u.tbNat < ref / 1000 ∧ ref / 1000 < 2 ^ 64)) =
      true then u.stepTb ref else u) = u.refStep ref := fun u => by
    simp only [State.refStep, StepsTo, Bool.and_eq_true, decide_eq_true_eq]
  simp only [State.followRef, hbehind, State.refSlew]

theorem stepsTo_sourced (s : State) (source ref : Nat) : StepsTo (s.fput CYC_SYNC_SOURCE source) ref ↔ StepsTo s ref := by
  have hopen : (s.fput CYC_SYNC_SOURCE source).flag CYC_SYNC_STEPOPEN = s.flag CYC_SYNC_STEPOPEN := by
    rw [State.flag, fget_fput_apart _ CYC_SYNC_SOURCE CYC_SYNC_STEPOPEN _ (by decide) rfl (by decide), State.flag]
  unfold StepsTo
  rw [hopen]
  rfl

/-- The registers that a step leaves alone. -/
abbrev BesideStep (a : Nat) : Prop := a ∉ [CYC_EVT, EVR_LOST, EVR_EVT]

theorem stepTb_offCycle (s : State) (ref : Nat) :
    OffCycle BesideStep { s with tb := BitVec.ofNat 64 (ref / 1000), tbPhase := ref % 1000 * 50000000 } (s.stepTb ref) :=
  (OffCycle.refl _ _).setFlag.raise

theorem OffCycle.tb {K : Nat → Prop} {s t : State} (h : OffCycle K s t) : t.tb = s.tb := (congrArg State.tb h.1 :)

theorem OffCycle.tbPhase {K : Nat → Prop} {s t : State} (h : OffCycle K s t) : t.tbPhase = s.tbPhase := (congrArg State.tbPhase h.1 :)

theorem OffCycle.tx {K : Nat → Prop} {s t : State} (h : OffCycle K s t) : t.tx = s.tx := (congrArg State.tx h.1 :)

theorem OffCycle.hedge {K : Nat → Prop} {s t : State} (h : OffCycle K s t) : t.hedge = s.hedge := (congrArg State.hedge h.1 :)

theorem OffCycle.tbNs {K : Nat → Prop} {s t : State} (h : OffCycle K s t) : t.tbNs = s.tbNs := by
  rw [State.tbNs, State.tbNat, h.tb, h.tbPhase, State.tbNs, State.tbNat]

theorem stepTb_tb (s : State) (ref : Nat) : (s.stepTb ref).tb = BitVec.ofNat 64 (ref / 1000) := (stepTb_offCycle s ref).tb

theorem stepTb_stepped (s : State) (ref : Nat) : (s.stepTb ref).flag CYC_EVT_TB_STEPPED = true := by
  unfold State.stepTb
  exact (flag_congr (rget_raise _ (by decide) (by decide))).trans (flag_setFlag_self _ _ _ (by decide) (by decide))

/-- A step leaves all but TB, its flag and what an event leaves behind. -/
theorem refStep_keeps (s : State) (ref : Nat) :
    (s.refStep ref).tx = s.tx ∧ (s.refStep ref).hedge = s.hedge ∧ ∀ a, BesideStep a → (s.refStep ref).rget a = s.rget a := by
  unfold State.refStep
  refine ite_inv (P := fun t : State => t.tx = s.tx ∧ t.hedge = s.hedge ∧ ∀ a, BesideStep a → t.rget a = s.rget a) ?_
    ⟨rfl, rfl, fun _ _ => rfl⟩
  have hstep := stepTb_offCycle s ref
  exact ⟨hstep.tx, hstep.hedge, fun a ha => hstep.rget ha⟩

theorem refStep_tb (s : State) (ref : Nat) :
    (StepsTo s ref → (s.refStep ref).tb = BitVec.ofNat 64 (ref / 1000) ∧ (s.refStep ref).flag CYC_EVT_TB_STEPPED = true) ∧
    (¬ StepsTo s ref → (s.refStep ref).tb = s.tb) := by
  refine ⟨fun h => ?_, fun h => ?_⟩
  · rw [State.refStep, if_pos h]
    exact ⟨stepTb_tb s ref, stepTb_stepped s ref⟩
  · rw [State.refStep, if_neg h]

/-! ### Following a reference -/

theorem refSlew_offCycle (s : State) (off : Int) : OffCycle (· ∉ [CYC_SYNC, CYC_OFFSET]) s (s.refSlew off) :=
  OffCycle.fput (OffCycle.setFlag (OffCycle.fput (OffCycle.upd (OffCycle.refl _ s))))

theorem refSlew_rate (s : State) (off : Int) : (s.refSlew off).fget CYC_SYNC_SLEW = intBits 16 (s.slewRate off) % 2 ^ 16 := by
  rw [State.refSlew, fget_fput_ne _ _ (by decide), State.setFlag,
    fget_fput_apart _ CYC_SYNC_SLEWING CYC_SYNC_SLEW _ (by decide) rfl (by decide), fget_fput_self _ _ _ (by decide)]

theorem refSlew_fget (s : State) (off : Int) {f : Fld} (hf : f.addr = CYC_SYNC) (hslew : f.lo + f.width ≤ 16)
    (hslewing : 2 ≤ f.lo ∨ f.lo + f.width ≤ 1) : (s.refSlew off).fget f = s.fget f := by
  rw [State.refSlew, fget_fput_ne _ _ (by rw [hf]; decide), State.setFlag,
    fget_fput_apart _ CYC_SYNC_SLEWING f _ (by decide) hf hslewing.symm, fget_fput_apart _ CYC_SYNC_SLEW f _ (by decide) hf (.inl hslew)]
  rfl

theorem refSlew_offset (s : State) (off : Int) : (s.refSlew off).fget CYC_OFFSET_OFFSET_NS = intBits 32 (clamp32 off) % 2 ^ 32 := by
  rw [State.refSlew, fget_fput_self _ _ _ (by decide)]

section
variable {s t : State} {source ref : Nat} (h : s.followRef source ref = t)
include h

/-- TB has been stepped to the reference, or stays; the rest of the state is as the obligations of a reference need it. -/
theorem followRef_tb :
    (StepsTo s ref → t.tb = BitVec.ofNat 64 (ref / 1000) ∧ t.flag CYC_EVT_TB_STEPPED = true) ∧ (¬ StepsTo s ref → t.tb = s.tb) := by
  rw [followRef_eq] at h
  generalize hu : (s.fput CYC_SYNC_SOURCE source).refStep ref = u at h
  obtain ⟨hstep, hstay⟩ := refStep_tb (s.fput CYC_SYNC_SOURCE source) ref
  rw [stepsTo_sourced, hu] at hstep hstay
  have htb : t.tb = u.tb := by rw [← h, (judgeSync_offCycle _ _).tb, (refSlew_offCycle _ _).tb]
  refine ⟨fun hs => ⟨htb.trans (hstep hs).1, ?_⟩, fun hs => htb.trans (hstay hs)⟩
  rw [← h, judgeSync_flag_stepped, (refSlew_offCycle _ _).flag (by decide)]
  exact (hstep hs).2

theorem followRef_keeps : t.tx = s.tx ∧ t.hedge = s.hedge ∧
    ∀ a, a ∉ [CYC_SYNC, CYC_OFFSET, CYC_EVT, EVR_LOST, EVR_EVT] → t.rget a = s.rget a := by
  rw [followRef_eq] at h
  obtain ⟨htx, hhedge, hregs⟩ := refStep_keeps (s.fput CYC_SYNC_SOURCE source) ref
  generalize (s.fput CYC_SYNC_SOURCE source).refStep ref = u at h htx hhedge hregs
  refine ⟨?_, ?_, fun a ha => ?_⟩
  · rw [← h, (judgeSync_offCycle _ _).tx, (refSlew_offCycle _ _).tx, htx]
    rfl
  · rw [← h, (judgeSync_offCycle _ _).hedge, (refSlew_offCycle _ _).hedge, hhedge]
    rfl
  · simp only [List.mem_cons, List.not_mem_nil, or_false, not_or] at ha
    obtain ⟨hsync, hoffset, hevt, hlost, hrec⟩ := ha
    rw [← h, (judgeSync_offCycle _ _).rget (by simp [BesideSync, hsync, hevt, hlost, hrec]), (refSlew_offCycle _ _).rget (by simp [hsync, hoffset]),
      hregs a (by simp [BesideStep, hevt, hlost, hrec]), rget_fput_ne _ _ hsync]

/-- The reference is shown with the offset from it and the slew toward it, and synchronisation is judged by it (R63, R64). -/
theorem followRef_shows (hsource : source < 4) :
    let off : Int := (t.tbNs : Int) - ref
    let rate := sgn 16 (t.fget CYC_SYNC_SLEW);
    -10000 ≤ rate ∧ rate ≤ 10000 ∧ (1000 < off → rate ≤ 0) ∧ (off < -1000 → 0 ≤ rate) ∧
      t.fget CYC_SYNC_SOURCE = source ∧ sgn 32 (t.fget CYC_OFFSET_OFFSET_NS) = clamp32 off ∧
      (off.natAbs ≤ 1000 → t.flag CYC_SYNC_SYNC = true) ∧ (2000 < off.natAbs → t.flag CYC_SYNC_SYNC = false) ∧
      (1000 < off.natAbs → off.natAbs ≤ 2000 → t.flag CYC_SYNC_SYNC = s.flag CYC_SYNC_SYNC) := by
  rw [followRef_eq] at h
  obtain ⟨-, -, hregs⟩ := refStep_keeps (s.fput CYC_SYNC_SOURCE source) ref
  generalize hu : (s.fput CYC_SYNC_SOURCE source).refStep ref = u at h hregs
  have hu_fget : ∀ f : Fld, f.addr = CYC_SYNC → u.fget f = (s.fput CYC_SYNC_SOURCE source).fget f := fun f hf =>
    fget_congr (hregs _ (by rw [hf]; decide))
  have hsync : u.flag CYC_SYNC_SYNC = s.flag CYC_SYNC_SYNC := by
    rw [State.flag, hu_fget _ rfl, fget_fput_apart _ CYC_SYNC_SOURCE CYC_SYNC_SYNC _ (by decide) rfl (by decide), State.flag]
  have hns : t.tbNs = u.tbNs := by rw [← h, (judgeSync_offCycle _ _).tbNs, (refSlew_offCycle _ _).tbNs]
  dsimp only
  rw [hns]
  generalize (u.tbNs : Int) - ref = off at h
  have hslew : sgn 16 (t.fget CYC_SYNC_SLEW) = u.slewRate off := by
    obtain ⟨hlo, hhi⟩ := slewRate_range u off
    rw [← h, judgeSync_fget _ _ rfl (by decide), refSlew_rate, sgn_intBits_16 (by omega) (by omega)]
  have hoffset : sgn 32 (t.fget CYC_OFFSET_OFFSET_NS) = clamp32 off := by
    rw [← h, (judgeSync_offCycle _ _).fget (by decide), refSlew_offset,
      sgn_intBits_32 (clamp32_range off).1 (clamp32_range off).2]
  have hshown : t.fget CYC_SYNC_SOURCE = source := by
    rw [← h, judgeSync_fget _ _ rfl (by decide), refSlew_fget _ _ rfl (by decide) (by decide), hu_fget _ rfl,
      fget_fput_self _ _ _ (by decide)]
    exact Nat.mod_eq_of_lt hsource
  have hslewed : (u.refSlew off).flag CYC_SYNC_SYNC = s.flag CYC_SYNC_SYNC := by
    rw [State.flag, refSlew_fget _ _ rfl (by decide) (by decide), ← hsync, State.flag]
  have hjudged := judgeSync_sync (u.refSlew off) off
  rw [h, hslewed] at hjudged
  rw [hslew]
  exact ⟨(slewRate_range u off).1, (slewRate_range u off).2, (slewRate_toward u off).1, (slewRate_toward u off).2, hshown, hoffset,
    hjudged⟩

end

/-! ### Sync messages of a grandmaster (R370) -/

theorem exec_gptpSync {s : State} {p : Fin 4} {ref : Nat} (hheld : s.ctl.held = false) (hup : s.mode ≠ mPowerUp)
    (hdormant : s.mode ≠ mDormant) (hlink : s.linkUp p = true) (has : s.flag (ETH_PCFG_AS p) = true)
    (hslave : s.fget (ETH_PSTAT_AS_ROLE p) = 2) (huses : s.usesGptp = true) :
    exec (.gptpMessage p (.sync ref)) s = .next (s.followRef 1 ref) := by
  show execGptpMessage p (.sync ref) s = _
  simp [execGptpMessage, hheld, hup, hdormant, hlink, has, hslave, huses]

/-! ### Time messages (R64, R353) -/

theorem timeMessage_sends {s : State} (hheld : s.ctl.held = false) (hdormant : s.mode ≠ mDormant)
    (hsends : (s.paired = true ∧ s.role = 1) ∨ (s.flag MEL_CFG_HEDGE = true ∧ s.member = 0 ∧ s.role ≠ 2))
    (hdue : s.hedge.timeAt + 62500 ≤ s.fab) :
    exec .timeMessage s = .next (({ s with hedge := { s.hedge with timeAt := s.fab } } : State).send (.timeMessage s.tbNs)) := by
  show execTimeMessage s = _
  rcases hsends with ⟨hpaired, hrole⟩ | ⟨hhedge, hmember, hrole⟩
  · simp [execTimeMessage, hheld, hdormant, hpaired, hrole, hdue]
  · simp [execTimeMessage, hheld, hdormant, hhedge, hmember, hrole, hdue]

theorem timeMessage_early {s : State} (hearly : s.fab < s.hedge.timeAt + 62500) : exec .timeMessage s = .next s := by
  have hnot : ¬ s.hedge.timeAt + 62500 ≤ s.fab := by omega
  show execTimeMessage s = _
  simp [execTimeMessage, hnot]

/-- The state with the delay and the port of a time message taken note of. -/
def State.toldTime (s : State) (port delay : Nat) : State :=
  { s with hedge := { s.hedge with delay := tset 0 s.hedge.delay port delay, timePort := port } }

theorem toldTime_tx (s : State) (port delay : Nat) : (s.toldTime port delay).tx = s.tx := rfl

theorem toldTime_flag (s : State) (port delay : Nat) (f : Fld) : (s.toldTime port delay).flag f = s.flag f := rfl

theorem followTold_tb {s t : State} {port delay ref : Nat} (h : (s.toldTime port delay).followRef 2 ref = t) :
    t.tb = s.tb ∨ s.tb.toNat < t.tb.toNat := by
  obtain ⟨hstep, hstay⟩ := followRef_tb h
  by_cases hs : StepsTo (s.toldTime port delay) ref
  · obtain ⟨-, -, hlt, hfit⟩ := id hs
    refine .inr ?_
    rw [(hstep hs).1, BitVec.toNat_ofNat, Nat.mod_eq_of_lt hfit]
    exact hlt
  · exact .inl (hstay hs)

/-- The state with an offset from the top master shown. -/
def State.showOffset (s : State) (off : Int) : State :=
  (s.fput MEL_TOFS_OFS_NS (intBits 32 off)).setFlag MEL_STAT_SYNC (s.flag CYC_SYNC_SYNC)

/-- The state with its TB sent on, and the time taken since which it has been more than 2 µs off. -/
def State.relayTime (s : State) (off : Int) (ref : Nat) : State :=
  let since := if 2000 < off.natAbs then some (s.hedge.offAt.getD s.fab) else none
  ({ s with hedge := { s.hedge with offAt := since } } : State).send (.timeMessage ref)

/-- What a module of a hedge does with the TB that it follows. -/
def State.passTimeOn (s : State) (ref : Nat) : State :=
  (s.showOffset (sgn 32 (s.fget CYC_OFFSET_OFFSET_NS))).relayTime (sgn 32 (s.fget CYC_OFFSET_OFFSET_NS)) ref

theorem showOffset_offCycle (s : State) (off : Int) : OffCycle (· ∉ [MEL_TOFS, MEL_STAT]) s (s.showOffset off) :=
  (OffCycle.refl _ s).fput.setFlag

theorem relayTime_tb (s : State) (off : Int) (ref : Nat) : (s.relayTime off ref).tb = s.tb := rfl

theorem relayTime_tx (s : State) (off : Int) (ref : Nat) : (s.relayTime off ref).tx = s.tx ++ [.timeMessage ref] := rfl

theorem relayTime_fget (s : State) (off : Int) (ref : Nat) (f : Fld) : (s.relayTime off ref).fget f = s.fget f := rfl

theorem passTimeOn_keeps (s : State) (ref : Nat) : (s.passTimeOn ref).tb = s.tb ∧ (s.passTimeOn ref).tx = s.tx ++ [.timeMessage ref] ∧
    (s.passTimeOn ref).fget CYC_SYNC_SOURCE = s.fget CYC_SYNC_SOURCE := by
  have hshown := showOffset_offCycle s (sgn 32 (s.fget CYC_OFFSET_OFFSET_NS))
  rw [State.passTimeOn, relayTime_tb, relayTime_tx, relayTime_fget, hshown.tb, hshown.tx, hshown.fget (by decide)]
  exact ⟨rfl, rfl, rfl⟩

theorem exec_timeMessageReceived {s : State} {m : TimeMsg} (hheld : s.ctl.held = false) (hup : s.mode ≠ mPowerUp)
    (hdormant : s.mode ≠ mDormant) (hbelow : s.hedgeBelow = true ∨ s.role = 2) :
    exec (.timeMessageReceived m) s =
      if ((s.toldTime m.port (linkDelay m)).followRef 2 (m.topNs + linkDelay m)).flag MEL_CFG_HEDGE
      then .next (((s.toldTime m.port (linkDelay m)).followRef 2 (m.topNs + linkDelay m)).passTimeOn (m.topNs + linkDelay m))
      else .next ((s.toldTime m.port (linkDelay m)).followRef 2 (m.topNs + linkDelay m)) := by
  have hruns : (s.ctl.held || s.mode == mPowerUp || s.mode == mDormant || !(s.hedgeBelow || s.role == 2)) = false := by
    rcases hbelow with h | h <;> simp [hheld, hup, hdormant, h]
  show execTimeMessageReceived m s = _
  rw [execTimeMessageReceived, hruns, if_neg Bool.false_ne_true]
  generalize linkDelay m = delay
  generalize m.topNs + delay = ref
  rfl

/-- A module that follows the TB of another, and passes it on to the members below it. -/
theorem timeMessageReceived_follows {s : State} {m : TimeMsg} (hheld : s.ctl.held = false) (hup : s.mode ≠ mPowerUp)
    (hdormant : s.mode ≠ mDormant) (hbelow : s.hedgeBelow = true ∨ s.role = 2) :
    ∃ t, exec (.timeMessageReceived m) s = .next t ∧ t.fget CYC_SYNC_SOURCE = 2 ∧ (t.tb = s.tb ∨ s.tb.toNat < t.tb.toNat) ∧
      t.tx = if s.flag MEL_CFG_HEDGE then s.tx ++ [.timeMessage (m.topNs + linkDelay m)] else s.tx := by
  rw [exec_timeMessageReceived hheld hup hdormant hbelow]
  generalize ht : (s.toldTime m.port (linkDelay m)).followRef 2 (m.topNs + linkDelay m) = t
  obtain ⟨-, -, -, -, hsource, -⟩ := followRef_shows ht (by decide)
  obtain ⟨htx, -, hregs⟩ := followRef_keeps ht
  have hhedge := flag_congr (f := MEL_CFG_HEDGE) (hregs MEL_CFG (by decide))
  rw [toldTime_flag] at hhedge
  rw [toldTime_tx] at htx
  rw [← hhedge]
  cases t.flag MEL_CFG_HEDGE with
  | false => exact ⟨t, if_neg Bool.false_ne_true, hsource, followTold_tb ht, htx⟩
  | true =>
    obtain ⟨htb, hsent, hkept⟩ := passTimeOn_keeps t (m.topNs + linkDelay m)
    rw [htx] at hsent
    exact ⟨_, if_pos rfl, hkept.trans hsource, by rw [htb]; exact followTold_tb ht, hsent⟩

/-- Settles O30: a sync message is a reference that `followRef` takes, by its step, its slew and its judgement; and the time messages
of the primary, of the top master and of those that follow. -/
theorem timeReference : Obligations.TimeReference := by
  unfold Obligations.TimeReference
  refine ⟨fun s p ref hheld hup hdormant hlink has hslave huses => ?_, fun s m hheld hup hdormant => ⟨fun hsends => ⟨fun hdue => ?_,
    timeMessage_early⟩, timeMessageReceived_follows hheld hup hdormant⟩⟩
  · obtain ⟨hstep, hstay⟩ := followRef_tb (s := s) (source := 1) (ref := ref) rfl
    exact ⟨_, exec_gptpSync hheld hup hdormant hlink has hslave huses, hstep, hstay, followRef_shows rfl (by decide)⟩
  · exact ⟨_, timeMessage_sends hheld hdormant hsends hdue, rfl, rfl, rfl, rfl⟩

end Sys2Proof.Machine
end
section
/-!
SUPPORT. `WeaveStep`: what beats, halts and traps of strands change, and what they leave alone; with one lemma for each operation (R94
to R101, R163 to R166).
-/
namespace Sys2Proof.Machine

set_option Elab.async false

/-! ### Bits of a field -/

theorem bitAt_eq_testBit (v i : Nat) : bitAt v i = v.testBit i := by
  rw [bitAt, Nat.testBit_eq_decide_div_mod_eq]
  rfl

section
variable (s : State) {f : Fld} {i : Nat} (b : Bool) (hf : f.lo + f.width ≤ 32)
include hf

theorem bitAt_setBit_self (hi : i < f.width) : bitAt ((s.setBit f i b).fget f) i = b := by
  have hput : bitAt (bitsPut (s.fget f) i 1 (if b then 1 else 0)) i = b := by
    have hbit := bitsAt_bitsPut (s.fget f) i 1 (if b then 1 else 0)
    rw [bitsAt, pow_one] at hbit
    rw [bitAt, hbit]
    cases b <;> rfl
  rw [State.setBit, fget_fput_self _ _ _ hf, bitAt_eq_testBit, Nat.testBit_mod_two_pow, ← bitAt_eq_testBit, hput, decide_eq_true hi,
    Bool.true_and]

theorem bitAt_setBit_ne {j : Nat} (hj : j ≠ i) (hw : j < f.width) : bitAt ((s.setBit f i b).fget f) j = bitAt (s.fget f) j := by
  rw [State.setBit, fget_fput_self _ _ _ hf, bitAt_eq_testBit, Nat.testBit_mod_two_pow, decide_eq_true hw, Bool.true_and,
    bitsPut_testBit (by omega), bitAt_eq_testBit]

end

/-! ### The relation -/

/-- The state `t` with its strands, beats, status words, stalled accesses, messages, events and records as in `s`. -/
def State.backWeave (s t : State) : State :=
  { t with regs := s.regs, sw := s.sw, strands := s.strands, classes := s.classes, inflight := s.inflight, fabWait := s.fabWait,
           tx := s.tx, evq := s.evq, recorder := s.recorder, obs := s.obs, upd := s.upd }

/-- A strand that waits for the same, and has not changed otherwise. -/
def SameButReleased (x y : Strand) : Prop := y = { x with stall := y.stall } ∧ y.stall.map Stall.on = x.stall.map Stall.on

/-- A class whose beats alone have changed. -/
def SameButBeats (c d : ClassSt) : Prop := { d with beatDone := c.beatDone, beatView := c.beatView } = c

/-- From `s` to `t` nothing has changed but beats, releases of stalled strands, status words, messages, events, records, and registers
outside `K`. -/
def WeaveStep (K : Nat → Prop) (s t : State) : Prop :=
  s.backWeave t = s ∧ (∀ j, SameButReleased (s.strand j) (t.strand j)) ∧ (∀ j, SameButBeats (s.cls j) (t.cls j)) ∧
    ∀ a, K a → t.rget a = s.rget a

theorem SameButReleased.refl (x : Strand) : SameButReleased x x := ⟨rfl, rfl⟩

theorem SameButReleased.trans {x y z : Strand} (h : SameButReleased x y) (g : SameButReleased y z) : SameButReleased x z := by
  obtain ⟨hrest, hon⟩ := h
  obtain ⟨grest, gon⟩ := g
  refine ⟨?_, gon.trans hon⟩
  calc z = { y with stall := z.stall } := grest
    _ = { x with stall := z.stall } := by rw [hrest]

theorem SameButReleased.run {x y : Strand} (h : SameButReleased x y) : y.run = x.run := (congrArg Strand.run h.1 :)

theorem SameButBeats.refl (c : ClassSt) : SameButBeats c c := rfl

theorem SameButBeats.trans {c d e : ClassSt} (h : SameButBeats c d) (g : SameButBeats d e) : SameButBeats c e := by
  have hboth := congrArg (fun x : ClassSt => { x with beatDone := c.beatDone, beatView := c.beatView }) g
  exact Eq.trans hboth h

section
variable {K : Nat → Prop} {s t u : State}

theorem WeaveStep.refl (K : Nat → Prop) (s : State) : WeaveStep K s s :=
  ⟨rfl, fun _ => .refl _, fun _ => .refl _, fun _ _ => rfl⟩

theorem WeaveStep.trans (h : WeaveStep K s t) (g : WeaveStep K t u) : WeaveStep K s u := by
  obtain ⟨hrest, hstrands, hcls, hregs⟩ := h
  obtain ⟨grest, gstrands, gcls, gregs⟩ := g
  refine ⟨?_, fun j => (hstrands j).trans (gstrands j), fun j => (hcls j).trans (gcls j), fun a ha => (gregs a ha).trans (hregs a ha)⟩
  calc s.backWeave u = s.backWeave (t.backWeave u) := rfl
    _ = s := by rw [grest, hrest]

/-- An update of parts of the state that no strand sees. -/
theorem WeaveStep.upd (h : WeaveStep K s t) (hrest : s.backWeave u = s.backWeave t := by rfl)
    (hstrands : u.strands = t.strands := by rfl) (hcls : u.classes = t.classes := by rfl) (hregs : u.regs = t.regs := by rfl) :
    WeaveStep K s u := by
  obtain ⟨trest, tstrands, tcls, tregs⟩ := h
  have hstrand : ∀ j, u.strand j = t.strand j := fun j => congrArg (tget Strand.reset · j) hstrands
  have hclass : ∀ j, u.cls j = t.cls j := fun j => congrArg (tget ClassSt.reset · j) hcls
  have hreg : ∀ a, u.rget a = t.rget a := fun a => by rw [State.rget, hregs, State.rget]
  exact ⟨hrest.trans trest, fun j => hstrand j ▸ tstrands j, fun j => hclass j ▸ tcls j, fun a ha => (hreg a).trans (tregs a ha)⟩

/-! ### What has not changed -/

theorem WeaveStep.rget (h : WeaveStep K s t) {a : Nat} (ha : K a) : t.rget a = s.rget a := h.2.2.2 a ha

theorem WeaveStep.fget (h : WeaveStep K s t) {f : Fld} (hf : K f.addr) : t.fget f = s.fget f := fget_congr (h.rget hf)

theorem WeaveStep.flag (h : WeaveStep K s t) {f : Fld} (hf : K f.addr) : t.flag f = s.flag f := flag_congr (h.rget hf)

theorem WeaveStep.img (h : WeaveStep K s t) : t.img = s.img := (congrArg State.img h.1 :)

theorem WeaveStep.fab (h : WeaveStep K s t) : t.fab = s.fab := (congrArg State.fab h.1 :)

theorem WeaveStep.cfg (h : WeaveStep K s t) (j : Nat) : t.cfg j = s.cfg j := (congrArg (State.cfg · j) h.1 :)

theorem WeaveStep.strandsOf (h : WeaveStep K s t) (k : Nat) : t.strandsOf k = s.strandsOf k := (congrArg (State.strandsOf · k) h.1 :)

theorem WeaveStep.strand (h : WeaveStep K s t) (j : Nat) : SameButReleased (s.strand j) (t.strand j) := h.2.1 j

theorem WeaveStep.cls (h : WeaveStep K s t) (j : Nat) : SameButBeats (s.cls j) (t.cls j) := h.2.2.1 j

theorem WeaveStep.run (h : WeaveStep K s t) (j : Nat) : (t.strand j).run = (s.strand j).run := (h.strand j).run

theorem WeaveStep.stg (h : WeaveStep K s t) (j : Nat) : (t.strand j).stg = (s.strand j).stg := (congrArg Strand.stg (h.strand j).1 :)

theorem WeaveStep.pc (h : WeaveStep K s t) (j : Nat) : (t.strand j).pc = (s.strand j).pc := (congrArg Strand.pc (h.strand j).1 :)

theorem WeaveStep.beam (h : WeaveStep K s t) (j : Nat) : (t.cls j).beam = (s.cls j).beam := (congrArg ClassSt.beam (h.cls j) :)

theorem WeaveStep.beatToDone (h : WeaveStep K s t) (j : Nat) : (t.cls j).beatToDone = (s.cls j).beatToDone :=
  (congrArg ClassSt.beatToDone (h.cls j) :)

theorem WeaveStep.shadow (h : WeaveStep K s t) (j : Nat) : (t.cls j).shadow = (s.cls j).shadow := (congrArg ClassSt.shadow (h.cls j) :)

/-! ### Registers, events, counters and records -/

theorem WeaveStep.rset (h : WeaveStep K s t) {b : Nat} {v : Word} (hb : ¬ K b := by decide) : WeaveStep K s (t.rset b v) :=
  ⟨h.1, h.2.1, h.2.2.1, fun a ha => (rget_rset_ne t v (by rintro rfl; exact hb ha)).trans (h.rget ha)⟩

theorem WeaveStep.fput (h : WeaveStep K s t) {f : Fld} {v : Nat} (hf : ¬ K f.addr := by decide) : WeaveStep K s (t.fput f v) :=
  h.rset hf

theorem WeaveStep.setFlag (h : WeaveStep K s t) {f : Fld} {b : Bool} (hf : ¬ K f.addr := by decide) : WeaveStep K s (t.setFlag f b) :=
  h.rset hf

theorem WeaveStep.setBit (h : WeaveStep K s t) {f : Fld} {i : Nat} {b : Bool} (hf : ¬ K f.addr := by decide) :
    WeaveStep K s (t.setBit f i b) := h.rset hf

theorem WeaveStep.satBump (h : WeaveStep K s t) {f : Fld} {n : Nat} (hf : ¬ K f.addr := by decide) : WeaveStep K s (t.satBump f n) :=
  h.rset hf

theorem WeaveStep.raise (h : WeaveStep K s t) {code elem : Nat} {p : List Byte} (hlost : ¬ K EVR_LOST := by decide)
    (hevt : ¬ K EVR_EVT := by decide) : WeaveStep K s (t.raise code elem p) := by
  unfold State.raise
  exact ite_inv h.upd ((h.upd (u := { t with recorder := _ }).satBump hlost).setFlag hevt)

theorem WeaveStep.pmc (h : WeaveStep K s t) (g : PmcOnly t u) (hK : ∀ a, pmcCounter a → ¬ K a) : WeaveStep K s u := by
  obtain ⟨grest, gregs⟩ := g
  refine h.trans ⟨(congrArg t.backWeave grest :), fun j => ?_, fun j => ?_, fun a ha => gregs a fun hp => hK a hp ha⟩
  · have hstrand : u.strand j = t.strand j := (congrArg (State.strand · j) grest :)
    exact hstrand ▸ .refl _
  · have hclass : u.cls j = t.cls j := (congrArg (State.cls · j) grest :)
    exact hclass ▸ .refl _

theorem WeaveStep.obsPush (h : WeaveStep K s t) {type src : Nat} {l : List (BitVec 64)} (hlost : ¬ K OBS_LOST := by decide) :
    WeaveStep K s (t.obsPush type src l) := by
  unfold State.obsPush
  refine ite_inv h ?_
  extract_lets time rec_ depth marker needM q bumped
  exact ite_inv h.upd (ite_inv (WeaveStep.upd (h.satBump hlost)) (WeaveStep.upd (h.satBump hlost)))

theorem WeaveStep.btWord (h : WeaveStep K s t) {st : Nat} {w : BitVec 64} {restart fin : Bool} (hlost : ¬ K OBS_LOST := by decide) :
    WeaveStep K s (t.btWord st w restart fin) := by
  have hset : ∀ {v : State} {b : BranchTrace}, WeaveStep K s v → WeaveStep K s (v.setBt st b) := fun h => h.upd
  have hsend : ∀ {v : State} {e : Bool}, WeaveStep K s v → WeaveStep K s (v.btSend st e) := fun h => by
    unfold State.btSend
    exact ite_inv (ite_inv (hset (hset (h.obsPush hlost) |>.obsPush hlost)) (hset (h.obsPush hlost)))
      (ite_inv (hset (h.obsPush hlost)) h)
  unfold State.btWord
  exact ite_inv (hsend (hset h)) h

theorem WeaveStep.btStart (h : WeaveStep K s t) {st why : Nat} {pc : Word} (hlost : ¬ K OBS_LOST := by decide) :
    WeaveStep K s (t.btStart st why pc) := h.btWord hlost

theorem WeaveStep.btEnd (h : WeaveStep K s t) {st : Nat} {pc : Word} (hlost : ¬ K OBS_LOST := by decide) :
    WeaveStep K s (t.btEnd st pc) := h.btWord hlost

/-! ### Beats (R96 to R101) -/

theorem WeaveStep.modStrand (h : WeaveStep K s t) {st : Nat} {f : Strand → Strand} (hf : ∀ x, SameButReleased x (f x)) :
    WeaveStep K s (t.modStrand st f) := by
  refine h.trans ⟨rfl, fun j => ?_, fun _ => .refl _, fun _ _ => rfl⟩
  by_cases hj : j = st
  · rw [hj, strand_modStrand_self]
    exact hf _
  · rw [strand_modStrand_ne _ _ hj]
    exact .refl _

theorem WeaveStep.setBeats (h : WeaveStep K s t) {k : Nat} {done : Tab (BitVec 16)} {view : Tab (Tab MByte)} :
    WeaveStep K s (t.setCls k { t.cls k with beatDone := done, beatView := view }) := by
  refine h.trans ⟨rfl, fun _ => .refl _, fun j => ?_, fun _ _ => rfl⟩
  by_cases hj : j = k
  · rw [hj, cls_setCls_self]
    exact rfl
  · rw [cls_setCls_ne _ _ hj]
    exact .refl _

/-- What a signalled beat leaves behind its own bit. -/
theorem signalBeat_released (s : State) (k b : Nat) (forced : Bool) (hlost : ¬ K OBS_LOST) :
    WeaveStep K (s.setBit (beatFld false k b) (b % 32) true) (s.signalBeat k b forced) := by
  unfold State.signalBeat
  extract_lets set shown told
  have hshown : WeaveStep K set shown := by
    unfold shown State.obsBeat
    exact ite_inv ((WeaveStep.refl K set).obsPush hlost) (WeaveStep.refl K set)
  have htold : WeaveStep K set told := ite_inv hshown.upd hshown
  refine each_inv htold fun v hv st => hv.modStrand fun x => ?_
  split
  · next w hw =>
    split
    · exact ⟨rfl, by rw [hw]; rfl⟩
    · exact .refl x
  · exact .refl x

section
variable {k : Nat} (hsig : ∀ b, ¬ K (beatFld false k b).addr) (hlost : ¬ K OBS_LOST)
include hsig hlost

theorem WeaveStep.produceBeat (h : WeaveStep K s t) {st b : Nat} {view : Tab MByte} {forced : Bool} :
    WeaveStep K s (t.produceBeat k st b view forced) := by
  unfold State.produceBeat
  extract_lets mask taken prod
  have htaken : WeaveStep K s taken := h.setBeats
  exact ite_inv ((htaken.setBit (hsig _)).trans (signalBeat_released taken k b forced hlost)) htaken

end

theorem WeaveStep.forceBeats (h : WeaveStep K s t) {st cause : Nat} (hsig : ∀ frc b, ¬ K (beatFld frc (s.cfg st).cls b).addr)
    (hobs : ¬ K OBS_LOST := by decide) (hbeat : ¬ K BEAT_EVT := by decide) (hlost : ¬ K EVR_LOST := by decide)
    (hevt : ¬ K EVR_EVT := by decide) : WeaveStep K s (t.forceBeats st cause) := by
  rw [← h.cfg] at hsig
  unfold State.forceBeats
  extract_lets k pend view forced shown
  have hforced : WeaveStep K s forced := each_inv h fun v hv b => (hv.produceBeat (hsig false) hobs).setBit (hsig true b)
  exact ite_inv h ((ite_inv (hforced.setBit hbeat) (hforced.setBit hbeat)).raise hlost hevt)

theorem WeaveStep.ownedBad (h : WeaveStep K s t) {st : Nat} : WeaveStep K s (t.ownedBad st) :=
  each_inv h fun _ h _ => h.upd

theorem WeaveStep.spoilTrial (h : WeaveStep K s t) : WeaveStep K s t.spoilTrial := by
  unfold State.spoilTrial
  split
  · exact h
  · exact h.upd

end

/-! ### Traps (R165 to R167) -/

/-- The registers below those of the beats: blocks SYSCTL, CYC and HDL (R25). -/
abbrev BelowBeats (a : Nat) : Prop := a < 0x40030000

theorem not_belowBeats_of_pmcCounter {a : Nat} (h : pmcCounter a) : ¬ BelowBeats a := by
  unfold pmcCounter at h
  unfold BelowBeats
  omega

theorem beatFld_not_belowBeats (frc : Bool) (k b : Nat) : ¬ BelowBeats (beatFld frc k b).addr := by
  unfold beatFld BEAT_FRC_LO_FRC BEAT_FRC_HI_FRC BEAT_SIG_LO_SIG BEAT_SIG_HI_SIG BEAT_FRC_LO BEAT_FRC_HI BEAT_SIG_LO BEAT_SIG_HI BelowBeats
  cases frc <;> by_cases hb : b < 32 <;> simp [hb] <;> omega

/-- The registers that the record of a trap of strand `st` leaves alone. -/
abbrev BesideTrap (st a : Nat) : Prop := CycleReg a ∧ a ∉ [TRAP_SUM, TRAP_INFO st, TRAP_PC st]

theorem WeaveStep.mono {K K' : Nat → Prop} {s t : State} (h : WeaveStep K s t) (hK : ∀ a, K' a → K a) : WeaveStep K' s t :=
  ⟨h.1, h.2.1, h.2.2.1, fun a ha => h.rget (hK a ha)⟩

/-- A trap's record, behind the registers of the trap (R165). -/
theorem recordTrap_shown (s : State) {st code : Nat} (hst : st < 16) :
    WeaveStep CycleReg (((((s.satBump (TRAP_INFO_COUNT st) 1).fput (TRAP_INFO_HANDLING st) (s.trapHandling (s.cfg st).cls code)).fput
      (TRAP_INFO_CODE st) code).fput (TRAP_PC_PC st) (s.strand st).pc.toNat).setBit TRAP_SUM_TRAPPED st true) (s.recordTrap st code) := by
  unfold State.recordTrap
  extract_lets k pc handling counted shown raised
  have hraised : WeaveStep CycleReg shown raised := (WeaveStep.refl _ shown).raise
  have hended := (hraised.pmc (PmcOnly.countS raised st 0x0D 1 hst) fun _ => not_cycleReg_of_pmcCounter).btEnd (st := st) (pc := pc)
  unfold State.countTrialTrap
  exact ite_inv hended.satBump hended

theorem recordTrap_weaveStep (s : State) {st code : Nat} (hst : st < 16) : WeaveStep (BesideTrap st) s (s.recordTrap st code) := by
  refine WeaveStep.trans ?_ ((recordTrap_shown s hst).mono fun a ha => ha.1)
  have hnot : ∀ a ∈ [TRAP_SUM, TRAP_INFO st, TRAP_PC st], ¬ BesideTrap st a := fun a ha h => h.2 ha
  have hinfo := hnot (TRAP_INFO st) (by simp)
  exact ((((WeaveStep.refl _ s).satBump hinfo).fput hinfo |>.fput hinfo).fput (hnot (TRAP_PC st) (by simp))).setBit
    (hnot TRAP_SUM (by simp))

theorem trapInfo_ne (st st' : Nat) : TRAP_INFO st ≠ TRAP_SUM ∧ TRAP_INFO st ≠ TRAP_PC st' := by
  unfold TRAP_INFO TRAP_SUM TRAP_PC
  omega

/-- The record shows the code of the trap (R165). -/
theorem recordTrap_code (s : State) {st code : Nat} (hst : st < 16) (hcode : code < 64) :
    (s.recordTrap st code).fget (TRAP_INFO_CODE st) = code := by
  have hlow : CycleReg (TRAP_INFO st) := by
    unfold CycleReg TRAP_INFO
    omega
  rw [(recordTrap_shown s hst).fget hlow, State.setBit, fget_fput_ne _ _ (trapInfo_ne st st).1, fget_fput_ne _ _ (trapInfo_ne st st).2,
    fget_fput_self _ _ _ (show 0 + 6 ≤ 32 by decide)]
  exact Nat.mod_eq_of_lt hcode

/-! ### Halts (R100, R101) -/

/-- Strand `st` has halted between `s` and `t`, and left its class, the other strands and the registers in `K` as `WeaveStep` does. -/
def Halts (K : Nat → Prop) (s t : State) (st : Nat) : Prop :=
  s.backWeave t = s ∧ (t.strand st).run = .halted ∧ (t.strand st).stg = [] ∧
    (∀ j, j ≠ st → SameButReleased (s.strand j) (t.strand j)) ∧
    (∀ j, ∃ beam, SameButBeats { s.cls j with beam := beam } (t.cls j)) ∧ ∀ a, K a → t.rget a = s.rget a

section
variable {K : Nat → Prop} {s : State} {st : Nat}

/-- From `s` to `t` nothing but strand `st` has changed, beside what `backWeave` takes back and registers outside `K`. -/
def OwnStrand (K : Nat → Prop) (st : Nat) (s t : State) : Prop :=
  s.backWeave t = s ∧ (∀ j, j ≠ st → t.strand j = s.strand j) ∧ (∀ j, t.cls j = s.cls j) ∧ ∀ a, K a → t.rget a = s.rget a

theorem OwnStrand.upd {t u : State} (h : OwnStrand K st s t) (hrest : s.backWeave u = s.backWeave t := by rfl)
    (hstrands : u.strands = t.strands := by rfl) (hcls : u.classes = t.classes := by rfl) (hregs : u.regs = t.regs := by rfl) :
    OwnStrand K st s u := by
  obtain ⟨trest, tstrands, tcls, tregs⟩ := h
  have hstrand : ∀ j, u.strand j = t.strand j := fun j => congrArg (tget Strand.reset · j) hstrands
  have hclass : ∀ j, u.cls j = t.cls j := fun j => congrArg (tget ClassSt.reset · j) hcls
  have hreg : ∀ a, u.rget a = t.rget a := fun a => by rw [State.rget, hregs, State.rget]
  exact ⟨hrest.trans trest, fun j hj => (hstrand j).trans (tstrands j hj), fun j => (hclass j).trans (tcls j),
    fun a ha => (hreg a).trans (tregs a ha)⟩

theorem OwnStrand.setBit {t : State} (h : OwnStrand K st s t) {f : Fld} {i : Nat} {b : Bool} (hf : ¬ K f.addr) :
    OwnStrand K st s (t.setBit f i b) :=
  ⟨h.1, h.2.1, h.2.2.1, fun a ha => (rget_rset_ne t _ (by rintro rfl; exact hf ha)).trans (h.2.2.2 a ha)⟩

theorem dropStall_ownStrand (hwait : ¬ K BEAT_WAIT) : OwnStrand K st s (s.dropStall st) := by
  unfold State.dropStall
  split
  · exact ⟨rfl, fun _ _ => rfl, fun _ => rfl, fun _ _ => rfl⟩
  · extract_lets dropped
    have hdropped : OwnStrand K st s dropped := ⟨rfl, fun j hj => strand_modStrand_ne s _ hj, fun _ => rfl, fun _ _ => rfl⟩
    clear_value dropped
    split
    · exact (hdropped.setBit hwait).upd
    · exact hdropped.upd
    · exact ite_inv hdropped.upd hdropped.upd

theorem checkLastEndc_frame (s : State) (k : Nat) : ∃ c, s.checkLastEndc k = { s with classes := c } ∧
    ∀ j, ∃ beam, (s.checkLastEndc k).cls j = { s.cls j with beam := beam } := by
  unfold State.checkLastEndc
  dsimp only
  split
  · refine ⟨_, rfl, fun j => ?_⟩
    by_cases hj : j = k
    · exact ⟨.ready s.fab, by rw [hj, cls_setCls_self]⟩
    · exact ⟨(s.cls j).beam, cls_setCls_ne _ _ hj⟩
  · exact ⟨s.classes, rfl, fun j => ⟨(s.cls j).beam, rfl⟩⟩

theorem haltStrand_halts (s : State) (st cause : Nat) (hsig : ∀ frc b, ¬ K (beatFld frc (s.cfg st).cls b).addr)
    (hwait : ¬ K BEAT_WAIT := by decide) (hobs : ¬ K OBS_LOST := by decide) (hbeat : ¬ K BEAT_EVT := by decide)
    (hlost : ¬ K EVR_LOST := by decide) (hevt : ¬ K EVR_EVT := by decide) : Halts K s (s.haltStrand st cause) st := by
  obtain ⟨drest, dstrand, dcls, dregs⟩ := dropStall_ownStrand (s := s) (st := st) hwait
  unfold State.haltStrand
  extract_lets dropped forced halted spoilt
  have hcfg : dropped.cfg st = s.cfg st := (congrArg (State.cfg · st) drest :)
  have hforced : WeaveStep K dropped forced := ((WeaveStep.refl K dropped).forceBeats (hcfg ▸ hsig) hobs hbeat hlost hevt).ownedBad
  have hspoilt : WeaveStep K halted spoilt := (WeaveStep.refl K halted).spoilTrial
  obtain ⟨c, hlast, hcls⟩ := checkLastEndc_frame spoilt (spoilt.cfg st).cls
  have hstrand : ∀ j, (spoilt.checkLastEndc (spoilt.cfg st).cls).strand j = spoilt.strand j := fun j => by rw [hlast]; rfl
  have hown : halted.strand st = { forced.strand st with run := .halted, stg := [], answer := none, why := cause + 1 } :=
    strand_modStrand_self _ _ _
  refine ⟨?_, ?_, ?_, fun j hj => ?_, fun j => ?_, fun a ha => ?_⟩
  · calc s.backWeave (spoilt.checkLastEndc (spoilt.cfg st).cls) = s.backWeave (dropped.backWeave (halted.backWeave spoilt)) := by
          rw [hlast]; rfl
      _ = s := by rw [hspoilt.1, show dropped.backWeave halted = dropped.backWeave forced from rfl, hforced.1, drest]
  · rw [hstrand, hspoilt.run, hown]
  · rw [hstrand, hspoilt.stg, hown]
  · rw [hstrand, ← dstrand j hj]
    refine (hforced.strand j).trans ?_
    rw [← strand_modStrand_ne forced (fun x => { x with run := .halted, stg := [], answer := none, why := cause + 1 }) hj]
    exact hspoilt.strand j
  · obtain ⟨beam, hbeam⟩ := hcls j
    refine ⟨beam, ?_⟩
    have hsame : SameButBeats (s.cls j) (spoilt.cls j) := dcls j ▸ (hforced.cls j).trans (hspoilt.cls j)
    rw [hbeam]
    exact congrArg (fun x : ClassSt => { x with beam := beam }) hsame
  · calc (spoilt.checkLastEndc (spoilt.cfg st).cls).rget a = spoilt.rget a := by rw [hlast]; rfl
      _ = forced.rget a := hspoilt.rget ha
      _ = s.rget a := (hforced.rget ha).trans (dregs a ha)

end

theorem Halts.img {K : Nat → Prop} {s t : State} {st : Nat} (h : Halts K s t st) : t.img = s.img := (congrArg State.img h.1 :)

theorem Halts.fget {K : Nat → Prop} {s t : State} {st : Nat} (h : Halts K s t st) {f : Fld} (hf : K f.addr) : t.fget f = s.fget f := by
  obtain ⟨-, -, -, -, -, hregs⟩ := h
  exact fget_congr (hregs _ hf)

theorem shadow_of_onTrial {s : State} {k : Nat} (h : s.onTrial k = false) : (s.cls k).shadow = .none := by
  simpa [State.onTrial] using h

/-- Under HALT_STRAND a trap of the program of the class halts the strand (R163). -/
theorem trap_halts {s : State} {st code : Nat} (hcode : code ≠ 1) (hlive : (s.cls (s.cfg st).cls).shadow = .none)
    (hpol : bitAt (s.fget TRAP_POL_POL) (s.cfg st).cls = false) : s.trap st code = (s.recordTrap st code).haltStrand st 0 := by
  have hhandling : s.trapHandling (s.cfg st).cls code = 0 := by
    rw [State.trapHandling, if_neg hcode, if_neg (not_not_intro hlive), hpol]
    rfl
  rw [State.trap, hhandling]
  rfl

end Sys2Proof.Machine
end
section
/-!
CERTIFICATE. The bit outputs: the staged bit of an owner, the discarded bit of another strand, and the bits that strands share (R72, R90,
R91, R111, R124, R125, R159).
-/
namespace Sys2Proof.Machine

set_option Elab.async false

/-! ### How an instruction ends -/

section
variable {s u t : State} {st : Fin 16}

/-- The end of an instruction that goes on to the next one. -/
def State.goOn (s : State) (st : Nat) (pc : Word) : State := s.modStrand st (fun x => { x with pc := pc, answer := none })

theorem strand_goOn_self (s : State) (st : Nat) (pc : Word) : (s.goOn st pc).strand st = { s.strand st with pc := pc, answer := none } :=
  strand_modStrand_self _ _ _

theorem dx_completes (h : Ready s st) {i : Instr} {kind : DxKind} {body : State → Exec} {dst : Option Word}
    (hbody : body (s.issue st kind) = .ok t dst) (hq : t.flag OBS_RT_STAT_CAPTURING = false) :
    dx s st i kind body = .next (t.goOn st ((s.strand st).pc + 4)) := by
  rw [dx_ready h, hbody]
  exact congrArg Host.Outcome.next (retire_quiet _ _ _ _ _ hq)

theorem dx_traps (h : Ready s st) {i : Instr} {kind : DxKind} {body : State → Exec} {code : Nat}
    (hbody : body (s.issue st kind) = .trap t code) : dx s st i kind body = .next (t.trap st code) := by
  rw [dx_ready h, hbody]

theorem Issued.retires (hu : Issued s u st) (ht : OnlyStrand u t st) {y : Strand}
    (hy : ∀ r n, u.strand st = { s.strand st with resv := r, resvAge := n } → t.strand st = { y with resv := r, resvAge := n }) :
    Retires s (t.goOn st ((s.strand st).pc + 4)) st y := by
  obtain ⟨honly, r, n, hstrand⟩ := hu
  refine ⟨(honly.trans ht).set _, ?_⟩
  rw [strand_goOn_self, hy r n hstrand]

/-- An instruction that changes its strand alone retires. -/
theorem dx_retires (h : Ready s st) {i : Instr} {kind : DxKind} {body : State → Exec} {dst : Option Word} {y : Strand}
    (hbody : body (s.issue st kind) = .ok t dst) (ht : OnlyStrand (s.issue st kind) t st)
    (hy : ∀ r n, (s.issue st kind).strand st = { s.strand st with resv := r, resvAge := n } →
      t.strand st = { y with resv := r, resvAge := n }) : ∃ t, dx s st i kind body = .next t ∧ Retires s t st y := by
  have hissued := issue_issued s st kind
  have hq : t.flag OBS_RT_STAT_CAPTURING = false := (ht.flag _ (by decide)).trans (hissued.quiet h)
  exact ⟨_, dx_completes h hbody hq, hissued.retires ht hy⟩

/-! ### What a bit operand finds -/

theorem Issued.bitIndex (h : Issued s u st) (m : BitArg) : (u.strand st).bitIndex m = (s.strand st).bitIndex m := by
  simp only [Strand.bitIndex, h.w]

theorem Issued.sharedBitIndex (h : Issued s u st) (m : SharedBitArg) : (u.strand st).sharedBitIndex m = (s.strand st).sharedBitIndex m := by
  simp only [Strand.sharedBitIndex, h.w]

theorem Issued.ba (h : Issued s u st) : (u.strand st).ba = (s.strand st).ba := by
  obtain ⟨-, r, n, hstrand⟩ := h
  rw [hstrand]

theorem Issued.imgInteg (h : Issued s u st) (off : Nat) : u.imgInteg off = s.imgInteg off := (congrArg (State.imgInteg · off) h.1.1 :)

theorem Issued.ownvTraps (h : Issued s u st) (k : Nat) : u.ownvTraps k = s.ownvTraps k := by
  rw [State.ownvTraps, h.1.fget _ (by decide), State.ownvTraps]

theorem Issued.entryAt (h : Issued s u st) (off bit : Nat) : u.entryAt off bit = s.entryAt off bit :=
  (congrArg (fun v : State => v.entryAt off bit) h.1.1 :)

theorem Issued.bitShared (h : Issued s u st) (i : Nat) : u.bitShared i = s.bitShared i := by
  rw [State.bitShared, h.entryAt, State.bitShared]

theorem Issued.forced (h : Issued s u st) (kind i : Nat) : u.forced kind i = s.forced kind i :=
  (congrArg (State.forced · kind i) h.1.1 :)

theorem Issued.img (h : Issued s u st) : u.img = s.img := (congrArg State.img h.1.1 :)

theorem hClass_lt (e : HEntry) : hClass e < 4 := bitsAt_lt _ _ _

theorem Issued.beatSig (h : Issued s u st) {k : Nat} (hk : k < 4) (b : Nat) : u.beatSig k b = s.beatSig k b := by
  have haddr : ¬ pmcCounter (beatFld false k b).addr := by
    unfold beatFld BEAT_SIG_LO_SIG BEAT_SIG_HI_SIG BEAT_SIG_LO BEAT_SIG_HI pmcCounter
    by_cases hb : b < 32 <;> simp [hb] <;> omega
  rw [State.beatSig, h.1.fget _ haddr, State.beatSig]

theorem Issued.imgBit (h : Issued s u st) (off bit : Nat) : u.imgBit st off bit = s.imgBit st off bit := by
  have hbyte : ∀ e, u.imgByteBy st e off = s.imgByteBy st e off := fun e => by
    have harrived : ∀ k m b, u.beatArrived k m b = s.beatArrived k m b := fun k m b => by
      simp only [State.beatArrived, State.beatDoneMask, h.1.cls]
    have hforce : u.forceByte off = s.forceByte off := (congrArg (State.forceByte · off) h.1.1 :)
    simp only [State.imgByteBy, h.img, h.1.cfg, h.1.cls, h.stg, State.ownerCode, h.1.member, hforce, harrived]
    by_cases hclass : hClass e = (s.cfg st).cls
    · simp only [← hclass, h.beatSig (hClass_lt e)]
    · simp only [if_neg hclass]
  simp only [State.imgBit, h.entryAt, hbyte]

end

theorem lt_of_checked {a n i code : Nat} (h : (if a < n then Except.ok a else .error code) = .ok i) : i < n := by
  split at h
  · next hlt => exact Except.ok.inj h ▸ hlt
  · cases h

theorem bitIndex_lt {x : Strand} {m : BitArg} {i : Nat} (h : x.bitIndex m = .ok i) : i < 0x180000 := by
  unfold Strand.bitIndex at h
  split at h
  · exact lt_of_checked h
  · split at h
    · exact lt_of_checked h
    · cases h

theorem sharedBitIndex_lt {x : Strand} {m : SharedBitArg} {i : Nat} (h : x.sharedBitIndex m = .ok i) : i < 0x180000 := lt_of_checked h

/-! ### The staged bit of an owner, and the discarded one (R90) -/

theorem ofNat_bitPos (i : Nat) : BitVec.ofNat 8 (2 ^ bitPos i) = BitVec.twoPow 8 (i % 8) := by
  have hall : ∀ p < 8, BitVec.ofNat 8 (2 ^ p) = BitVec.twoPow 8 p := by decide
  exact hall _ (Nat.mod_lt _ (by decide))

/-- The staging bytes with one bit staged. -/
def stagedBit (g : Tab MByte) (i : Nat) (v : Bool) : Tab MByte :=
  let bit : Byte := BitVec.twoPow 8 (i % 8)
  let old := tget ⟨0, 0⟩ g (i / 8)
  tset ⟨0, 0⟩ g (i / 8) ⟨old.mask ||| bit, (old.val &&& ~~~bit) ||| (if v then bit else 0)⟩

section
variable {u : State} {st i : Nat} (v : Bool)

theorem stageBit_owned (hown : (u.ownMask st (i / 8)).getLsbD (i % 8) = true) :
    u.stageBit st i v = (u.setStrand st { u.strand st with stg := stagedBit (u.strand st).stg i v }, false) := by
  have hmask : u.ownMask st (bitByte i) &&& BitVec.twoPow 8 (i % 8) = BitVec.twoPow 8 (i % 8) := by
    rw [BitVec.and_twoPow, bitByte, hown, if_pos rfl]
  have hval : (if v = true then 0xFF else 0) &&& BitVec.twoPow 8 (i % 8) = if v = true then BitVec.twoPow 8 (i % 8) else 0 := by
    cases v with
    | false => exact BitVec.zero_and
    | true => exact BitVec.allOnes_and
  simp only [State.stageBit, State.stageByte, ofNat_bitPos, hmask, hval, bne_self_eq_false]
  rfl

theorem stageBit_foreign (hown : (u.ownMask st (i / 8)).getLsbD (i % 8) = false) :
    u.stageBit st i v = (u.setStrand st { u.strand st with
      stg := tset ⟨0, 0⟩ (u.strand st).stg (i / 8) (tget ⟨0, 0⟩ (u.strand st).stg (i / 8)) }, true) := by
  have hmask : u.ownMask st (bitByte i) &&& BitVec.twoPow 8 (i % 8) = 0#8 := by
    rw [BitVec.and_twoPow, bitByte, hown, if_neg Bool.false_ne_true]
  have hbit : (0#8 != BitVec.twoPow 8 (i % 8)) = true := by
    have hall : ∀ p < 8, (0#8 != BitVec.twoPow 8 p) = true := by decide
    exact hall _ (Nat.mod_lt _ (by decide))
  simp only [State.stageBit, State.stageByte, ofNat_bitPos, hmask, hbit, BitVec.or_zero, BitVec.not_zero, BitVec.and_allOnes,
    BitVec.and_zero]
  rfl

end

/-- A bit store of the owner stages the bit. -/
theorem bitStore_owned {u : State} {st : Fin 16} {i : Nat} (v ba : Bool) (hown : (u.ownMask st (i / 8)).getLsbD (i % 8) = true) :
    ∃ t, bitStore u st i v ba = .ok t none ∧ OnlyStrand u t st ∧
      t.strand st = { u.strand st with stg := stagedBit (u.strand st).stg i v, ba := ba } := by
  refine ⟨_, ?_, ((OnlyStrand.refl u st).set { u.strand st with stg := stagedBit (u.strand st).stg i v }).set
    { u.strand st with stg := stagedBit (u.strand st).stg i v, ba := ba }, strand_setStrand_self _ _ _⟩
  rw [bitStore, stageBit_owned v hown]
  simp only [Bool.false_eq_true, if_false, State.modStrand, strand_setStrand_self]

/-! ### Bit outputs of the owner (R124, R125) -/

section
variable (st : Fin 16) (m : BitArg) (idx : Bool) (field : BitVec 24) (s : State)

theorem exec_outb : exec (.outb st m) s = bitOut s st (.outb st m) m (fun _ => true) (fun b => b) := rfl

theorem exec_setb : exec (.setb st m) s = bitOut s st (.setb st m) m (fun b => b) (fun _ => true) := rfl

theorem exec_rstb : exec (.rstb st m) s = bitOut s st (.rstb st m) m (fun b => b) (fun _ => false) := rfl

theorem exec_edgr : exec (.edgr st idx field) s = bitEdge s st (.edgr st idx field) idx field fun b m => b && !m := rfl

theorem exec_edgf : exec (.edgf st idx field) s = bitEdge s st (.edgf st idx field) idx field fun b m => !b && m := rfl

end

section
variable {s : State} {st : Fin 16} {m : BitArg} {i : Nat} (hready : Ready s st) (hindex : (s.strand st.val).bitIndex m = .ok i)
include hready hindex

theorem bitOut_skips (c : Instr) {when_ v : Bool → Bool} (hwhen : when_ (s.strand st.val).ba = false) :
    ∃ t, bitOut s st c m when_ v = .next t ∧ Retires s t st (s.strand st) := by
  have hissued := issue_issued s st .bit
  refine dx_retires hready (t := s.issue st .bit) (dst := none) ?_ (OnlyStrand.refl _ _) fun r n h => h
  simp only [hissued.bitIndex, hindex, hissued.ba, hwhen]
  rfl

/-- The operand of a bit output has been checked, and the store takes place. -/
theorem bitOut_body {when_ v : Bool → Bool} (hwhen : when_ (s.strand st.val).ba = true) (hfull : s.fabricFull = false) (c : Instr) :
    bitOut s st c m when_ v = dx s st c .bit fun t => bitStore t st i (v (s.strand st.val).ba) (s.strand st.val).ba := by
  have hissued := issue_issued s st .bit
  unfold bitOut
  rw [dx_ready hready, dx_ready hready]
  simp only [hissued.bitIndex, hindex, hissued.ba, hwhen, hissued.fabricFull, hfull]
  rfl

variable (hfull : s.fabricFull = false)
include hfull

section
variable (hown : (s.ownMask st (i / 8)).getLsbD (i % 8) = true)
include hown

theorem bitOut_stages (c : Instr) {when_ v : Bool → Bool} (hwhen : when_ (s.strand st.val).ba = true) :
    ∃ t, bitOut s st c m when_ v = .next t ∧
      Retires s t st { s.strand st with stg := stagedBit (s.strand st).stg i (v (s.strand st.val).ba) } := by
  have hissued := issue_issued s st .bit
  obtain ⟨t, hstore, honly, hstrand⟩ := bitStore_owned (v (s.strand st.val).ba) (s.strand st.val).ba
    (hissued.1.ownMask st (i / 8) ▸ hown)
  rw [bitOut_body hready hindex hwhen hfull]
  refine dx_retires hready hstore honly fun r n h => ?_
  rw [hstrand, h]

/-- SETB and RSTB write a constant where BA holds. -/
theorem bitOut_when_ba (c : Instr) (b : Bool) : ∃ t, bitOut s st c m (fun b => b) (fun _ => b) = .next t ∧
    Retires s t st (if (s.strand st.val).ba then { s.strand st with stg := stagedBit (s.strand st).stg i b } else s.strand st) := by
  cases hba : (s.strand st.val).ba with
  | false => exact bitOut_skips hready hindex c hba
  | true => exact bitOut_stages hready hindex hfull hown c hba

/-- EDGR and EDGF stage BA and leave the edge in it. -/
theorem bitEdge_stages (c : Instr) {idx : Bool} {field : BitVec 24} {f : Bool → Bool → Bool} {v : Bool}
    (hm : m = { mode := if idx then 1 else 0, field := field }) (hinteg : s.imgInteg (i / 8) = false)
    (hbit : s.imgBit st (i / 8) (i % 8) = .ok v) : ∃ t, bitEdge s st c idx field f = .next t ∧
      Retires s t st { s.strand st with stg := stagedBit (s.strand st).stg i (s.strand st).ba, ba := f (s.strand st).ba v } := by
  have hissued := issue_issued s st .bit
  obtain ⟨t, hstore, honly, hstrand⟩ := bitStore_owned (s.strand st.val).ba (f (s.strand st.val).ba v)
    (hissued.1.ownMask st (i / 8) ▸ hown)
  refine dx_retires hready (t := t) (dst := none) ?_ honly fun r n h => ?_
  · dsimp only
    rw [← hm, hissued.bitIndex, hindex]
    simp only [withBit, bitByte, bitPos, hissued.imgInteg, hinteg, hissued.fabricFull, hfull, hissued.imgBit, hbit, hissued.ba]
    exact hstore
  · rw [hstrand, h]

end
end

/-! ### The record of a discarded store (R90, R111) -/

/-- The registers that show a discarded store of strand `st`. -/
def State.ownvShown (s : State) (st addr : Nat) : State :=
  ((s.setBit HDL_OWNV_OWNV st true).fput (HDL_OWNV_ADDR_ADDR st) addr).satBump HDL_OWNV_TOT_TOTAL 1

section
variable (s : State) {st : Nat} (addr access : Nat)

section
variable {K : Nat → Prop} (hpmc : ∀ a, pmcCounter a → ¬ K a) (hreport : ¬ K EDT_REP_ERR) (hlost : ¬ K EVR_LOST) (hevt : ¬ K EVR_EVT)
include hpmc hreport hlost hevt

theorem discard_shown (hst : st < 16) : WeaveStep K (s.ownvShown st addr) (s.discard st addr access) := by
  unfold State.discard
  extract_lets k shown counted
  have hcounted : WeaveStep K shown counted := ite_inv ((WeaveStep.refl _ shown).satBump hreport) (WeaveStep.refl _ shown)
  exact (hcounted.pmc (PmcOnly.countS counted st 0x0C 1 hst) hpmc).raise hlost hevt

theorem discard_weaveStep (hst : st < 16) (hK : ∀ a ∈ [HDL_OWNV, HDL_OWNV_ADDR st, HDL_OWNV_TOT], ¬ K a) :
    WeaveStep K s (s.discard st addr access) :=
  (((WeaveStep.refl _ s).setBit (hK HDL_OWNV (by simp))).fput (hK (HDL_OWNV_ADDR st) (by simp)) |>.satBump
    (hK HDL_OWNV_TOT (by simp))).trans (discard_shown s addr access hpmc hreport hlost hevt hst)

end

theorem ownv_ne (hst : st < 16) : HDL_OWNV_ADDR st ≠ HDL_OWNV_TOT ∧ HDL_OWNV_ADDR st ≠ HDL_OWNV ∧ BelowBeats (HDL_OWNV_ADDR st) := by
  unfold HDL_OWNV_ADDR HDL_OWNV_TOT HDL_OWNV BelowBeats
  omega

/-- The strand, the address and the count are recorded. -/
theorem discard_records (hst : st < 16) (haddr : addr < 2 ^ 32) :
    bitAt ((s.discard st addr access).fget HDL_OWNV_OWNV) st = true ∧
    (s.discard st addr access).fget (HDL_OWNV_ADDR_ADDR st) = addr ∧
    (s.discard st addr access).fget HDL_OWNV_TOT_TOTAL = min 0xFFFFFFFF (s.fget HDL_OWNV_TOT_TOTAL + 1) := by
  obtain ⟨htot, howner, hlow⟩ := ownv_ne hst
  have hshown := discard_shown s addr access (fun _ => not_belowBeats_of_pmcCounter) (by decide) (by decide) (by decide) hst
  refine ⟨?_, ?_, ?_⟩
  · rw [hshown.fget (by decide), State.ownvShown, State.satBump, fget_fput_ne _ _ (by decide), fget_fput_ne _ _ howner.symm]
    exact bitAt_setBit_self s true (by decide) hst
  · rw [hshown.fget hlow, State.ownvShown, State.satBump, fget_fput_ne _ _ htot, fget_fput_self _ _ _ (show 0 + 32 ≤ 32 by decide)]
    exact Nat.mod_eq_of_lt haddr
  · have hsame : ((s.setBit HDL_OWNV_OWNV st true).fput (HDL_OWNV_ADDR_ADDR st) addr).fget HDL_OWNV_TOT_TOTAL =
        s.fget HDL_OWNV_TOT_TOTAL := (fget_fput_ne _ _ htot.symm).trans (fget_fput_ne _ _ (by decide))
    have hlt : s.fget HDL_OWNV_TOT_TOTAL < 2 ^ 32 := bitsAt_lt _ _ _
    rw [hshown.fget (by decide), State.ownvShown, State.satBump, fget_fput_self _ _ _ (by decide), hsame]
    generalize s.fget HDL_OWNV_TOT_TOTAL = n at hlt
    show satAdd n 1 (2 ^ 32 - 1) % 2 ^ 32 = min 0xFFFFFFFF (n + 1)
    unfold satAdd
    split <;> omega

end

theorem discard_quiet (s : State) {st : Nat} (addr access : Nat) (hst : st < 16) :
    (s.discard st addr access).flag OBS_RT_STAT_CAPTURING = s.flag OBS_RT_STAT_CAPTURING := by
  refine (discard_weaveStep s addr access (K := (· = OBS_RT_STAT)) ?_ (by decide) (by decide) (by decide) hst ?_).flag rfl
  · unfold pmcCounter OBS_RT_STAT
    omega
  · unfold HDL_OWNV HDL_OWNV_ADDR HDL_OWNV_TOT OBS_RT_STAT
    simp
    omega

/-- What the record of a discarded store leaves in the state: the image, the strands and the classes. -/
theorem discard_leaves (s : State) {st : Nat} (addr access : Nat) (hst : st < 16) :
    WeaveStep (fun a => a ∈ [TRAP_POL, HDL_OWNCFG]) s (s.discard st addr access) := by
  refine discard_weaveStep s addr access ?_ (by decide) (by decide) (by decide) hst ?_
  · simp only [List.mem_cons, List.not_mem_nil, or_false]
    unfold pmcCounter TRAP_POL HDL_OWNCFG
    omega
  · unfold HDL_OWNV HDL_OWNV_ADDR HDL_OWNV_TOT TRAP_POL HDL_OWNCFG
    simp
    omega

/-! ### Bit outputs to a bit of another strand -/

/-- Two staging views with the same bytes, one of which may list a byte that the other does not. -/
def SameStaged (g h : Tab MByte) : Prop := ∀ off, tget ⟨0, 0⟩ g off = tget ⟨0, 0⟩ h off

/-- A bit store of a strand that does not own the bit stages nothing, and is recorded. -/
theorem bitStore_foreign {u : State} {st : Fin 16} {i : Nat} (v : Bool) (hown : (u.ownMask st (i / 8)).getLsbD (i % 8) = false) :
    ∃ t g, OnlyStrand u t st ∧ t.strand st = { u.strand st with stg := g } ∧ SameStaged g (u.strand st).stg ∧
      bitStore u st i v (u.strand st).ba = if u.ownvTraps (u.cfg st).cls then .trap (t.discard st (bitAddr i) 0) trOwnv
        else .ok (t.discard st (bitAddr i) 0) none := by
  have hforeign := stageBit_foreign v hown
  generalize hg : tset ⟨0, 0⟩ (u.strand st).stg (i / 8) (tget ⟨0, 0⟩ (u.strand st).stg (i / 8)) = g at hforeign
  have hsame : SameStaged g (u.strand st).stg := fun off => by
    rw [← hg]
    by_cases hoff : off = i / 8
    · rw [hoff, tget_tset_self]
    · rw [tget_tset_ne _ _ _ _ hoff]
  have honly := (OnlyStrand.refl u st).set { u.strand st with stg := g }
  rw [bitStore, hforeign]
  cases u.ownvTraps (u.cfg st).cls with
  | true => exact ⟨_, g, honly, strand_setStrand_self _ _ _, hsame, rfl⟩
  | false =>
    refine ⟨_, g, honly.set { u.strand st with stg := g }, strand_setStrand_self _ _ _, hsame, ?_⟩
    simp only [State.modStrand, strand_setStrand_self]
    rfl

section
variable {s : State} {st : Fin 16} {m : BitArg} {i : Nat} (hready : Ready s st) (hindex : (s.strand st.val).bitIndex m = .ok i)
  (hfull : s.fabricFull = false) (hown : (s.ownMask st (i / 8)).getLsbD (i % 8) = false)
include hready hindex hfull hown

/-- OUTB to a bit of another strand: what is recorded, and the staging view that stays. -/
theorem outb_foreign : ∃ u t g, Issued s u st ∧ OnlyStrand u t st ∧ t.strand st = { u.strand st with stg := g } ∧
    SameStaged g (s.strand st).stg ∧
    (s.ownvTraps (s.cfg st).cls = true → exec (.outb st m) s = .next ((t.discard st (bitAddr i) 0).trap st trOwnv)) ∧
    (s.ownvTraps (s.cfg st).cls = false →
      exec (.outb st m) s = .next ((t.discard st (bitAddr i) 0).goOn st ((s.strand st).pc + 4))) := by
  have hissued := issue_issued s st .bit
  obtain ⟨t, g, honly, hstrand, hsame, hstore⟩ := bitStore_foreign ((s.issue st .bit).strand st).ba
    (hissued.1.ownMask st (i / 8) ▸ hown)
  rw [hissued.ownvTraps, hissued.1.cfg, hissued.ba] at hstore
  rw [hissued.stg] at hsame
  have hexec : bitOut s st (.outb st m) m (fun _ => true) (fun b => b) =
      dx s st (.outb st m) .bit fun t => bitStore t st i (s.strand st.val).ba (s.strand st.val).ba :=
    bitOut_body hready hindex (when_ := fun _ => true) (v := fun b => b) rfl hfull (.outb st m)
  refine ⟨_, t, g, hissued, honly, hstrand, hsame, fun htraps => ?_, fun htraps => ?_⟩
  · rw [exec_outb, hexec]
    exact dx_traps hready (hstore.trans (by rw [htraps]; rfl))
  · have hquiet := (discard_quiet t (bitAddr i) 0 st.isLt).trans ((honly.flag _ (by decide)).trans (hissued.quiet hready))
    rw [exec_outb, hexec]
    exact dx_completes hready (hstore.trans (by rw [htraps]; rfl)) hquiet

/-- The discarded bit where the class lets the strand go on. -/
theorem outb_discards (hgo : bitAt (s.fget HDL_OWNCFG_OWNV_TRAP) (s.cfg st).cls = false) :
    ∃ t, exec (.outb st m) s = .next t ∧ t.img = s.img ∧ (t.strand st).pc = (s.strand st).pc + 4 ∧
      (t.strand st).ba = (s.strand st).ba ∧
      (∀ off, (tget ⟨0, 0⟩ (t.strand st).stg off).mask = (tget ⟨0, 0⟩ (s.strand st).stg off).mask) ∧
      bitAt (t.fget HDL_OWNV_OWNV) st = true ∧ t.fget (HDL_OWNV_ADDR_ADDR st) = 0x20000000 + i / 8 ∧
      t.fget HDL_OWNV_TOT_TOTAL = min 0xFFFFFFFF (s.fget HDL_OWNV_TOT_TOTAL + 1) := by
  obtain ⟨u, t, g, hissued, honly, hstrand, hsame, -, hgoes⟩ := outb_foreign hready hindex hfull hown
  have hleaves := discard_leaves t (bitAddr i) 0 st.isLt
  have hlt := bitIndex_lt hindex
  obtain ⟨hwho, hwhere, hcount⟩ := discard_records t (bitAddr i) 0 st.isLt (by unfold bitAddr bitByte; omega)
  have htotal : t.fget HDL_OWNV_TOT_TOTAL = s.fget HDL_OWNV_TOT_TOTAL := (honly.fget _ (by decide)).trans (hissued.1.fget _ (by decide))
  have himg : t.img = u.img := (congrArg State.img honly.1 :)
  have hba : ((t.discard st (bitAddr i) 0).strand st).ba = (t.strand st).ba := (congrArg Strand.ba (hleaves.strand st).1 :)
  refine ⟨_, hgoes hgo, hleaves.img.trans (himg.trans hissued.img), ?_, ?_, fun off => ?_, hwho, hwhere, htotal ▸ hcount⟩
  · rw [strand_goOn_self]
  · rw [strand_goOn_self, ← hissued.ba]
    exact hba.trans (by rw [hstrand])
  · rw [strand_goOn_self, ← hsame off]
    show (tget _ ((t.discard st (bitAddr i) 0).strand st).stg off).mask = _
    rw [hleaves.stg, hstrand]

/-- The discarded bit where the class has the strand trap (R90, R163). -/
theorem outb_traps (htraps : bitAt (s.fget HDL_OWNCFG_OWNV_TRAP) (s.cfg st).cls = true)
    (hpol : bitAt (s.fget TRAP_POL_POL) (s.cfg st).cls = false) :
    ∃ t, exec (.outb st m) s = .next t ∧ (t.strand st).run = .halted ∧ (t.strand st).stg = [] ∧
      t.fget (TRAP_INFO_CODE st) = trOwnv ∧ bitAt (t.fget HDL_OWNV_OWNV) st = true ∧
      t.fget (HDL_OWNV_ADDR_ADDR st) = 0x20000000 + i / 8 ∧ t.img = s.img := by
  obtain ⟨u, t, g, hissued, honly, -, -, htrap, -⟩ := outb_foreign hready hindex hfull hown
  obtain ⟨-, -, htrial, -⟩ := hready
  have hleaves := discard_leaves t (bitAddr i) 0 st.isLt
  have hlt := bitIndex_lt hindex
  obtain ⟨hwho, hwhere, -⟩ := discard_records t (bitAddr i) 0 st.isLt (by unfold bitAddr bitByte; omega)
  generalize t.discard st (bitAddr i) 0 = v at htrap hleaves hwho hwhere
  have himg : t.img = u.img := (congrArg State.img honly.1 :)
  have hcfg : v.cfg st = s.cfg st := (hleaves.cfg st).trans ((honly.cfg st).trans (hissued.1.cfg st))
  have hlive : (v.cls (v.cfg st).cls).shadow = .none := by
    rw [hcfg, hleaves.shadow, honly.cls, hissued.1.cls]
    exact shadow_of_onTrial htrial
  have hpol' : bitAt (v.fget TRAP_POL_POL) (v.cfg st).cls = false := by
    rw [hcfg, hleaves.fget (by decide), honly.fget _ (by decide), hissued.1.fget _ (by decide)]
    exact hpol
  have hrecorded := recordTrap_weaveStep v (code := trOwnv) st.isLt
  have hcode := recordTrap_code v (code := trOwnv) st.isLt (by decide)
  have hhalts := haltStrand_halts (K := BelowBeats) (v.recordTrap st trOwnv) st 0 fun frc b => beatFld_not_belowBeats frc _ b
  obtain ⟨-, howner, hlow⟩ := ownv_ne st.isLt
  obtain ⟨-, hrun, hstg, -⟩ := id hhalts
  have hinfo : BelowBeats (TRAP_INFO st) ∧ HDL_OWNV_ADDR st ∉ [TRAP_SUM, TRAP_INFO st, TRAP_PC st] ∧
      HDL_OWNV ∉ [TRAP_SUM, TRAP_INFO st, TRAP_PC st] := by
    unfold BelowBeats HDL_OWNV_ADDR HDL_OWNV TRAP_SUM TRAP_INFO TRAP_PC
    simp
    omega
  obtain ⟨hinfo, haddr, hownv⟩ := hinfo
  refine ⟨_, (htrap htraps).trans (congrArg Host.Outcome.next (trap_halts (by decide) hlive hpol')), hrun, hstg, ?_, ?_, ?_, ?_⟩
  · rw [hhalts.fget hinfo, hcode]
  · rw [hhalts.fget (by decide), hrecorded.fget ⟨by decide, hownv⟩]
    exact hwho
  · rw [hhalts.fget hlow, hrecorded.fget ⟨Nat.lt_trans hlow (by decide), haddr⟩]
    exact hwhere
  · rw [hhalts.img, hrecorded.img, hleaves.img, himg, hissued.img]

end

/-! ### The bits that strands share (R72, R91, R159) -/

/-- What a shared bit takes: its forced value, if it has one (R72). -/
def State.sharedTakes (s : State) (i : Nat) (v : Bool) : Bool := ((s.forced 2 i).map fun f => bitAt f.toNat 0).getD v

/-- A byte of the image with one bit put. -/
def putBit (old : Byte) (i : Nat) (v : Bool) : Byte :=
  if v then old ||| BitVec.twoPow 8 (i % 8) else old &&& ~~~BitVec.twoPow 8 (i % 8)

theorem putBit_eq (old : Byte) (i : Nat) (v : Bool) :
    (old &&& ~~~BitVec.twoPow 8 (i % 8)) ||| ((if v then 0xFF else 0) &&& BitVec.twoPow 8 (i % 8)) = putBit old i v := by
  cases v with
  | false => exact (congrArg _ BitVec.zero_and).trans BitVec.or_zero
  | true =>
    refine (congrArg _ BitVec.allOnes_and).trans (BitVec.eq_of_getLsbD_eq fun j hj => ?_)
    simp only [putBit, if_true, BitVec.getLsbD_or, BitVec.getLsbD_and, BitVec.getLsbD_not, hj, decide_true, Bool.true_and]
    cases old.getLsbD j <;> cases (BitVec.twoPow 8 (i % 8)).getLsbD j <;> rfl

/-- The committed image with one bit put. -/
def State.putImg (s : State) (i : Nat) (v : Bool) : State := { s with img := imgSet s.img (i / 8) (putBit (imgGet s.img (i / 8)) i v) }

/-- A shared bit is read from the committed image (R89). -/
theorem imgBit_shared {s : State} {i : Nat} (st : Nat) (h : s.bitShared i = true) :
    s.imgBit st (i / 8) (i % 8) = .ok ((imgGet s.img (i / 8)).getLsbD (i % 8)) := by
  unfold State.bitShared bitByte bitPos at h
  unfold State.imgBit State.imgByteBy
  split at h
  · next hentry =>
    simp only [hentry, h, if_true]
  · cases h

section
variable {s : State} {st : Fin 16} {m : SharedBitArg} {i : Nat} {v : Bool} (hready : Ready s st)
  (hindex : (s.strand st.val).sharedBitIndex m = .ok i) (hinteg : s.imgInteg (i / 8) = false) (hfull : s.fabricFull = false)
include hready hindex hinteg hfull

theorem sharedBit_puts (c : Instr) (d : Fin 16) (b : Bool) (hshared : s.bitShared i = true)
    (hold : (imgGet s.img (i / 8)).getLsbD (i % 8) = v) : ∃ t, sharedBit s st c d m b = .next t ∧
      imgGet t.img (i / 8) = putBit (imgGet s.img (i / 8)) i (s.sharedTakes i b) ∧
      (∀ a, a ≠ i / 8 → imgGet t.img a = imgGet s.img a) ∧
      Retires s { t with img := s.img } st { s.strand st with w := (s.strand st).w.set d (if v then 1 else 0) } := by
  have hissued := issue_issued s st .bit
  have hread := (imgBit_shared st hshared).trans (congrArg _ hold)
  have hput : ∀ u : State, Issued s u st → imgMask u.img (bitByte i) (BitVec.ofNat 8 (2 ^ bitPos i)) (if (match u.forced 2 i with
      | some f => bitAt f.toNat 0
      | none => b) = true then 0xFF else 0) = (s.putImg i (s.sharedTakes i b)).img := fun u hu => by
    rw [imgMask, ofNat_bitPos, hu.forced, hu.img, State.putImg, ← putBit_eq, State.sharedTakes]
    cases s.forced 2 i <;> rfl
  have hquiet : (s.issue st .bit).flag OBS_RT_STAT_CAPTURING = false := hissued.quiet hready
  refine ⟨_, dx_completes hready (t := ({ s.issue st .bit with img := (s.putImg i (s.sharedTakes i b)).img } : State).modStrand st
    (fun x => x.setW d (if v then 1 else 0))) (dst := some (if v then 1 else 0)) ?_ hquiet, ?_, fun a ha => ?_, ?_⟩
  · rw [← hput _ hissued]
    simp only [hissued.sharedBitIndex, hindex, hissued.bitShared, hshared, withBit, hissued.imgInteg, bitByte, hinteg,
      hissued.fabricFull, hfull, bitPos, hissued.imgBit, hread]
    rfl
  · exact imgGet_imgSet_self _ _ _
  · exact imgGet_imgSet_ne _ _ ha
  · have hsame : ({ s.issue st .bit with img := s.img } : State) = s.issue st .bit := by rw [← hissued.img]
    have hretires := hissued.retires (((OnlyStrand.refl _ st).set ((((s.issue st .bit).strand st).setW d (if v then 1 else 0)))))
      (y := (s.strand st).setW d (if v then 1 else 0)) fun r n h => by rw [strand_setStrand_self, h]; rfl
    have hback : ({ (({ s.issue st .bit with img := (s.putImg i (s.sharedTakes i b)).img } : State).modStrand st
        (fun x => x.setW d (if v then 1 else 0))).goOn st ((s.strand st).pc + 4) with img := s.img } : State) =
        (({ s.issue st .bit with img := s.img } : State).setStrand st (((s.issue st .bit).strand st).setW d (if v then 1 else 0))).goOn st
          ((s.strand st).pc + 4) := rfl
    rw [hback, hsame]
    exact hretires

/-- TSB and CLB outside a shared entry are a discarded store (R91, R159). -/
theorem sharedBit_discards (c : Instr) (d : Fin 16) (b : Bool) (hshared : s.bitShared i = false)
    (hold : s.imgBit st (i / 8) (i % 8) = .ok v) (hgo : bitAt (s.fget HDL_OWNCFG_OWNV_TRAP) (s.cfg st).cls = false) :
    ∃ t, sharedBit s st c d m b = .next t ∧ t.img = s.img ∧ (t.strand st).pc = (s.strand st).pc + 4 ∧
      (t.strand st).w = (s.strand st).w.set d (if v then 1 else 0) ∧ (t.strand st).stg = (s.strand st).stg ∧
      bitAt (t.fget HDL_OWNV_OWNV) st = true ∧ t.fget (HDL_OWNV_ADDR_ADDR st) = 0x20000000 + i / 8 := by
  have hissued := issue_issued s st .bit
  have hleaves := discard_leaves (s.issue st .bit) (bitAddr i) 1 st.isLt
  have hquiet := (discard_quiet (s.issue st .bit) (bitAddr i) 1 st.isLt).trans (hissued.quiet hready)
  have hlt := sharedBitIndex_lt hindex
  obtain ⟨hwho, hwhere, -⟩ := discard_records (s.issue st .bit) (bitAddr i) 1 st.isLt (by unfold bitAddr bitByte; omega)
  have hw : (((s.issue st .bit).discard st (bitAddr i) 1).strand st).w = (s.strand st).w :=
    (congrArg Strand.w (hleaves.strand st).1 :).trans hissued.w
  refine ⟨_, dx_completes hready (t := ((s.issue st .bit).discard st (bitAddr i) 1).modStrand st
    (fun x => x.setW d (if v then 1 else 0))) (dst := some (if v then 1 else 0)) ?_ hquiet, hleaves.img.trans hissued.img, ?_, ?_, ?_,
    hwho, hwhere⟩
  · have hgo' : s.ownvTraps (s.cfg st).cls = false := hgo
    simp only [hissued.sharedBitIndex, hindex, hissued.bitShared, hshared, hissued.ownvTraps, hissued.1.cfg, hgo', withBit,
      hissued.imgInteg, bitByte, hinteg, hissued.fabricFull, hfull, bitPos, hissued.imgBit, hold]
    rfl
  · rw [strand_goOn_self]
  · rw [strand_goOn_self, strand_modStrand_self, ← hw]
    rfl
  · rw [strand_goOn_self, strand_modStrand_self, ← hissued.stg, ← hleaves.stg]
    rfl

end

/-- What a shared bit takes, in the words of the obligation. -/
theorem putBit_sharedTakes (s : State) (old : Byte) (i : Nat) (b : Bool) : putBit old i (s.sharedTakes i b) =
    if (match s.forced 2 i with
      | some f => bitAt f.toNat 0
      | none => b) then old ||| BitVec.twoPow 8 (i % 8) else old &&& ~~~BitVec.twoPow 8 (i % 8) := by
  rw [State.sharedTakes]
  cases s.forced 2 i <;> rfl

/-- Settles O15: a bit output of an owner stages its bit, that of another strand is recorded, and a shared bit is put at once. -/
theorem bitOutputs : Obligations.BitOutputs := by
  unfold Obligations.BitOutputs
  refine ⟨fun s st m i hready => ?_, fun s st m i hready => ?_, fun s st m i hready hindex hfull hown htraps hpol =>
    outb_traps hready hindex hfull hown htraps hpol, fun s st d m i v hready => ?_, fun s st d m i v hready => ?_⟩
  · intro x hindex
    simp only [exec_outb, exec_setb, exec_rstb, exec_edgr, exec_edgf]
    refine ⟨fun hba => ⟨bitOut_skips hready hindex _ hba, bitOut_skips hready hindex _ hba⟩, fun hfull hown => ⟨?_, ?_, ?_, ?_⟩⟩
    · exact bitOut_stages hready hindex hfull hown _ (when_ := fun _ => true) (v := fun b => b) rfl
    · exact bitOut_when_ba hready hindex hfull hown _ true
    · exact bitOut_when_ba hready hindex hfull hown _ false
    · exact fun idx hm hinteg v hbit =>
        ⟨bitEdge_stages hready hindex hfull hown _ hm hinteg hbit, bitEdge_stages hready hindex hfull hown _ hm hinteg hbit⟩
  · intro x hindex hfull hown hgo
    exact outb_discards hready hindex hfull hown hgo
  · intro x hindex hshared hinteg hfull hold becomes bit old y
    have hputs : ∀ c b, ∃ t, sharedBit s st c d m b = .next t ∧ imgGet t.img (i / 8) =
        (if becomes b then old ||| bit else old &&& ~~~bit) ∧ (∀ a, a ≠ i / 8 → imgGet t.img a = imgGet s.img a) ∧
        Retires s { t with img := s.img } st y := fun c b => by
      obtain ⟨t, hnext, hput, hrest, hretires⟩ := sharedBit_puts hready hindex hinteg hfull c d b hshared hold
      exact ⟨t, hnext, hput.trans (putBit_sharedTakes s old i b), hrest, hretires⟩
    exact ⟨hputs _ true, hputs _ false⟩
  · intro x hindex hshared hinteg hfull hold hgo discarded
    exact ⟨sharedBit_discards hready hindex hinteg hfull _ d true hshared hold hgo,
      sharedBit_discards hready hindex hinteg hfull _ d false hshared hold hgo⟩

end Sys2Proof.Machine
end
section
/-!
CERTIFICATE. Beats and the end of a strand's cycle (R48, R50, R96, R97, R100, R137).
-/
namespace Sys2Proof.Machine

set_option Elab.async false

/-! ### What is signalled -/

/-- What one element of a list establishes, and the others keep, holds at the end. -/
theorem each_mem_establishes {σ α : Type} {P : σ → Prop} {l : List α} {a : α} {f : σ → α → σ} (s : σ) (ha : a ∈ l)
    (hset : ∀ s, P (f s a)) (hkeep : ∀ s, P s → ∀ b ∈ l, P (f s b)) : P (each l s f) := by
  obtain ⟨l₁, l₂, rfl⟩ := List.append_of_mem ha
  rw [each_append]
  show P (each l₂ (f (each l₁ s f) a) f)
  exact each_mem_inv (hset _) fun s hs b hb => hkeep s hs b (by simp [hb])

theorem obsPush_classes (s : State) (type src : Nat) (l : List (BitVec 64)) : (s.obsPush type src l).classes = s.classes := by
  unfold State.obsPush
  refine ite_inv (P := fun t : State => t.classes = s.classes) rfl ?_
  extract_lets time rec_ depth marker needM q bumped
  exact ite_inv (P := fun t : State => t.classes = s.classes) rfl (ite_inv (P := fun t : State => t.classes = s.classes) rfl rfl)

theorem raise_classes (s : State) (code elem : Nat) (p : List Byte) : (s.raise code elem p).classes = s.classes := by
  unfold State.raise
  exact ite_inv (P := fun t : State => t.classes = s.classes) rfl rfl

theorem signalBeat_classes (s : State) (k b : Nat) (forced : Bool) : (s.signalBeat k b forced).classes = s.classes := by
  unfold State.signalBeat
  extract_lets set shown told
  have hshown : shown.classes = s.classes := by
    unfold shown State.obsBeat
    exact ite_inv (P := fun t : State => t.classes = s.classes) (obsPush_classes _ _ _ _) rfl
  have htold : told.classes = s.classes := ite_inv (P := fun t : State => t.classes = s.classes) hshown hshown
  exact each_inv (P := fun t : State => t.classes = s.classes) htold fun _ h _ => h

/-- The address of a register of the beats of the class `k`. -/
theorem beatFld_addr {k : Nat} (hk : k < 4) (frc : Bool) (b : Nat) :
    0x40030010 ≤ (beatFld frc k b).addr ∧ (beatFld frc k b).addr < 0x40030050 ∧
      ((beatFld frc k b).addr < 0x40030030 ↔ frc = false) := by
  unfold beatFld BEAT_FRC_LO_FRC BEAT_FRC_HI_FRC BEAT_SIG_LO_SIG BEAT_SIG_HI_SIG BEAT_FRC_LO BEAT_FRC_HI BEAT_SIG_LO BEAT_SIG_HI
  cases frc <;> by_cases hb : b < 32 <;> simp [hb] <;> omega

theorem beatFld_width (frc : Bool) (k b : Nat) : (beatFld frc k b).lo = 0 ∧ (beatFld frc k b).width = 32 := by
  unfold beatFld
  cases frc <;> by_cases hb : b < 32 <;> simp [hb]

theorem signalBeat_beatSig (s : State) {k : Nat} (hk : k < 4) (b : Nat) (forced : Bool) : (s.signalBeat k b forced).beatSig k b = true := by
  obtain ⟨hlo, hwidth⟩ := beatFld_width false k b
  have hshown := signalBeat_released (K := (· < 0x40030050)) s k b forced (by decide)
  obtain ⟨-, haddr, -⟩ := beatFld_addr hk false b
  rw [State.beatSig, hshown.fget haddr]
  exact bitAt_setBit_self _ true (by omega) (by omega)

/-- The producers of a beat have all executed it. -/
theorem producers_done {mask : BitVec 16} {prod : Nat} :
    mask &&& BitVec.ofNat 16 prod = BitVec.ofNat 16 prod ↔ ∀ j, j < 16 → bitAt prod j = true → mask.getLsbD j = true := by
  have hbit : ∀ j, j < 16 → (BitVec.ofNat 16 prod).getLsbD j = bitAt prod j := fun j hj => by
    rw [BitVec.getLsbD_ofNat, bitAt_eq_testBit, decide_eq_true hj, Bool.true_and]
  constructor
  · intro h j hj hp
    have hb := congrArg (BitVec.getLsbD · j) h
    simp only [BitVec.getLsbD_and, hbit j hj, hp, Bool.and_true] at hb
    exact hb
  · intro h
    refine BitVec.eq_of_getLsbD_eq fun j hj => ?_
    rw [BitVec.getLsbD_and, hbit j hj]
    cases hp : bitAt prod j with
    | false => exact Bool.and_false _
    | true => exact (Bool.and_true _).trans (h j hj hp)

/-! ### BEAT (R96, R97) -/

section
variable (s : State) {k : Nat} (st b : Nat) (view : Tab MByte) (forced : Bool)

/-- The classes with the beat view of a producer taken. -/
def State.beatTaken (s : State) (k st b : Nat) (view : Tab MByte) : State :=
  s.modCls k fun c => { c with beatDone := tset 0 c.beatDone b (s.beatDoneMask k b ||| BitVec.ofNat 16 (2 ^ st)),
                               beatView := tset [] c.beatView (viewKey b (s.ownerCode st)) view }

theorem produceBeat_classes : (s.produceBeat k st b view forced).classes = (s.beatTaken k st b view).classes :=
  ite_inv (P := fun t : State => t.classes = (s.beatTaken k st b view).classes) (signalBeat_classes _ _ _ _) rfl

theorem produceBeat_done : (s.produceBeat k st b view forced).beatDoneMask k b = s.beatDoneMask k b ||| BitVec.ofNat 16 (2 ^ st) ∧
    tget [] ((s.produceBeat k st b view forced).cls k).beatView (viewKey b (s.ownerCode st)) = view := by
  have hcls : (s.produceBeat k st b view forced).cls k = (s.beatTaken k st b view).cls k :=
    congrArg (tget ClassSt.reset · k) (produceBeat_classes s st b view forced)
  rw [State.beatDoneMask, hcls, State.beatTaken, cls_modCls_self]
  exact ⟨tget_tset_self _ _ _ _, tget_tset_self _ _ _ _⟩

/-- The beat is signalled with its last producer (R96). -/
theorem produceBeat_beatSig (hk : k < 4) : (s.produceBeat k st b view forced).beatSig k b = true ↔ s.beatSig k b = true ∨
    ∀ j, j < 16 → bitAt (s.fget (BEAT_PROD_PROD k b)) j = true →
      (s.beatDoneMask k b ||| BitVec.ofNat 16 (2 ^ st)).getLsbD j = true := by
  rw [← producers_done]
  have heq : s.produceBeat k st b view forced =
      if (s.beatDoneMask k b ||| BitVec.ofNat 16 (2 ^ st)) &&& BitVec.ofNat 16 (s.fget (BEAT_PROD_PROD k b)) =
          BitVec.ofNat 16 (s.fget (BEAT_PROD_PROD k b)) ∧ s.beatSig k b = false
      then (s.beatTaken k st b view).signalBeat k b forced else s.beatTaken k st b view := rfl
  rw [heq]
  split
  · next h => exact ⟨fun _ => .inr h.1, fun _ => signalBeat_beatSig _ hk b forced⟩
  · next h =>
    refine ⟨fun h' => .inl h', fun h' => h'.elim id fun hall => ?_⟩
    by_contra hnot
    exact h ⟨hall, Bool.eq_false_of_not_eq_true hnot⟩

end

theorem prod_not_pmcCounter {k b : Nat} (hk : k < 4) (hb : b < 64) : ¬ pmcCounter (BEAT_PROD k b) := by
  unfold BEAT_PROD pmcCounter
  omega

theorem Issued.prod {s u : State} {st : Fin 16} (h : Issued s u st) {k b : Nat} (hk : k < 4) (hb : b < 64) :
    u.fget (BEAT_PROD_PROD k b) = s.fget (BEAT_PROD_PROD k b) := h.1.fget _ (prod_not_pmcCounter hk hb)

theorem Issued.beatDoneMask {s u : State} {st : Fin 16} (h : Issued s u st) (k b : Nat) :
    u.beatDoneMask k b = s.beatDoneMask k b := by
  rw [State.beatDoneMask, h.1.cls, State.beatDoneMask]

theorem Issued.ownerCode {s u : State} {st : Fin 16} (h : Issued s u st) : u.ownerCode st = s.ownerCode st := by
  rw [State.ownerCode, h.1.member, State.ownerCode]

theorem beatFld_ne_rtStat {k : Nat} (hk : k < 4) (frc : Bool) (b : Nat) : (beatFld frc k b).addr ≠ OBS_RT_STAT := by
  obtain ⟨-, haddr, -⟩ := beatFld_addr hk frc b
  unfold OBS_RT_STAT
  omega

theorem getLsbD_twoPow16 (i : Nat) {j : Nat} (hj : j < 16) : (BitVec.ofNat 16 (2 ^ i)).getLsbD j = decide (i = j) := by
  rw [BitVec.getLsbD_ofNat, Nat.testBit_two_pow, decide_eq_true hj, Bool.true_and]

theorem beat_due {s : State} {st : Fin 16} {b : BitVec 6} (hready : Ready s st) (hk : (s.cfg st).cls < 4)
    (hdue : (bitAt (s.fget (BEAT_PROD_PROD (s.cfg st).cls b.toNat)) st && !(s.beatDoneMask (s.cfg st).cls b.toNat).getLsbD st) = true) :
    ∃ t, exec (.beat st b) s = .next t ∧ (t.strand st).pc = (s.strand st).pc + 4 ∧ (t.strand st).stg = (s.strand st).stg ∧
      t.img = s.img ∧ (t.beatDoneMask (s.cfg st).cls b.toNat).getLsbD st = true ∧
      tget [] (t.cls (s.cfg st).cls).beatView (viewKey b.toNat (s.ownerCode st)) = (s.strand st).stg ∧
      (t.beatSig (s.cfg st).cls b.toNat = true ↔ s.beatSig (s.cfg st).cls b.toNat = true ∨
        ∀ j, j < 16 → j ≠ st.val → bitAt (s.fget (BEAT_PROD_PROD (s.cfg st).cls b.toNat)) j = true →
          (s.beatDoneMask (s.cfg st).cls b.toNat).getLsbD j = true) := by
  have hissued := issue_issued s st .other
  have hb : b.toNat < 64 := b.isLt
  generalize hkeq : (s.cfg st).cls = k at hk hdue
  generalize hu : s.issue st .other = u at hissued
  have hquiet := hissued.quiet hready
  have hstep : WeaveStep (· = OBS_RT_STAT) u (u.produceBeat k st b.toNat (u.strand st).stg false) :=
    (WeaveStep.refl _ u).produceBeat (fun b' => beatFld_ne_rtStat hk false b') (by decide)
  obtain ⟨hdone, hview⟩ := produceBeat_done u (k := k) st b.toNat (u.strand st).stg false
  have hsig := produceBeat_beatSig u st b.toNat (u.strand st).stg false hk
  generalize hv : u.produceBeat k st b.toNat (u.strand st).stg false = v at hstep hdone hview hsig
  rw [hissued.beatDoneMask] at hdone hsig
  rw [hissued.ownerCode, hissued.stg] at hview
  rw [hissued.beatSig hk, hissued.prod hk hb] at hsig
  refine ⟨v.goOn st ((s.strand st).pc + 4), ?_, ?_, ?_, hstep.img.trans hissued.img, ?_, hview, ?_⟩
  · show dx s st (.beat st b) .other _ = _
    refine dx_completes hready (dst := none) ?_ ((hstep.flag rfl).trans hquiet)
    rw [hu]
    simp only [hissued.1.cfg, hkeq, hissued.prod hk hb, hissued.beatDoneMask, hdue, if_true, hv]
  · rw [strand_goOn_self]
  · rw [strand_goOn_self, ← hissued.stg]
    exact hstep.stg st
  · show (v.beatDoneMask k b.toNat).getLsbD st = true
    rw [hdone, BitVec.getLsbD_or, getLsbD_twoPow16 st.val st.isLt, decide_eq_true rfl, Bool.or_true]
  · refine hsig.trans (or_congr Iff.rfl (forall_congr' fun j => forall_congr' fun hj => ?_))
    rw [BitVec.getLsbD_or, getLsbD_twoPow16 st.val hj]
    by_cases hjst : j = st
    · simp [hjst]
    · simp [hjst, Ne.symm hjst]

/-- A BEAT of a strand that is no outstanding producer (R97). -/
theorem beat_stray {s : State} {st : Fin 16} {b : BitVec 6} (hready : Ready s st) (hk : (s.cfg st).cls < 4)
    (hstray : (bitAt (s.fget (BEAT_PROD_PROD (s.cfg st).cls b.toNat)) st && !(s.beatDoneMask (s.cfg st).cls b.toNat).getLsbD st) = false) :
    ∃ t, exec (.beat st b) s = .next t ∧ (t.strand st).pc = (s.strand st).pc + 4 ∧ t.img = s.img ∧ t.classes = s.classes ∧
      t.beatSig (s.cfg st).cls b.toNat = s.beatSig (s.cfg st).cls b.toNat ∧ bitAt (t.fget BEAT_EVT_STRAY) (s.cfg st).cls = true := by
  have hissued := issue_issued s st .other
  have hb : b.toNat < 64 := b.isLt
  generalize hkeq : (s.cfg st).cls = k at hk hstray
  generalize hu : s.issue st .other = u at hissued
  have hquiet := hissued.quiet hready
  have hraised : OffCycle (fun a => a < 0x40040000 ∨ a = OBS_RT_STAT) (u.setBit BEAT_EVT_STRAY k true) (u.strayBeat st k b.toNat) :=
    (OffCycle.refl _ _).raise
  have hset : ∀ f : Fld, f.addr ≠ BEAT_EVT → (u.setBit BEAT_EVT_STRAY k true).fget f = u.fget f := fun f hf => fget_fput_ne _ _ hf
  have hclasses : (u.strayBeat st k b.toNat).classes = s.classes := by
    have hkept : u.classes = s.classes := (congrArg State.classes hissued.1.1 :)
    exact (raise_classes (u.setBit BEAT_EVT_STRAY k true) _ _ _).trans hkept
  have hsig : (u.strayBeat st k b.toNat).beatSig k b.toNat = s.beatSig k b.toNat := by
    obtain ⟨-, haddr, -⟩ := beatFld_addr hk false b.toNat
    rw [← hissued.beatSig hk, State.beatSig, hraised.fget (.inl (by omega)), hset _ (by unfold BEAT_EVT; omega), State.beatSig]
  have hbit : bitAt ((u.strayBeat st k b.toNat).fget BEAT_EVT_STRAY) k = true := by
    rw [hraised.fget (.inl (by decide))]
    exact bitAt_setBit_self u true (by decide) hk
  refine ⟨(u.strayBeat st k b.toNat).goOn st ((s.strand st).pc + 4), ?_, ?_, hraised.img.trans hissued.img, hclasses, hsig, hbit⟩
  · show dx s st (.beat st b) .other _ = _
    refine dx_completes hready (dst := none) ?_ ((hraised.flag (.inr rfl)).trans ((flag_congr (rget_fput_ne _ _ (by decide))).trans hquiet))
    rw [hu]
    simp only [hissued.1.cfg, hkeq, hissued.prod hk hb, hissued.beatDoneMask, hstray, Bool.false_eq_true, if_false]
  · rw [strand_goOn_self]

/-! ### The end of a weave (R50, R100) -/

theorem mem_strandsOf {s : State} {k st : Nat} : st ∈ s.strandsOf k ↔ st < 16 ∧ (s.cfg st).cls = k := by
  simp [State.strandsOf]

/-- The beam of a class is ready when the last of its strands has ended or halted. -/
theorem checkLastEndc_ready {s : State} {k : Nat} (hbeam : (s.cls k).beam = .weaving)
    (hall : ∀ st, st < 16 → (s.cfg st).cls = k → (s.strand st).run = .ended ∨ (s.strand st).run = .halted) :
    ((s.checkLastEndc k).cls k).beam = .ready s.fab := by
  have hover : (s.strandsOf k).all (fun st => (s.strand st).run == .ended || (s.strand st).run == .halted) = true := by
    refine List.all_eq_true.mpr fun st hst => ?_
    obtain ⟨hlt, hcls⟩ := mem_strandsOf.mp hst
    rcases hall st hlt hcls with h | h <;> rw [h] <;> rfl
  rw [State.checkLastEndc, if_pos ⟨hbeam, hover⟩, cls_setCls_self]

theorem checkLastEndc_waits {s : State} {k st : Nat} (hst : st < 16) (hcls : (s.cfg st).cls = k) (hrun : (s.strand st).run = .weaving) :
    s.checkLastEndc k = s := by
  rw [State.checkLastEndc]
  refine if_neg fun h => ?_
  have hover := List.all_eq_true.mp h.2 st (mem_strandsOf.mpr ⟨hst, hcls⟩)
  rw [hrun] at hover
  exact absurd hover (by decide)

/-! ### ENDC (R48, R100, R137) -/

/-- A bit of the beat registers that is set stays when another of them is set. -/
theorem bitAt_beatFld_setBit {s : State} {frc : Bool} {k b : Nat} (c : Nat) (h : bitAt (s.fget (beatFld frc k b)) (b % 32) = true) :
    bitAt ((s.setBit (beatFld frc k c) (c % 32) true).fget (beatFld frc k b)) (b % 32) = true := by
  obtain ⟨hlo, hwidth⟩ := beatFld_width frc k b
  obtain ⟨hlo', hwidth'⟩ := beatFld_width frc k c
  by_cases haddr : (beatFld frc k b).addr = (beatFld frc k c).addr
  · have hfld : beatFld frc k c = beatFld frc k b := by
      cases hb : beatFld frc k b
      cases hc : beatFld frc k c
      simp_all
    rw [hfld]
    by_cases hbit : b % 32 = c % 32
    · rw [hbit]
      exact bitAt_setBit_self s true (by omega) (by omega)
    · rw [bitAt_setBit_ne s true (by omega) hbit (by omega)]
      exact h
  · rw [State.setBit, fget_fput_ne _ _ haddr]
    exact h

theorem beatFld_apart {k : Nat} (hk : k < 4) (b c : Nat) : (beatFld false k c).addr ≠ (beatFld true k b).addr := by
  obtain ⟨-, -, htrue⟩ := beatFld_addr hk true b
  obtain ⟨-, -, hfalse⟩ := beatFld_addr hk false c
  simp only [Bool.true_eq_false, iff_false, iff_true] at htrue hfalse
  omega

theorem beatFld_ne_others {k : Nat} (hk : k < 4) (frc : Bool) (b : Nat) :
    ∀ a ∈ [BEAT_EVT, OBS_LOST, EVR_LOST, EVR_EVT], ¬ a = (beatFld frc k b).addr := by
  obtain ⟨-, hlt, -⟩ := beatFld_addr hk frc b
  have habove : ∀ a ∈ [BEAT_EVT, OBS_LOST, EVR_LOST, EVR_EVT], 0x40030050 ≤ a := by decide
  intro a ha
  have := habove a ha
  omega

/-- Force-signalled beats show in the FRC registers of their class (R100). -/
theorem forceBeats_frc {s : State} {st cause b : Nat} (hk : (s.cfg st).cls < 4) (hb : b ∈ s.pendingBeats st) :
    bitAt ((s.forceBeats st cause).fget (beatFld true (s.cfg st).cls b)) (b % 32) = true := by
  obtain ⟨hlo, hwidth⟩ := beatFld_width true (s.cfg st).cls b
  have hothers := beatFld_ne_others hk true b
  have hfit : (beatFld true (s.cfg st).cls b).lo + (beatFld true (s.cfg st).cls b).width ≤ 32 ∧
      b % 32 < (beatFld true (s.cfg st).cls b).width := by omega
  unfold State.forceBeats
  extract_lets k pend view forced shown
  have hne : pend.isEmpty = false := List.isEmpty_eq_false_iff_exists_mem.mpr ⟨b, hb⟩
  have hforced : bitAt (forced.fget (beatFld true k b)) (b % 32) = true := by
    refine each_mem_establishes (P := fun v : State => bitAt (v.fget (beatFld true k b)) (b % 32) = true) s hb
      (fun v => bitAt_setBit_self _ true hfit.1 hfit.2) fun v hv c _ => bitAt_beatFld_setBit c ?_
    have hproduced : WeaveStep (· = (beatFld true k b).addr) v (v.produceBeat k st c view true) :=
      (WeaveStep.refl _ v).produceBeat (beatFld_apart hk b) (hothers _ (by simp))
    rw [hproduced.fget rfl]
    exact hv
  have hshown : WeaveStep (· = (beatFld true k b).addr) forced shown :=
    ite_inv ((WeaveStep.refl _ forced).setBit (hothers _ (by simp))) ((WeaveStep.refl _ forced).setBit (hothers _ (by simp)))
  rw [if_neg (by rw [hne]; decide), (hshown.raise (hothers _ (by simp)) (hothers _ (by simp))).fget rfl]
  exact hforced

theorem proofCheck_of_live {s : State} {k : Nat} (h : (s.cls k).shadow = .none) : s.proofCheck k = s := by
  have hover : s.trialOver k = false := by
    rw [State.trialOver, h]
    rfl
  unfold State.proofCheck
  split
  · rfl
  · rw [hover]
    exact if_neg Bool.false_ne_true

theorem endCycle_eq (s : State) (st : Nat) (pc : Word) : ∃ y : Strand, y.run = .ended ∧ s.endCycle st pc =
    (((s.forceBeats st 2).setStrand st y).btEnd st pc).checkLastEndc
      ((s.forceBeats st 2).cfg st).cls := ⟨_, rfl, rfl⟩

/-- ENDC in steps: beats are forced, the strand's cycle ends with its branch trace, and the beam is looked at. -/
theorem endc_steps {s : State} {st : Fin 16} (hready : Ready s st) (hk : (s.cfg st).cls < 4) :
    ∃ u f e y, Issued s u st ∧ u.forceBeats st 2 = f ∧ WeaveStep (· = OBS_RT_STAT) u f ∧ y.run = .ended ∧
      WeaveStep (· ≠ OBS_LOST) (f.setStrand st y) e ∧
      exec (.endc st) s = .next ((e.checkLastEndc (s.cfg st).cls).goOn st ((s.strand st).pc + 4)) := by
  have hissued := issue_issued s st .other
  obtain ⟨-, -, htrial, -⟩ := id hready
  generalize hu : s.issue st .other = u at hissued
  have hcfg := hissued.1.cfg st
  have hforced : WeaveStep (· = OBS_RT_STAT) u (u.forceBeats st 2) :=
    (WeaveStep.refl _ u).forceBeats (cause := 2) fun frc b => beatFld_ne_rtStat (hcfg ▸ hk) frc b
  generalize hf : u.forceBeats st 2 = f at hforced
  obtain ⟨y, hrun, heq⟩ := endCycle_eq u st (u.strand st).pc
  rw [hf] at heq
  have hended : WeaveStep (· ≠ OBS_LOST) (f.setStrand st y) ((f.setStrand st y).btEnd st (u.strand st).pc) :=
    (WeaveStep.refl _ _).btEnd
  generalize he : (f.setStrand st y).btEnd st (u.strand st).pc = e at hended heq
  have hfcfg : (f.cfg st).cls = (s.cfg st).cls := congrArg StrandCfg.cls ((hforced.cfg st).trans hcfg)
  obtain ⟨c, hlast, hcls⟩ := checkLastEndc_frame e (s.cfg st).cls
  have hquiet : (e.checkLastEndc (s.cfg st).cls).flag OBS_RT_STAT_CAPTURING = false := by
    rw [hlast]
    exact (hended.flag (by decide)).trans ((hforced.flag rfl).trans (hissued.quiet hready))
  have hlive : ((e.checkLastEndc (s.cfg st).cls).cls (s.cfg st).cls).shadow = .none := by
    obtain ⟨beam, hbeam⟩ := hcls (s.cfg st).cls
    rw [hbeam]
    exact (hended.shadow _).trans ((hforced.shadow _).trans ((congrArg _ (hissued.1.cls _)).trans (shadow_of_onTrial htrial)))
  have hdx : dx s st (.endc st) .other (fun t => .ok (t.endCycle st (t.strand st).pc) none) =
      .next ((e.checkLastEndc (s.cfg st).cls).goOn st ((s.strand st).pc + 4)) := by
    refine dx_completes hready (dst := none) ?_ hquiet
    rw [hu, heq, hfcfg]
  refine ⟨u, f, e, y, hissued, hf, hforced, hrun, hended, ?_⟩
  show execEndc st s = _
  rw [execEndc, hdx]
  exact congrArg Host.Outcome.next (proofCheck_of_live hlive)

theorem Issued.pendingBeats {s u : State} {st : Fin 16} (h : Issued s u st) (hk : (s.cfg st).cls < 4) :
    u.pendingBeats st = s.pendingBeats st := by
  unfold State.pendingBeats
  dsimp only
  rw [h.1.cfg]
  exact List.filter_congr fun b hb => by rw [h.prod hk (List.mem_range.mp hb), h.beatDoneMask]

/-- ENDC ends the strand's cycle, forces its pending beats, and makes the beam ready with the last strand. -/
theorem endc_ends {s : State} {st : Fin 16} (hready : Ready s st) (hk : (s.cfg st).cls < 4)
    (hbeam : (s.cls (s.cfg st).cls).beam = .weaving) :
    ∃ t, exec (.endc st) s = .next t ∧ (t.strand st).run = .ended ∧ t.img = s.img ∧
      (∀ b, b ∈ s.pendingBeats st → bitAt (t.fget (beatFld true (s.cfg st).cls b)) (b % 32) = true) ∧
      ((∀ j, j < 16 → j ≠ st.val → (s.cfg j).cls = (s.cfg st).cls → (s.strand j).run = .ended ∨ (s.strand j).run = .halted) →
        (t.cls (s.cfg st).cls).beam = .ready s.fab) ∧
      (∀ j, j < 16 → j ≠ st.val → (s.cfg j).cls = (s.cfg st).cls → (s.strand j).run = .weaving →
        (t.cls (s.cfg st).cls).beam = .weaving) := by
  obtain ⟨u, f, e, y, hissued, hf, hforced, hyrun, hended, hexec⟩ := endc_steps hready hk
  obtain ⟨c, hlast, hcls⟩ := checkLastEndc_frame e (s.cfg st).cls
  have hrun : (e.strand st).run = .ended := (hended.run st).trans (by rw [strand_setStrand_self, hyrun])
  have hother : ∀ j, j ≠ st.val → (e.strand j).run = (s.strand j).run := fun j hj => by
    rw [hended.run, strand_setStrand_ne _ _ hj, hforced.run, hissued.1.2.1 j hj]
  have hecfg : ∀ j, e.cfg j = s.cfg j := fun j => (hended.cfg j).trans ((hforced.cfg j).trans (hissued.1.cfg j))
  have hebeam : (e.cls (s.cfg st).cls).beam = .weaving :=
    (hended.beam _).trans ((hforced.beam _).trans ((congrArg _ (hissued.1.cls _)).trans hbeam))
  have hfab : e.fab = s.fab := hended.fab.trans (hforced.fab.trans (congrArg State.fab hissued.1.1 :))
  refine ⟨_, hexec, ?_, ?_, fun b hb => ?_, fun hall => ?_, fun j hj hjst hjcls hjrun => ?_⟩
  · rw [strand_goOn_self, hlast]
    exact hrun
  · show (e.checkLastEndc _).img = s.img
    rw [hlast]
    exact hended.img.trans (hforced.img.trans hissued.img)
  · have hfrc := forceBeats_frc (s := u) (st := st) (cause := 2) (b := b) (by rw [hissued.1.cfg]; exact hk)
      (by rw [hissued.pendingBeats hk]; exact hb)
    rw [hf, hissued.1.cfg] at hfrc
    have hsame : e.fget (beatFld true (s.cfg st).cls b) = f.fget (beatFld true (s.cfg st).cls b) :=
      hended.fget (Ne.symm (beatFld_ne_others hk true b OBS_LOST (by simp)))
    show bitAt ((e.checkLastEndc _).fget _) _ = true
    rw [hlast]
    exact (congrArg (bitAt · (b % 32)) hsame).trans hfrc
  · refine (checkLastEndc_ready hebeam fun j hj hjcls => ?_).trans (congrArg _ hfab)
    rw [hecfg] at hjcls
    by_cases hjst : j = st.val
    · rw [hjst]
      exact .inl hrun
    · rw [hother j hjst]
      exact hall j hj hjst hjcls
  · have hwaits := checkLastEndc_waits hj ((congrArg _ (hecfg j)).trans hjcls) ((hother j hjst).trans hjrun)
    show ((e.checkLastEndc _).cls _).beam = _
    rw [hwaits]
    exact hebeam

/-- Settles O19: a producer's BEAT takes its view and signals with the last one, any other is stray, and ENDC ends the strand's cycle. -/
theorem beatsAndEndOfCycle : Obligations.BeatsAndEndOfCycle := by
  unfold Obligations.BeatsAndEndOfCycle
  refine ⟨fun s st b hready => ?_, fun s st hready => ?_⟩
  · intro x k prod due hk
    exact ⟨beat_due hready hk, beat_stray hready hk⟩
  · intro k hk hbeam
    exact endc_ends hready hk hbeam

end Sys2Proof.Machine
end
section
/-!
SUPPORT. `OffCycle` of the channels, the ports and the engines: what an emit, a latch, the output pipelines and the delivery of jobs do
stays in blocks above those of the cycle (R25).
-/
namespace Sys2Proof.Machine

set_option Elab.async false

/-! ### Registers above the cycle's -/

theorem not_cycleReg {a : Nat} (h : 0x40040000 ≤ a) : ¬ CycleReg a := Nat.not_lt.mpr h

theorem se_pipe_stat_off (p : Nat) : ¬ CycleReg (SE_PIPE_STAT p) := not_cycleReg (by unfold SE_PIPE_STAT; omega)

theorem uc_stat_off (n : Nat) : ¬ CycleReg (UC_STAT n) := not_cycleReg (by unfold UC_STAT; omega)

theorem uc_evt_off (n : Nat) : ¬ CycleReg (UC_EVT n) := not_cycleReg (by unfold UC_EVT; omega)

theorem uc_cmdlast_off (n : Nat) : ¬ CycleReg (UC_CMDLAST n) := not_cycleReg (by unfold UC_CMDLAST; omega)

theorem dio_grp_stat_off (g : Nat) : ¬ CycleReg (DIO_GRP_STAT g) := not_cycleReg (by unfold DIO_GRP_STAT; omega)

theorem dio_ch_stat_off (n : Nat) : ¬ CycleReg (DIO_CH_STAT n) := not_cycleReg (by unfold DIO_CH_STAT; omega)

theorem ct_off (k : Nat) : ¬ CycleReg (CT_LIVE k) ∧ ¬ CycleReg (CT_VAL k) ∧ ¬ CycleReg (CT_STAT k) := by
  refine ⟨not_cycleReg ?_, not_cycleReg ?_, not_cycleReg ?_⟩
  · unfold CT_LIVE; omega
  · unfold CT_VAL; omega
  · unfold CT_STAT; omega

theorem can_mb_hdr_off (p m : Nat) : ¬ CycleReg (CAN_MB_HDR p m) := not_cycleReg (by unfold CAN_MB_HDR; omega)

section
variable {s t : State}

theorem OffCycle.countG (h : OffCycle CycleReg s t) {ev n : Nat} : OffCycle CycleReg s (t.countG ev n) :=
  h.pmc (PmcOnly.countG t ev n) fun _ => not_cycleReg_of_pmcCounter

/-! ### Pipelines (R182, R186) -/

theorem OffCycle.pushSample (h : OffCycle CycleReg s t) {p : Nat} {x : Sample} : OffCycle CycleReg s (t.pushSample p x) := by
  unfold State.pushSample
  extract_lets pp now kept
  have hkept : OffCycle CycleReg s kept := h.upd
  exact (hkept.fput (se_pipe_stat_off p)).fput (se_pipe_stat_off p)

theorem OffCycle.pipeBad (h : OffCycle CycleReg s t) {p : Nat} : OffCycle CycleReg s (t.pipeBad p) := h.pushSample

theorem OffCycle.runPipe (h : OffCycle CycleReg s t) {p : Nat} {cj x : Int} : OffCycle CycleReg s (t.runPipe p cj x).1 := by
  unfold State.runPipe
  extract_lets pp r pp'
  have hset : OffCycle CycleReg s (t.setPipe p pp') := h.upd
  exact hset.countG

/-! ### Universal channels (R186, R214 to R217) -/

theorem OffCycle.modUc (h : OffCycle CycleReg s t) {n : Nat} {f : Uc → Uc} : OffCycle CycleReg s (t.modUc n f) := h.upd

theorem OffCycle.setDiag (h : OffCycle CycleReg s t) {n d : Nat} : OffCycle CycleReg s (t.setDiag n d) := by
  unfold State.setDiag
  exact ite_inv h ((h.fput (uc_stat_off n)).setFlag (uc_evt_off n)).raise

theorem OffCycle.setDiagBit (h : OffCycle CycleReg s t) {n i : Nat} {b : Bool} : OffCycle CycleReg s (t.setDiagBit n i b) := h.setDiag

theorem OffCycle.ucOutputPipe (h : OffCycle CycleReg s t) {n : Nat} {e : HEntry} : OffCycle CycleReg s (t.ucOutputPipe n e) := by
  unfold State.ucOutputPipe
  refine ite_inv ?_ h
  extract_lets off bad r lim
  have hr : OffCycle CycleReg s r.1 := h.runPipe
  split
  · exact hr
  · extract_lets v pushed shown
    have hshown : OffCycle CycleReg s shown := hr.pushSample.fput (uc_cmdlast_off n)
    exact ite_inv hshown.modUc hshown

theorem OffCycle.ucEmit (h : OffCycle CycleReg s t) {n : Nat} : OffCycle CycleReg s (t.ucEmit n) := by
  unfold State.ucEmit
  refine ite_inv ?_ h
  extract_lets old taken u row hold faded
  have htaken : OffCycle CycleReg s taken := by
    unfold taken
    split
    · exact h
    · exact h.modUc.setDiagBit
  exact (ite_inv htaken.modUc htaken : OffCycle CycleReg s faded).modUc

theorem OffCycle.outputPipes (h : OffCycle CycleReg s t) {k : Nat} : OffCycle CycleReg s (t.outputPipes k) := by
  refine each_inv h fun v hv n => ?_
  split
  · exact ite_inv hv.ucOutputPipe hv
  · exact hv

theorem OffCycle.emitUc (h : OffCycle CycleReg s t) {k : Nat} {sh : Shift} : OffCycle CycleReg s (t.emitUc k sh) := by
  refine each_inv h fun v hv n => ite_inv hv.ucEmit ?_
  cases sh with
  | none => exact hv.ucEmit
  | hold => exact hv
  | up us => exact hv.modUc.ucEmit
  | down => exact hv.modUc.ucEmit

/-! ### Digital channels and counters (R238 to R250) -/

theorem OffCycle.setDio (h : OffCycle CycleReg s t) {n : Nat} {d : Dio} : OffCycle CycleReg s (t.setDio n d) := h.upd

theorem OffCycle.setCt (h : OffCycle CycleReg s t) {k : Nat} {c : Ct} : OffCycle CycleReg s (t.setCt k c) := h.upd

theorem OffCycle.dioApply (h : OffCycle CycleReg s t) {n : Nat} {v : Bool} : OffCycle CycleReg s (t.dioApply n v) := by
  unfold State.dioApply
  exact ite_inv h h.setDio

theorem OffCycle.dioRefresh (h : OffCycle CycleReg s t) {n : Nat} : OffCycle CycleReg s (t.dioRefresh n) :=
  (h.setBit (dio_ch_stat_off n)).fput (dio_ch_stat_off n)

theorem OffCycle.dioEmitOut (h : OffCycle CycleReg s t) {n : Nat} : OffCycle CycleReg s (t.dioEmitOut n) := by
  unfold State.dioEmitOut
  extract_lets b d kept cleared v
  have hkept : OffCycle CycleReg s kept := h.setDio
  have hcleared : OffCycle CycleReg s cleared := ite_inv hkept (hkept.setBit (dio_ch_stat_off n)).dioRefresh
  exact each_inv hcleared fun _ h _ => h.dioApply

theorem OffCycle.ctControl (h : OffCycle CycleReg s t) {k : Nat} {e : HEntry} : OffCycle CycleReg s (t.ctControl k e) := by
  obtain ⟨hlive, -, -⟩ := ct_off k
  unfold State.ctControl
  extract_lets bit ct held
  refine ite_inv ?_ h
  have hheld : OffCycle CycleReg s held := ite_inv h.setCt h
  exact ite_inv (hheld.fput hlive) hheld

theorem OffCycle.dioEmit (h : OffCycle CycleReg s t) {k : Nat} : OffCycle CycleReg s (t.dioEmit k) := by
  unfold State.dioEmit
  extract_lets mine outs cleared emitted
  have hcleared : OffCycle CycleReg s cleared := each_inv h fun _ h g => ite_inv (h.setFlag (dio_grp_stat_off g)) h
  have hemitted : OffCycle CycleReg s emitted := each_inv hcleared fun _ h _ => h.dioEmitOut
  exact each_inv hemitted fun _ h _ => h.ctControl

theorem OffCycle.emitDio (h : OffCycle CycleReg s t) {k : Nat} {sh : Shift} : OffCycle CycleReg s (t.emitDio k sh) :=
  each_inv h.dioEmit fun _ h _ => h.setDio

theorem OffCycle.judgeOpenLoad (h : OffCycle CycleReg s t) {n : Nat} {above : Bool} : OffCycle CycleReg s (t.judgeOpenLoad n above) := by
  unfold State.judgeOpenLoad
  extract_lets d was counted set cleared
  have hcounted : OffCycle CycleReg s counted := h.setDio
  have hcleared : OffCycle CycleReg s cleared := h.setDio
  refine ite_inv (ite_inv ?_ hcounted) (ite_inv (hcleared.setBit (dio_ch_stat_off n)).raise hcleared)
  exact ((hcounted.setBit (dio_ch_stat_off n)).setBit).raise

theorem OffCycle.judgeDisc (h : OffCycle CycleReg s t) {k n : Nat} {mismatch value : Bool} :
    OffCycle CycleReg s (t.judgeDisc k n mismatch value) := by
  unfold State.judgeDisc
  extract_lets applied counted set was cleared
  have hcounted : OffCycle CycleReg s counted := h.satBump (dio_ch_stat_off n)
  have hcleared : OffCycle CycleReg s cleared := (h.fput (dio_ch_stat_off n)).setBit (dio_ch_stat_off n)
  have hset : OffCycle CycleReg s set := (hcounted.setBit (dio_ch_stat_off n)).setBit
  exact ite_inv (ite_inv hset.raise hcounted) (ite_inv hcleared.raise hcleared)

theorem OffCycle.dioReadback (h : OffCycle CycleReg s t) {k n t0 : Nat} {rb above9 : BitVec 32} :
    OffCycle CycleReg s (t.dioReadback k n t0 rb above9) := by
  unfold State.dioReadback
  extract_lets ms value read shown d old loaded judged
  have hread : OffCycle CycleReg s read := each_inv h fun _ h m => h.setBit (dio_ch_stat_off m)
  have hshown : OffCycle CycleReg s shown := hread.setBit (dio_ch_stat_off n)
  have hjudged : OffCycle CycleReg s judged := by
    have hloaded : OffCycle CycleReg s loaded := ite_inv hshown.judgeOpenLoad hshown
    exact ite_inv hshown (ite_inv hloaded.judgeDisc hloaded)
  exact each_inv hjudged fun _ h _ => h.dioRefresh

theorem OffCycle.ctLatch (h : OffCycle CycleReg s t) {c k t0 : Nat} : OffCycle CycleReg s (t.ctLatch c k t0).1 := by
  obtain ⟨hlive, hval, hstat⟩ := ct_off k
  unfold State.ctLatch
  extract_lets gated x v flags keep shown
  have hgated : OffCycle CycleReg s gated := by
    unfold gated State.ctGate
    exact ite_inv ((h.fput hlive).setFlag hstat) h
  exact (hgated.fput hval).setCt

theorem OffCycle.dioLatch (h : OffCycle CycleReg s t) {k t0 : Nat} {rb above9 : BitVec 32} :
    OffCycle CycleReg s (t.dioLatch k t0 rb above9) := by
  unfold State.dioLatch
  refine ite_inv h ?_
  extract_lets ks captured
  have hcaptured : OffCycle CycleReg s captured := by
    refine each_inv h fun v hv n => ite_inv ?_ (hv.setBit (dio_ch_stat_off n)).dioRefresh
    split
    · exact ite_inv hv.dioReadback hv
    · exact hv
  refine each_inv hcaptured fun v hv j => ?_
  unfold State.latchDigital
  extract_lets ins counted
  have hcounted : OffCycle CycleReg s counted := each_inv hv fun _ h c => ite_inv h (OffCycle.setLatch h.ctLatch)
  exact each_inv hcounted fun _ h _ => ite_inv (each_inv h fun _ h _ => h.setLatch) h

/-! ### Ethernet and CAN (R377, R378, R409) -/

theorem OffCycle.buildFrames {K : Nat → Prop} (h : OffCycle K s t) {k launch : Nat} {cyc : BitVec 64} {ovr : Bool} :
    OffCycle K s (t.buildFrames k cyc launch ovr) := by
  have hstreams : OffCycle K s (t.buildStreams k cyc.toNat launch ovr) := by
    refine each_inv h fun v hv i => ?_
    unfold State.buildStream
    extract_lets id es x cb f counted
    have hcounted : OffCycle K s counted := ite_inv hv.upd hv
    exact hcounted.upd
  exact each_inv hstreams fun _ h _ => h.upd

theorem OffCycle.rioOpen (h : OffCycle CycleReg s t) {k launch : Nat} : OffCycle CycleReg s (t.rioOpen k launch) := by
  refine each_inv h fun v hv p => ite_inv hv ?_
  have hclosed : OffCycle CycleReg s (v.closeGates p k) := by
    unfold State.closeGates
    exact ite_inv hv hv.upd
  exact hclosed.upd

theorem OffCycle.setMb (h : OffCycle CycleReg s t) {p m : Nat} {x : Mb} : OffCycle CycleReg s (t.setMb p m x) := h.upd

theorem OffCycle.canEmit (h : OffCycle CycleReg s t) {k launch : Nat} : OffCycle CycleReg s (t.canEmit k launch) := by
  refine each_inv h fun v hv x => ?_
  split
  · unfold State.mbPend
    exact OffCycle.setMb (hv.setFlag (can_mb_hdr_off x.1 x.2))
  · exact hv

end
end Sys2Proof.Machine
end
section
/-!
CERTIFICATE. The emit instant and the value of a digital output (R53, R54, R238, R242).
-/
namespace Sys2Proof.Machine

set_option Elab.async false

/-! ### The emit (R53, R54) -/

theorem live_of_run {s : State} (hheld : s.ctl.held = false) (hrun : s.mode = mRun) : s.live = true := by
  rw [State.live, hheld, hrun]
  rfl

/-- What an operation on the outputs of a class leaves, it leaves of the state whose image and status words it does not see too. -/
theorem onOutputs_offCycle (s : State) (k : Nat) {f : State → State} (hf : ∀ v, OffCycle CycleReg v (f v)) :
    OffCycle CycleReg s (s.onOutputs k f) := by
  obtain ⟨hrest, hcls, hregs⟩ := hf { s with img := (s.cls k).outImg, sw := (s.cls k).outSw }
  exact ⟨congrArg (fun v : State => { v with img := s.img, sw := s.sw }) hrest, hcls, hregs⟩

theorem showOverrun_keeps (s : State) (k : Nat) : (s.showOverrun k).img = s.img ∧ (s.showOverrun k).strands = s.strands ∧
    (s.showOverrun k).mode = s.mode := by
  unfold State.showOverrun
  extract_lets set es shown c
  exact each_inv (P := fun v : State => v.img = s.img ∧ v.strands = s.strands ∧ v.mode = s.mode) ⟨rfl, rfl, rfl⟩ fun v hv _ => hv

theorem shiftOf_none {s : State} {k : Nat} (htko : s.red.tkoEmit = []) (hdown : s.red.downAt = []) (at_ : Nat) :
    s.shiftOf k at_ = .none := by
  simp [State.shiftOf, htko, hdown]

/-- The emit of class `k` is due. -/
abbrev EmitDue (s : State) (k : Nat) : Prop :=
  (s.cls k).started = true ∧ (s.cls k).deadlineDone = true ∧ (s.cls k).emitDone = false ∧ (s.cls k).t0.toNat + s.dout k ≤ s.tbNat

theorem emit_done {s : State} {k : Fin 4} (h : (s.cls k).emitDone = true) : exec (.emit k) s = .next s := by
  show execEmit k s = _
  simp [execEmit, h]

theorem emit_once {s : State} {k : Fin 4} (hheld : s.ctl.held = false) (htko : s.red.tkoEmit = []) (hdown : s.red.downAt = [])
    (hrun : s.mode = mRun) (hdue : EmitDue s k) :
    ∃ t, exec (.emit k) s = .next t ∧ (t.cls k).emitDone = true ∧ t.img = s.img ∧ t.strands = s.strands := by
  obtain ⟨hstarted, hdeadline, hemit, htime⟩ := hdue
  have hnot : ¬ s.tbNat < (s.cls k).t0.toNat + s.dout k := by omega
  have hguard : (s.ctl.held || !s.live || !(s.cls k).started || !(s.cls k).deadlineDone || (s.cls k).emitDone ||
      decide (s.tbNat < (s.cls k).t0.toNat + s.dout k)) = false := by
    simp [hheld, live_of_run hheld hrun, hstarted, hdeadline, hemit, hnot]
  obtain ⟨himg, hstrands, -⟩ := showOverrun_keeps s k
  show ∃ t, execEmit k s = .next t ∧ _
  unfold execEmit
  rw [if_neg (by rw [hguard]; decide)]
  extract_lets launch sh restored runs shown emitted shifted opened late built done
  have hrestored : restored = s := if_neg (by simp [htko])
  have hshown : shown.img = s.img ∧ shown.strands = s.strands := by
    refine ite_inv (P := fun v : State => v.img = s.img ∧ v.strands = s.strands) ?_ ?_ <;> rw [hrestored]
    · exact ⟨himg, hstrands⟩
    · exact ⟨rfl, rfl⟩
  have hemitted : OffCycle CycleReg shown emitted := onOutputs_offCycle _ _ fun v => (OffCycle.refl _ v).emitDio.emitUc
  have hshifted : shifted = emitted := by
    have hsh : sh = .none := shiftOf_none htko hdown launch
    unfold shifted
    rw [hsh]
    rfl
  have hopened : OffCycle CycleReg shown opened :=
    ite_inv (hshifted ▸ hemitted.rioOpen.canEmit) (hshifted ▸ hemitted)
  have hbuilt : OffCycle CycleReg shown built := ite_inv hopened.buildFrames hopened
  obtain ⟨hdoneImg, hdoneStrands⟩ : done.img = s.img ∧ done.strands = s.strands :=
    ⟨hbuilt.img.trans hshown.1, hbuilt.strands.trans hshown.2⟩
  have hdone : (done.cls k).emitDone = true := by
    unfold done
    rw [cls_modCls_self]
  split
  · exact ⟨_, rfl, hdone, hdoneImg, hdoneStrands⟩
  · exact ⟨_, rfl, hdone, hdoneImg, hdoneStrands⟩

/-! ### The value of a digital output (R238, R242) -/

section
variable {s : State} {n : Nat}

/-- The row of a commanded output of this module alone, in RUN. -/
theorem dioBase_run {e : HEntry} {b : Nat} (hrun : s.mode = mRun) (hentry : s.dioEntry n = some (e, b)) (htko : s.red.tko = none)
    (hshared : s.flag (DIO_CH_CFG_SHARED n) = false) : (s.dioBase n).2 =
      if (s.swGet (hSwidx e)).toNat % 4 = qBad then
        if s.fget (DIO_CH_CFG_BADQ_SEL n) = 2 then true
        else if s.fget (DIO_CH_CFG_BADQ_SEL n) = 1 then s.dioHold n 7 else false
      else (imgGet s.img (b / 8)).getLsbD (b % 8) := by
  unfold State.dioBase
  extract_lets m cmd leaving own row hold sel
  have hcmd : cmd = (s.imgBitVal b, hSwidx e) := by
    unfold cmd
    rw [hentry]
  have hown : own = false := by
    unfold own
    rw [hentry]
    simp [State.tkoStops, htko, m, hrun]
  have hstandby : s.sharedStandby n = false := by rw [State.sharedStandby, hshared, Bool.and_false]
  have hrow : row = if (s.swGet (hSwidx e)).toNat % 4 = qBad then 7 else 8 := by
    simp [row, m, leaving, hrun, hown, hshared, hstandby, hentry, hcmd]
  by_cases hbad : (s.swGet (hSwidx e)).toNat % 4 = qBad
  · rw [if_pos hbad] at hrow ⊢
    simp only [sel, hold, hrow]
  · rw [if_neg hbad] at hrow ⊢
    simp only [hrow, hcmd]
    rfl

theorem dioApply_out (s : State) (n : Nat) (v : Bool) : ((s.dioApply n v).dio n).out = v := by
  unfold State.dioApply
  dsimp only
  split
  · next h => exact h
  · rw [dio_setDio_self]

/-- The output after an emit: what its row gives, unless something keeps it off. -/
theorem dioEmitOut_out (hgang : s.gang n = [n]) (hshared : s.flag (DIO_CH_CFG_SHARED n) = false) :
    ((s.dioEmitOut n).dio n).out = ((s.dioBase n).2 && !s.groupBlocked (n / 8) && !s.recBit n recOverload && s.supply.resetN.isNone) := by
  have hcfg : DIO_CH_CFG n ≠ DIO_CH_STAT n := by unfold DIO_CH_CFG DIO_CH_STAT; omega
  have hgrp : DIO_GRP_STAT (n / 8) ≠ DIO_CH_STAT n := by unfold DIO_GRP_STAT DIO_CH_STAT; omega
  unfold State.dioEmitOut
  extract_lets b d kept cleared v
  have hregs : ∀ f : Fld, f.addr ≠ DIO_CH_STAT n → cleared.fget f = s.fget f := fun f hf =>
    ite_inv (P := fun t : State => t.fget f = s.fget f) rfl ((fget_fput_ne _ _ hf).trans ((fget_fput_ne _ _ hf).trans (fget_fput_ne _ _ hf)))
  have hgang' : cleared.gang n = [n] := by
    rw [← hgang, State.gang, hregs _ hcfg, State.gang]
  have hv : v = (b.2 && !s.groupBlocked (n / 8) && !s.recBit n recOverload && s.supply.resetN.isNone) := by
    have hblocked : cleared.groupBlocked (n / 8) = s.groupBlocked (n / 8) := by
      rw [State.groupBlocked, hregs _ hgrp, State.flag, hregs _ hgrp, State.groupBlocked, State.flag]
    have hflag : cleared.flag (DIO_CH_CFG_SHARED n) = false := by
      rw [State.flag, hregs _ hcfg]
      exact hshared
    unfold v
    rw [hblocked, hflag]
    cases hb : b.2 with
    | false => simp
    | true =>
      have hkept : cleared = kept := if_pos hb
      rw [hkept]
      simp [kept, State.recBit]
  rw [hgang']
  exact (dioApply_out cleared n v).trans hv

end

/-- The group or RESET_n keeps the output of channel `n` off (R238, R242). -/
def State.outputBlocked (s : State) (n : Nat) : Bool := s.groupBlocked (n / 8) || s.supply.resetN.isSome

theorem outputBlocked_iff (s : State) (n : Nat) : s.outputBlocked n = true ↔
    s.fget (DIO_GRP_STAT_STATE (n / 8)) = 2 ∨ s.flag (DIO_GRP_STAT_FUSE (n / 8)) = true ∨ s.supply.resetN ≠ none := by
  simp [State.outputBlocked, State.groupBlocked, Option.isSome_iff_ne_none, or_assoc]

/-- The rows of the table for a commanded output of a module alone, in RUN. -/
theorem output_rows {s : State} {n b : Nat} {e : HEntry} (hrun : s.mode = mRun) (hentry : s.dioEntry n = some (e, b))
    (htko : s.red.tko = none) (hshared : s.flag (DIO_CH_CFG_SHARED n) = false) (hgang : s.gang n = [n]) :
    (s.outputBlocked n = true → ((s.dioEmitOut n).dio n).out = false) ∧
    (s.recBit n recOverload = true → ((s.dioEmitOut n).dio n).out = false) ∧
    (s.outputBlocked n = false → s.recBit n recOverload = false → ((s.dioEmitOut n).dio n).out =
      if (s.swGet (hSwidx e)).toNat % 4 = qBad then
        if s.fget (DIO_CH_CFG_BADQ_SEL n) = 2 then true
        else if s.fget (DIO_CH_CFG_BADQ_SEL n) = 1 then s.dioHold n 7 else false
      else (imgGet s.img (b / 8)).getLsbD (b % 8)) := by
  rw [dioEmitOut_out hgang hshared, dioBase_run hrun hentry htko hshared, State.outputBlocked]
  refine ⟨fun h => ?_, fun h => ?_, fun h hload => ?_⟩
  · rcases Bool.or_eq_true_iff.mp h with h | h
    · simp [h]
    · have hpin : s.supply.resetN.isNone = false := Option.isNone_eq_false_iff.mpr h
      rw [hpin, Bool.and_false]
  · simp [h]
  · obtain ⟨hgroup, hpin⟩ := Bool.or_eq_false_iff.mp h
    simp [hgroup, hload, Option.isSome_eq_false_iff.mp hpin]

/-- Settles O28: the emit only runs operations on channels and ports, and marks itself done; and the rows of a digital output. -/
theorem emitAndOutputs : Obligations.EmitAndOutputs := by
  unfold Obligations.EmitAndOutputs
  refine ⟨fun s k hquiet hrun hstarted hdeadline hemit htime hfirst => ?_, fun s n e b hn hquiet hrun hentry hshared hgang htko => ?_⟩
  · obtain ⟨⟨hheld, -⟩, -, ⟨-, -, -, -, htko, hdown⟩, -⟩ := hquiet
    obtain ⟨t, hnext, hdone, himg, hstrands⟩ := emit_once hheld htko hdown hrun ⟨hstarted, hdeadline, hemit, htime⟩
    exact ⟨t, hnext, hdone, himg, hstrands, emit_done hdone⟩
  · obtain ⟨-, -, ⟨-, htko, -⟩, -⟩ := hquiet
    obtain ⟨hoff, hload, hrows⟩ := output_rows hrun hentry htko hshared hgang
    intro out blocked bad bit
    have hblocked : blocked ↔ s.outputBlocked n = true := (outputBlocked_iff s n).symm
    refine ⟨fun h => hoff (hblocked.mp h), hload, fun h hov hbad => ?_, fun h hov hbad => ?_⟩
    · exact (hrows (Bool.eq_false_of_not_eq_true (mt hblocked.mpr h)) hov).trans (if_neg hbad)
    · refine ((hrows (Bool.eq_false_of_not_eq_true (mt hblocked.mpr h)) hov).trans (if_pos hbad)).trans ?_
      have hhold : s.dioHold n 7 = if (s.dio n).row = 7 then (s.dio n).hold else (s.dio n).out := by simp [State.dioHold]
      rw [hhold]
      rcases s.fget (DIO_CH_CFG_BADQ_SEL n) with _ | _ | _ | sel <;> rfl

end Sys2Proof.Machine
end
section
/-!
CERTIFICATE. Commit deadlines, overruns and beat timeouts (R55, R56, R59, R99).
-/
namespace Sys2Proof.Machine

set_option Elab.async false

/-! ### What the end of an executing mode leaves of the classes -/

/-- A deadline that has been judged counts as judged still. -/
def KeepsDeadline (s t : State) : Prop := ∀ j, (t.cls j).deadlineDone = (s.cls j).deadlineDone

section
variable {s t u : State}

theorem KeepsDeadline.refl (s : State) : KeepsDeadline s s := fun _ => rfl

/-- An update of parts of the state beside the classes. -/
theorem KeepsDeadline.upd (h : KeepsDeadline s t) (hcls : u.classes = t.classes := by rfl) : KeepsDeadline s u := fun j => by
  rw [State.cls, hcls]
  exact h j

theorem KeepsDeadline.modCls (h : KeepsDeadline s t) {k : Nat} {f : ClassSt → ClassSt}
    (hf : ∀ c, (f c).deadlineDone = c.deadlineDone := by exact fun _ => rfl) : KeepsDeadline s (t.modCls k f) := fun j => by
  by_cases hj : j = k
  · rw [hj, cls_modCls_self, hf]
    exact h k
  · rw [cls_modCls_ne _ _ hj]
    exact h j

theorem KeepsDeadline.fput (h : KeepsDeadline s t) {f : Fld} {v : Nat} : KeepsDeadline s (t.fput f v) := h.upd

theorem KeepsDeadline.setFlag (h : KeepsDeadline s t) {f : Fld} {b : Bool} : KeepsDeadline s (t.setFlag f b) := h.upd

theorem KeepsDeadline.satBump (h : KeepsDeadline s t) {f : Fld} {n : Nat} : KeepsDeadline s (t.satBump f n) := h.upd

theorem KeepsDeadline.raise (h : KeepsDeadline s t) {code elem : Nat} {p : List Byte} : KeepsDeadline s (t.raise code elem p) :=
  h.upd (raise_classes _ _ _ _)

theorem KeepsDeadline.setMb (h : KeepsDeadline s t) {p m : Nat} {x : Mb} : KeepsDeadline s (t.setMb p m x) := h.upd

theorem KeepsDeadline.withEdit (h : KeepsDeadline s t) {e : EditSt} : KeepsDeadline s { t with edit := e } := h.upd

theorem KeepsDeadline.withUpd (h : KeepsDeadline s t) {x : Upd} : KeepsDeadline s { t with upd := x } := h.upd

theorem KeepsDeadline.withRed (h : KeepsDeadline s t) {x : Red} : KeepsDeadline s { t with red := x } := h.upd

theorem KeepsDeadline.withHedge (h : KeepsDeadline s t) {x : Hedge} : KeepsDeadline s { t with hedge := x } := h.upd

theorem KeepsDeadline.withCtl (h : KeepsDeadline s t) {x : Control} : KeepsDeadline s { t with ctl := x } := h.upd

theorem KeepsDeadline.withTrace (h : KeepsDeadline s t) {x : Trace} : KeepsDeadline s { t with trace := x } := h.upd

theorem KeepsDeadline.withTx (h : KeepsDeadline s t) {l : List Sent} : KeepsDeadline s { t with tx := l } := h.upd

theorem KeepsDeadline.spoilTrial (h : KeepsDeadline s t) : KeepsDeadline s t.spoilTrial := by
  unfold State.spoilTrial
  split
  · exact h
  · exact h.withUpd

theorem KeepsDeadline.stopTrial (h : KeepsDeadline s t) : KeepsDeadline s t.stopTrial := by
  unfold State.stopTrial
  exact KeepsDeadline.setFlag (each_inv h fun _ h _ => ite_inv h (KeepsDeadline.modCls (each_inv h fun _ h _ => h.upd)))

theorem KeepsDeadline.editAbortFor (h : KeepsDeadline s t) {cause : Nat} : KeepsDeadline s (t.editAbortFor cause) := by
  unfold State.editAbortFor
  split
  · exact h
  · refine ite_inv h ?_
    extract_lets back marked told raised stopped
    have hmarked : KeepsDeadline s marked := KeepsDeadline.fput h.upd
    have htold : KeepsDeadline s told := ite_inv hmarked.withTx hmarked
    have hstopped : KeepsDeadline s stopped := htold.raise.stopTrial
    exact ite_inv hstopped.withEdit.fput hstopped.withEdit.fput

theorem KeepsDeadline.editOnMode (h : KeepsDeadline s t) {old m : Nat} : KeepsDeadline s (t.editOnMode old m) := by
  unfold State.editOnMode
  exact ite_inv h (ite_inv h (ite_inv (ite_inv h h.editAbortFor) (ite_inv h (ite_inv h.stopTrial.fput h.editAbortFor))))

theorem KeepsDeadline.withdrawActivation (h : KeepsDeadline s t) : KeepsDeadline s t.withdrawActivation := by
  unfold State.withdrawActivation
  split
  · exact h
  · exact h.withUpd.setFlag.fput.raise

theorem KeepsDeadline.faultActions (h : KeepsDeadline s t) {cause : Nat} : KeepsDeadline s (t.trialFails cause).hedgeOnFault := by
  have hfails : KeepsDeadline s (t.trialFails cause) := by
    unfold State.trialFails
    split
    · exact h
    · exact h.withUpd
  unfold State.hedgeOnFault
  refine ite_inv ?_ hfails
  unfold State.melFail
  exact KeepsDeadline.withTx (hfails.setFlag.fput.setFlag.fput.setFlag.raise.withHedge)

theorem KeepsDeadline.batonUpdate (h : KeepsDeadline s t) : KeepsDeadline s t.batonUpdate := by
  unfold State.batonUpdate
  extract_lets want had set
  have hset : KeepsDeadline s set := h.setFlag
  refine ite_inv ?_ hset
  unfold State.sharedOff
  refine each_inv (each_inv hset fun v h n => ite_inv ?_ h) fun _ h _ => ite_inv h.upd h
  unfold State.dioOff State.dioApply
  exact ite_inv h h.upd

theorem KeepsDeadline.setMode (h : KeepsDeadline s t) {m cause : Nat} : KeepsDeadline s (t.setMode m cause) := by
  unfold State.setMode
  extract_lets +onlyGivenNames old
  refine ite_inv h ?_
  extract_lets shown flagged raised ctl led noFault edited noActivation noTrial leaves roleless red noRole
  have hraised : KeepsDeadline s raised := h.fput.fput.setFlag.raise
  clear_value raised
  have hled : KeepsDeadline s led := hraised.withCtl
  have hnoFault : KeepsDeadline s noFault := ite_inv hled hled.fput
  have hnoActivation : KeepsDeadline s noActivation := ite_inv hnoFault.editOnMode.withdrawActivation hnoFault.editOnMode
  have hnoTrial : KeepsDeadline s noTrial := ite_inv hnoActivation.faultActions hnoActivation
  have hroleless : KeepsDeadline s roleless := hnoTrial.fput.fput
  have hnoRole : KeepsDeadline s noRole := ite_inv hroleless.withRed hnoTrial
  exact hnoRole.batonUpdate

theorem KeepsDeadline.canStop (h : KeepsDeadline s t) : KeepsDeadline s t.canStop := by
  have hwithdraw : ∀ {v : State} {p m status : Nat}, KeepsDeadline s v → KeepsDeadline s (v.mbWithdraw p m status) := fun hv => by
    unfold State.mbWithdraw
    split
    · exact hv
    · exact hv.setMb.setFlag.fput.setFlag.raise
  unfold State.canStop
  refine each_inv h fun _ h _ => ite_inv (KeepsDeadline.setMb ?_) h
  split
  · exact ite_inv h (hwithdraw h)
  · exact h

theorem KeepsDeadline.stopAll (h : KeepsDeadline s t) : KeepsDeadline s t.stopAll := by
  have hreleased : KeepsDeadline s t.released := by
    unfold State.released
    refine each_inv h fun v hv o => ?_
    split
    · exact each_inv hv.upd fun _ h _ => h.upd
    · exact hv
  unfold State.stopAll
  extract_lets released hedge noBeams stopped waiting idle
  have hstopped : KeepsDeadline s stopped := each_inv (KeepsDeadline.withHedge hreleased) fun _ h _ => h.upd
  have hwaiting : KeepsDeadline s waiting := hstopped.fput
  clear_value waiting
  have hidle : KeepsDeadline s idle := hwaiting.upd
  exact each_inv hidle fun _ h k => h.modCls.fput

theorem KeepsDeadline.cancelJobs (h : KeepsDeadline s t) : KeepsDeadline s t.cancelJobs :=
  each_inv h fun _ h _ => KeepsDeadline.fput h.upd

theorem KeepsDeadline.enterStop (h : KeepsDeadline s t) {cause : Nat} : KeepsDeadline s (t.enterStop cause) := by
  unfold State.enterStop
  exact h.stopAll.cancelJobs.canStop.withCtl.setMode

theorem KeepsDeadline.withdrawChange (h : KeepsDeadline s t) {status : Nat} : KeepsDeadline s (t.withdrawChange status) := by
  unfold State.withdrawChange
  split
  · exact h
  · extract_lets ctl withdrawn forgot
    have hforgot : KeepsDeadline s forgot := by
      unfold forgot State.stopForget
      exact ite_inv h.withCtl.withRed h.withCtl
    exact ite_inv hforgot.setFlag.fput.raise hforgot

theorem KeepsDeadline.traceEnd (h : KeepsDeadline s t) {cause : Nat} : KeepsDeadline s (t.traceEnd cause) := by
  unfold State.traceEnd
  exact ite_inv h.setFlag.setFlag.withTrace h.withTrace

theorem KeepsDeadline.enterSafe (h : KeepsDeadline s t) {code : Nat} : KeepsDeadline s (t.enterSafe code) := by
  have hleft : KeepsDeadline s t.leaveForFault := h.stopAll.cancelJobs.canStop.withdrawChange.traceEnd
  unfold State.enterSafe
  exact ite_inv (ite_inv h.fput h) (ite_inv hleft.withCtl.setMode.fput h)

end

/-! ### The judgement at the deadline (R55, R56, R59) -/

section
variable {s : State} {k : Nat}

theorem KeepsDeadline.showOverruns {t : State} (h : KeepsDeadline s t) : KeepsDeadline s (t.showOverruns k) := by
  unfold State.showOverruns
  extract_lets c l
  exact (h.modCls (f := fun c => { c with ovrs := l })).fput.fput

theorem KeepsDeadline.countG {t : State} (h : KeepsDeadline s t) {ev n : Nat} : KeepsDeadline s (t.countG ev n) :=
  h.upd (congrArg State.classes (PmcOnly.countG t ev n).1 :)

theorem KeepsDeadline.overrun {t : State} (h : KeepsDeadline s t) : KeepsDeadline s (t.overrun k) := by
  unfold State.overrun
  extract_lets spoilt counted c bumped raised overC overW act faulted told
  have hspoilt : KeepsDeadline s spoilt := h.modCls.spoilTrial
  have hcounted : KeepsDeadline s counted := hspoilt.modCls.showOverruns
  have hraised : KeepsDeadline s raised := hcounted.satBump.setFlag.countG.raise
  have htold : KeepsDeadline s told := hraised.setFlag.setFlag.raise
  exact ite_inv hspoilt (ite_inv (ite_inv htold.enterStop htold.enterSafe) hraised)

theorem KeepsDeadline.judgeDeadline {t : State} (h : KeepsDeadline s t) : KeepsDeadline s (t.judgeDeadline k) := by
  unfold State.judgeDeadline
  exact ite_inv h.overrun (ite_inv h.modCls.showOverruns h)

theorem showOverruns_cls (s : State) (k : Nat) :
    ∃ l, l.length ≤ (s.cls k).ovrs.length ∧ (s.showOverruns k).cls k = { s.cls k with ovrs := l } :=
  ⟨_, List.length_filter_le _ _, cls_setCls_self _ _ _⟩

theorem countOverrun_cls (s : State) (k : Nat) : ∃ l, l.length ≤ (s.cls k).ovrs.length + 1 ∧
    ((s.modCls k fun c => { c with consec := c.consec + 1, ovrs := c.cyc :: c.ovrs }).showOverruns k).cls k =
      { s.cls k with consec := (s.cls k).consec + 1, ovrs := l } := by
  obtain ⟨l, hlen, hcls⟩ := showOverruns_cls (s.modCls k fun c => { c with consec := c.consec + 1, ovrs := c.cyc :: c.ovrs }) k
  rw [cls_modCls_self] at hlen hcls
  exact ⟨l, hlen, hcls⟩

/-- Of the registers, CLS_STAT alone shows the overruns. -/
theorem showOverruns_rget (s : State) {k a : Nat} (ha : a ≠ CLS_STAT k) : (s.showOverruns k).rget a = s.rget a :=
  (rget_rset_ne _ _ ha).trans (rget_rset_ne _ _ ha)

theorem clsStat_ne (k : Nat) : SYS_MODE ≠ CLS_STAT k ∧ CLS_EVT k ≠ CLS_STAT k ∧ CLS_OVRLIM k ≠ CLS_STAT k := by
  unfold SYS_MODE CLS_STAT CLS_EVT CLS_OVRLIM
  omega

theorem clsReg_cycleReg {k : Nat} (hk : k < 4) : CycleReg (CLS_OVRLIM k) ∧ CycleReg (CLS_EVT k) ∧ CycleReg SYS_MODE := by
  unfold CycleReg CLS_OVRLIM CLS_EVT SYS_MODE
  omega

theorem clsOvr_ne (k : Nat) : SYS_MODE ≠ CLS_OVRTOT k ∧ SYS_MODE ≠ CLS_EVT k ∧ CLS_OVRLIM k ≠ CLS_OVRTOT k ∧
    CLS_OVRLIM k ≠ CLS_EVT k := by
  unfold SYS_MODE CLS_OVRTOT CLS_EVT CLS_OVRLIM
  omega

theorem showOverruns_img (s : State) (k : Nat) : (s.showOverruns k).img = s.img := rfl

theorem showOverruns_hedge (s : State) (k : Nat) : (s.showOverruns k).hedge = s.hedge := rfl

/-- With no beam of a hedge, the beam of the class decides (R55). -/
theorem missed_iff (hhedge : s.hedge.beams = []) (hexec : (s.cls k).executed = true) :
    s.missed k = true ↔ (s.cls k).beam ≠ .none := by
  have hlate : (tget HedgeBeam.reset s.hedge.beams k).late = false := by
    rw [hhedge]
    rfl
  simp [State.missed, hlate, hexec]

/-- A cycle that met its deadline ends a row of overruns (R59). -/
theorem judgeDeadline_met (hhedge : s.hedge.beams = []) (hexec : (s.cls k).executed = true) (hover : (s.cls k).beam = .none) :
    ∃ l, (s.judgeDeadline k).cls k = { s.cls k with consec := 0, ovrEmit := false, ovrs := l } ∧
      (s.judgeDeadline k).img = s.img ∧ (s.judgeDeadline k).hedge = s.hedge := by
  have hmet : ¬ s.missed k = true := by simp [missed_iff hhedge hexec, hover]
  rw [State.judgeDeadline, if_neg hmet, if_pos hexec]
  obtain ⟨l, -, hcls⟩ := showOverruns_cls (s.modCls k fun c => { c with consec := 0, ovrEmit := false }) k
  refine ⟨l, ?_, showOverruns_img _ k, showOverruns_hedge _ k⟩
  rw [hcls, cls_modCls_self]

theorem spoilTrial_none (htrial : s.upd.trial = none) : s.spoilTrial = s := by
  unfold State.spoilTrial
  rw [htrial]

/-- An overrun in RUN that stays within the limits is counted and raised, and no fault action is taken (R56, R59, R60). -/
theorem overrun_counted (hk : k < 4) (htrial : s.upd.trial = none) (hrun : s.mode = mRun)
    (hconsec : (s.cls k).consec < s.fget (CLS_OVRLIM_K_CONSEC k)) (hwindow : (s.cls k).ovrs.length < s.fget (CLS_OVRLIM_K_WINDOW k)) :
    (∃ l m, (s.overrun k).cls k =
        { s.cls k with skipNext := true, ovrEmit := true, consec := (s.cls k).consec + 1, ovrs := l, latch := m }) ∧
      (s.overrun k).flag (CLS_EVT_OVR k) = true ∧ (s.overrun k).mode = mRun := by
  obtain ⟨hmode, hevt, hlim⟩ := clsStat_ne k
  obtain ⟨hmodeTot, hmodeEvt, hlimTot, hlimEvt⟩ := clsOvr_ne k
  unfold State.overrun
  extract_lets spoilt counted c bumped raised overC overW act faulted told
  have hspoilt : spoilt = s.modCls k (fun c => { c with skipNext := true, ovrEmit := true }) := spoilTrial_none htrial
  obtain ⟨l, hlen, hc⟩ : ∃ l, l.length ≤ (s.cls k).ovrs.length + 1 ∧
      c = { s.cls k with skipNext := true, ovrEmit := true, consec := (s.cls k).consec + 1, ovrs := l } := by
    obtain ⟨l, hlen, hcls⟩ := countOverrun_cls spoilt k
    rw [hspoilt, cls_modCls_self] at hlen hcls
    rw [← hspoilt] at hcls
    exact ⟨l, hlen, hcls⟩
  have hcounted : ∀ a, a ≠ CLS_STAT k → counted.rget a = s.rget a := fun a ha => by
    rw [showOverruns_rget _ ha, modCls_get_rget, hspoilt, modCls_get_rget]
  have hraised : OffCycle CycleReg ((counted.satBump (CLS_OVRTOT_OVRTOT k) 1).setFlag (CLS_EVT_OVR k) true) raised :=
    (OffCycle.refl _ _).countG.raise
  obtain ⟨hlimReg, hevtReg, hmodeReg⟩ := clsReg_cycleReg hk
  have hkept : ∀ a, CycleReg a → a ≠ CLS_STAT k → a ≠ CLS_OVRTOT k → a ≠ CLS_EVT k → raised.rget a = s.rget a :=
    fun a ha hstat htot hevt => by
      rw [hraised.rget ha]
      exact (rget_rset_ne _ _ hevt).trans ((rget_rset_ne _ _ htot).trans (hcounted a hstat))
  have hlimits : raised.rget (CLS_OVRLIM k) = s.rget (CLS_OVRLIM k) := hkept _ hlimReg hlim hlimTot hlimEvt
  have hoverC : overC = false := by
    have hle : ¬ raised.fget (CLS_OVRLIM_K_CONSEC k) < c.consec := by
      rw [fget_congr hlimits, hc]
      exact Nat.not_lt.mpr hconsec
    exact decide_eq_false hle
  have hoverW : overW = false := by
    have hle : ¬ raised.fget (CLS_OVRLIM_K_WINDOW k) < c.ovrs.length := by
      rw [fget_congr hlimits, hc]
      exact Nat.not_lt.mpr (hlen.trans hwindow)
    exact decide_eq_false hle
  have hmode' : spoilt.mode = mRun := by
    rw [hspoilt, modCls_get_mode]
    exact hrun
  rw [if_neg (fun h => h.2.1 hmode'), hoverC, hoverW, Bool.or_false, if_neg Bool.false_ne_true]
  obtain ⟨m, hlatch⟩ := hraised.cls k
  have hcls : ∀ v : State, ((v.satBump (CLS_OVRTOT_OVRTOT k) 1).setFlag (CLS_EVT_OVR k) true).cls k = v.cls k := fun _ => rfl
  rw [hcls, show counted.cls k = c from rfl, hc] at hlatch
  refine ⟨⟨l, m, hlatch⟩, ?_, ?_⟩
  · exact (hraised.flag (f := CLS_EVT_OVR k) hevtReg).trans (flag_setFlag_self _ _ _ (show 0 + 1 ≤ 32 by decide) Nat.one_pos)
  · have hmodeKept : raised.mode = s.mode := fget_congr (hkept SYS_MODE hmodeReg hmode hmodeTot hmodeEvt)
    exact hmodeKept.trans hrun

end

/-! ### The deadline (R55, R56) -/

section
variable {s : State} {k : Nat}

/-- The values of the emit of class `k` are fixed between `u` and `t`. -/
def FixesOutputs (k : Nat) (u t : State) : Prop :=
  (∃ l, t.cls k = { u.cls k with outImg := u.released.img, outSw := u.released.sw, latch := l }) ∧
    t.mode = u.mode ∧ t.flag (CLS_EVT_OVR k) = u.flag (CLS_EVT_OVR k)

theorem FixesOutputs.offCycle {u t v : State} (hk : k < 4) (h : FixesOutputs k u t) (g : OffCycle CycleReg t v) :
    FixesOutputs k u v := by
  obtain ⟨⟨l, hcls⟩, hmode, hevt⟩ := h
  obtain ⟨-, hevtReg, hmodeReg⟩ := clsReg_cycleReg hk
  obtain ⟨m, hlatch⟩ := g.cls k
  refine ⟨⟨m, ?_⟩, (g.mode hmodeReg).trans hmode, (g.flag (f := CLS_EVT_OVR k) hevtReg).trans hevt⟩
  rw [hlatch, hcls]

theorem FixesOutputs.showPhase {u t : State} (h : FixesOutputs k u t) {v : Nat} :
    FixesOutputs k u (t.fput (CLS_STAT_PHASE_NOW k) v) := by
  obtain ⟨hcls, hmode, hevt⟩ := h
  obtain ⟨hmodeNe, hevtNe, -⟩ := clsStat_ne k
  exact ⟨hcls, (fget_fput_ne _ _ hmodeNe).trans hmode, (flag_congr (rget_fput_ne _ _ hevtNe)).trans hevt⟩

theorem released_none (hold : s.hedge.old = []) : s.released = s := by
  rw [State.released, hold]
  rfl

/-- The commit deadline of class `k` is due. -/
abbrev DeadlineDue (s : State) (k : Nat) : Prop :=
  (s.cls k).started = true ∧ (s.cls k).deadlineDone = false ∧ (s.cls k).t0.toNat + s.dout k ≤ s.tbNat + eprep

theorem live_of_stop (hheld : s.ctl.held = false) (hstop : s.mode = mStop) : s.live = true := by
  rw [State.live, hheld, hstop]
  rfl

/-- At its deadline a cycle is judged, and the values of its emit are fixed (R55, R56). -/
theorem commitDeadline_judges {k : Fin 4} (hheld : s.ctl.held = false) (hlive : s.live = true) (hdue : DeadlineDue s k) :
    ∃ t, exec (.commitDeadline k) s = .next t ∧
      FixesOutputs k ((s.modCls k (fun c => { c with deadlineDone := true })).judgeDeadline k) t := by
  obtain ⟨hstarted, hdone, htime⟩ := hdue
  have hguard : (s.ctl.held || !s.live || !(s.cls k).started || (s.cls k).deadlineDone ||
      decide (s.tbNat + eprep < (s.cls k).t0.toNat + s.dout k)) = false := by
    simp [hheld, hlive, hstarted, hdone, htime]
  show ∃ t, execCommitDeadline k s = .next t ∧ _
  unfold execCommitDeadline
  rw [if_neg (by rw [hguard]; decide)]
  extract_lets miss judged r fixed piped
  change ∃ t, _ = Host.Outcome.next t ∧ FixesOutputs k judged t
  clear_value judged
  have hfixed : FixesOutputs k judged fixed := ⟨⟨(judged.cls k).latch, cls_modCls_self _ _ _⟩, rfl, rfl⟩
  have hpiped : FixesOutputs k judged piped :=
    (hfixed.offCycle k.isLt (onOutputs_offCycle _ _ fun v => (OffCycle.refl _ v).outputPipes)).showPhase
  split
  · refine ⟨_, rfl, ite_inv ?_ hpiped⟩
    exact hpiped.offCycle k.isLt (onOutputs_offCycle _ _ fun v => (OffCycle.refl _ v).buildFrames)
  · exact ⟨_, rfl, hfixed⟩

end

theorem commitDeadline_meets {s : State} {k : Fin 4} (hheld : s.ctl.held = false) (htrial : s.upd.trial = none)
    (hbeams : s.hedge.beams = []) (hold : s.hedge.old = []) (hmodes : s.mode = mStop ∨ s.mode = mRun) (hdue : DeadlineDue s k) :
    ∃ t, exec (.commitDeadline k) s = .next t ∧ (t.cls k).deadlineDone = true ∧
      (s.mode = mRun → (s.cls k).executed = true → (s.cls k).beam = .none →
        (t.cls k).consec = 0 ∧ (t.cls k).ovrEmit = false ∧ (t.cls k).skipNext = (s.cls k).skipNext ∧ (t.cls k).outImg = s.img) ∧
      (s.mode = mRun → (s.cls k).executed = true → (s.cls k).beam ≠ .none →
        (s.cls k).consec < s.fget (CLS_OVRLIM_K_CONSEC k) → (s.cls k).ovrs.length < s.fget (CLS_OVRLIM_K_WINDOW k) →
        (t.cls k).consec = (s.cls k).consec + 1 ∧ (t.cls k).ovrEmit = true ∧ (t.cls k).skipNext = true ∧
        t.flag (CLS_EVT_OVR k) = true ∧ t.mode = mRun) := by
  have hlive : s.live = true := hmodes.elim (live_of_stop hheld) (live_of_run hheld)
  obtain ⟨t, hexec, ⟨l, hcls⟩, hmode, hevt⟩ := commitDeadline_judges hheld hlive hdue
  generalize hu : s.modCls k.val (fun c => { c with deadlineDone := true }) = u at hcls hmode hevt
  have hcu : u.cls k = { s.cls k with deadlineDone := true } := by rw [← hu, cls_modCls_self]
  have hubeams : u.hedge.beams = [] := by rw [← hu, modCls_hedge, hbeams]
  have hureg : ∀ f : Fld, u.fget f = s.fget f := fun f => by rw [← hu, modCls_get_fget]
  have huexec : (s.cls k).executed = true → (u.cls k).executed = true := fun h => by rw [hcu, h]
  refine ⟨t, hexec, ?_, fun hrun hexecuted hover => ?_, fun hrun hexecuted hout hconsec hwindow => ?_⟩
  · have hkept := (KeepsDeadline.refl u).judgeDeadline (k := k) k
    rw [hcls, hkept, hcu]
  · have hoveru : (u.cls k).beam = .none := by rw [hcu, hover]
    obtain ⟨m, hjudged, himg, hhedge⟩ := judgeDeadline_met hubeams (huexec hexecuted) hoveru
    have hreleased : (u.judgeDeadline k).released.img = s.img := by
      have hold' : (u.judgeDeadline k).hedge.old = [] := by rw [hhedge, ← hu, modCls_hedge, hold]
      rw [released_none hold', himg, ← hu, modCls_img]
    rw [hcls, hjudged, hcu, hreleased]
    exact ⟨rfl, rfl, rfl, rfl⟩
  · have hmissed : u.missed k = true := (missed_iff hubeams (huexec hexecuted)).mpr (by rw [hcu]; exact hout)
    have htrialu : u.upd.trial = none := by rw [← hu, modCls_upd, htrial]
    have hrunu : u.mode = mRun := (hureg _).trans hrun
    obtain ⟨⟨l, m, hjudged⟩, hevt', hmode'⟩ := overrun_counted k.isLt htrialu hrunu (by rw [hcu, hureg]; exact hconsec)
      (by rw [hcu, hureg]; exact hwindow)
    rw [State.judgeDeadline, if_pos hmissed] at hcls hmode hevt
    refine ⟨?_, ?_, ?_, hevt.trans hevt', hmode.trans hmode'⟩ <;> rw [hcls, hjudged]
    rw [hcu]

end Sys2Proof.Machine
end
section
/-!
CERTIFICATE. The beat timeout (R99), and with it the statement about deadlines and timeouts.
-/
namespace Sys2Proof.Machine

set_option Elab.async false

/-! ### TIMEOUT of the class, and what forces and halts leave of it -/

section
variable {s : State}

theorem beatFld_ne_beatEvt {k : Nat} (hk : k < 4) (frc : Bool) (b : Nat) : ¬ (beatFld frc k b).addr = BEAT_EVT :=
  fun h => beatFld_ne_others hk frc b BEAT_EVT (by simp) h.symm

theorem forceBeats_timeout {st cause : Nat} (hk : (s.cfg st).cls < 4) :
    (s.forceBeats st cause).fget BEAT_EVT_TIMEOUT = s.fget BEAT_EVT_TIMEOUT := by
  unfold State.forceBeats
  extract_lets k pend view forced shown
  have hforced : WeaveStep (· = BEAT_EVT) s forced := each_inv (WeaveStep.refl _ s) fun v hv b =>
    (hv.produceBeat (fun b => beatFld_ne_beatEvt hk false b) (by decide)).setBit (beatFld_ne_beatEvt hk true b)
  have hshown : shown.fget BEAT_EVT_TIMEOUT = forced.fget BEAT_EVT_TIMEOUT :=
    ite_inv (P := fun v : State => v.fget BEAT_EVT_TIMEOUT = forced.fget BEAT_EVT_TIMEOUT)
      (fget_fput_apart _ _ _ _ (by decide) rfl (by decide)) (fget_fput_apart _ _ _ _ (by decide) rfl (by decide))
  refine ite_inv (P := fun v : State => v.fget BEAT_EVT_TIMEOUT = s.fget BEAT_EVT_TIMEOUT) rfl ?_
  rw [((WeaveStep.refl (· = BEAT_EVT) shown).raise).fget rfl, hshown]
  exact hforced.fget rfl

theorem haltStrand_timeout {st cause : Nat} (hk : (s.cfg st).cls < 4) :
    (s.haltStrand st cause).fget BEAT_EVT_TIMEOUT = s.fget BEAT_EVT_TIMEOUT := by
  obtain ⟨drest, -, -, dregs⟩ := dropStall_ownStrand (K := (· = BEAT_EVT)) (s := s) (st := st) (by decide)
  unfold State.haltStrand
  extract_lets dropped forced halted spoilt
  have hcfg : dropped.cfg st = s.cfg st := (congrArg (State.cfg · st) drest :)
  have hforced : forced.fget BEAT_EVT_TIMEOUT = s.fget BEAT_EVT_TIMEOUT := by
    have hbad : WeaveStep (· = BEAT_EVT) (dropped.forceBeats st cause) forced := (WeaveStep.refl _ _).ownedBad
    rw [hbad.fget rfl, forceBeats_timeout (hcfg ▸ hk), fget_congr (dregs BEAT_EVT rfl)]
  have hspoilt : WeaveStep (· = BEAT_EVT) halted spoilt := (WeaveStep.refl _ halted).spoilTrial
  obtain ⟨c, hlast, -⟩ := checkLastEndc_frame spoilt (spoilt.cfg st).cls
  rw [hlast]
  exact (hspoilt.fget rfl).trans hforced

end

/-! ### Strands that trap in one clock -/

/-- Every strand of the list is one of the class `k`. -/
def OfClass (s : State) (k : Nat) (strands : List Nat) : Prop := ∀ st ∈ strands, st < 16 ∧ (s.cfg st).cls = k

section
variable {strands : List Nat} {code : Nat} (s : State) (hbelow : ∀ st ∈ strands, st < 16)
include hbelow

theorem recordAll_weaveStep : WeaveStep (· = BEAT_EVT) s (each strands s fun s st => s.recordTrap st code) :=
  each_mem_inv (WeaveStep.refl _ s) fun v hv st hst => hv.trans ((recordTrap_weaveStep v (hbelow st hst)).mono fun a ha => by
    have := hbelow st hst
    subst ha
    unfold BesideTrap CycleReg BEAT_EVT TRAP_SUM TRAP_INFO TRAP_PC
    simp
    omega)

theorem recordAll_code {st : Nat} (hst : st ∈ strands) (hcode : code < 64) :
    (each strands s fun s st => s.recordTrap st code).fget (TRAP_INFO_CODE st) = code := by
  have hlt := hbelow st hst
  refine each_mem_establishes (P := fun v : State => v.fget (TRAP_INFO_CODE st) = code) s hst
    (fun v => recordTrap_code v hlt hcode) fun v hv j hj => ?_
  by_cases hne : j = st
  · rw [hne]
    exact recordTrap_code v hlt hcode
  · have hbeside : BesideTrap j (TRAP_INFO st) := by
      unfold BesideTrap CycleReg TRAP_SUM TRAP_INFO TRAP_PC
      simp
      omega
    exact ((recordTrap_weaveStep v (hbelow j hj)).fget (f := TRAP_INFO_CODE st) hbeside).trans hv

end

/-- What halts of strands of class `k` leave alone. -/
def BesideHalts (k : Nat) (s t : State) : Prop :=
  (∀ j, t.cfg j = s.cfg j) ∧ t.fget BEAT_EVT_TIMEOUT = s.fget BEAT_EVT_TIMEOUT ∧ (t.cls k).beatToDone = (s.cls k).beatToDone ∧
    ∀ a, BelowBeats a → t.rget a = s.rget a

theorem haltAll_besideHalts {strands : List Nat} {s : State} {k : Nat} (hk : k < 4) (hof : OfClass s k strands) :
    BesideHalts k s (each strands s fun s st => s.haltStrand st 0) := by
  refine each_mem_inv ⟨fun _ => rfl, rfl, rfl, fun _ _ => rfl⟩ fun v ⟨hcfg, htimeout, hdone, hregs⟩ st hst => ?_
  have hcls : (v.cfg st).cls = k := (congrArg StrandCfg.cls (hcfg st)).trans (hof st hst).2
  obtain ⟨hrest, -, -, -, hbeats, hlow⟩ := haltStrand_halts (K := BelowBeats) v st 0 fun frc b => beatFld_not_belowBeats frc _ b
  obtain ⟨beam, hbeam⟩ := hbeats k
  exact ⟨fun j => (congrArg (State.cfg · j) hrest :).trans (hcfg j), (haltStrand_timeout (hcls ▸ hk)).trans htimeout,
    (congrArg ClassSt.beatToDone hbeam :).trans hdone, fun a ha => (hlow a ha).trans (hregs a ha)⟩

theorem haltAll_halted {strands : List Nat} (s : State) {st : Nat} (hst : st ∈ strands) :
    ((each strands s fun s st => s.haltStrand st 0).strand st).run = .halted := by
  have hhalts : ∀ (v : State) (j : Nat), Halts (fun _ => False) v (v.haltStrand j 0) j := fun v j =>
    haltStrand_halts v j 0 fun _ _ h => h
  refine each_mem_establishes (P := fun v : State => (v.strand st).run = .halted) s hst (fun v => (hhalts v st).2.1) fun v hv j _ => ?_
  obtain ⟨-, hrun, -, hothers, -⟩ := hhalts v j
  by_cases hne : st = j
  · rw [hne]
    exact hrun
  · exact (hothers st hne).run.trans hv

/-- Under HALT_STRAND strands that trap in one clock are recorded and halt (R163, R164). -/
theorem trapAll_halts {s : State} {k code : Nat} {strands : List Nat} (hk : k < 4) (hof : OfClass s k strands) (hcode : code < 64)
    (hhandling : s.trapHandling k code = 0) : ((s.trapAll k code strands).cls k).beatToDone = (s.cls k).beatToDone ∧
      (s.trapAll k code strands).fget BEAT_EVT_TIMEOUT = s.fget BEAT_EVT_TIMEOUT ∧
      ∀ st ∈ strands, ((s.trapAll k code strands).strand st).run = .halted ∧
        (s.trapAll k code strands).fget (TRAP_INFO_CODE st) = code := by
  unfold State.trapAll
  extract_lets recorded
  rw [hhandling, if_neg Nat.zero_ne_one]
  split
  · next hnone => exact ⟨rfl, rfl, fun st hst => by rw [List.isEmpty_iff.mp hnone] at hst; exact absurd hst List.not_mem_nil⟩
  · have hbelow : ∀ st ∈ strands, st < 16 := fun st hst => (hof st hst).1
    have hrecorded : WeaveStep (· = BEAT_EVT) s recorded := recordAll_weaveStep s hbelow
    have hof' : OfClass recorded k strands := fun st hst => ⟨hbelow st hst, (congrArg _ (hrecorded.cfg st)).trans (hof st hst).2⟩
    obtain ⟨-, htimeout, hdone, hlow⟩ := haltAll_besideHalts hk hof'
    refine ⟨hdone.trans (hrecorded.beatToDone k), htimeout.trans (hrecorded.fget rfl), fun st hst => ⟨haltAll_halted recorded hst, ?_⟩⟩
    have hinfo : BelowBeats (TRAP_INFO st) := by
      have := hbelow st hst
      unfold BelowBeats TRAP_INFO
      omega
    exact (fget_congr (hlow _ hinfo)).trans (recordAll_code s hbelow hst hcode)

/-! ### The beat timeout (R99) -/

section
variable {s : State} {k st b : Nat}

theorem mem_stalledOn (hst : st < 16) (hcls : (s.cfg st).cls = k)
    (hstall : ∃ w, (s.strand st).stall = some w ∧ w.on = .beat b) : st ∈ s.stalledOn k b := by
  obtain ⟨w, hw, hon⟩ := hstall
  refine List.mem_filter.mpr ⟨mem_strandsOf.mpr ⟨hst, hcls⟩, ?_⟩
  rw [hw]
  exact beq_iff_eq.mpr hon

/-- The strands of class `k` on which a timeout falls are its own. -/
theorem mem_strandsOf_of_timeout {beats : List Nat}
    (h : (beats.any (fun b => (s.stalledOn k b).contains st) || (s.storeWaits k).contains st) = true) : st ∈ s.strandsOf k := by
  rcases Bool.or_eq_true _ _ |>.mp h with hbeat | hstore
  · obtain ⟨b, -, hb⟩ := List.any_eq_true.mp hbeat
    exact (List.mem_filter.mp (List.contains_iff_mem.mp hb)).1
  · exact (List.mem_filter.mp (List.contains_iff_mem.mp hstore)).1

/-- A beat of the program that times out shows in TIMEOUT. -/
theorem timeout_shows (s : State) (hk : k < 4) {code elem : Nat} {p : List Byte} {t : State} (ht : t = if s.onTrial k
      then s.satBump EDT_REP_ERR_BEATTO 1
      else ((s.satBump BEAT_TOCNT_TOCNT 1).setBit BEAT_EVT_TIMEOUT k true).raise code elem p)
    (hlive : (t.cls k).shadow = .none) : bitAt (t.fget BEAT_EVT_TIMEOUT) k = true := by
  by_cases htrial : s.onTrial k = true
  · rw [if_pos htrial] at ht
    have hshadow : (s.cls k).shadow = .none := by
      rw [ht] at hlive
      exact hlive
    rw [State.onTrial, hshadow] at htrial
    exact absurd htrial (by decide)
  · rw [if_neg htrial] at ht
    have hraised : WeaveStep CycleReg ((s.satBump BEAT_TOCNT_TOCNT 1).setBit BEAT_EVT_TIMEOUT k true) t := by
      rw [ht]
      exact (WeaveStep.refl _ _).raise
    rw [hraised.fget (by decide)]
    exact bitAt_setBit_self _ true (by decide) hk

theorem beatTimeout_halts (hk : k < 4) (hlive : (s.cls k).shadow = .none) (hpol : bitAt (s.fget TRAP_POL_POL) k = false) :
    ((s.beatTimeout k).cls k).beatToDone = (s.cls k).beatToDone ∧
      ∀ st b, st < 16 → b < 64 → (s.cfg st).cls = k → (∃ w, (s.strand st).stall = some w ∧ w.on = .beat b) →
        ((s.beatTimeout k).strand st).run = .halted ∧ (s.beatTimeout k).fget (TRAP_INFO_CODE st) = 0x0E ∧
          bitAt ((s.beatTimeout k).fget BEAT_EVT_TIMEOUT) k = true := by
  unfold State.beatTimeout
  extract_lets beats strands told
  have htold : WeaveStep BelowBeats s told := each_inv (WeaveStep.refl _ s) fun v hv b => ite_inv hv.satBump hv.satBump.setBit.raise
  have hlive' : (told.cls k).shadow = .none := (htold.shadow k).trans hlive
  have hhandling : told.trapHandling k trBeatTo = 0 := by
    rw [State.trapHandling, if_neg (by decide), if_neg (not_not_intro hlive'), htold.fget (by decide), hpol]
    rfl
  have hof : OfClass told k strands := fun st hst => by
    obtain ⟨hlt, hcls⟩ := mem_strandsOf.mp (mem_strandsOf_of_timeout (List.mem_filter.mp hst).2)
    exact ⟨hlt, (congrArg _ (htold.cfg st)).trans hcls⟩
  obtain ⟨hdone, htimeout, htrapped⟩ := trapAll_halts hk hof (by decide) hhandling
  refine ⟨hdone.trans (htold.beatToDone k), fun st b hst hb hcls hstall => ?_⟩
  have hstalled := mem_stalledOn hst hcls hstall
  have hbeat : b ∈ beats := List.mem_filter.mpr ⟨List.mem_range.mpr hb, by
    rw [List.isEmpty_eq_false_iff_exists_mem.mpr ⟨st, hstalled⟩]
    rfl⟩
  have hmem : st ∈ strands := List.mem_filter.mpr ⟨List.mem_range.mpr hst,
    (Bool.or_eq_true _ _).mpr (.inl (List.any_eq_true.mpr ⟨b, hbeat, List.contains_iff_mem.mpr hstalled⟩))⟩
  obtain ⟨hrun, hcode⟩ := htrapped st hmem
  refine ⟨hrun, hcode, ?_⟩
  rw [htimeout]
  refine each_mem_establishes (P := fun v : State => (v.cls k).shadow = .none → bitAt (v.fget BEAT_EVT_TIMEOUT) k = true) s hbeat
    (fun v => timeout_shows v hk rfl) (fun v _ c _ => timeout_shows v hk rfl) hlive'

end

theorem beatTimeout_due {s : State} {k : Fin 4} (hheld : s.ctl.held = false) (htrial : s.onTrial k = false)
    (hbeam : (s.cls k).beam = .weaving) (hdone : (s.cls k).beatToDone = false)
    (htime : s.beamT0 k + s.dshed k + s.fget (BEAT_TO_TO_PCT k) * s.period k / 100 ≤ s.tbNat) :
    exec (.beatTimeout k) s = .next ((s.modCls k (fun c => { c with beatToDone := true })).beatTimeout k) := by
  show execBeatTimeout k s = _
  simp [execBeatTimeout, hheld, htrial, hbeam, hdone, htime]

/-- Settles O27: the deadline judges the beam and fixes the values of the emit, and the beat timeout halts the strands that wait. -/
theorem deadlinesAndTimeouts : Obligations.DeadlinesAndTimeouts := by
  unfold Obligations.DeadlinesAndTimeouts
  refine ⟨fun s k hquiet hmodes hstarted hdone htime => ?_, fun s k hheld htrial hbeam hdone htime hpol => ?_⟩
  · obtain ⟨⟨hheld, -, -, -⟩, ⟨-, -, htrial, -⟩, -, ⟨-, hold, hbeams, -⟩, -, -⟩ := hquiet
    exact commitDeadline_meets hheld htrial hbeams hold hmodes ⟨hstarted, hdone, htime⟩
  · have hlive : ((s.modCls k (fun c => { c with beatToDone := true })).cls k).shadow = .none := by
      rw [cls_modCls_self]
      exact shadow_of_onTrial htrial
    obtain ⟨hset, hhalts⟩ := beatTimeout_halts k.isLt hlive hpol
    rw [cls_modCls_self] at hset
    exact ⟨_, beatTimeout_due hheld htrial hbeam hdone htime, hset, hhalts⟩

end Sys2Proof.Machine
end
section
/-!
CERTIFICATE. The start of a beam and what it commits (R50, R51, R102, R103, R320).
-/
namespace Sys2Proof.Machine

set_option Elab.async false

/-! ### The start of a beam (R50, R51, R320) -/

section
variable {s : State} {k : Fin 4} {endc : Nat}

theorem hbeam_commitAt (s : State) (j : Nat) : (tget HedgeBeam.reset s.hedge.beams j).commitAt = (s.hbeam j).commitAt := rfl

/-- No beam of another class is before that of class `k`. -/
theorem beamBlocked_free (hfree : ∀ j, j < 4 → j ≠ k.val →
      (s.cls j).beam = .none ∨ (s.cls j).beam = .weaving ∨ (k.val < j ∧ ∃ e, (s.cls j).beam = .ready e)) : s.beamBlocked k = false := by
  refine List.any_eq_false.mpr fun j hj => ?_
  by_cases hjk : j = k.val
  · simp [hjk]
  · rcases hfree j (List.mem_range.mp hj) hjk with h | h | ⟨hlt, e, h⟩ <;> rw [h]
    · simp
    · simp
    · simp [Nat.not_lt.mpr (Nat.le_of_lt hlt)]

theorem beamBlocked_running {j b c : Nat} (hj : j < 4) (hjk : j ≠ k.val) (hbeam : (s.cls j).beam = .running b c)
    (hcommit : (s.hbeam j).commitAt = none) : s.beamBlocked k = true := by
  refine List.any_eq_true.mpr ⟨j, List.mem_range.mpr hj, ?_⟩
  rw [hbeam, hbeam_commitAt, hcommit]
  simp [hjk]

theorem beamStart_runs (hbeam : (s.cls k).beam = .ready endc) (hheld : s.ctl.held = false) (hpfail : s.ctl.pfail = false)
    (hcopy : s.copying k = false) (hfree : s.beamBlocked k = false) :
    ∃ t, exec (.beamStart k) s = .next t ∧ (t.cls k).beam = .running endc s.fab ∧ t.img = s.img ∧ t.strands = s.strands ∧
      t.fget (CLS_STAT_PHASE_NOW k) = 3 := by
  show ∃ t, execBeamStart k s = .next t ∧ _
  unfold execBeamStart
  rw [hbeam]
  dsimp -zeta only
  rw [if_neg (by simp [hheld, hpfail, hcopy, hfree])]
  extract_lets running ret
  have hcls : (running.cls k).beam = .running endc s.fab :=
    (congrArg ClassSt.beam (cls_modCls_self s k.val fun c => { c with beam := .running endc s.fab }) :)
  have hphase : running.fget (CLS_STAT_PHASE_NOW k) = 3 := fget_fput_self _ _ _ (show 0 + 3 ≤ 32 by decide)
  refine ⟨_, rfl, ?_⟩
  split
  · exact ⟨hcls, rfl, rfl, hphase⟩
  · exact ⟨hcls, rfl, rfl, hphase⟩

theorem beamStart_waits (hbeam : (s.cls k).beam = .ready endc) (hblocked : s.beamBlocked k = true) : exec (.beamStart k) s = .next s := by
  show execBeamStart k s = _
  unfold execBeamStart
  rw [hbeam]
  exact if_pos (by simp [hblocked])

end

/-! ### What a beam leaves alone -/

/-- The state `t` with the status words, deliveries, memories and records of beams as in `s`. -/
def State.backBeam (s t : State) : State :=
  { s.backOffCycle t with sw := s.sw, edit := { t.edit with slack := s.edit.slack, first := s.edit.first } }

/-- The registers that decide how a beam goes on. -/
abbrev BeamReg (a : Nat) : Prop := a ∈ [SYS_MODE, MEL_STAT, OBS_RT_STAT]

/-- From `s` to `t` nothing has changed but status words, deliveries, memories, records, classes beside their beams, and registers. -/
def BeamStep (s t : State) : Prop :=
  s.backBeam t = s ∧ (∀ j, (t.cls j).beam = (s.cls j).beam) ∧ ∀ a, BeamReg a → t.rget a = s.rget a

section
variable {s t u : State}

theorem BeamStep.refl (s : State) : BeamStep s s := ⟨rfl, fun _ => rfl, fun _ _ => rfl⟩

/-- An update of parts of the state that decide nothing of the beam. -/
theorem BeamStep.upd (h : BeamStep s t) (hrest : s.backBeam u = s.backBeam t := by rfl) (hcls : u.classes = t.classes := by rfl)
    (hregs : u.regs = t.regs := by rfl) : BeamStep s u := by
  refine ⟨hrest.trans h.1, fun j => ?_, fun a ha => ?_⟩
  · rw [State.cls, hcls]
    exact h.2.1 j
  · rw [State.rget, hregs]
    exact h.2.2 a ha

theorem BeamStep.offCycle (h : BeamStep s t) (g : OffCycle BeamReg t u) : BeamStep s u := by
  refine ⟨?_, fun j => ?_, fun a ha => (g.rget ha).trans (h.2.2 a ha)⟩
  · calc s.backBeam u = s.backBeam (t.backOffCycle u) := rfl
      _ = s := by rw [g.1, h.1]
  · obtain ⟨l, hcls⟩ := g.cls j
    rw [hcls]
    exact h.2.1 j

theorem BeamStep.flag (h : BeamStep s t) {f : Fld} (hf : BeamReg f.addr) : t.flag f = s.flag f := flag_congr (h.2.2 _ hf)

theorem BeamStep.mode (h : BeamStep s t) : t.mode = s.mode := fget_congr (h.2.2 SYS_MODE (by decide))

theorem BeamStep.img (h : BeamStep s t) : t.img = s.img := (congrArg State.img h.1 :)

theorem BeamStep.strand (h : BeamStep s t) (j : Nat) : t.strand j = s.strand j := (congrArg (State.strand · j) h.1 :)

theorem BeamStep.strandsOf (h : BeamStep s t) (k : Nat) : t.strandsOf k = s.strandsOf k := (congrArg (State.strandsOf · k) h.1 :)

theorem BeamStep.pkg (h : BeamStep s t) : t.edit.pkg = s.edit.pkg := (congrArg (fun v : State => v.edit.pkg) h.1 :)

theorem BeamStep.updates (h : BeamStep s t) : t.upd = s.upd := (congrArg State.upd h.1 :)

theorem BeamStep.partner (h : BeamStep s t) : t.red.partner = s.red.partner := (congrArg (fun v : State => v.red.partner) h.1 :)

theorem BeamStep.forces (h : BeamStep s t) : t.forces = s.forces := (congrArg State.forces h.1 :)

theorem BeamStep.rset (h : BeamStep s t) {b : Nat} {v : Word} (hb : ¬ BeamReg b := by decide) : BeamStep s (t.rset b v) :=
  h.offCycle ((OffCycle.refl _ t).rset hb)

theorem BeamStep.fput (h : BeamStep s t) {f : Fld} {v : Nat} (hf : ¬ BeamReg f.addr := by decide) : BeamStep s (t.fput f v) := h.rset hf

theorem BeamStep.setFlag (h : BeamStep s t) {f : Fld} {b : Bool} (hf : ¬ BeamReg f.addr := by decide) : BeamStep s (t.setFlag f b) :=
  h.rset hf

theorem BeamStep.raise (h : BeamStep s t) {code elem : Nat} {p : List Byte} : BeamStep s (t.raise code elem p) :=
  h.offCycle ((OffCycle.refl _ t).raise)

theorem BeamStep.obsPush (h : BeamStep s t) {type src : Nat} {l : List (BitVec 64)} : BeamStep s (t.obsPush type src l) :=
  h.offCycle ((OffCycle.refl _ t).obsPush)

theorem not_beamReg_of_pmcCounter {a : Nat} (h : pmcCounter a) : ¬ BeamReg a := by
  unfold pmcCounter at h
  unfold BeamReg SYS_MODE MEL_STAT OBS_RT_STAT
  simp
  omega

theorem BeamStep.countG (h : BeamStep s t) {ev n : Nat} : BeamStep s (t.countG ev n) :=
  h.offCycle ((OffCycle.refl _ t).pmc (PmcOnly.countG t ev n) fun _ => not_beamReg_of_pmcCounter)

theorem BeamStep.withSealOpen (h : BeamStep s t) {b : Bool} : BeamStep s { t with keep := { t.keep with sealOpen := b } } := h.upd

/-! ### Deliveries (R102, R197, R380, R449) -/

theorem BeamStep.commitStatus (h : BeamStep s t) {k : Nat} : BeamStep s (t.commitStatus k) := each_inv h fun _ h _ => h.upd

theorem BeamStep.hardPut (h : BeamStep s t) {key : Nat} {l : List Byte} : BeamStep s (t.hardPut key l) := by
  unfold State.hardPut
  extract_lets stop whole
  have hwhole : BeamStep s whole := h.upd
  exact each_inv hwhole fun _ h _ => ite_inv h h.upd

theorem se_jobstat_ne {k : Nat} (hk : k < 8) : ¬ BeamReg (SE_JOBSTAT k) := by
  unfold BeamReg SE_JOBSTAT SYS_MODE MEL_STAT OBS_RT_STAT
  simp
  omega

theorem BeamStep.deliverJob (h : BeamStep s t) {k : Nat} {j : Job} {start : Nat} (hk : k < 8) : BeamStep s (t.deliverJob k j start) := by
  unfold State.deliverJob
  extract_lets code status counted told c
  have hcounted : BeamStep s counted := h.hardPut.fput (se_jobstat_ne hk)
  have htold : BeamStep s told := ite_inv hcounted.obsPush hcounted
  refine ite_inv ?_ (ite_inv htold.setFlag.raise htold)
  split
  · exact htold.hardPut
  · exact htold

theorem BeamStep.deliverJobs (h : BeamStep s t) {c start : Nat} : BeamStep s (t.deliverJobs c start).1 := by
  refine each_mem_inv (P := fun acc : State × Nat => BeamStep s acc.1) h fun acc hacc k hk => ?_
  unfold State.deliverEngine
  extract_lets due jobs delivered kept
  have hdelivered : BeamStep s delivered := each_inv hacc fun _ h _ => h.deliverJob (List.mem_range.mp hk)
  exact hdelivered.upd

theorem BeamStep.setStream (h : BeamStep s t) {i : Nat} {x : StreamSt} : BeamStep s (t.setStream i x) := h.upd

theorem BeamStep.deliverStream (h : BeamStep s t) {i shedNs : Nat} : BeamStep s (t.deliverStream i shedNs).1 := by
  unfold State.deliverStream
  extract_lets x key
  split
  · next f _ => exact fst_inv (h.setStream (x := { x with frames := x.frames.erase f })).hardPut
  · exact fst_inv h.hardPut

theorem BeamStep.deliverStreams (h : BeamStep s t) {k shedNs : Nat} : BeamStep s (t.deliverStreams k shedNs).1 :=
  each_inv (P := fun acc : State × Nat => BeamStep s acc.1) h fun _ h _ => h.deliverStream

theorem BeamStep.msetN (h : BeamStep s t) {key : Nat} {l : List Byte} : BeamStep s (t.msetN key l) := by
  induction l generalizing t key with
  | nil => exact h
  | cons b l ih =>
    have hset : BeamStep s (t.mset key b) := h.upd
    exact ih hset

theorem BeamStep.keepWrite (h : BeamStep s t) {g : Nat} {l : List Byte} : BeamStep s (t.keepWrite g l) := by
  have hwritten : BeamStep s (t.msetN (keyKeep (32 * g)) l) := h.msetN
  exact hwritten.upd

theorem BeamStep.showDirty (h : BeamStep s t) : BeamStep s t.showDirty := by
  unfold State.showDirty
  extract_lets n was past shown accel
  have hshown : BeamStep s shown := h.fput.setFlag
  have haccel : BeamStep s accel := ite_inv hshown.setFlag (ite_inv hshown.setFlag hshown)
  exact ite_inv haccel.setFlag.raise haccel

theorem BeamStep.commitRetentive (h : BeamStep s t) {k : Nat} (hpartner : s.red.partner = none) :
    BeamStep s (t.commitRetentive k) := by
  unfold State.commitRetentive
  extract_lets ch kept keep sealed shown red
  have hkept : BeamStep s kept := each_inv h fun _ h _ => h.keepWrite
  have hshown : BeamStep s shown := ite_inv hkept.withSealOpen hkept.withSealOpen.showDirty
  have hunpaired : ¬ (shown.paired ∧ shown.role = 1) := fun hp => by
    have hpaired := hp.1
    rw [State.paired, hshown.partner, hpartner] at hpaired
    exact absurd hpaired (by decide)
  rw [if_neg hunpaired]
  exact hshown

/-! ### The end of a beam (R52, R106) -/

theorem beam_ne {k : Nat} (hk : k < 4) : ¬ BeamReg (HDL_GLAST k) ∧ ¬ BeamReg (CLS_COMMIT k) ∧ ¬ BeamReg (CLS_COMMIT_MAX k) ∧
    ¬ BeamReg (HDL_BEAMLAST k) ∧ ¬ BeamReg (CLS_STAT k) := by
  unfold BeamReg HDL_GLAST CLS_COMMIT CLS_COMMIT_MAX HDL_BEAMLAST CLS_STAT SYS_MODE MEL_STAT OBS_RT_STAT
  simp
  omega

theorem BeamStep.noteSlack (h : BeamStep s t) {k : Nat} : BeamStep s (t.noteSlack k) := h.upd

theorem BeamStep.editFinal (h : BeamStep s t) (hpkg : s.edit.pkg = none) : BeamStep s t.editFinal := by
  unfold State.editFinal
  rw [h.pkg, hpkg]
  exact h

theorem BeamStep.editFirst (h : BeamStep s t) {k : Nat} (hpkg : s.edit.pkg = none) : BeamStep s (t.editFirst k) := by
  have hfirst : ∀ l, BeamStep s { t with edit := { t.edit with first := l } } := fun _ => h.upd
  exact ite_inv ((hfirst _).editFinal hpkg) h

theorem BeamStep.traceCycle (h : BeamStep s t) {k : Nat} (hquiet : s.flag OBS_RT_STAT_CAPTURING = false) :
    BeamStep s (t.traceCycle k) := by
  have hidle : t.flag OBS_RT_STAT_CAPTURING = false := (h.flag (by decide)).trans hquiet
  rw [State.traceCycle, if_neg (by rw [hidle]; exact fun hc => Bool.false_ne_true hc.1)]
  exact h

theorem BeamStep.activationCopy (h : BeamStep s t) (hact : s.upd.act = none) : BeamStep s t.activationCopy := by
  unfold State.activationCopy
  rw [h.updates, hact]
  exact h

theorem BeamStep.trialCount (h : BeamStep s t) {good : Bool} (htrial : s.upd.trial = none) : BeamStep s (t.trialCount good) := by
  unfold State.trialCount
  rw [h.updates, htrial]
  exact h

theorem BeamStep.shuttleStart (h : BeamStep s t) {k : Nat} (hpartner : s.red.partner = none) : BeamStep s (t.shuttleStart k) := by
  have hunpaired : t.paired = false := by
    rw [State.paired, h.partner, hpartner]
    rfl
  rw [State.shuttleStart, if_neg (by rw [hunpaired]; exact fun hp => Bool.false_ne_true hp.1)]
  exact h

theorem BeamStep.buildFrames (h : BeamStep s t) {k launch : Nat} {cyc : BitVec 64} {ovr : Bool} :
    BeamStep s (t.buildFrames k cyc launch ovr) := h.offCycle (OffCycle.refl _ t).buildFrames

theorem BeamStep.dryStart (h : BeamStep s t) {k : Nat} (hpkg : s.edit.pkg = none) : BeamStep s (t.dryStart k) := by
  unfold State.dryStart
  rw [h.pkg, hpkg]
  exact h

/-- A beam that is over leaves the image, the strands and the mode as they are (R52). -/
theorem beamEnd_over {s : State} {k : Nat} (hk : k < 4) (hpkg : s.edit.pkg = none) (hact : s.upd.act = none) (htrial : s.upd.trial = none)
    (hpartner : s.red.partner = none) (hquiet : s.flag OBS_RT_STAT_CAPTURING = false) :
    BeamStep (s.modCls k fun c => { c with beam := .none }) (s.beamEnd k) := by
  obtain ⟨-, hcommit, hmax, hlast, hstat⟩ := beam_ne hk
  unfold State.beamEnd
  extract_lets c r us ended peaked shown noted copied counted sent built
  have hended : BeamStep (s.modCls k fun c => { c with beam := .none }) ended := (BeamStep.refl _).fput hcommit
  have hnoted : BeamStep (s.modCls k fun c => { c with beam := .none }) noted :=
    (((hended.fput hmax).fput hlast).fput hstat).countG.noteSlack
  have hcopied : BeamStep (s.modCls k fun c => { c with beam := .none }) copied :=
    ((hnoted.editFirst hpkg).traceCycle hquiet).activationCopy hact
  have hsent : BeamStep (s.modCls k fun c => { c with beam := .none }) sent :=
    (ite_inv (hcopied.trialCount htrial) hcopied : BeamStep _ counted).shuttleStart hpartner
  have hbuilt : BeamStep (s.modCls k fun c => { c with beam := .none }) built :=
    ite_inv (ite_inv hsent.buildFrames (ite_inv hsent hsent.buildFrames)) hsent
  exact hbuilt.dryStart hpkg

end

end Sys2Proof.Machine
end
section
/-!
CERTIFICATE. What a beam commits (R102, R103, R104), and with it the statement about beams.
-/
namespace Sys2Proof.Machine

set_option Elab.async false

/-! ### A staged granule over the image (R103) -/

/-- A bit of the image after the staged bytes of a table went over it: the staged one, or as before. -/
theorem overImage_bit {m : List Host.Cell} {stg : Tab MByte} (off bit : Nat) (hwf : tabWf (fun _ => (⟨0, 0⟩ : MByte)) stg = true)
    (hbit : bit < 8) : (imgGet (overImage m stg) off).getLsbD bit =
      if (tget ⟨0, 0⟩ stg off).mask.getLsbD bit then (tget ⟨0, 0⟩ stg off).val.getLsbD bit else (imgGet m off).getLsbD bit := by
  have hmask : ∀ (m : List Host.Cell) (x : MByte), (imgGet (imgMask m off x.mask x.val) off).getLsbD bit =
      if x.mask.getLsbD bit then x.val.getLsbD bit else (imgGet m off).getLsbD bit := fun m x => by
    rw [imgMask, imgGet_imgSet_self, BitVec.getLsbD_or, BitVec.getLsbD_and, BitVec.getLsbD_and, BitVec.getLsbD_not, decide_eq_true hbit]
    cases x.mask.getLsbD bit with
    | false => simp
    | true => simp
  induction stg generalizing m with
  | nil => simp [overImage, each, tget]
  | cons e stg ih =>
    obtain ⟨a, x⟩ := e
    obtain ⟨-, habove, hwf'⟩ := (tabWf_cons _ a x stg).mp hwf
    have hstep : overImage m ((a, x) :: stg) = overImage (imgMask m a x.mask x.val) stg := rfl
    rw [hstep, ih hwf']
    by_cases ha : a = off
    · have hnone : tget ⟨0, 0⟩ stg off = ⟨0, 0⟩ :=
        tget_of_no_key _ fun e he hkey => absurd (habove e he) (by omega)
      rw [hnone, tget, if_pos ha, ha, hmask]
      simp
    · rw [tget, if_neg ha, imgMask, imgGet_imgSet_ne _ _ (Ne.symm ha)]

theorem granuleStage_bit {m : List Host.Cell} {stg : Tab MByte} (g off bit : Nat) (hwf : tabWf (fun _ => (⟨0, 0⟩ : MByte)) stg = true)
    (hbit : bit < 8) : (imgGet (overImage m (granuleStage stg g)) off).getLsbD bit =
      if off / 32 = g ∧ (tget ⟨0, 0⟩ stg off).mask.getLsbD bit = true then (tget ⟨0, 0⟩ stg off).val.getLsbD bit
      else (imgGet m off).getLsbD bit := by
  rw [granuleStage, overImage_bit off bit (filter_wf _ hwf) hbit]
  by_cases hg : off / 32 = g
  · rw [tget_filter_kept (p := fun b => b / 32 == g) _ _ (beq_iff_eq.mpr hg)]
    simp [hg]
  · rw [tget_filter_dropped (p := fun b => b / 32 == g) _ _ (beq_eq_false_iff_ne.mpr hg)]
    simp [hg]

/-! ### The order of the commits (R104) -/

theorem mem_insertUp {x y : Nat} {l : List Nat} : y ∈ insertUp x l ↔ y = x ∨ y ∈ l := by
  induction l with
  | nil => simp [insertUp]
  | cons a l ih =>
    unfold insertUp
    by_cases hlt : x < a
    · simp [hlt]
    · by_cases heq : x = a
      · simp [heq]
      · simp [hlt, heq, ih]
        tauto

theorem le_foldl_max {l : List Nat} {x b : Nat} (h : x ∈ l ∨ x ≤ b) : x ≤ l.foldl max b := by
  induction l generalizing b with
  | nil => simpa using h
  | cons a l ih =>
    refine ih ?_
    rcases h with h | h
    · rcases List.mem_cons.mp h with rfl | h
      · exact .inr (Nat.le_max_right ..)
      · exact .inl h
    · exact .inr (h.trans (Nat.le_max_left ..))

/-- What a table lists is what it holds beside its default. -/
theorem mem_of_tget_ne {α : Type} {d : α} {t : Tab α} {k : Nat} (h : tget d t k ≠ d) : (k, tget d t k) ∈ t := by
  induction t with
  | nil => exact absurd rfl h
  | cons e t ih =>
    obtain ⟨a, x⟩ := e
    by_cases ha : a = k
    · rw [tget, if_pos ha, ha]
      exact List.mem_cons_self ..
    · rw [tget, if_neg ha] at h ⊢
      exact List.mem_cons_of_mem _ (ih h)

/-- The dirty granules of a table with those of the list that they are added to. -/
theorem mem_dirtyFold {t : Tab MByte} {l : List Nat} {g : Nat} (h : (∃ e ∈ t, e.1 / 32 = g ∧ e.2.mask ≠ 0) ∨ g ∈ l) :
    g ∈ t.foldl (fun l b => if b.2.mask = 0 then l else insertUp (b.1 / 32) l) l := by
  induction t generalizing l with
  | nil => simpa using h
  | cons e t ih =>
    refine ih ?_
    rcases h with ⟨e', he', hg, hmask⟩ | hl
    · rcases List.mem_cons.mp he' with rfl | he'
      · dsimp only
        rw [if_neg hmask]
        exact .inr (mem_insertUp.mpr (.inl hg.symm))
      · exact .inl ⟨e', he', hg, hmask⟩
    · exact .inr (ite_inv (P := fun l : List Nat => g ∈ l) hl (mem_insertUp.mpr (.inr hl)))

/-- A staged bit makes its granule dirty. -/
theorem mem_dirtyGranules {stg : Tab MByte} {off bit : Nat} (h : (tget ⟨0, 0⟩ stg off).mask.getLsbD bit = true) :
    off / 32 ∈ dirtyGranules stg := by
  have hmask : (tget ⟨0, 0⟩ stg off).mask ≠ 0 := fun h0 => by
    rw [h0] at h
    simp at h
  have hne : tget ⟨0, 0⟩ stg off ≠ (⟨0, 0⟩ : MByte) := fun h0 => hmask (congrArg MByte.mask h0)
  exact mem_dirtyFold (.inl ⟨_, mem_of_tget_ne hne, rfl, hmask⟩)

section
variable {s : State} {k : Nat}

theorem commitOrder_source {x : Nat × Nat} (h : x ∈ s.commitOrder k) : x.2 ∈ s.sources k := by
  unfold State.commitOrder at h
  obtain ⟨i, -, hx⟩ := List.mem_flatMap.mp h
  obtain ⟨y, hy, hsome⟩ := List.mem_filterMap.mp hx
  obtain ⟨st, hst, rfl⟩ := List.mem_map.mp hy
  obtain ⟨g, -, rfl⟩ := Option.map_eq_some_iff.mp hsome
  exact hst

theorem mem_commitOrder {g st : Nat} (hst : st ∈ s.sources k) (hg : g ∈ dirtyGranules (s.strand st).stg) :
    (g, st) ∈ s.commitOrder k := by
  obtain ⟨i, hi, hget⟩ := List.mem_iff_getElem.mp hg
  unfold State.commitOrder
  extract_lets srcs rounds
  have hsrc : (st, dirtyGranules (s.strand st).stg) ∈ srcs := List.mem_map.mpr ⟨st, hst, rfl⟩
  have hround : i < rounds := hi.trans_le (le_foldl_max (.inl (List.mem_map.mpr ⟨_, hsrc, rfl⟩)))
  refine List.mem_flatMap.mpr ⟨i, List.mem_range.mpr hround, List.mem_filterMap.mpr ⟨_, hsrc, ?_⟩⟩
  rw [List.getElem?_eq_getElem hi, hget]
  rfl

theorem mem_sources {st : Nat} : st ∈ s.sources k ↔ st < 16 ∧ (s.cfg st).cls = k ∧ (s.strand st).run = .ended := by
  rw [State.sources, List.mem_filter, mem_strandsOf, beq_iff_eq, and_assoc]

/-! ### The image after the beam (R102, R103) -/

/-- The image with the staged granules of class `k` merged in commit order. -/
def State.mergedImage (s : State) (k : Nat) : List Host.Cell :=
  each (s.commitOrder k) s.img fun m x => overImage m (granuleStage (s.strand x.2).stg x.1)

variable {off bit : Nat} (hwf : ∀ st, tabWf (fun _ => (⟨0, 0⟩ : MByte)) (s.strand st).stg = true) (hbit : bit < 8)
include hwf hbit

theorem mergedImage_kept (hnone : ∀ st, st < 16 → (s.cfg st).cls = k → (s.strand st).run = .ended →
      (tget ⟨0, 0⟩ (s.strand st).stg off).mask.getLsbD bit = false) :
    (imgGet (s.mergedImage k) off).getLsbD bit = (imgGet s.img off).getLsbD bit := by
  refine each_mem_inv (P := fun m => (imgGet m off).getLsbD bit = (imgGet s.img off).getLsbD bit) rfl fun m hm x hx => ?_
  obtain ⟨hst, hcls, hrun⟩ := mem_sources.mp (commitOrder_source hx)
  rw [granuleStage_bit _ _ _ (hwf _) hbit, hnone _ hst hcls hrun]
  simpa using hm

theorem mergedImage_staged {st : Nat} (hst : st < 16) (hcls : (s.cfg st).cls = k) (hrun : (s.strand st).run = .ended)
    (hstaged : (tget ⟨0, 0⟩ (s.strand st).stg off).mask.getLsbD bit = true)
    (hothers : ∀ j, j < 16 → j ≠ st → (s.cfg j).cls = k → (tget ⟨0, 0⟩ (s.strand j).stg off).mask.getLsbD bit = false) :
    (imgGet (s.mergedImage k) off).getLsbD bit = (tget ⟨0, 0⟩ (s.strand st).stg off).val.getLsbD bit := by
  have hmem := mem_commitOrder (mem_sources.mpr ⟨hst, hcls, hrun⟩) (mem_dirtyGranules hstaged)
  refine each_mem_establishes (P := fun m => (imgGet m off).getLsbD bit = (tget ⟨0, 0⟩ (s.strand st).stg off).val.getLsbD bit) s.img hmem
    (fun m => ?_) fun m hm x hx => ?_
  · rw [granuleStage_bit _ _ _ (hwf _) hbit, if_pos ⟨rfl, hstaged⟩]
  · obtain ⟨hlt, hxcls, -⟩ := mem_sources.mp (commitOrder_source hx)
    rw [granuleStage_bit _ _ _ (hwf _) hbit]
    by_cases hx2 : x.2 = st
    · rw [hx2]
      exact ite_inv (P := fun b => b = _) rfl hm
    · rw [hothers _ hlt hx2 hxcls]
      simpa using hm

end

/-! ### The commit of a class (R72, R102, R103) -/

section
variable {s : State} {k : Nat}

theorem BeamStep.setImg {t : State} (h : BeamStep s t) {m : List Host.Cell} : BeamStep { s with img := m } { t with img := m } :=
  ⟨(congrArg (fun v : State => { v with img := m }) h.1 :), h.2.1, h.2.2⟩

theorem forceImage_none (hforces : s.forces = []) (p : HEntry → Bool) (m : List Host.Cell) : s.forceImage k p m = m := by
  unfold State.forceImage
  rw [hforces]
  rfl

/-- Two iterations over one list whose steps keep a relation keep it. -/
theorem each_rel {σ τ α : Type} {R : σ → τ → Prop} {l : List α} {a : σ} {b : τ} {f : σ → α → σ} {g : τ → α → τ} (h : R a b)
    (hstep : ∀ a b, R a b → ∀ x, R (f a x) (g b x)) : R (each l a f) (each l b g) := by
  unfold each
  induction l generalizing a b with
  | nil => exact h
  | cons x l ih => exact ih (hstep a b h x)

theorem mergeStages_merges {t : State} (h : BeamStep s t) (hforces : s.forces = []) :
    BeamStep { s with img := s.mergedImage k } (t.mergeStages k) := by
  have horder : t.commitOrder k = s.commitOrder k := (congrArg (State.commitOrder · k) h.1 :)
  rw [State.mergeStages, horder]
  refine each_rel (R := fun m v => BeamStep { s with img := m } v) h fun m v h x => ?_
  extract_lets img merged
  have himg : img = overImage m (granuleStage (s.strand x.2).stg x.1) := by
    unfold img
    rw [forceImage_none (h.forces.trans hforces), h.img, h.strand]
    rfl
  have hmerged : BeamStep { s with img := img } merged := h.setImg
  rw [himg] at hmerged
  exact ite_inv hmerged.obsPush hmerged

theorem commitForces_none {t : State} (h : BeamStep s t) (hforces : s.forces = []) : BeamStep s (t.commitForces k) := by
  rw [State.commitForces, forceImage_none (h.forces.trans hforces)]
  exact h

/-- The strands of a class idle with nothing staged. -/
def State.idleAll (s : State) (strands : List Nat) : State :=
  each strands s fun s st => s.modStrand st fun x => { x with run := .idle, stg := [] }

/-- A beam commits the merged image, and its strands idle (R102, R103). -/
theorem commitClass_commits (hk : k < 4) (hforces : s.forces = []) (hpartner : s.red.partner = none)
    (hsingle : s.flag MEL_STAT_FORMED = false) :
    ∃ v, BeamStep { s with img := s.mergedImage k } v ∧ s.commitClass k = v.idleAll (s.strandsOf k) := by
  obtain ⟨hglast, -⟩ := beam_ne hk
  unfold State.commitClass
  extract_lets start g whole t merged delivered streamed kept n counted idle
  have ht : BeamStep s t := (BeamStep.refl s).upd
  have hmerged : BeamStep { s with img := s.mergedImage k } merged :=
    (commitForces_none (mergeStages_merges ht hforces) hforces).commitStatus
  have hcounted : BeamStep { s with img := s.mergedImage k } counted :=
    ((hmerged.deliverJobs.deliverStreams.commitRetentive hpartner).fput hglast).countG
  exact ⟨counted, hcounted, if_neg (by rw [hsingle]; exact Bool.false_ne_true)⟩

theorem idleAll_eq (s : State) (l : List Nat) : ∃ x, s.idleAll l = { s with strands := x } :=
  each_inv (P := fun v : State => ∃ x, v = { s with strands := x }) ⟨s.strands, rfl⟩ fun v ⟨x, hv⟩ st => by
    rw [hv]
    exact ⟨_, rfl⟩

theorem idleAll_idle (s : State) {l : List Nat} {st : Nat} (hst : st ∈ l) :
    ((s.idleAll l).strand st).run = .idle ∧ ((s.idleAll l).strand st).stg = [] := by
  refine each_mem_establishes (P := fun v : State => (v.strand st).run = .idle ∧ (v.strand st).stg = []) s hst (fun v => ?_) fun v hv j _ => ?_
  · rw [strand_modStrand_self]
    exact ⟨rfl, rfl⟩
  · by_cases hj : st = j
    · rw [hj, strand_modStrand_self]
      exact ⟨rfl, rfl⟩
    · rw [strand_modStrand_ne _ _ hj]
      exact hv

theorem idleAll_others (s : State) {l : List Nat} {st : Nat} (hst : st ∉ l) : (s.idleAll l).strand st = s.strand st :=
  each_mem_inv (P := fun v : State => v.strand st = s.strand st) rfl fun v hv _ hj =>
    (strand_modStrand_ne v _ (ne_of_mem_of_not_mem hj hst).symm).trans hv

/-! ### COMMIT_COMPLETE (R102, R103) -/

/-- With no granule that reads INTEG nothing of the beam fails (R425). -/
theorem commit_sound (hinteg : s.integ = []) (shedNs : Nat) : (s.stageInteg k || s.jobInteg k || s.msgInteg k shedNs) = false := by
  have hstage : s.stageInteg k = false := List.any_eq_false.mpr fun x _ => by simp [hinteg]
  have hhit : ∀ key n, s.partialHit key n = false := fun key n => by rw [State.partialHit, hinteg]; rfl
  have hjob : s.jobInteg k = false := List.any_eq_false.mpr fun n _ => by
    rw [Bool.not_eq_true]
    refine List.any_eq_false.mpr fun j _ => ?_
    cases j.state <;> simp [hhit]
  have hmsg : s.msgInteg k shedNs = false := List.any_eq_false.mpr fun i _ => by
    simp only [hhit]
    split <;> decide
  rw [hstage, hjob, hmsg]
  rfl

theorem commitComplete_commits {k : Fin 4} {endc start : Nat} (hquiet : Quiet s) (hbeam : (s.cls k).beam = .running endc start) :
    ∃ v t, BeamStep { s with img := s.mergedImage k } v ∧
      BeamStep ((v.idleAll (s.strandsOf k)).modCls k fun c => { c with beam := .none }) t ∧ exec (.commitComplete k) s = .next t := by
  obtain ⟨⟨hheld, -, -, -⟩, ⟨hpkg, hact, htrial, -⟩, ⟨hpartner, -, -, -, -, -⟩, ⟨-, -, hbeams, hsingle⟩, ⟨-, hidle⟩, ⟨hforces, -, hinteg⟩⟩ := hquiet
  obtain ⟨v, hv, hcommit⟩ := commitClass_commits k.isLt hforces hpartner hsingle
  have hlocal : (s.hbeam k).commitAt = none := by
    rw [State.hbeam, hbeams]
    rfl
  obtain ⟨x, hx⟩ := idleAll_eq v (s.strandsOf k)
  have hended : BeamStep ((v.idleAll (s.strandsOf k)).modCls k fun c => { c with beam := .none })
      ((v.idleAll (s.strandsOf k)).beamEnd k) := by
    rw [hx]
    exact beamEnd_over k.isLt (hv.pkg.trans hpkg) ((congrArg Upd.act hv.updates).trans hact)
      ((congrArg Upd.trial hv.updates).trans htrial) (hv.partner.trans hpartner) ((hv.flag (by decide)).trans hidle)
  refine ⟨v, _, hv, hended, ?_⟩
  have hformed : (v.idleAll (s.strandsOf k)).flag MEL_STAT_FORMED = false := by
    rw [hx]
    exact (hv.flag (by decide)).trans hsingle
  show execCommitComplete k s = _
  unfold execCommitComplete
  rw [hbeam]
  dsimp -zeta only
  rw [if_neg (by simp [hheld, hlocal]), if_neg (by rw [commit_sound hinteg]; exact Bool.false_ne_true)]
  extract_lets t
  have ht : t = v.idleAll (s.strandsOf k) := hcommit
  rw [ht]
  split
  · exact if_neg (by rw [hformed]; exact Bool.false_ne_true)
  · rfl

/-- What a complete beam leaves (R102). -/
theorem commit_leaves {k : Fin 4} {v t : State} (hv : BeamStep { s with img := s.mergedImage k } v)
    (ht : BeamStep ((v.idleAll (s.strandsOf k)).modCls k fun c => { c with beam := .none }) t) :
    (t.cls k).beam = .none ∧ t.mode = s.mode ∧ t.img = s.mergedImage k ∧
      (∀ st, st < 16 → (s.cfg st).cls = k.val → (t.strand st).run = .idle ∧ (t.strand st).stg = []) ∧
      (∀ st, (s.cfg st).cls ≠ k.val → t.strand st = s.strand st) := by
  obtain ⟨x, hx⟩ := idleAll_eq v (s.strandsOf k)
  refine ⟨?_, ?_, ?_, fun st hst hcls => ?_, fun st hcls => ?_⟩
  · rw [ht.2.1, cls_modCls_self]
  · rw [ht.mode, modCls_get_mode, hx]
    exact hv.mode
  · rw [ht.img, modCls_img, hx]
    exact hv.img
  · rw [ht.strand, modCls_get_strand]
    exact idleAll_idle v (mem_strandsOf.mpr ⟨hst, hcls⟩)
  · rw [ht.strand, modCls_get_strand, idleAll_others v fun hmem => hcls (mem_strandsOf.mp hmem).2]
    exact hv.strand st

end

/-- Settles O26: a ready beam runs when none is before it, and a running one commits what its ended strands have staged. -/
theorem beamStartAndCommit : Obligations.BeamStartAndCommit := by
  unfold Obligations.BeamStartAndCommit
  refine ⟨fun s k endc hbeam hheld hpfail hcopy => ⟨fun hfree => ?_, fun j b c hj hjk hrun hcommit => ?_⟩,
    fun s k endc start hquiet hbeam => ?_, fun s k endc start hquiet hbeam _ _ _ _ hwf => ?_⟩
  · exact beamStart_runs hbeam hheld hpfail hcopy (beamBlocked_free hfree)
  · exact beamStart_waits hbeam (beamBlocked_running hj hjk hrun hcommit)
  · obtain ⟨v, t, hv, ht, hexec⟩ := commitComplete_commits hquiet hbeam
    obtain ⟨hover, hmode, -, hidle, hothers⟩ := commit_leaves hv ht
    exact ⟨t, hexec, hover, hmode, hidle, fun st _ => hothers st⟩
  · obtain ⟨v, t, hv, ht, hexec⟩ := commitComplete_commits hquiet hbeam
    obtain ⟨-, -, himg, -, -⟩ := commit_leaves hv ht
    refine ⟨t, hexec, fun off bit hbit hnone => ?_, fun off bit st hbit hst hcls hrun hstaged hothers => ?_⟩
    · rw [himg]
      exact mergedImage_kept hwf hbit hnone
    · rw [himg]
      exact mergedImage_staged hwf hbit hst hcls hrun hstaged hothers

end Sys2Proof.Machine
end
section
/-!
CERTIFICATE. What a shed makes of a word entry (R45, R46, R47).
-/
namespace Sys2Proof.Machine

set_option Elab.async false

/-! ### A word of the image -/

theorem leNat_leBytes (n v : Nat) : leNat (leBytes n v) = v % 256 ^ n := by
  induction n generalizing v with
  | zero => simp [leNat, leBytes, Nat.mod_one]
  | succ n ih =>
    calc leNat (leBytes (n + 1) v) = v % 256 + 256 * (v / 256 % 256 ^ n) := by
          rw [leBytes, leNat, ih, BitVec.toNat_ofNat]
      _ = v % 256 ^ (n + 1) := by rw [pow_succ', Nat.mod_mul]

/-- The word that an item of kind 3 holds after it was put. -/
theorem putItem_word (s : State) (idx : Nat) (v : Word) :
    BitVec.ofNat 32 (leNat ((List.range 4).map fun j => imgGet (s.putItem 3 idx v).img (itemOff 3 idx + j))) = v := by
  have hbytes : (List.range 4).map (fun j => imgGet (s.putItem 3 idx v).img (itemOff 3 idx + j)) = leBytes 4 v.toNat := by
    have hput : (s.putItem 3 idx v).img =
        each (leBytes 4 v.toNat).zipIdx s.img (fun m b => imgSet m (itemOff 3 idx + b.2) b.1) := rfl
    rw [hput]
    simp [leBytes, List.zipIdx, each, List.range_succ, imgGet_imgSet_self, imgGet_imgSet_ne]
  rw [hbytes, leNat_leBytes, Nat.mod_eq_of_lt (by exact v.isLt), BitVec.ofNat_toNat, BitVec.setWidth_eq]

/-! ### An entry at the shed (R45, R46) -/

section
variable {s : State} {k i : Nat} {e : HEntry}

/-- A word entry of one item whose value after the shed is `v`, under the status word `w`. -/
def Sheds (s : State) (k i : Nat) (e : HEntry) (v : Word) (w : BitVec 16) : Prop :=
  BitVec.ofNat 32 (leNat ((List.range 4).map fun j => imgGet (s.shedEntry k i e).img (itemOff 3 (hBase e) + j))) = v ∧
    (s.shedEntry k i e).swGet (hSwidx e) = w

theorem entryForced_none (hforces : s.forces = []) : s.entryForced e = false := by
  rw [State.entryForced, hforces]
  rfl

variable (hkind : hKind e = 3) (hforces : s.forces = [])
include hkind hforces

/-- One item of a word entry enters the image (R47). -/
theorem putOne (v : Word) : (each [v].zipIdx s fun (s : State) v =>
    let idx := hBase e + v.2
    s.putItem (hKind e) idx ((s.forced (hKind e) idx).getD v.1)) = s.putItem 3 (hBase e) v := by
  have hforced : s.forced (hKind e) (hBase e) = none := by
    rw [State.forced, hforces]
    rfl
  show s.putItem (hKind e) (hBase e) ((s.forced (hKind e) (hBase e)).getD v) = _
  rw [hforced, hkind]
  rfl

theorem shedEntry_delivered {v : Word} {q : Nat} {ovr : Bool} (hdelivery : s.deliveryOf k e = some ([v], q, ovr))
    (hq : q = qGood ∨ q = qUncertain) : Sheds s k i e v (swWord q false false ovr false false 0) := by
  unfold Sheds State.shedEntry
  rw [hdelivery]
  extract_lets x cyc x' age stale bad act valid vals q' forced recorded put
  have hquality : x'.quality.toNat = q := by rcases hq with rfl | rfl <;> rfl
  have hage : age = 0 := by
    show min 255 (cyc - cyc).toNat = 0
    simp
  have hstale : stale = false := by
    show (hStale e != 0 && (false || decide (hStale e < age))) = false
    simp [hage]
  have hbad : bad = false := by
    show (false || x'.quality.toNat == qBad) = false
    rw [hquality]
    rcases hq with rfl | rfl <;> rfl
  have hact : act = false := by
    show (stale || bad) = false
    rw [hstale, hbad]
    rfl
  have hvals : vals = [v] := if_pos (by rw [hact]; rfl)
  have hq' : q' = q := (if_pos (by rw [hact]; rfl)).trans hquality
  have hforced : forced = false := entryForced_none hforces
  have hput : put = recorded.putItem 3 (hBase e) v := by
    unfold put
    rw [hvals]
    exact putOne (s := recorded) hkind hforces v
  rw [hput, hforced, hact, hstale, hage, hq']
  exact ⟨putItem_word recorded (hBase e) v, swGet_swSet_self _ _ _⟩

/-- Without a delivery the last one serves, until it is stale and the substitute policy gives the value (R45, R46). -/
theorem shedEntry_undelivered {x : EntrySt} {v w : Word} (hx : tget EntrySt.reset s.entries i = x) (hdelivery : s.deliveryOf k e = none)
    (hdelivered : x.delivered = true) (hquality : x.quality.toNat = qGood) (hvalue : x.value = [v]) (hvalid : x.valid = [w]) :
    let age := min 255 ((s.cls k).cyc - x.window).toNat
    (hStale e = 0 ∨ age ≤ hStale e → Sheds s k i e v (swWord qGood false false x.ovr false false age)) ∧
      (hStale e ≠ 0 → hStale e < age →
        Sheds s k i e (if hSubst e = 1 then BitVec.ofNat 32 (hSubval e) else if hSubst e = 2 then 0 else w)
          (swWord (if hSubst e = 3 then qBad else qUncertain) (decide (hSubst e ≠ 3)) true x.ovr false false age)) := by
  intro age
  unfold Sheds State.shedEntry
  rw [hdelivery, hx]
  extract_lets x₀ cyc x' age' stale bad act valid vals q' forced recorded put
  have hage : age' = age := if_pos hdelivered
  have hbad : bad = false := by
    show (!x.delivered || x.quality.toNat == qBad) = false
    rw [hdelivered, hquality]
    rfl
  have hact : act = stale := by
    show (stale || bad) = stale
    rw [hbad, Bool.or_false]
  have hforced : forced = false := entryForced_none hforces
  have hput : ∀ u, vals = [u] → put = recorded.putItem 3 (hBase e) u := fun u hu => by
    unfold put
    rw [hu]
    exact putOne (s := recorded) hkind hforces u
  refine ⟨fun hfresh => ?_, fun hlimit hold => ?_⟩
  · have hstale : stale = false := by
      show (hStale e != 0 && (!x.delivered || decide (hStale e < age'))) = false
      rw [hage, hdelivered]
      rcases hfresh with h0 | hle
      · simp [h0]
      · simp [Nat.not_lt.mpr hle]
    have hvals : vals = [v] := (if_pos (by rw [hact, hstale]; rfl)).trans hvalue
    have hq' : q' = qGood := (if_pos (by rw [hact, hstale]; rfl)).trans hquality
    rw [hput v hvals, hforced, hact, hstale, hage, hq']
    exact ⟨putItem_word recorded (hBase e) v, swGet_swSet_self _ _ _⟩
  · have hstale : stale = true := by
      show (hStale e != 0 && (!x.delivered || decide (hStale e < age'))) = true
      rw [hage, hdelivered]
      simp [hlimit, hold]
    have hvalid' : valid = [w] := 
      (if_neg (show ¬ x.valid.isEmpty = true by rw [hvalid]; exact Bool.false_ne_true)).trans hvalid
    have hvals : vals = [if hSubst e = 1 then BitVec.ofNat 32 (hSubval e) else if hSubst e = 2 then 0 else w] := by
      have hbits : hBits e = false := by
        rw [hBits, hkind]
        rfl
      refine (if_neg (by rw [hact, hstale]; decide)).trans ?_
      rw [hvalid', hbits]
      by_cases h1 : hSubst e = 1
      · rw [h1]
        rfl
      · by_cases h2 : hSubst e = 2
        · rw [h2]
          rfl
        · rw [if_neg h1, if_neg h2]
          split
          · exact absurd ‹_› h1
          · exact absurd ‹_› h2
          · rfl
    have hq' : q' = if hSubst e = 3 then qBad else qUncertain := by
      refine (if_neg (by rw [hact, hstale]; decide)).trans ?_
      rw [hbad, Bool.false_or]
      simp only [beq_iff_eq]
    rw [hput _ hvals, hforced, hact, hstale, hage, hq']
    refine ⟨putItem_word recorded (hBase e) _, (swGet_swSet_self _ _ _).trans ?_⟩
    have hne : (!false && true && hSubst e != 3) = decide (hSubst e ≠ 3) := by
      by_cases h3 : hSubst e = 3 <;> simp [h3]
    rw [hne]
    rfl

end

end Sys2Proof.Machine
end
section
/-!
CERTIFICATE. The shed and the start of the weave (R47, R48, R94, R112, R114), and with them the statement about sheds.
-/
namespace Sys2Proof.Machine

set_option Elab.async false

/-! ### What a shed leaves alone -/

/-- The state `t` with the inputs, their records and the classes as in `s`. -/
def State.backShed (s t : State) : State :=
  { t with regs := s.regs, sw := s.sw, entries := s.entries, classes := s.classes, ucs := s.ucs, eth := s.eth, mbs := s.mbs, evq := s.evq,
           recorder := s.recorder, obs := s.obs, pmcSnap := s.pmcSnap }

/-- The registers that the start of a strand reads. -/
abbrev ShedReg (a : Nat) : Prop := a ∈ [SYS_MODE, MEL_CFG]

/-- From `s` to `t` nothing has changed but inputs, their records, classes but for what they execute, and registers. -/
def ShedStep (s t : State) : Prop :=
  s.backShed t = s ∧ (∀ j, (t.cls j).executed = (s.cls j).executed) ∧ ∀ a, ShedReg a → t.rget a = s.rget a

section
variable {s t u : State}

theorem ShedStep.refl (s : State) : ShedStep s s := ⟨rfl, fun _ => rfl, fun _ _ => rfl⟩

/-- An update of parts of the state that a shed changes. -/
theorem ShedStep.upd (h : ShedStep s t) (hrest : s.backShed u = s.backShed t := by rfl) (hcls : u.classes = t.classes := by rfl)
    (hregs : u.regs = t.regs := by rfl) : ShedStep s u := by
  refine ⟨hrest.trans h.1, fun j => ?_, fun a ha => ?_⟩
  · rw [State.cls, hcls]
    exact h.2.1 j
  · rw [State.rget, hregs]
    exact h.2.2 a ha

theorem ShedStep.img (h : ShedStep s t) : t.img = s.img := (congrArg State.img h.1 :)

theorem ShedStep.integ (h : ShedStep s t) : t.integ = s.integ := (congrArg State.integ h.1 :)

theorem ShedStep.strand (h : ShedStep s t) (st : Nat) : t.strand st = s.strand st := (congrArg (State.strand · st) h.1 :)

theorem ShedStep.cfg (h : ShedStep s t) (st : Nat) : t.cfg st = s.cfg st := (congrArg (State.cfg · st) h.1 :)

theorem ShedStep.activeBank (h : ShedStep s t) (st : Nat) : t.activeBank st = s.activeBank st :=
  (congrArg (State.activeBank · st) h.1 :)

theorem ShedStep.inputsOf (h : ShedStep s t) (k : Nat) : t.inputsOf k = s.inputsOf k := (congrArg (State.inputsOf · k) h.1 :)

theorem ShedStep.mode (h : ShedStep s t) : t.mode = s.mode := fget_congr (h.2.2 SYS_MODE (by decide))

theorem ShedStep.member (h : ShedStep s t) : t.member = s.member := by
  have hcfg := h.2.2 MEL_CFG (by decide)
  rw [State.member, flag_congr (f := MEL_CFG_HEDGE) hcfg, fget_congr (f := MEL_CFG_INDEX) hcfg, State.member]

theorem ShedStep.rset (h : ShedStep s t) {b : Nat} {v : Word} (hb : ¬ ShedReg b := by decide) : ShedStep s (t.rset b v) :=
  ⟨h.1, h.2.1, fun a ha => (rget_rset_ne t v (by rintro rfl; exact hb ha)).trans (h.2.2 a ha)⟩

theorem ShedStep.fput (h : ShedStep s t) {f : Fld} {v : Nat} (hf : ¬ ShedReg f.addr := by decide) : ShedStep s (t.fput f v) := h.rset hf

theorem ShedStep.setFlag (h : ShedStep s t) {f : Fld} {b : Bool} (hf : ¬ ShedReg f.addr := by decide) : ShedStep s (t.setFlag f b) :=
  h.rset hf

theorem ShedStep.raise (h : ShedStep s t) {code elem : Nat} {p : List Byte} : ShedStep s (t.raise code elem p) := by
  unfold State.raise
  exact ite_inv h.upd (ShedStep.setFlag (ShedStep.rset (h.upd (u := { t with recorder := _ }))))

theorem not_shedReg_of_pmcCounter {a : Nat} (h : pmcCounter a) : ¬ ShedReg a := by
  unfold pmcCounter at h
  unfold ShedReg SYS_MODE MEL_CFG
  simp
  omega

theorem ShedStep.countG (h : ShedStep s t) {ev n : Nat} : ShedStep s (t.countG ev n) := by
  obtain ⟨hrest, hregs⟩ := PmcOnly.countG t ev n
  have hcls : ∀ j, (t.countG ev n).cls j = t.cls j := fun j => (congrArg (State.cls · j) hrest :)
  refine ⟨?_, fun j => ?_, fun a ha => (hregs a fun hp => not_shedReg_of_pmcCounter hp ha).trans (h.2.2 a ha)⟩
  · exact (congrArg s.backShed hrest :).trans h.1
  · rw [hcls]
    exact h.2.1 j

theorem ShedStep.modCls (h : ShedStep s t) {k : Nat} {f : ClassSt → ClassSt} (hf : ∀ c, (f c).executed = c.executed := by exact fun _ => rfl) :
    ShedStep s (t.modCls k f) := by
  refine ⟨h.1, fun j => ?_, h.2.2⟩
  by_cases hj : j = k
  · rw [hj, cls_modCls_self, hf]
    exact h.2.1 k
  · rw [cls_modCls_ne _ _ hj]
    exact h.2.1 j

theorem ShedStep.setLatch (h : ShedStep s t) {k key : Nat} {l : List Byte} : ShedStep s (t.setLatch k key l) := h.modCls

/-! ### The parts of a shed (R44, R47, R49, R94) -/

theorem ShedStep.takeSnap (h : ShedStep s t) {at_ : Nat} : ShedStep s (t.takeSnap at_) := by
  unfold State.takeSnap
  extract_lets r
  exact each_inv h fun v hv j => ite_inv (hv.modCls (f := fun c => { c with snapImg := r.img, snapSw := r.sw, snapAt := some at_ })) hv

theorem uc_ne (n : Nat) : ¬ ShedReg (UC_STAT n) ∧ ¬ ShedReg (UC_EVT n) := by
  unfold ShedReg UC_STAT UC_EVT SYS_MODE MEL_CFG
  simp
  omega

theorem ShedStep.judgeBand (h : ShedStep s t) {n : Nat} {i : Int} : ShedStep s (t.judgeBand n i) := by
  obtain ⟨hstat, hevt⟩ := uc_ne n
  unfold State.judgeBand
  split
  · exact h
  · extract_lets b modified d d'
    have hmodified : ShedStep s modified := h.upd
    unfold State.setDiag
    exact ite_inv hmodified (((hmodified.fput hstat).setFlag hevt).raise)

theorem ShedStep.ucLatch (h : ShedStep s t) {k n : Nat} : ShedStep s (t.ucLatch k n) := by
  have hsample : ∀ {t0 : Nat} {r : State × Sample}, t.ucSample n k t0 = some r → ShedStep s r.1 := fun {t0 r} hr => by
    unfold State.ucSample at hr
    split at hr
    · cases hr
    · cases hr
      exact h.countG.judgeBand
  unfold State.ucLatch
  extract_lets key now
  split
  · exact h.countG.setLatch
  · refine ite_inv ?_ ?_
    · split
      · next hr => exact (hsample hr).setLatch
      · exact h.setLatch
    · split
      · exact h.setLatch
      · exact h.setLatch

theorem can_mb_ne (p m : Nat) : ¬ ShedReg (CAN_MB_HDR p m) ∧ ¬ ShedReg (CAN_MB_ID p m) ∧ ¬ ShedReg (CAN_MB_STAMP_LO p m) ∧
    ¬ ShedReg (CAN_MB_STAMP_HI p m) ∧ ∀ w, w < 16 → ¬ ShedReg (CAN_MB_DATA p m w) := by
  unfold ShedReg CAN_MB_HDR CAN_MB_ID CAN_MB_STAMP_LO CAN_MB_STAMP_HI CAN_MB_DATA SYS_MODE MEL_CFG
  simp only [List.mem_cons, List.not_mem_nil, or_false, not_or]
  exact ⟨by omega, by omega, by omega, by omega, fun w hw => by omega⟩

theorem canSize_le (code : Nat) : canSize code ≤ 64 := by
  unfold canSize
  by_cases hcode : code < 8
  · interval_cases code <;> decide
  · rw [List.getElem?_eq_none (by simpa using hcode)]
    exact le_rfl

theorem ShedStep.mbStore (h : ShedStep s t) {p m ns : Nat} {f : CanFrame} : ShedStep s (t.mbStore p m f ns) := by
  obtain ⟨hhdr, hid, hlo, hhi, hdata⟩ := can_mb_ne p m
  unfold State.mbStore
  extract_lets size trunc fdf esi ide ident stamped
  have hstamped : ShedStep s stamped :=
    (((((((((h.setFlag hhdr).setFlag hhdr).setFlag hhdr).setFlag hhdr).setFlag hhdr).setFlag hhdr).fput hhdr).fput hid).rset hlo).rset hhi
  refine each_mem_inv hstamped fun v hv w hw => hv.rset (hdata w ?_)
  have hsize : size ≤ 64 := canSize_le _
  have := List.mem_range.mp hw
  omega

theorem ShedStep.closeWindows (h : ShedStep s t) {k : Nat} : ShedStep s (t.closeWindows k) := by
  unfold State.closeWindows
  extract_lets stop closed stored
  have hclosed : ShedStep s closed := each_inv h fun _ h _ => ite_inv h.upd h
  have hstored : ShedStep s stored := each_inv hclosed fun v hv x => by
    obtain ⟨hhdr, -⟩ := can_mb_ne x.1 x.2
    extract_lets p m kept y left
    have hkept : ShedStep s kept := by
      unfold kept
      split
      · exact hv.mbStore
      · exact hv
    have hset : ShedStep s (kept.setMb p m { y with shadow := left }) := hkept.upd
    exact hset.setFlag hhdr
  exact hstored.modCls

theorem ShedStep.setImg (h : ShedStep s t) {m : List Host.Cell} : ShedStep { s with img := m } { t with img := m } :=
  ⟨(congrArg (fun v : State => { v with img := m }) h.1 :), h.2.1, h.2.2⟩

/-- An operation on the inputs of which the image shows what was put (R47). -/
def ShedsInput (s t : State) : Prop := ShedStep { s with img := t.img } t

theorem ShedsInput.putItem (h : ShedsInput s t) {kind idx : Nat} {v : Word} : ShedsInput s (t.putItem kind idx v) := by
  have hput : ∃ m, t.putItem kind idx v = { t with img := m } := by
    unfold State.putItem
    split
    · exact ⟨_, rfl⟩
    · exact ⟨_, rfl⟩
  obtain ⟨m, hm⟩ := hput
  rw [hm]
  exact ShedStep.setImg h

theorem ShedsInput.shedEntry (h : ShedsInput s t) {k i : Nat} {e : HEntry} : ShedsInput s (t.shedEntry k i e) := by
  unfold State.shedEntry
  extract_lets x cyc x' age stale bad act valid vals q forced recorded put
  have hrecorded : ShedsInput s recorded := ShedStep.upd h
  have hput : ShedsInput s put := each_inv hrecorded fun _ h _ => h.putItem
  exact ShedStep.upd hput

theorem beat_ne {k : Nat} (hk : k < 4) : ∀ a ∈ [BEAT_SIG_LO k, BEAT_SIG_HI k, BEAT_FRC_LO k, BEAT_FRC_HI k],
    ¬ ShedReg a ∧ a ≠ CLS_STAT k ∧ a ≠ OBS_LOST := by
  unfold ShedReg BEAT_SIG_LO BEAT_SIG_HI BEAT_FRC_LO BEAT_FRC_HI CLS_STAT SYS_MODE MEL_CFG OBS_LOST
  simp
  omega

/-- No beat of class `k` is signalled, and none was forced (R94). -/
def NoBeats (s : State) (k : Nat) : Prop := ∀ a ∈ [BEAT_SIG_LO k, BEAT_SIG_HI k, BEAT_FRC_LO k, BEAT_FRC_HI k], s.rget a = 0

theorem NoBeats.rget64 {k : Nat} (h : NoBeats s k) : s.rget64 (BEAT_SIG_LO k) (BEAT_SIG_HI k) = 0 ∧
    s.rget64 (BEAT_FRC_LO k) (BEAT_FRC_HI k) = 0 := by
  unfold State.rget64
  rw [h _ (by simp), h _ (by simp), h _ (by simp), h _ (by simp)]
  exact ⟨rfl, rfl⟩

theorem beatsClear_noBeats (s : State) (k : Nat) : NoBeats (s.beatsClear k) k := by
  have hzero : ∀ (v : State) (a b : Nat), a = b ∨ v.rget a = 0 → (v.rset b 0).rget a = 0 := fun v a b h => by
    by_cases hab : a = b
    · rw [hab, rget_rset_self]
    · rw [rget_rset_ne _ _ hab]
      exact h.resolve_left hab
  intro a ha
  simp only [List.mem_cons, List.not_mem_nil, or_false] at ha
  refine hzero _ _ _ (or_iff_not_imp_left.mpr fun h4 => hzero _ _ _ (or_iff_not_imp_left.mpr fun h3 =>
    hzero _ _ _ (or_iff_not_imp_left.mpr fun h2 => hzero _ _ _ (.inl ?_))))
  tauto

theorem ShedStep.beatsClear (h : ShedStep s t) {k : Nat} (hk : k < 4) : ShedStep s (t.beatsClear k) := by
  have hne : ∀ a ∈ [BEAT_SIG_LO k, BEAT_SIG_HI k, BEAT_FRC_LO k, BEAT_FRC_HI k], ¬ ShedReg a := fun a ha => (beat_ne hk a ha).1
  exact ShedStep.modCls ((((h.rset (hne _ (by simp))).rset (hne _ (by simp))).rset (hne _ (by simp))).rset (hne _ (by simp)))

/-- With no granule that reads INTEG the shed fails nothing (R425). -/
theorem imageInteg_none (hinteg : s.integ = []) (es : List (Nat × HEntry)) : s.imageInteg es = s := by
  unfold State.imageInteg
  extract_lets hit whole kept
  have hhit : hit = [] := List.filter_eq_nil_iff.mpr fun g _ => by simp [hinteg]
  have hwhole : whole = [] := by
    unfold whole
    rw [hhit]
    rfl
  have hkept : kept = s := by
    have hall : s.integ.filter (fun x => !whole.any fun g => 0x1000000 + g == x) = s.integ := by
      rw [hinteg]
      rfl
    unfold kept
    rw [hall]
  rw [if_pos (by rw [hwhole, hhit]), hkept]

/-- What a shed freezes, and what it leaves (R47, R94). -/
theorem shedClass_sheds {k : Nat} (hk : k < 4) (hinteg : s.integ = []) :
    (∃ m, ShedStep { s with img := m } (s.shedClass k) ∧ (s.inputsOf k = [] → m = s.img)) ∧
      ((s.shedClass k).cls k).shedDone = true ∧ NoBeats (s.shedClass k) k := by
  unfold State.shedClass
  extract_lets snapped ins chans latched entered cleared shown
  have hsnapped : ShedStep s snapped := (ShedStep.refl s).takeSnap
  have hlatched : ShedStep s latched := each_inv hsnapped fun _ h _ => h.ucLatch
  have hentered : ShedsInput s entered := each_inv (show ShedStep { s with img := latched.img } latched by
    rw [hlatched.img]
    exact hlatched) fun _ h _ => h.shedEntry
  have hcleared : ShedStep { s with img := entered.img } cleared := (hentered.closeWindows.beatsClear hk).modCls
  have hstat : ¬ ShedReg (CLS_STAT k) := by
    unfold ShedReg CLS_STAT SYS_MODE MEL_CFG
    simp
    omega
  have hshown : ShedStep { s with img := entered.img } shown := ite_inv hcleared (hcleared.fput hstat)
  have hclearedZero : NoBeats cleared k := fun a ha =>
    (modCls_get_rget _ _ _ a).trans (beatsClear_noBeats (entered.closeWindows k) k a ha)
  have hzero : NoBeats shown k := ite_inv (P := fun v : State => NoBeats v k) hclearedZero fun a ha =>
    (rget_fput_ne _ _ (beat_ne hk a ha).2.1).trans (hclearedZero a ha)
  have hclearedDone : (cleared.cls k).shedDone = true := by
    unfold cleared
    rw [cls_modCls_self]
  clear_value cleared
  have hdone : (shown.cls k).shedDone = true := ite_inv (P := fun v : State => (v.cls k).shedDone = true) hclearedDone hclearedDone
  rw [imageInteg_none (hshown.integ.trans hinteg)]
  refine ⟨⟨entered.img, hshown, fun hnone => ?_⟩, hdone, hzero⟩
  have hins : ins = [] := (hsnapped.inputsOf k).trans hnone
  unfold entered
  rw [hins]
  exact hlatched.img

end

/-! ### The start of the weave (R48, R112, R114) -/

/-- What one element of a list establishes under an invariant, and the others keep, holds at the end. -/
theorem each_mem_establishes_of {σ α : Type} {I P : σ → Prop} {l : List α} {a : α} {f : σ → α → σ} {s : σ} (ha : a ∈ l) (hI : I s)
    (hinv : ∀ s, I s → ∀ b ∈ l, I (f s b)) (hset : ∀ s, I s → P (f s a)) (hkeep : ∀ s, I s → P s → ∀ b ∈ l, P (f s b)) :
    P (each l s f) := by
  obtain ⟨l₁, l₂, rfl⟩ := List.append_of_mem ha
  rw [each_append]
  have hbefore : I (each l₁ s f) := each_mem_inv hI fun v hv b hb => hinv v hv b (List.mem_append_left _ hb)
  have hafter : I (f (each l₁ s f) a) ∧ P (f (each l₁ s f) a) := ⟨hinv _ hbefore a ha, hset _ hbefore⟩
  exact (each_mem_inv (P := fun v => I v ∧ P v) (l := l₂) hafter fun v hv b hb =>
    have hmem : b ∈ l₁ ++ a :: l₂ := List.mem_append_right _ (List.mem_cons_of_mem _ hb)
    ⟨hinv v hv.1 b hmem, hkeep v hv.1 hv.2 b hmem⟩).2

/-- From `s` to `t` nothing has changed but strands, beats, messages, records and OBS_LOST. -/
def BesideStrands (s t : State) : Prop :=
  s.backWeave t = s ∧ (∀ j, SameButBeats (s.cls j) (t.cls j)) ∧ ∀ a, a ≠ OBS_LOST → t.rget a = s.rget a

section
variable {s t u : State} {k : Nat}

theorem BesideStrands.refl (s : State) : BesideStrands s s := ⟨rfl, fun _ => .refl _, fun _ _ => rfl⟩

theorem BesideStrands.modStrand (h : BesideStrands s t) {st : Nat} {f : Strand → Strand} : BesideStrands s (t.modStrand st f) := h

theorem WeaveStep.besideStrands (h : WeaveStep (· ≠ OBS_LOST) s t) : BesideStrands s t := ⟨h.1, h.2.2.1, h.2.2.2⟩

theorem BesideStrands.trans (h : BesideStrands s t) (g : BesideStrands t u) : BesideStrands s u := by
  obtain ⟨hrest, hcls, hregs⟩ := h
  obtain ⟨grest, gcls, gregs⟩ := g
  refine ⟨?_, fun j => (hcls j).trans (gcls j), fun a ha => (gregs a ha).trans (hregs a ha)⟩
  calc s.backWeave u = s.backWeave (t.backWeave u) := rfl
    _ = s := by rw [grest, hrest]

theorem BesideStrands.img (h : BesideStrands s t) : t.img = s.img := (congrArg State.img h.1 :)

theorem BesideStrands.cfg (h : BesideStrands s t) (st : Nat) : t.cfg st = s.cfg st := (congrArg (State.cfg · st) h.1 :)

theorem BesideStrands.activeBank (h : BesideStrands s t) (st : Nat) : t.activeBank st = s.activeBank st :=
  (congrArg (State.activeBank · st) h.1 :)

theorem BesideStrands.member (h : BesideStrands s t) : t.member = s.member := by
  have hcfg := h.2.2 MEL_CFG (by decide)
  rw [State.member, flag_congr (f := MEL_CFG_HEDGE) hcfg, fget_congr (f := MEL_CFG_INDEX) hcfg, State.member]

theorem BesideStrands.beam (h : BesideStrands s t) : (t.cls k).beam = (s.cls k).beam := (congrArg ClassSt.beam (h.2.1 k) :)

theorem BesideStrands.shedDone (h : BesideStrands s t) : (t.cls k).shedDone = (s.cls k).shedDone :=
  (congrArg ClassSt.shedDone (h.2.1 k) :)

/-- The registers of a strand that begins its cycle (R112). -/
def State.freshStrand (s : State) (st : Nat) : Strand :=
  { Strand.reset with fxm := (s.cfg st).fxmInit, dsl := BitVec.ofNat 32 (0xC0000 - (s.cfg st).stackSize),
                      bk := BitVec.ofNat 16 (s.member * 256), run := .weaving, bank := s.activeBank st }

theorem BesideStrands.freshStrand (h : BesideStrands s t) (st : Nat) : t.freshStrand st = s.freshStrand st := by
  rw [State.freshStrand, h.cfg, h.member, h.activeBank, State.freshStrand]

/-- A strand that does not wait has not changed. -/
theorem SameButReleased.eq_of_running {x y : Strand} (h : SameButReleased x y) (hstall : x.stall = none) : y = x := by
  obtain ⟨hrest, hon⟩ := h
  rw [hstall, Option.map_none, Option.map_eq_none_iff] at hon
  rw [hrest, hon, ← hstall]

/-- Strand `st` begins its cycle, with its branch trace (R48, R112). -/
def State.beginStrand (s : State) (st : Nat) : State :=
  ((s.weaveStrand st (s.activeBank st)).modStrand st fun x => { x with why := 0 }).btStart st (s.strand st).why 0

theorem beginStrand_besideStrands (s : State) (st : Nat) : BesideStrands s (s.beginStrand st) :=
  ((BesideStrands.refl s).modStrand.modStrand).trans (WeaveStep.besideStrands (WeaveStep.refl _ _).btStart)

theorem beginStrand_strand (s : State) (st : Nat) : (s.beginStrand st).strand st = s.freshStrand st := by
  have hbegun : ((s.weaveStrand st (s.activeBank st)).modStrand st fun x => { x with why := 0 }).strand st = s.freshStrand st := by
    rw [strand_modStrand_self, State.weaveStrand, strand_modStrand_self]
    rfl
  have htraced : WeaveStep (· ≠ OBS_LOST) _ (s.beginStrand st) := (WeaveStep.refl _ _).btStart
  rw [← hbegun]
  exact (htraced.strand st).eq_of_running (by rw [hbegun]; rfl)

theorem beginStrand_others (s : State) {st j : Nat} (hj : j ≠ st) (hstall : (s.strand j).stall = none) :
    (s.beginStrand st).strand j = s.strand j := by
  have hbegun : ((s.weaveStrand st (s.activeBank st)).modStrand st fun x => { x with why := 0 }).strand j = s.strand j := by
    rw [strand_modStrand_ne _ _ hj, State.weaveStrand, strand_modStrand_ne _ _ hj]
  have htraced : WeaveStep (· ≠ OBS_LOST) _ (s.beginStrand st) := (WeaveStep.refl _ _).btStart
  rw [← hbegun]
  exact (htraced.strand j).eq_of_running (by rw [hbegun]; exact hstall)

/-- The class weaves (R48). -/
def State.weaveBegun (s : State) (k : Nat) : State :=
  (s.modCls k fun c => { c with beam := .weaving, beamCyc := c.cyc, weaveAt := s.fab }).fput (CLS_STAT_PHASE_NOW k) 2

theorem weaveStart_eq (s : State) (k : Nat) : s.weaveStart k =
    (each ((s.weaveBegun k).strandsOf k) (s.weaveBegun k) State.beginStrand).checkLastEndc k := rfl

theorem beginAll_besideStrands (s : State) (l : List Nat) : BesideStrands s (each l s State.beginStrand) :=
  each_inv (BesideStrands.refl s) fun v hv st => hv.trans (beginStrand_besideStrands v st)

theorem beginAll_strand (s : State) {l : List Nat} {st : Nat} (hst : st ∈ l) :
    (each l s State.beginStrand).strand st = s.freshStrand st := by
  have hown : ∀ v, BesideStrands s v → (v.beginStrand st).strand st = s.freshStrand st := fun v hv =>
    (beginStrand_strand v st).trans (hv.freshStrand st)
  refine each_mem_establishes_of (I := BesideStrands s) (P := fun v => v.strand st = s.freshStrand st) hst (BesideStrands.refl s)
    (fun v hv b _ => hv.trans (beginStrand_besideStrands v b)) hown fun v hv hP b _ => ?_
  by_cases hb : st = b
  · rw [← hb]
    exact hown v hv
  · rw [beginStrand_others v hb (by rw [hP]; rfl)]
    exact hP

theorem weaveBegun_freshStrand (hk : k < 4) (s : State) (st : Nat) : (s.weaveBegun k).freshStrand st = s.freshStrand st := by
  have hne : MEL_CFG ≠ CLS_STAT k := by
    unfold MEL_CFG CLS_STAT
    omega
  have hcfg : (s.weaveBegun k).rget MEL_CFG = s.rget MEL_CFG := rget_fput_ne _ _ hne
  have hmember : (s.weaveBegun k).member = s.member := by
    rw [State.member, flag_congr (f := MEL_CFG_HEDGE) hcfg, fget_congr (f := MEL_CFG_INDEX) hcfg, State.member]
  rw [State.freshStrand, hmember]
  rfl

/-- With a strand of its own a class weaves (R48, R112). -/
theorem weaveStart_weaves (hk : k < 4) {st : Nat} (hst : st < 16) (hcls : (s.cfg st).cls = k) :
    ((s.weaveStart k).cls k).beam = .weaving ∧ (s.weaveStart k).strand st = s.freshStrand st := by
  have hmem : st ∈ (s.weaveBegun k).strandsOf k := mem_strandsOf.mpr ⟨hst, hcls⟩
  have hbeside := beginAll_besideStrands (s.weaveBegun k) ((s.weaveBegun k).strandsOf k)
  have hstrand := beginAll_strand (s.weaveBegun k) hmem
  rw [weaveStart_eq, checkLastEndc_waits hst ((congrArg StrandCfg.cls (hbeside.cfg st)).trans hcls) (by rw [hstrand]; rfl)]
  refine ⟨hbeside.beam.trans ?_, hstrand.trans (weaveBegun_freshStrand hk s st)⟩
  exact (congrArg ClassSt.beam (cls_modCls_self s k fun c => { c with beam := .weaving, beamCyc := c.cyc, weaveAt := s.fab }) :)

/-- The start of a weave leaves the image, the shed and the beats of its class as they are. -/
theorem weaveStart_keeps (hk : k < 4) (s : State) : (s.weaveStart k).img = s.img ∧ ((s.weaveStart k).cls k).shedDone = (s.cls k).shedDone ∧
    (NoBeats s k → NoBeats (s.weaveStart k) k) := by
  have hbeside := beginAll_besideStrands (s.weaveBegun k) ((s.weaveBegun k).strandsOf k)
  rw [weaveStart_eq]
  generalize each ((s.weaveBegun k).strandsOf k) (s.weaveBegun k) State.beginStrand = woven at hbeside
  obtain ⟨c, hlast, hbeam⟩ := checkLastEndc_frame woven k
  obtain ⟨b, hb⟩ := hbeam k
  refine ⟨?_, ?_, fun hzero a ha => ?_⟩
  · rw [hlast]
    exact hbeside.img
  · rw [hb]
    refine hbeside.shedDone.trans ?_
    exact (congrArg ClassSt.shedDone (cls_modCls_self s k fun c => { c with beam := .weaving, beamCyc := c.cyc, weaveAt := s.fab }) :)
  · obtain ⟨-, hstat, hlost⟩ := beat_ne hk a ha
    rw [hlast]
    exact (hbeside.2.2 a hlost).trans ((rget_fput_ne _ _ hstat).trans (hzero a ha))

theorem freshStrand_eq {t : State} {m : List Host.Cell} (h : ShedStep { s with img := m } t) (st : Nat) :
    t.freshStrand st = s.freshStrand st := by
  rw [State.freshStrand, h.cfg, h.member, h.activeBank]
  rfl

/-- SHED of a latched cycle (R47, R48, R94). -/
theorem shed_weaves {k : Fin 4} (hheld : s.ctl.held = false) (hpfail : s.ctl.pfail = false) (hinteg : s.integ = [])
    (hlatched : (s.cls k).latched = true) (hdone : (s.cls k).shedDone = false) (htime : (s.cls k).t0.toNat + s.dshed k ≤ s.tbNat)
    (hcopy : (s.cls k).executed = true → s.copying k = false) :
    ∃ t, exec (.shed k) s = .next t ∧ (t.cls k).shedDone = true ∧ NoBeats t k ∧ (s.inputsOf k = [] → t.img = s.img) ∧
      ((s.cls k).executed = false → ∀ st, t.strand st = s.strand st) ∧
      ((s.cls k).executed = true → modeExecutes s.mode = true → ∀ st, st < 16 → (s.cfg st).cls = k.val →
        (t.cls k).beam = .weaving ∧ t.strand st = s.freshStrand st) := by
  obtain ⟨⟨m, hstep, himg⟩, hset, hzero⟩ := shedClass_sheds (k := k) k.isLt hinteg
  have hexec : ((s.shedClass k).cls k).executed = (s.cls k).executed := hstep.2.1 k
  have hmode : (s.shedClass k).mode = s.mode := hstep.mode
  have hguard : (s.ctl.held || s.ctl.pfail || !(s.cls k).latched || (s.cls k).shedDone ||
      decide (s.tbNat < (s.cls k).t0.toNat + s.dshed k) || ((s.cls k).executed && s.copying k)) = false := by
    have hwait : ((s.cls k).executed && s.copying k) = false := by
      cases h : (s.cls k).executed with
      | false => rfl
      | true => exact hcopy h
    simp only [hheld, hpfail, hlatched, hdone, hwait, decide_eq_false (Nat.not_lt.mpr htime)]
    rfl
  have hshed : exec (.shed k) s = .next
      (if ((s.shedClass k).cls k).executed && modeExecutes (s.shedClass k).mode then (s.shedClass k).weaveStart k else s.shedClass k) :=
    if_neg (by rw [hguard]; exact Bool.false_ne_true)
  rw [hexec, hmode] at hshed
  by_cases hweaves : ((s.cls k).executed && modeExecutes s.mode) = true
  · rw [if_pos hweaves] at hshed
    obtain ⟨hexecuted, -⟩ := (Bool.and_eq_true _ _).mp hweaves
    obtain ⟨hkeptImg, hkeptDone, hkeptZero⟩ := weaveStart_keeps k.isLt (s.shedClass k)
    refine ⟨_, hshed, hkeptDone.trans hset, hkeptZero hzero, fun hnone => hkeptImg.trans (hstep.img.trans (himg hnone)),
      fun hno => ?_, fun _ _ st hst hcls => ?_⟩
    · rw [hexecuted] at hno
      exact absurd hno (by decide)
    · obtain ⟨hbeam, hstrand⟩ := weaveStart_weaves k.isLt hst ((congrArg StrandCfg.cls (hstep.cfg st)).trans hcls)
      exact ⟨hbeam, hstrand.trans (freshStrand_eq hstep st)⟩
  · rw [if_neg hweaves] at hshed
    refine ⟨_, hshed, hset, hzero, fun hnone => hstep.img.trans (himg hnone), fun _ st => hstep.strand st, fun hexecuted hruns => ?_⟩
    exact absurd ((Bool.and_eq_true _ _).mpr ⟨hexecuted, hruns⟩) hweaves

end

/-- Settles O25: a word entry takes its delivery or what the substitute policy gives, and the shed clears the beats and starts the strands. -/
theorem shedAndWeave : Obligations.ShedAndWeave := by
  unfold Obligations.ShedAndWeave
  refine ⟨fun s k i e v w q ovr => ?_, fun s k hheld hpfail hinteg hlatched hdone htime hcopy => ?_⟩
  · intro x age t word hkind _ hforces
    refine ⟨shedEntry_delivered hkind hforces, fun hdelivery hdelivered hquality hvalue hvalid => ?_⟩
    exact shedEntry_undelivered hkind hforces rfl hdelivery hdelivered hquality hvalue hvalid
  · obtain ⟨t, hexec, hset, hzero, himg, hidle, hweaves⟩ := shed_weaves hheld hpfail hinteg hlatched hdone htime hcopy
    exact ⟨t, hexec, hset, hzero.rget64.1, hzero.rget64.2, himg, hidle, hweaves⟩

end Sys2Proof.Machine
end
section
/-!
CERTIFICATE. What a t0 of a class begins (R36, R37, R39, R40, R57).
-/
namespace Sys2Proof.Machine

set_option Elab.async false

/-- No register: what is `OffCycle` with it may change them all. -/
abbrev NoReg (_ : Nat) : Prop := False

theorem noReg {a : Nat} : ¬ NoReg a := fun h => h

section
variable {s t u : State} {k : Nat}

theorem OffCycle.free {K : Nat → Prop} (h : OffCycle K s t) : OffCycle NoReg s t := h.mono fun _ h => h.elim

/-! ### A new cycle number (R36, R37, R39) -/

/-- Class `k` at a t0 of its own, with the overruns that still count. -/
def State.atT0 (s : State) (k : Nat) (l : List (BitVec 64)) : ClassSt :=
  { s.cls k with cyc := s.cycAt k s.tbNat, t0 := s.tb, started := true, latched := false, executed := false, shedDone := false,
                 deadlineDone := false, emitDone := false, skipped := false, ovrs := l }

/-- From `s` to `t` class `k` has begun a cycle number, and nothing else has changed that strands see. -/
def Begun (k : Nat) (s t : State) : Prop := s.backOffCycle t = s ∧ ∃ l m, t.cls k = { s.atT0 k l with latch := m }

theorem Begun.offCycle (h : Begun k s t) (g : OffCycle NoReg t u) : Begun k s u := by
  obtain ⟨hrest, l, m, hcls⟩ := h
  obtain ⟨m', hlatch⟩ := g.cls k
  refine ⟨?_, l, m', by rw [hlatch, hcls]⟩
  calc s.backOffCycle u = s.backOffCycle (t.backOffCycle u) := rfl
    _ = s := by rw [g.1, hrest]

theorem begin_begun (s : State) (k : Nat) : Begun k s (s.modCls k fun c =>
    { c with cyc := s.cycAt k s.tbNat, t0 := s.tb, started := true, latched := false, executed := false, shedDone := false,
             deadlineDone := false, emitDone := false, skipped := false }) :=
  ⟨rfl, (s.cls k).ovrs, (s.cls k).latch, cls_modCls_self _ _ _⟩

theorem backOffCycle_fput (s t : State) (f : Fld) (v : Nat) : s.backOffCycle (t.fput f v) = s.backOffCycle t := rfl

theorem backOffCycle_setCls (s t : State) (k : Nat) (c : ClassSt) : s.backOffCycle (t.setCls k c) = s.backOffCycle t := rfl

theorem showOverruns_rest (s t : State) (k : Nat) : s.backOffCycle (t.showOverruns k) = s.backOffCycle t :=
  (backOffCycle_fput s _ _ _).trans ((backOffCycle_fput s _ _ _).trans (backOffCycle_setCls s t k _))

theorem Begun.showOverruns (h : Begun k s t) : Begun k s (t.showOverruns k) := by
  obtain ⟨hrest, l, m, hcls⟩ := h
  obtain ⟨l', -, hshown⟩ := showOverruns_cls t k
  refine ⟨?_, l', m, ?_⟩
  · exact (showOverruns_rest s t k).trans hrest
  · rw [hshown, hcls]
    rfl

theorem OffCycle.mark (h : OffCycle NoReg s t) {o : Obs} : OffCycle NoReg s { t with obs := o } := h.upd

theorem newCycle_begun (hlive : (s.cls k).shadow = .none) :
    Begun k s (s.newCycle k) ∧ (s.newCycle k).mode = s.mode := by
  have habandon : s.dryAbandon k = s := if_neg (by rw [hlive]; decide)
  unfold State.newCycle
  rw [habandon]
  extract_lets begun shown o marked
  have hshown : Begun k s shown := (begin_begun s k).showOverruns
  have hmarked : OffCycle NoReg shown marked := ite_inv (OffCycle.refl _ _).mark (OffCycle.refl _ _)
  have hmode : shown.mode = s.mode := fget_congr (showOverruns_rget begun (clsStat_ne k).1)
  have hmarkedMode : marked.mode = shown.mode := ite_inv (P := fun v : State => v.mode = shown.mode) rfl rfl
  have hpushed : OffCycle (· = SYS_MODE) marked (marked.obsPush 0x01 k [(marked.cls k).cyc, (marked.cls k).t0]) :=
    (OffCycle.refl _ _).obsPush
  exact ⟨hshown.offCycle hmarked.obsPush, (hpushed.mode rfl).trans (hmarkedMode.trans hmode)⟩

/-! ### What takes effect at a t0 of C0 (R262, R516, R520) -/

theorem OffCycle.snapshot {K : Nat → Prop} (h : OffCycle K s t) (hlo : ¬ K PMC_SNAPT_LO := by decide)
    (hhi : ¬ K PMC_SNAPT_HI := by decide) (hlost : ¬ K OBS_LOST := by decide) : OffCycle K s t.snapshot := by
  unfold State.snapshot
  extract_lets l taken
  have htaken : OffCycle K s taken := ((h.upd (u := { t with pmcSnap := l })).rset hlo).rset hhi
  exact ite_inv (each_inv htaken fun _ h _ => h.obsPush hlost) htaken

theorem OffCycle.batonUpdate (h : OffCycle (· = SYS_MODE) s t) : OffCycle (· = SYS_MODE) s t.batonUpdate := by
  unfold State.batonUpdate
  extract_lets want had set
  have hset : OffCycle (· = SYS_MODE) s set := h.setFlag
  refine ite_inv ?_ hset
  have hoff : OffCycle CycleReg set set.sharedOff := by
    unfold State.sharedOff
    exact each_inv (each_inv (OffCycle.refl _ set) fun _ h _ => ite_inv h.dioApply h) fun _ h _ => ite_inv h.modUc h
  exact hset.trans (hoff.mono fun a ha => by rw [ha]; decide)

/-- RUN-LOCKED follows RUN without a change to the cycle (R262). -/
theorem setMode_locked (hrun : s.mode = mRun) (hpkg : s.edit.pkg = none) :
    OffCycle NoReg s (s.setMode mRunLocked 0) ∧ (s.setMode mRunLocked 0).mode = mRunLocked := by
  unfold State.setMode
  extract_lets +onlyGivenNames old
  rw [if_neg (by rw [show old = mRun from hrun]; decide)]
  extract_lets shown flagged raised ctl led noFault edited noActivation noTrial leaves roleless red noRole
  have hshown : OffCycle NoReg s shown := (OffCycle.refl _ s).fput.fput
  have hraised : OffCycle (· = SYS_MODE) shown raised := (OffCycle.refl _ shown).setFlag.raise
  have hled : OffCycle (· = SYS_MODE) shown led := hraised.upd
  have hnoFault : OffCycle (· = SYS_MODE) shown noFault := ite_inv hled hled.fput
  have hedited : edited = noFault := by
    have hnone : noFault.edit.pkg = none := (congrArg (fun v : State => v.edit.pkg) hnoFault.1 :).trans hpkg
    exact if_pos (by rw [hnone]; rfl)
  have hnoTrial : noTrial = edited := (if_neg (by decide)).trans (if_neg (by decide))
  have hnoRole : noRole = noTrial := if_neg (by rw [show leaves = false from rfl]; exact Bool.false_ne_true)
  have hend : OffCycle (· = SYS_MODE) shown noRole := by
    rw [hnoRole, hnoTrial, hedited]
    exact hnoFault
  have hmode : shown.mode = mRunLocked := fget_fput_self _ _ _ (show 0 + 4 ≤ 32 by decide)
  exact ⟨hshown.trans hend.batonUpdate.free, (hend.batonUpdate.mode rfl).trans hmode⟩

/-- RUN, or the RUN-LOCKED that follows it. -/
def Runs (s : State) : Prop := s.mode = mRun ∨ s.mode = mRunLocked

theorem setLockblk_mode (s : State) (b : Bool) : (s.setFlag SYS_MODE_LOCKBLK b).mode = s.mode :=
  fget_fput_apart _ _ _ _ (by decide) rfl (by decide)

theorem lockStep_runs (hrun : s.mode = mRun) (hpkg : s.edit.pkg = none) : OffCycle NoReg s s.lockStep ∧ Runs s.lockStep := by
  obtain ⟨hlocked, hmode⟩ := setMode_locked hrun hpkg
  unfold State.lockStep
  split
  · split
    · exact ⟨(OffCycle.refl _ s).setFlag, .inl ((setLockblk_mode s false).trans hrun)⟩
    · split
      · exact ⟨hlocked.setFlag, .inr ((setLockblk_mode _ false).trans hmode)⟩
      · exact ⟨OffCycle.refl _ s, .inl hrun⟩
  · exact ⟨OffCycle.refl _ s, .inl hrun⟩

/-- No change of mode, handover, activation, edit or announcement is pending. -/
def NothingDue (s : State) : Prop :=
  s.ctl.change = none ∧ s.edit.pkg = none ∧ s.upd.act = none ∧ s.red.handover = none ∧ s.red.tko = none ∧ s.hedge.announced = none ∧
    s.trace = Trace.reset ∧ s.forceReq = [] ∧ s.ctl.booting = false ∧ s.ctl.pfail = false

theorem NothingDue.rest (h : NothingDue s) (hrest : s.backOffCycle t = s) : NothingDue t := by
  have hsame : NothingDue (s.backOffCycle t) := by rw [hrest]; exact h
  exact hsame

theorem snapshot_mode (s : State) : s.snapshot.mode = s.mode :=
  (OffCycle.refl (· = SYS_MODE) s).snapshot.mode rfl

/-- With nothing due a t0 of C0 takes filters and counters, and may lock the mode (R262, R516, R520). -/
theorem c0Step_runs (hdue : NothingDue s) (hrun : s.mode = mRun) : OffCycle NoReg s s.c0Step ∧ Runs s.c0Step := by
  unfold State.c0Step
  extract_lets filtered counted locked
  have hfiltered : OffCycle NoReg s filtered := (OffCycle.refl _ s).mark
  have hcounted : OffCycle NoReg s counted := ite_inv hfiltered.snapshot hfiltered
  have hcountedRun : counted.mode = mRun :=
    ite_inv (P := fun v : State => v.mode = mRun) ((snapshot_mode filtered).trans hrun) hrun
  obtain ⟨-, hpkg, -, hhandover, -⟩ := hdue.rest hcounted.1
  have hstep : counted.handoverStep = counted := by
    unfold State.handoverStep
    rw [hhandover]
  have hlockedEq : locked = counted.lockStep := congrArg State.lockStep hstep
  obtain ⟨hoff, hruns⟩ := lockStep_runs hcountedRun hpkg
  rw [← hlockedEq] at hoff hruns
  obtain ⟨hchange, -, hact, -, -, hannounced, -⟩ := hdue.rest (hcounted.trans hoff).1
  have hnoActivation : locked.activationDue = false := by
    unfold State.activationDue
    rw [hact]
  have hnoChange : locked.changeStep = locked := by
    unfold State.changeStep
    rw [hchange]
  have hnoAnnounced : locked.announcedStep = locked := by
    unfold State.announcedStep
    rw [hannounced]
  rw [if_neg (by rw [hnoActivation]; exact Bool.false_ne_true), hnoChange, hnoAnnounced]
  exact ⟨hcounted.trans hoff, hruns⟩

/-! ### What a t0 of a class does before its cycle (R72, R302, R517, R518) -/

theorem t0_quiet (hdue : NothingDue s) (k : Nat) :
    ((((s.traceChecked k).traceStarts k).forceStep k).editRevert k) = s := by
  obtain ⟨-, hpkg, -, -, -, -, htrace, hforce, -, -⟩ := hdue
  have hchecked : s.traceChecked k = s := by
    unfold State.traceChecked
    rw [htrace]
    rfl
  have hstarts : s.traceStarts k = s := by
    unfold State.traceStarts
    rw [htrace]
    rfl
  have hforces : s.forceStep k = s := by
    unfold State.forceStep
    extract_lets due now kept
    have hnow : now = [] := by
      unfold now
      rw [hforce]
      rfl
    have hall : s.forceReq.filter (fun f => !due f) = s.forceReq := by
      rw [hforce]
      rfl
    have hkept : kept = s := by
      unfold kept
      rw [hall]
    rw [hnow, hkept]
    rfl
  rw [hchecked, hstarts, hforces]
  unfold State.editRevert
  split
  · next hrevert =>
    have hback : s.editBack k true = s := by
      unfold State.editBack
      rw [hpkg]
    rw [hback]
    refine if_neg fun hempty => ?_
    rw [List.isEmpty_iff.mp hempty] at hrevert
    exact Bool.false_ne_true hrevert
  · rfl

/-! ### The body of a cycle (R40, R43, R57) -/

/-- In RUN or RUN-LOCKED, a class that waits for no first cycle begins one or skips it. -/
theorem cycleBody_runs (hdue : NothingDue s) (hruns : Runs s) (hfirst : (s.cls k).firstPend = false) (rb above9 : BitVec 32)
    (rdbk : List (Fin 16 × Int)) (checks : List (Fin 8 × Nat × SeCheck)) : s.cycleBody k rb above9 rdbk checks =
      if (s.cls k).skipNext || (s.cls k).beam != .none then s.cycleSkip k else s.cycleExec k rb above9 rdbk checks := by
  obtain ⟨-, -, -, -, htko, -, -, -, -, hpfail⟩ := hdue
  have hexec : (modeExecutes s.mode && !(s.mode == mHandover && s.role == 2)) = true := by
    rcases hruns with h | h <;> rw [h] <;> rfl
  have hwaits : s.tkoWaits k = false := by
    unfold State.tkoWaits
    rw [htko]
  unfold State.cycleBody
  dsimp only
  rw [if_neg (by rw [hpfail]; exact Bool.false_ne_true), if_pos hexec, if_neg (by rw [hwaits]; exact Bool.false_ne_true),
    if_neg (by rw [hfirst]; exact Bool.false_ne_true)]

theorem cycleSkip_skips (s : State) (k : Nat) :
    (s.cycleSkip k).cls k = { s.cls k with skipNext := false, skipped := true } ∧ (s.cycleSkip k).img = s.img ∧
      (s.cycleSkip k).strands = s.strands ∧ (s.cycleSkip k).flag (CLS_EVT_SKIP k) = true := by
  obtain ⟨-, hevt, -⟩ := clsStat_ne k
  refine ⟨?_, rfl, rfl, ?_⟩
  · exact cls_modCls_self s k fun c => { c with skipNext := false, skipped := true }
  · exact (flag_congr (rget_fput_ne _ _ hevt)).trans (flag_setFlag_self _ _ _ (show 1 + 1 ≤ 32 by decide) Nat.one_pos)

theorem OffCycle.timersContinue (h : OffCycle NoReg s t) : OffCycle NoReg s (t.timersContinue k) := by
  have hmset : ∀ {v : State} {key : Nat} {l : List Byte}, OffCycle NoReg s v → OffCycle NoReg s (v.msetN key l) := fun {v key l} hv => by
    induction l generalizing v key with
    | nil => exact hv
    | cons b l ih =>
      have hset : OffCycle NoReg s (v.mset key b) := hv.upd
      exact ih hset
  have htimer : ∀ {v : State} {x : RetTimer}, OffCycle NoReg s v → OffCycle NoReg s (v.timerEt x).1 := fun hv => by
    unfold State.timerEt
    extract_lets at_
    split
    · exact hv
    · exact hv.upd
  unfold State.timersContinue
  refine ite_inv ?_ h
  extract_lets ctl left delta
  have hleft : OffCycle NoReg s left := h.upd
  split
  · exact hleft
  · exact each_inv hleft fun _ h _ => hmset (htimer h)

theorem OffCycle.noteCycle (h : OffCycle NoReg s t) : OffCycle NoReg s (t.noteCycle k) := h.upd

theorem OffCycle.wdgCycle (h : OffCycle NoReg s t) {first : Bool} : OffCycle NoReg s (t.wdgCycle k first) := by
  have hset : ∀ {v : State} {n : Nat} {x : WdgSlot}, OffCycle NoReg s v → OffCycle NoReg s (v.setWslot n x) := fun hv => hv.upd
  exact each_inv h fun v hv n => ite_inv ((hset hv).setFlag noReg) (ite_inv (((hset hv).setFlag noReg).setFlag noReg) hv)

theorem OffCycle.setEngine (h : OffCycle NoReg s t) {n : Nat} {x : Engine} : OffCycle NoReg s (t.setEngine n x) := h.upd

theorem OffCycle.withFailed (h : OffCycle NoReg s t) {n : Nat} : OffCycle NoReg s { t with seFailedKeep := n } := h.upd

theorem OffCycle.failEngine (h : OffCycle NoReg s t) {n : Nat} {p : List Byte} : OffCycle NoReg s (t.failEngine n p) := by
  unfold State.failEngine
  extract_lets bad jobs running jobs' set failed kept
  have hbad : OffCycle NoReg s bad := each_inv h fun _ h _ => ite_inv (h.trans (OffCycle.refl _ _).pipeBad.free) h
  have hfailed : OffCycle NoReg s failed := hbad.setEngine.setBit noReg
  have hkept : OffCycle NoReg s kept := hfailed.withFailed
  exact (hkept.setBit noReg).raise

theorem OffCycle.seCompare (h : OffCycle NoReg s t) {n id : Nat} {c : Option SeCheck} : OffCycle NoReg s (t.seCompare n id c).1 := by
  unfold State.seCompare
  split
  · exact h
  · refine ite_inv (P := fun x : State × Bool => OffCycle NoReg s x.1) ?_ h
    extract_lets pay retried counted
    have hretried : OffCycle NoReg s retried := (h.satBump noReg).satBump noReg
    have hcounted : OffCycle NoReg s counted := (hretried.setBit noReg).trans (OffCycle.refl _ _).countG.free
    exact ite_inv (P := fun x : State × Bool => OffCycle NoReg s x.1) (OffCycle.failEngine h) hcounted.raise

theorem OffCycle.latchReadback (h : OffCycle NoReg s t) {rdbk : List (Fin 16 × Int)} : OffCycle NoReg s (t.latchReadback k rdbk) := by
  refine each_inv h fun v hv n => ?_
  extract_lets mine
  split
  · exact ite_inv (hv.fput noReg).setLatch hv
  · exact hv.setLatch

theorem latchClass_latches (s : State) (rb above9 : BitVec 32) (rdbk : List (Fin 16 × Int)) (checks : List (Fin 8 × Nat × SeCheck)) :
    OffCycle NoReg (s.modCls k fun c => { c with latched := true }) (s.latchClass k rb above9 rdbk checks) := by
  unfold State.latchClass
  extract_lets begun latched
  have hbegun : OffCycle NoReg (s.modCls k fun c => { c with latched := true }) begun := (OffCycle.refl _ _).fput noReg
  have hlatched : OffCycle NoReg (s.modCls k fun c => { c with latched := true }) latched :=
    (hbegun.trans (OffCycle.refl _ begun).dioLatch.free).latchReadback
  exact each_inv hlatched fun _ h _ => h.seCompare

theorem cycleExec_latches (hdue : NothingDue s) (rb above9 : BitVec 32) (rdbk : List (Fin 16 × Int))
    (checks : List (Fin 8 × Nat × SeCheck)) :
    (∃ m, (s.cycleExec k rb above9 rdbk checks).cls k =
        { s.cls k with firstPend := false, executed := true, beatToDone := false, latched := true, latch := m }) ∧
      (s.cycleExec k rb above9 rdbk checks).img = s.img ∧ (s.cycleExec k rb above9 rdbk checks).strands = s.strands := by
  unfold State.cycleExec
  extract_lets first begun swapped closed ended armed
  have hswapped : swapped = begun := if_neg (by
    have hnone : begun.swapDue k = false := by
      unfold State.swapDue
      rw [show begun.edit.pkg = none from hdue.2.1]
    rw [hnone]
    exact Bool.false_ne_true)
  have hclosed : OffCycle NoReg begun closed := by
    unfold closed
    rw [hswapped]
    exact (OffCycle.refl _ _).setFlag
  have hdueClosed : NothingDue closed := (hdue.rest (t := begun) rfl).rest hclosed.1
  have hended : ended = closed := by
    have hboot : closed.bootEnd = closed := if_neg (by
      obtain ⟨-, -, -, -, -, -, -, -, hbooting, -⟩ := hdueClosed
      rw [hbooting]
      exact Bool.false_ne_true)
    unfold ended
    rw [hboot, ite_self]
  have hwatched : OffCycle NoReg closed (((ended.timersContinue k).noteCycle k).wdgCycle k first) := by
    rw [hended]
    exact (OffCycle.refl _ _).timersContinue.noteCycle.wdgCycle
  have harmedEq : armed = ((ended.timersContinue k).noteCycle k).wdgCycle k first := by
    obtain ⟨-, -, -, -, htko, -⟩ := hdueClosed.rest hwatched.1
    unfold armed State.tkoFirst
    rw [htko]
  have harmed : OffCycle NoReg begun armed := by
    rw [harmedEq]
    exact hclosed.trans hwatched
  have hlatched := latchClass_latches (k := k) armed rb above9 rdbk checks
  obtain ⟨m, hcls⟩ := hlatched.cls k
  obtain ⟨m', harmedCls⟩ := harmed.cls k
  refine ⟨⟨m, ?_⟩, hlatched.img.trans harmed.img, hlatched.strands.trans harmed.strands⟩
  rw [hcls, cls_modCls_self, harmedCls, cls_modCls_self]

theorem NothingDue.of_quiet (h : Quiet s) : NothingDue s := by
  obtain ⟨⟨-, hpfail, hchange, hbooting⟩, ⟨hpkg, hact, -, -⟩, ⟨-, htko, hhandover, -, -, -⟩, ⟨hannounced, -, -, -⟩, ⟨htrace, -⟩,
    ⟨-, hforceReq, -⟩⟩ := h
  exact ⟨hchange, hpkg, hact, hhandover, htko, hannounced, htrace, hforceReq, hbooting, hpfail⟩

/-- At its t0 in RUN a class begins a cycle number, and then a cycle or a skip (R36, R37, R57). -/
theorem cycleStart_begins {k : Fin 4} {found : LatchFacts} (hquiet : Quiet s) (hcomes : s.t0Comes k = true) (hrun : s.mode = mRun)
    (hfirst : (s.cls k).firstPend = false) (rb above9 : BitVec 32) :
    ∃ v, Begun k s v ∧ NothingDue v ∧ exec (.cycleStart k rb above9 found) s = .next
      (if (v.cls k).skipNext || (v.cls k).beam != .none then v.cycleSkip k
       else v.cycleExec k rb above9 found.rdbk found.checks) := by
  obtain ⟨-, ⟨-, -, -, hlive⟩, -⟩ := id hquiet
  have hdue := NothingDue.of_quiet hquiet
  obtain ⟨hbegun, hmode⟩ := newCycle_begun (hlive k)
  have hready : (s.newCycle k).showReady = s.newCycle k := if_neg fun h => absurd (hmode.symm.trans h.1) (by rw [hrun]; decide)
  show ∃ v, Begun k s v ∧ NothingDue v ∧ execCycleStart k rb above9 found s = _
  unfold execCycleStart
  rw [if_pos hcomes, hready]
  extract_lets n v
  have hv : Begun k s v ∧ Runs v := by
    obtain ⟨hoff, hruns⟩ := c0Step_runs (hdue.rest hbegun.1) (hmode.trans hrun)
    exact ite_inv (P := fun v : State => Begun k s v ∧ Runs v) ⟨hbegun.offCycle hoff, hruns⟩ ⟨hbegun, .inl (hmode.trans hrun)⟩
  obtain ⟨hbegun', hruns⟩ := hv
  have hdue' := hdue.rest hbegun'.1
  obtain ⟨-, l, m, hcls⟩ := id hbegun'
  refine ⟨v, hbegun', hdue', ?_⟩
  rw [if_pos (by rw [hcls]; rfl), t0_quiet hdue', cycleBody_runs hdue' hruns (by rw [hcls]; exact hfirst)]

end

/-- Settles O24: a t0 of a class in RUN advances its number, and begins a cycle or skips it. -/
theorem cycleStart : Obligations.CycleStart := by
  unfold Obligations.CycleStart
  intro s k rb above9 found hquiet hcomes hrun hfirst
  obtain ⟨v, ⟨hrest, l, m, hcls⟩, hdue, hexec⟩ := cycleStart_begins (found := found) hquiet hcomes hrun hfirst rb above9
  have himg : v.img = s.img := (congrArg State.img hrest :)
  have hstrands : v.strands = s.strands := (congrArg State.strands hrest :)
  have hskipNext : (v.cls k).skipNext = (s.cls k).skipNext := by rw [hcls]; rfl
  have hbeam : (v.cls k).beam = (s.cls k).beam := by rw [hcls]; rfl
  have hcyc : (v.cls k).cyc = s.cycAt k s.tbNat := by rw [hcls]; rfl
  have ht0 : (v.cls k).t0 = s.tb := by rw [hcls]; rfl
  have hstarted : (v.cls k).started = true := by rw [hcls]; rfl
  have hnotExecuted : (v.cls k).executed = false := by rw [hcls]; rfl
  have hnotSkipped : (v.cls k).skipped = false := by rw [hcls]; rfl
  have hdecides : ((v.cls k).skipNext || (v.cls k).beam != .none) = true ↔ (s.cls k).skipNext = true ∨ (s.cls k).beam ≠ .none := by
    rw [hskipNext, hbeam, Bool.or_eq_true, bne_iff_ne]
  by_cases hskips : ((v.cls k).skipNext || (v.cls k).beam != .none) = true
  · rw [if_pos hskips] at hexec
    obtain ⟨hskipCls, hskipImg, hskipStrands, hevt⟩ := cycleSkip_skips v k
    refine ⟨_, hexec, ?_, ?_, ?_, hskipImg.trans himg, hskipStrands.trans hstrands, fun hno hnone => ?_, fun _ => ⟨?_, ?_, ?_, hevt⟩⟩
    case refine_4 => exact absurd (hdecides.mp hskips) (by rw [hno, hnone]; simp)
    all_goals rw [hskipCls]
    · exact hcyc
    · exact ht0
    · exact hstarted
    · exact hnotExecuted
  · rw [if_neg hskips] at hexec
    obtain ⟨⟨m', hexecCls⟩, hexecImg, hexecStrands⟩ := cycleExec_latches (k := k) hdue rb above9 found.rdbk found.checks
    refine ⟨_, hexec, ?_, ?_, ?_, hexecImg.trans himg, hexecStrands.trans hstrands, fun _ _ => ⟨?_, ?_, ?_⟩,
      fun hskip => absurd (hdecides.mpr hskip) hskips⟩
    all_goals rw [hexecCls]
    · exact hcyc
    · exact ht0
    · exact hstarted
    · exact hnotSkipped

end Sys2Proof.Machine
end

section
/-!
CERTIFICATE. Rounding and limiting of fixed-point results (R147).
-/
namespace Sys2Proof.Machine

set_option Elab.async false

/-! ### Rounding -/

/-- The number of `round_shift` as whole units of `2 * h` and a rest, on which the rounding decides. -/
theorem roundShift_of_rest (v : Int) {s : Nat} (hs : 1 ≤ s) : ∃ q r h : Int, 2 ^ s = 2 * h ∧ v = q * (2 * h) + r ∧ 0 ≤ r ∧ r < 2 * h ∧
    ∀ rnd, roundShift rnd v s = if rnd = 1 ∧ h ≤ r then q + 1 else if rnd = 2 ∧ (h < r ∨ (r = h ∧ q % 2 = 1)) then q + 1 else q := by
  have hpow : ((2 ^ s : Nat) : Int) = 2 * ((2 ^ (s - 1) : Nat) : Int) := by
    obtain ⟨n, rfl⟩ : ∃ n, s = n + 1 := ⟨s - 1, by omega⟩
    rw [Nat.add_sub_cancel]
    push_cast
    ring
  have hpos : (0 : Int) < ((2 ^ s : Nat) : Int) := by positivity
  refine ⟨v / (2 ^ s : Nat), v % (2 ^ s : Nat), (2 ^ (s - 1) : Nat), ?_, ?_, Int.emod_nonneg v hpos.ne', ?_, fun rnd => rfl⟩
  · exact_mod_cast hpow
  · rw [← hpow]
    exact (Int.ediv_mul_add_emod v _).symm
  · rw [← hpow]
    exact Int.emod_lt_of_pos v hpos

section
variable (v : Int) {s : Nat} (hs : 1 ≤ s)
include hs

/-- TRUNC gives the floor. -/
theorem roundShift_trunc : roundShift 0 v s * 2 ^ s ≤ v ∧ v < (roundShift 0 v s + 1) * 2 ^ s := by
  obtain ⟨q, r, h, hone, hv, hr, hlt, hround⟩ := roundShift_of_rest v hs
  rw [hone, hround, if_neg (by simp), if_neg (by simp)]
  constructor <;> linarith

/-- HALF_UP gives the nearest integer, the upper one of two. -/
theorem roundShift_halfUp :
    2 * roundShift 1 v s * 2 ^ s - 2 ^ s ≤ 2 * v ∧ 2 * v < 2 * roundShift 1 v s * 2 ^ s + 2 ^ s := by
  obtain ⟨q, r, h, hone, hv, hr, hlt, hround⟩ := roundShift_of_rest v hs
  rw [hone, hround, if_neg (c := (1 : Nat) = 2 ∧ _) (by simp)]
  by_cases hup : h ≤ r
  · rw [if_pos ⟨rfl, hup⟩]
    constructor <;> linarith
  · rw [if_neg (by simp [hup])]
    constructor <;> linarith

/-- HALF_EVEN gives the nearest integer, the even one of two. -/
theorem roundShift_halfEven :
    2 * roundShift 2 v s * 2 ^ s - 2 ^ s ≤ 2 * v ∧ 2 * v ≤ 2 * roundShift 2 v s * 2 ^ s + 2 ^ s ∧
      (2 * v = 2 * roundShift 2 v s * 2 ^ s - 2 ^ s ∨ 2 * v = 2 * roundShift 2 v s * 2 ^ s + 2 ^ s → roundShift 2 v s % 2 = 0) := by
  obtain ⟨q, r, h, hone, hv, hr, hlt, hround⟩ := roundShift_of_rest v hs
  rw [hone, hround, if_neg (c := (2 : Nat) = 1 ∧ _) (by simp)]
  by_cases hup : h < r ∨ (r = h ∧ q % 2 = 1)
  · rw [if_pos ⟨rfl, hup⟩]
    have hle : h ≤ r := hup.elim le_of_lt fun htie => htie.1.ge
    refine ⟨by linarith, by linarith, fun htie => ?_⟩
    have hodd : q % 2 = 1 := by
      refine hup.elim (fun hlow => ?_) And.right
      rcases htie with htie | htie <;> linarith
    omega
  · rw [if_neg (by simp [hup])]
    obtain ⟨hle, heven⟩ := not_or.mp hup
    refine ⟨by linarith, by linarith, fun htie => ?_⟩
    have hrest : r = h := by rcases htie with htie | htie <;> linarith
    have : q % 2 ≠ 1 := fun hq => heven ⟨hrest, hq⟩
    omega

end

/-! ### Limiting -/

/-- The low bits of a number as a signed number lie in its range, and differ from it by a multiple of the modulus. -/
theorem toInt_ofInt_range (v : Int) (n : Nat) : -(2 ^ (n - 1)) ≤ (BitVec.ofInt n v).toInt ∧
    (BitVec.ofInt n v).toInt ≤ 2 ^ (n - 1) - 1 ∧ (v - (BitVec.ofInt n v).toInt) % 2 ^ n = 0 := by
  refine ⟨BitVec.le_toInt _, Int.le_sub_one_of_lt BitVec.toInt_lt, ?_⟩
  rw [BitVec.toInt_ofInt]
  exact_mod_cast Int.emod_eq_zero_of_dvd (Int.dvd_self_sub_bmod (x := v) (m := 2 ^ n))

/-- The limit, with its bounds as integers. -/
theorem limitTo_eq (sat : Bool) (v : Int) (n : Nat) : limitTo sat v n =
    if -(2 ^ (n - 1)) ≤ v ∧ v ≤ 2 ^ (n - 1) - 1 then (v, false, false)
    else if sat then (if v < -(2 ^ (n - 1)) then -(2 ^ (n - 1)) else 2 ^ (n - 1) - 1, true, true)
    else ((BitVec.ofInt n v).toInt, true, false) := by
  unfold limitTo
  push_cast
  rfl

section
variable {v : Int} {n : Nat}

theorem limitTo_fits (sat : Bool) (hlo : -(2 ^ (n - 1)) ≤ v) (hhi : v ≤ 2 ^ (n - 1) - 1) : limitTo sat v n = (v, false, false) := by
  rw [limitTo_eq, if_pos ⟨hlo, hhi⟩]

theorem limitTo_saturates_low (hlow : v < -(2 ^ (n - 1))) : limitTo true v n = (-(2 ^ (n - 1)), true, true) := by
  rw [limitTo_eq, if_neg fun h => absurd h.1 (not_le.mpr hlow), if_pos rfl, if_pos hlow]

theorem limitTo_saturates_high (hhigh : 2 ^ (n - 1) - 1 < v) : limitTo true v n = (2 ^ (n - 1) - 1, true, true) := by
  have hpos : (0 : Int) < 2 ^ (n - 1) := by positivity
  rw [limitTo_eq, if_neg fun h => absurd h.2 (not_le.mpr hhigh), if_pos rfl, if_neg (by omega)]

theorem limitTo_wraps (hout : v < -(2 ^ (n - 1)) ∨ 2 ^ (n - 1) - 1 < v) :
    limitTo false v n = ((BitVec.ofInt n v).toInt, true, false) := by
  rw [limitTo_eq, if_neg fun h => hout.elim (not_lt.mpr h.1) (not_lt.mpr h.2), if_neg Bool.false_ne_true]

end

/-- Settles O8: each rounding from the units and the rest of the number, and the limit by the place of the number to its bounds. -/
theorem roundAndLimit : Obligations.RoundAndLimit := by
  unfold Obligations.RoundAndLimit
  refine ⟨fun v s hs => ⟨roundShift_trunc v hs, roundShift_halfUp v hs, roundShift_halfEven v hs⟩, fun v n sat _ => ?_⟩
  exact ⟨limitTo_fits sat, limitTo_saturates_low, limitTo_saturates_high,
    fun hout => ⟨_, limitTo_wraps hout, toInt_ofInt_range v n⟩⟩

end Sys2Proof.Machine
end

section
/-!
CERTIFICATE. LR and SC in the module's own global memory (R152 to R155).
-/
namespace Sys2Proof.Machine

set_option Elab.async false

/-! ### The reservation at the issue, and the reservations of others (R154) -/

theorem Strand.age_sc (x : Strand) : (x.age .sc).resv = x.resv := by
  unfold Strand.age
  split
  · rw [if_neg (by simp)]
  · rfl

/-- The issue of the SC leaves the reservation that it needs. -/
theorem issue_sc_resv (s : State) (st : Fin 16) : ((s.issue st .sc).strand st).resv = (s.strand st.val).resv := by
  unfold State.issue
  rw [State.strand, (PmcOnly.countS _ _ _ _ st.isLt).strands, (PmcOnly.countS _ _ _ _ st.isLt).strands]
  exact (congrArg Strand.resv (strand_modStrand_self s st fun x => x.age .sc)).trans (Strand.age_sc _)

/-- A write to the granule that another strand has reserved takes its reservation. -/
theorem breakResv_lost {s : State} {st j g addr n : Nat} (hj : j ≠ st) (hlt : j < 16) (hresv : (s.strand j).resv = .valid s.member g)
    (hover : overlaps (g * 32) 32 addr n = true) : ((s.breakResv st addr n).strand j).resv = .lost := by
  unfold State.breakResv
  extract_lets broken
  show (broken.strand j).resv = .lost
  refine each_mem_establishes_of (P := fun u : State => (u.strand j).resv = .lost)
    (I := fun u : State => u.member = s.member ∧ ((u.strand j).resv = .valid s.member g ∨ (u.strand j).resv = .lost))
    (List.mem_range.mpr hlt) ⟨rfl, .inl hresv⟩ (fun u hu i _ => ?_) (fun u hu => ?_) (fun u _ hlost i _ => ?_)
  · obtain ⟨hmember, hheld⟩ := hu
    split
    · exact ⟨hmember, hheld⟩
    · refine ⟨hmember, ?_⟩
      by_cases hij : j = i
      · subst hij
        rw [strand_modStrand_self]
        rcases hheld with hheld | hheld <;> simp [hheld, hmember, hover]
      · rwa [strand_modStrand_ne _ _ hij]
  · obtain ⟨hmember, hheld⟩ := hu
    rw [if_neg hj, strand_modStrand_self]
    rcases hheld with hheld | hheld <;> simp [hheld, hmember, hover]
  · split
    · exact hlost
    · by_cases hij : j = i
      · subst hij
        rw [strand_modStrand_self]
        simp [hlost]
      · rwa [strand_modStrand_ne _ _ hij]

/-! ### What LR and SC find, and how they end (R153, R155) -/

section
variable {s u : State} {st : Fin 16}

theorem Issued.lrLoc_own (h : Issued s u st) {b : Fin 16} {addr : Nat} (haddr : (s.strand st.val).w[b].toNat = addr)
    (hlo : 0x10000000 ≤ addr) (hhi : addr < 0x11A00000) (halign : addr % 4 = 0) :
    u.lrLoc st (u.strand st).w[b] = .ok (s.member, addr) := by
  unfold State.lrLoc
  simp only [h.w, haddr, halign, hlo, hhi, h.1.member, ne_eq, not_true_eq_false, if_false, and_self, if_true]

theorem Issued.integ (h : Issued s u st) : u.integ = s.integ := (congrArg State.integ h.1.1 :)

theorem Issued.mem (h : Issued s u st) : u.mem = s.mem := (congrArg State.mem h.1.1 :)

/-- A strand at the end of LR or SC: its reservation is `r`, and register `d` holds `v`. -/
def Strand.setResv (x : Strand) (r : Resv) (age : Nat) (d : Fin 16) (v : Word) : Strand := { x with resv := r, resvAge := age }.setW d v

/-- An instruction that sets the reservation of its strand and a register, and completes. -/
theorem dx_sets_resv {v : State} {i : Instr} {kind : DxKind} {body : State → Exec} {dst : Option Word} {r : Resv} {age : Nat} {d : Fin 16}
    {w : Word} (h : Ready s st) (hv : Issued s v st)
    (hbody : body (s.issue st kind) = .ok (v.setStrand st ((v.strand st).setResv r age d w)) dst) :
    ∃ t, dx s st i kind body = .next t ∧ (t.strand st).resv = r ∧
      Retires s t st { s.strand st.val with w := (s.strand st.val).w.set d w } := by
  have hset : OnlyStrand s (v.setStrand st ((v.strand st).setResv r age d w)) st := hv.1.set _
  obtain ⟨-, q, n, hstrand⟩ := id hv
  refine ⟨_, dx_completes h hbody (hv.quiet h), ?_, hset.set _, ?_⟩ <;> rw [strand_goOn_self, strand_setStrand_self, hstrand] <;> rfl

end

/-- The state after the store of an SC into the own memory (R154). -/
def State.scStored (u : State) (st : Fin 16) (addr : Nat) (a : Fin 16) : State :=
  (u.msetN addr (storeBytes (u.strand st).w[a] 4)).breakResv st addr 4

theorem scStored_stored (u : State) (st : Fin 16) (addr : Nat) (a : Fin 16) : OnlyStored st u (u.scStored st addr a) :=
  ((OnlyStored.msetN st u addr _).breakResv addr 4).1

theorem scStored_mem (u : State) (st : Fin 16) (addr : Nat) (a : Fin 16) :
    (u.scStored st addr a).mem = (u.msetN addr (storeBytes (u.strand st).w[a] 4)).mem := ((OnlyStored.msetN st u addr _).breakResv addr 4).2

theorem scStored_lost {u : State} {st : Fin 16} {addr j : Nat} (a : Fin 16) (hj : j ≠ st.val) (hlt : j < 16)
    (hresv : (u.strand j).resv = .valid u.member (addr / 32)) : ((u.scStored st addr a).strand j).resv = .lost := by
  have hset := msetN_eq u addr (storeBytes (u.strand st).w[a] 4)
  refine breakResv_lost hj hlt (g := addr / 32) ?_ ?_
  · rw [hset]
    exact hresv
  · rw [overlaps, decide_eq_true_eq]
    omega

/-! ### LR and SC on a granule of the own memory (R152, R154, R155) -/

section
variable {s : State} {st b : Fin 16} {addr : Nat} (hready : Ready s st) (haddr : (s.strand st.val).w[b].toNat = addr)
  (hlo : 0x10000000 ≤ addr) (hhi : addr < 0x11A00000) (halign : addr % 4 = 0)
include hready haddr hlo hhi halign

theorem lr_reserves (d : Fin 16) (hinteg : s.integ.contains (addr / 32) = false) (hfull : s.fabricFull = false) :
    ∃ t, exec (.lr st d b) s = .next t ∧ (t.strand st).resv = .valid s.member (addr / 32) ∧
      Retires s t st { s.strand st.val with w := (s.strand st.val).w.set d (BitVec.ofNat 32 (leNat (s.mgetN addr 4))) } := by
  have hu := issue_issued s st .load
  refine dx_sets_resv (age := 0) (dst := some (extWord (leNat (s.mgetN addr 4)))) hready hu ?_
  simp only [hu.lrLoc_own haddr hlo hhi halign, hu.1.member, if_true, hu.integ, hinteg, hu.fabricFull, hfull, Bool.false_eq_true, if_false,
    mgetN_congr hu.mem]
  rfl

/-- The SC of a strand whose reservation is not one of the granule writes 1. -/
theorem sc_fails (d a : Fin 16) (hresv : (s.strand st.val).resv = .lost ∨
      ∃ m g, (s.strand st.val).resv = .valid m g ∧ (m ≠ s.member ∨ g ≠ addr / 32)) :
    ∃ t, exec (.sc st d a b) s = .next t ∧ (t.strand st).resv = .none ∧
      Retires s t st { s.strand st.val with w := (s.strand st.val).w.set d 1 } := by
  have hu := issue_issued s st .sc
  have hv := hu.countS 0x0B 1
  refine dx_sets_resv (age := (((s.issue st .sc).countS st 0x0B 1).strand st).resvAge) (dst := some 1) hready hv ?_
  simp only [hu.lrLoc_own haddr hlo hhi halign, issue_sc_resv]
  rcases hresv with hresv | ⟨m, g, hresv, hne⟩ <;> rw [hresv]
  · rfl
  · exact if_pos hne

theorem sc_without_lr (d a : Fin 16) (hresv : (s.strand st.val).resv = .none) :
    exec (.sc st d a b) s = .next ((s.issue st .sc).trap st 0x0C) := by
  refine dx_traps hready ?_
  simp only [(issue_issued s st .sc).lrLoc_own haddr hlo hhi halign, issue_sc_resv, hresv]

/-- The SC of a strand that holds a reservation of the granule stores, and takes those of the others. -/
theorem sc_stores (d a : Fin 16) (hresv : (s.strand st.val).resv = .valid s.member (addr / 32))
    (hinteg : s.integ.contains (addr / 32) = false) (hfull : s.fabricFull = false) :
    ∃ t, exec (.sc st d a b) s = .next t ∧ (t.strand st).resv = .none ∧ (t.strand st).w = (s.strand st.val).w.set d 0 ∧
      (∀ j, j < 4 → t.mget (addr + j) = (s.strand st.val).w[a].extractLsb' (8 * j) 8) ∧
      (∀ k, k < addr ∨ addr + 4 ≤ k → t.mget k = s.mget k) ∧
      ∀ j g, j ≠ st.val → g = addr / 32 → (s.strand j).resv = .valid s.member g → j < 16 → (t.strand j).resv = .lost := by
  have hu := issue_issued s st .sc
  obtain ⟨⟨-, hothers, -⟩, -⟩ := id hu
  obtain ⟨v, hv⟩ : ∃ v, (s.issue st .sc).scStored st addr a = v := ⟨_, rfl⟩
  obtain ⟨hrest, hown, -⟩ := hv ▸ scStored_stored (s.issue st .sc) st addr a
  have hset := mget_congr (hv ▸ scStored_mem (s.issue st .sc) st addr a)
  have hq : v.flag OBS_RT_STAT_CAPTURING = false := (congrArg (State.flag · OBS_RT_STAT_CAPTURING) hrest :).trans (hu.quiet hready)
  have hbytes := storeBytes_length ((s.issue st .sc).strand st).w[a] 4
  refine ⟨(v.setStrand st ((v.strand st).setResv .none (v.strand st).resvAge d 0)).goOn st ((s.strand st.val).pc + 4),
    dx_completes hready (dst := some 0) ?_ hq, ?_, ?_, fun j hj => ?_, fun k hk => ?_, fun j g hj hg hheld hlt => ?_⟩
  · subst hv
    simp only [hu.lrLoc_own haddr hlo hhi halign, issue_sc_resv, hresv, ne_eq, not_true_eq_false, or_self, if_false, hu.1.member, if_true,
      hu.integ, hinteg, hu.fabricFull, hfull, Bool.false_eq_true]
    rfl
  · rw [strand_goOn_self, strand_setStrand_self]
    rfl
  · rw [strand_goOn_self, strand_setStrand_self]
    exact congrArg (fun w : Vector Word 16 => w.set d 0) ((congrArg Strand.w hown).trans hu.w)
  · rw [← hu.w]
    exact (hset _).trans (mget_msetN_at _ addr _ (getElem?_storeBytes _ 4 hj))
  · refine (hset k).trans (Eq.trans ?_ (mget_congr hu.mem k))
    exact hk.elim (mget_msetN_below _ addr _) fun h => mget_msetN_above _ addr _ (by rwa [hbytes])
  · subst hg hv
    rw [State.goOn, strand_modStrand_ne _ _ hj, strand_setStrand_ne _ _ hj]
    refine scStored_lost a hj hlt ?_
    rw [hothers j hj, hu.1.member, hheld]

end

/-- Settles O16: LR reserves, and SC stores, fails or traps by the reservation that its strand holds. -/
theorem loadReservedStoreConditional : Obligations.LoadReservedStoreConditional := by
  unfold Obligations.LoadReservedStoreConditional
  intro s st d a b hready x addr hlo hhi halign hinteg hfull
  exact ⟨lr_reserves hready rfl hlo hhi halign d hinteg hfull,
    fun hresv => sc_stores hready rfl hlo hhi halign d a hresv hinteg hfull,
    sc_fails hready rfl hlo hhi halign d a, sc_without_lr hready rfl hlo hhi halign d a⟩

end Sys2Proof.Machine
end

section
/-!
CERTIFICATE. The beams of a formed hedge: exports and DONE, RELEASE, LATE and the cut instant (R52, R359, R361).
-/
namespace Sys2Proof.Machine

set_option Elab.async false

/-! ### Exports and DONE before the local commit (R359) -/

@[simp] theorem hbeam_setHbeam_self (s : State) (k : Nat) (b : HedgeBeam) : (s.setHbeam k b).hbeam k = b := tget_tset_self _ _ _ _

theorem hedgeProgress_uncommitted {s : State} {k : Nat} (hcommit : (s.hbeam k).commitAt = none) : s.hedgeProgress k = s := by
  unfold State.hedgeProgress
  split
  · rfl
  · extract_lets b
    rw [if_neg]
    simp [b, hcommit]

section
variable {s : State} (hheld : s.ctl.held = false) (hformed : s.flag MEL_STAT_FORMED = true)
include hheld hformed

theorem exports_kept {m : ExportMsg} (hcommit : (s.hbeam m.cls).commitAt = none) : ∃ t, exec (.exports m) s = .next t ∧
    m ∈ (t.hbeam m.cls).exports ∧ t.img = s.img ∧ t.classes = s.classes ∧ t.tx = s.tx := by
  refine ⟨s.setHbeam m.cls { s.hbeam m.cls with exports := (s.hbeam m.cls).exports.filter (fun x => x.sender != m.sender) ++ [m] },
    ?_, ?_, rfl, rfl, rfl⟩
  · show execExports m s = _
    unfold execExports
    rw [if_neg (by simp [hheld, hformed])]
    exact congrArg Host.Outcome.next (hedgeProgress_uncommitted (by rw [hbeam_setHbeam_self]; exact hcommit))
  · rw [hbeam_setHbeam_self]
    exact List.mem_append_right _ (List.mem_singleton_self m)

theorem done_kept {k : Fin 4} (member : Fin 16) (hcommit : (s.hbeam k).commitAt = none) : ∃ t, exec (.done k member) s = .next t ∧
    member.val ∈ (t.hbeam k).done ∧ t.img = s.img ∧ t.classes = s.classes ∧ t.tx = s.tx := by
  refine ⟨s.setHbeam k { s.hbeam k with done := insertUp member (s.hbeam k).done }, ?_, ?_, rfl, rfl, rfl⟩
  · show execDone k member s = _
    unfold execDone
    rw [if_neg (by simp [hheld, hformed])]
    exact congrArg Host.Outcome.next (hedgeProgress_uncommitted (by rw [hbeam_setHbeam_self]; exact hcommit))
  · rw [hbeam_setHbeam_self]
    exact mem_insertUp.mpr (.inl rfl)

end

/-! ### LATE and the cut instant (R361) -/

/-- What a late cycle leaves: its mark with the beam, the flag, and the rest of the module beside registers and events. -/
theorem markLate_marks (s : State) (k : Nat) (cyc : BitVec 64) : ((s.markLate k cyc).hbeam k).late = true ∧
    ((s.markLate k cyc).hbeam k).lateCyc = cyc ∧ (s.markLate k cyc).flag MEL_EVT_LATE = true ∧ (s.markLate k cyc).img = s.img ∧
    (s.markLate k cyc).classes = s.classes ∧ (s.markLate k cyc).tx = s.tx := by
  have hcount : MEL_LATECNT k ≠ MEL_EVT := by
    unfold MEL_LATECNT MEL_EVT
    omega
  unfold State.markLate
  extract_lets beam marked
  obtain ⟨t, ht⟩ : ∃ t, (((marked.setFlag MEL_EVT_LATE true).satBump (MEL_LATECNT_LATE k) 1).raise 0x0A06 k
    (leBytes 8 cyc.toNat ++ leBytes 1 k)) = t := ⟨_, rfl⟩
  have hoff : OffCycle (· = MEL_EVT) (marked.setFlag MEL_EVT_LATE true) t := ht ▸ ((OffCycle.refl _ _).satBump hcount).raise
  have hclasses : t.classes = marked.classes := ht ▸ raise_classes _ _ _ _
  have hbeam : t.hbeam k = { s.hbeam k with late := true, lateCyc := cyc } :=
    (congrArg (fun h : Hedge => tget HedgeBeam.reset h.beams k) hoff.hedge).trans (hbeam_setHbeam_self s k _)
  rw [ht, hbeam]
  exact ⟨rfl, rfl, (hoff.flag rfl).trans (flag_setFlag_self _ _ _ (by decide) (by decide)), hoff.img, hclasses, hoff.tx⟩

section
variable {s : State} (k : Fin 4) (hheld : s.ctl.held = false) (hformed : s.flag MEL_STAT_FORMED = true)
include hheld hformed

theorem late_marks (cyc : BitVec 64) : ∃ t, exec (.late k cyc) s = .next t ∧ (t.hbeam k).late = true ∧ (t.hbeam k).lateCyc = cyc ∧
    t.flag MEL_EVT_LATE = true ∧ t.img = s.img ∧ t.classes = s.classes := by
  obtain ⟨hlate, hcyc, hflag, himg, hclasses, -⟩ := markLate_marks s k cyc
  exact ⟨_, if_neg (by simp [hheld, hformed]), hlate, hcyc, hflag, himg, hclasses⟩

theorem cutInstant_late (hmember : s.member = 0) (hexec : (s.cls k).executed = true) (hbeam : (s.cls k).beam ≠ .none)
    (hnot : (s.hbeam k).late = false) (hcut : 1000 * ((s.cls k).t0.toNat + s.dout k) < s.tbNs) :
    ∃ t, exec (.cutInstant k) s = .next t ∧ t.tx = s.tx ++ [.late k (s.cls k).cyc] ∧ (t.hbeam k).late = true ∧
      (t.hbeam k).lateCyc = (s.cls k).cyc ∧ t.flag MEL_EVT_LATE = true := by
  obtain ⟨hlate, hcyc, hflag, -, -, htx⟩ := markLate_marks (s.send (.late k (s.cls k).cyc)) k (s.cls k).cyc
  refine ⟨_, ?_, htx, hlate, hcyc, hflag⟩
  show execCutInstant k s = _
  unfold execCutInstant
  extract_lets c cut
  have hpast : ¬ s.tbNs ≤ cut := by
    unfold cut c
    omega
  exact if_neg (by simp [c, hheld, hformed, hmember, hexec, hbeam, hnot, hpast])

end

/-! ### The end of a beam in a hedge (R52) -/

/-- From `s` to `t` the image, the hedge, the beams, the updates and the package of an edit have not changed. -/
def BesideBeam (s t : State) : Prop :=
  t.img = s.img ∧ t.hedge = s.hedge ∧ t.edit.pkg = s.edit.pkg ∧ t.upd = s.upd ∧ ∀ j, (t.cls j).beam = (s.cls j).beam

section
variable {s t u : State} {k : Nat}

theorem BesideBeam.trans (h : BesideBeam s t) (g : BesideBeam t u) : BesideBeam s u := by
  obtain ⟨himg, hhedge, hpkg, hupd, hbeam⟩ := h
  obtain ⟨gimg, ghedge, gpkg, gupd, gbeam⟩ := g
  exact ⟨gimg.trans himg, ghedge.trans hhedge, gpkg.trans hpkg, gupd.trans hupd, fun j => (gbeam j).trans (hbeam j)⟩

theorem BesideBeam.pkg (h : BesideBeam s t) : t.edit.pkg = s.edit.pkg := h.2.2.1

theorem BesideBeam.updates (h : BesideBeam s t) : t.upd = s.upd := h.2.2.2.1

theorem BeamStep.besideBeam (h : BeamStep s t) : BesideBeam s t :=
  ⟨h.img, (congrArg State.hedge h.1 :), h.pkg, h.updates, h.2.1⟩

/-- An update of other parts of the state. -/
theorem BesideBeam.upd (h : BesideBeam s t) (himg : u.img = t.img := by rfl) (hhedge : u.hedge = t.hedge := by rfl)
    (hedit : u.edit = t.edit := by rfl) (hupd : u.upd = t.upd := by rfl) (hcls : u.classes = t.classes := by rfl) : BesideBeam s u :=
  h.trans ⟨himg, hhedge, congrArg EditSt.pkg hedit, hupd, fun j => by rw [State.cls, hcls, State.cls]⟩

theorem BesideBeam.setFlag (h : BesideBeam s t) {f : Fld} {b : Bool} : BesideBeam s (t.setFlag f b) := h.upd

theorem BesideBeam.withTrace (h : BesideBeam s t) {x : Trace} : BesideBeam s { t with trace := x } := h.upd

theorem BesideBeam.traceCycle (h : BesideBeam s t) : BesideBeam s (t.traceCycle k) := by
  unfold State.traceCycle State.traceEnd
  exact ite_inv (ite_inv (ite_inv h.withTrace.setFlag.setFlag.withTrace h.withTrace.withTrace) h.withTrace) h

theorem BesideBeam.shuttleStart (h : BesideBeam s t) : BesideBeam s (t.shuttleStart k) := by
  unfold State.shuttleStart
  exact ite_inv h.upd h

/-- A beam that is over leaves the image and the hedge as they are, in a pair and under a trace too. -/
theorem beamEnd_besideBeam (hk : k < 4) (hpkg : s.edit.pkg = none) (hact : s.upd.act = none) (htrial : s.upd.trial = none) :
    BesideBeam (s.modCls k fun c => { c with beam := .none }) (s.beamEnd k) := by
  obtain ⟨-, hcommit, hmax, hlast, hstat⟩ := beam_ne hk
  unfold State.beamEnd
  extract_lets c r us ended peaked shown noted copied counted sent built
  have hended : BeamStep (s.modCls k fun c => { c with beam := .none }) ended := (BeamStep.refl _).fput hcommit
  have hnoted : BeamStep (s.modCls k fun c => { c with beam := .none }) noted :=
    (((hended.fput hmax).fput hlast).fput hstat).countG.noteSlack
  have hfirst : BeamStep (s.modCls k fun c => { c with beam := .none }) (noted.editFirst k) := hnoted.editFirst hpkg
  have htraced := hfirst.besideBeam.traceCycle (k := k)
  have hcopied : BesideBeam (s.modCls k fun c => { c with beam := .none }) copied :=
    htraced.trans ((BeamStep.refl _).activationCopy ((congrArg Upd.act htraced.updates).trans hact)).besideBeam
  have hcounted : BesideBeam (s.modCls k fun c => { c with beam := .none }) counted :=
    ite_inv (hcopied.trans ((BeamStep.refl _).trialCount ((congrArg Upd.trial hcopied.updates).trans htrial)).besideBeam) hcopied
  have hsent := hcounted.shuttleStart (k := k)
  have hbuilt : BesideBeam (s.modCls k fun c => { c with beam := .none }) built := by
    have hframes : ∀ cyc launch ovr, BesideBeam (s.modCls k fun c => { c with beam := .none }) (sent.buildFrames k cyc launch ovr) :=
      fun _ _ _ => hsent.trans (BeamStep.refl _).buildFrames.besideBeam
    exact ite_inv (ite_inv (hframes _ _ _) (ite_inv hsent (hframes _ _ _))) hsent
  exact hbuilt.trans ((BeamStep.refl _).dryStart (hbuilt.pkg.trans hpkg)).besideBeam

end

/-! ### RELEASE (R359) -/

section
variable {s : State} {k : Nat}

/-- What arrives with a beam changes the image, the status words and the transfer records. -/
theorem takeExports_rest (s : State) (k : Nat) : { s.takeExports k with
    img := s.img, sw := s.sw, hedge := { (s.takeExports k).hedge with transfers := s.hedge.transfers } } = s := by
  unfold State.takeExports
  refine each_inv (P := fun t : State => { t with
    img := s.img, sw := s.sw, hedge := { t.hedge with transfers := s.hedge.transfers } } = s) rfl fun t ht x => ?_
  extract_lets img sw
  have hsw : { sw with img := s.img, sw := s.sw, hedge := { sw.hedge with transfers := s.hedge.transfers } } = s := each_inv
    (P := fun t : State => { t with img := s.img, sw := s.sw, hedge := { t.hedge with transfers := s.hedge.transfers } } = s) ht fun _ h _ => h
  exact each_inv
    (P := fun t : State => { t with img := s.img, sw := s.sw, hedge := { t.hedge with transfers := s.hedge.transfers } } = s) hsw fun _ h _ => h

theorem takeExports_none (hnone : (s.hbeam k).exports = []) : s.takeExports k = s := by
  unfold State.takeExports
  rw [hnone]
  rfl

theorem takeExports_one {m : ExportMsg} {off : Nat} {mask val : Byte} (hone : (s.hbeam k).exports = [m])
    (hcyc : m.cycle = (s.cls k).beamCyc) (hbytes : m.bytes = [(off, mask, val)]) :
    (s.takeExports k).img = imgMask s.img off mask val := by
  unfold State.takeExports
  extract_lets cyc
  have hthis : (s.hbeam k).exports.filter (fun x => x.cycle == cyc) = [m] := by rw [hone]; simp [cyc, hcyc]
  rw [hthis]
  show (each m.transfers (each m.sw { s with img := each m.bytes s.img _ } _) _ : State).img = _
  rw [hbytes]
  refine each_inv (P := fun t : State => t.img = imgMask s.img off mask val) ?_ fun _ h _ => h
  exact each_inv (P := fun t : State => t.img = imgMask s.img off mask val) rfl fun _ h _ => h

/-- The module with what a RELEASE brings in, before the end of the beam. -/
def State.releasing (s : State) (k : Nat) : State :=
  let t := (s.takeExports k).setHbeam k { HedgeBeam.reset with late := (s.hbeam k).late, lateCyc := (s.hbeam k).lateCyc }
  { t with hedge := { t.hedge with old := tset none t.hedge.old k none } }

theorem releaseBeam_eq {at_ : Nat} (hcommit : (s.hbeam k).commitAt = some at_) : s.releaseBeam k =
    ((s.releasing k).fput (MEL_XLAST_LAST_NS k) (2 * ((s.releasing k).fab - at_))).beamEnd k := by
  unfold State.releaseBeam
  dsimp only
  rw [hcommit]
  rfl

/-- The RELEASE of a committed beam brings in what has arrived for it, and ends the beam. -/
theorem releaseBeam_ends {at_ : Nat} (hk : k < 4) (hcommit : (s.hbeam k).commitAt = some at_) (hpkg : s.edit.pkg = none)
    (hact : s.upd.act = none) (htrial : s.upd.trial = none) : ((s.releaseBeam k).cls k).beam = .none ∧
      ((s.releaseBeam k).hbeam k).commitAt = none ∧ (s.releaseBeam k).img = (s.takeExports k).img := by
  have hrest := takeExports_rest s k
  have hedit : (s.releasing k).edit = s.edit := (congrArg State.edit hrest :)
  have hupd : (s.releasing k).upd = s.upd := (congrArg State.upd hrest :)
  have hbeam : ((s.releasing k).hbeam k).commitAt = none := congrArg HedgeBeam.commitAt (hbeam_setHbeam_self (s.takeExports k) k _)
  rw [releaseBeam_eq hcommit]
  obtain ⟨v, hv⟩ : ∃ v, (s.releasing k).fput (MEL_XLAST_LAST_NS k) (2 * ((s.releasing k).fab - at_)) = v := ⟨_, rfl⟩
  have hvimg : v.img = (s.takeExports k).img := hv ▸ rfl
  have hvhedge : v.hedge = (s.releasing k).hedge := hv ▸ rfl
  have hvedit : v.edit = s.edit := hv ▸ hedit
  have hvupd : v.upd = s.upd := hv ▸ hupd
  obtain ⟨himg, hhedge, -, -, hbeams⟩ := beamEnd_besideBeam (s := v) hk (by rw [hvedit, hpkg]) (by rw [hvupd, hact]) (by rw [hvupd, htrial])
  rw [hv]
  refine ⟨?_, ?_, himg.trans hvimg⟩
  · rw [hbeams, cls_modCls_self]
  · exact (congrArg (fun h : Hedge => (tget HedgeBeam.reset h.beams k).commitAt) (hhedge.trans hvhedge)).trans hbeam

end

section
variable {s : State} {k : Fin 4} {cyc : BitVec 64} (hheld : s.ctl.held = false) (hformed : s.flag MEL_STAT_FORMED = true)
include hheld hformed

theorem release_ends {at_ : Nat} (hpkg : s.edit.pkg = none) (hact : s.upd.act = none) (htrial : s.upd.trial = none)
    (hcommit : (s.hbeam k).commitAt = some at_) (hcyc : (s.cls k).beamCyc = cyc) (m : ExportMsg) (off : Nat) (mask val : Byte) :
    ∃ t, exec (.release k cyc false) s = .next t ∧ (t.cls k).beam = .none ∧ (t.hbeam k).commitAt = none ∧
      ((s.hbeam k).exports = [m] → m.cycle = cyc → m.bytes = [(off, mask, val)] →
        imgGet t.img off = (imgGet s.img off &&& ~~~mask) ||| (val &&& mask) ∧ ∀ a, a ≠ off → imgGet t.img a = imgGet s.img a) ∧
      ((s.hbeam k).exports = [] → t.img = s.img) := by
  obtain ⟨hbeam, hdone, himg⟩ := releaseBeam_ends k.isLt hcommit hpkg hact htrial
  have hnext : exec (.release k cyc false) s = .next (s.releaseBeam k) := by
    show execRelease k cyc false s = _
    unfold execRelease
    rw [if_neg (by simp [hheld, hformed, hcyc])]
    rfl
  refine ⟨_, hnext, hbeam, hdone, fun hone hm hbytes => ?_, fun hnone => ?_⟩
  · rw [himg, takeExports_one hone (hm.trans hcyc.symm) hbytes]
    exact ⟨imgGet_imgSet_self _ _ _, fun a ha => imgGet_imgSet_ne _ _ ha⟩
  · rw [himg, takeExports_none hnone]

end

theorem release_other_cycle {s : State} {k : Fin 4} {cyc : BitVec 64} (late : Bool) (hcyc : (s.cls k).beamCyc ≠ cyc) :
    exec (.release k cyc late) s = .next s := if_pos (by simp [hcyc])

end Sys2Proof.Machine
end
section
/-!
CERTIFICATE. Beats and accesses of other modules of a hedge, and with them the statement about its traffic (R154, R156, R157, R356, R362).
-/
namespace Sys2Proof.Machine

set_option Elab.async false

/-! ### Beat messages (R356) -/

/-- Strands of a list without repeats that are changed one by one: each is changed once, and no other. -/
theorem strand_each_modStrand (s : State) {l : List Nat} (hl : l.Nodup) (f : Strand → Strand) (j : Nat) :
    (each l s fun s st => s.modStrand st f).strand j = if j ∈ l then f (s.strand j) else s.strand j := by
  induction l generalizing s with
  | nil => rfl
  | cons a l ih =>
    obtain ⟨ha, hl⟩ := List.nodup_cons.mp hl
    show (each l (s.modStrand a f) fun s st => s.modStrand st f).strand j = _
    rw [ih (s.modStrand a f) hl]
    by_cases hj : j = a
    · subst hj
      rw [if_neg ha, if_pos (List.mem_cons_self ..), strand_modStrand_self]
    · rw [strand_modStrand_ne _ _ hj]
      simp [hj]

theorem nodup_strandsOf (s : State) (k : Nat) : (s.strandsOf k).Nodup := List.nodup_range.filter _

/-- A strand after beat `b` of its class: its wait for the beat is over (R98). -/
def Strand.afterBeat (b : Nat) (x : Strand) : Strand :=
  match x.stall with
  | some w => if w.on = .beat b then { x with stall := some { w with released := true } } else x
  | none => x

theorem Strand.afterBeat_released {b : Nat} {x : Strand} {w : Stall} (hstall : x.stall = some w) (hon : w.on = .beat b) :
    x.afterBeat b = { x with stall := some { w with released := true } } := by
  unfold Strand.afterBeat
  rw [hstall]
  exact if_pos hon

/-- What a beat message changes beside the strands that it releases: its class, and for a forced beat status words. -/
theorem beatMessage_next {s : State} {b : BeatMsg} (hheld : s.ctl.held = false) (hformed : s.flag MEL_STAT_FORMED = true)
    (hother : b.owner.toNat / 16 ≠ s.member) : ∃ v,
      exec (.beatMessage b) s = .next (each (v.strandsOf b.cls.val) v fun v st => v.modStrand st (Strand.afterBeat b.beat.val)) ∧
      { v with classes := s.classes, sw := s.sw } = s ∧ (b.forced = false → v.sw = s.sw) := by
  show ∃ v, execBeatMessage b s = _ ∧ _
  unfold execBeatMessage
  extract_lets k n from_ view told shown
  rw [if_neg (by simp [hheld, hformed, from_, hother])]
  refine ⟨shown, rfl, ?_, fun hforced => ?_⟩
  · have htold : { told with classes := s.classes, sw := s.sw } = s := rfl
    exact ite_inv (P := fun v : State => { v with classes := s.classes, sw := s.sw } = s) (each_inv
      (P := fun v : State => { v with classes := s.classes, sw := s.sw } = s) htold fun _ h _ => h) htold
  · have hshown : shown = told := if_neg (by rw [hforced]; exact Bool.false_ne_true)
    rw [hshown]
    rfl

theorem beatMessage_releases {s : State} {b : BeatMsg} (hheld : s.ctl.held = false) (hformed : s.flag MEL_STAT_FORMED = true)
    (hother : b.owner.toNat / 16 ≠ s.member) : ∃ t, exec (.beatMessage b) s = .next t ∧ t.img = s.img ∧ t.mem = s.mem ∧
      (∀ j, j < 16 → (s.cfg j).cls = b.cls.val → ∀ w, (s.strand j).stall = some w → w.on = .beat b.beat.val →
        t.strand j = { s.strand j with stall := some { w with released := true } }) ∧
      (∀ j, (s.cfg j).cls ≠ b.cls.val → t.strand j = s.strand j) ∧ (b.forced = false → t.sw = s.sw) := by
  obtain ⟨v, hnext, hrest, hsw⟩ := beatMessage_next hheld hformed hother
  obtain ⟨t, ht⟩ : ∃ t, each (v.strandsOf b.cls.val) v (fun v st => v.modStrand st (Strand.afterBeat b.beat.val)) = t := ⟨_, rfl⟩
  have hlist : v.strandsOf b.cls.val = s.strandsOf b.cls.val := (congrArg (State.strandsOf · b.cls.val) hrest :)
  have hothers : { t with strands := v.strands } = v :=
    ht ▸ each_inv (P := fun t : State => { t with strands := v.strands } = v) rfl fun _ h _ => h
  have hstrand : ∀ j, t.strand j = if j ∈ s.strandsOf b.cls.val then (s.strand j).afterBeat b.beat.val else s.strand j := fun j => by
    rw [← ht, strand_each_modStrand v (nodup_strandsOf v _), hlist, show v.strand j = s.strand j from (congrArg (State.strand · j) hrest :)]
  refine ⟨t, hnext.trans (congrArg _ ht), ?_, ?_, fun j hj hcls w hstall hon => ?_, fun j hcls => ?_, fun hforced => ?_⟩
  · exact (congrArg State.img hothers :).trans (congrArg State.img hrest :)
  · exact (congrArg State.mem hothers :).trans (congrArg State.mem hrest :)
  · rw [hstrand, if_pos (mem_strandsOf.mpr ⟨hj, hcls⟩), Strand.afterBeat_released hstall hon]
  · rw [hstrand, if_neg fun h => hcls (mem_strandsOf.mp h).2]
  · exact (congrArg State.sw hothers :).trans (hsw hforced)

/-! ### Answers of other modules (R157, R362) -/

section
variable {s : State} {st : Fin 16} (hheld : s.ctl.held = false)

/-- The answer for a strand that waits for another module ends its wait. -/
theorem answerStrand_answers {sc : Bool} (hwait : s.waitsMember st sc = true) (a : MemberAnswer) :
    ((s.answerStrand st a).strand st).answer = some a ∧ ((s.answerStrand st a).strand st).stall.map (·.released) = some true ∧
      (∀ j, j ≠ st.val → (s.answerStrand st a).strand j = s.strand j) ∧ { s.answerStrand st a with strands := s.strands } = s := by
  obtain ⟨w, hstall⟩ : ∃ w, (s.strand st.val).stall = some w := by
    unfold State.waitsMember at hwait
    split at hwait
    · next w hstall => exact ⟨w, hstall⟩
    · exact absurd hwait Bool.false_ne_true
  unfold State.answerStrand
  refine ⟨?_, ?_, fun j hj => strand_modStrand_ne _ _ hj, rfl⟩
  · rw [strand_modStrand_self]
  · rw [strand_modStrand_self, hstall]
    rfl

include hheld

theorem bankedAccess_completes (v : Word) (hwait : s.waitsMember st false = true) :
    exec (.bankedAccessComplete st (.value v)) s = .next (s.answerStrand st { value := v, failed := false }) := by
  show execBankedAccessComplete st (.value v) s = _
  unfold execBankedAccessComplete
  rw [if_neg (by rw [hheld]; exact Bool.false_ne_true)]
  exact congrArg Host.Outcome.next (if_pos hwait)

theorem scAnswer_completes (failed : Bool) (hwait : s.waitsMember st true = true) :
    exec (.scAnswer st failed) s = .next (s.answerStrand st { value := 0, failed := failed }) := if_neg (by simp [hheld, hwait])

theorem bankedAccess_absent (hwait : s.waitsMember st false = true) (htrial : s.onTrial (s.cfg st).cls = false)
    (hpol : bitAt (s.fget TRAP_POL_POL) (s.cfg st).cls = false) : ∃ t, exec (.bankedAccessComplete st .absent) s = .next t ∧
      (t.strand st).run = .halted ∧ t.fget (TRAP_INFO_CODE st) = trSysPerm := by
  have hnext : exec (.bankedAccessComplete st .absent) s = .next ((s.recordTrap st trSysPerm).haltStrand st 0) := by
    show execBankedAccessComplete st .absent s = _
    unfold execBankedAccessComplete
    rw [if_neg (by rw [hheld]; exact Bool.false_ne_true), ← trap_halts (by decide) (shadow_of_onTrial htrial) hpol]
    dsimp only
    rw [if_pos (by rw [hwait]; rfl), State.memberTrap, htrial]
    rfl
  have hhalts := haltStrand_halts (K := BelowBeats) (s.recordTrap st trSysPerm) st 0 fun frc b => beatFld_not_belowBeats frc _ b
  obtain ⟨-, hrun, -⟩ := id hhalts
  have hinfo : BelowBeats (TRAP_INFO st) := by
    unfold BelowBeats TRAP_INFO
    omega
  exact ⟨_, hnext, hrun, (hhalts.fget hinfo).trans (recordTrap_code s st.isLt (by decide))⟩

end

/-! ### Accesses of other modules (R154, R156, R157, R362) -/

theorem mem_tput_self {α : Type} (t : Tab α) (k : Nat) (x : α) : (k, x) ∈ tput t k x := by
  induction t with
  | nil => exact List.mem_singleton_self _
  | cons e t ih =>
    obtain ⟨a, y⟩ := e
    unfold tput
    split
    · exact List.mem_cons_self ..
    · split
      · exact List.mem_cons_self ..
      · exact List.mem_cons_of_mem _ ih

/-- The `n` bytes `bs` stand at `a`, and no other memory has changed, nor the image, nor what has been sent. -/
def Puts (s t : State) (a n : Nat) (bs : List Byte) : Prop :=
  t.mgetN a n = bs ∧ (∀ key, key < a ∨ a + n ≤ key → t.mget key = s.mget key) ∧ t.tx = s.tx ∧ t.img = s.img

theorem Puts.of_stored {s t : State} {st a : Nat} {bs : List Byte} (hstored : OnlyStored st s t) (hmem : t.mem = (s.msetN a bs).mem) :
    Puts s t a bs.length bs := by
  obtain ⟨hrest, -, -⟩ := hstored
  refine ⟨(mgetN_congr hmem _ _).trans (mgetN_msetN_self s a bs), fun key hkey => (mget_congr hmem key).trans ?_, (congrArg State.tx hrest :),
    (congrArg State.img hrest :)⟩
  exact hkey.elim (mget_msetN_below s a bs) (mget_msetN_above s a bs)

/-- A store of an agent that is no strand takes reservations, and puts its bytes. -/
theorem memberPut_puts (s : State) (a : Nat) {n : Nat} {bs : List Byte} (hn : bs.length = n) :
    Puts s ((s.msetN a bs).breakResv 16 a n) a n bs := by
  subst hn
  obtain ⟨hstored, hmem⟩ := (OnlyStored.msetN 16 s a bs).breakResv a bs.length
  exact .of_stored hstored hmem

theorem Puts.upd {s t u : State} {a n : Nat} {bs : List Byte} (h : Puts s t a n bs) (hmem : u.mem = t.mem := by rfl)
    (htx : u.tx = t.tx := by rfl) (himg : u.img = t.img := by rfl) : Puts s u a n bs := by
  obtain ⟨hbytes, hothers, hsent, himage⟩ := h
  exact ⟨(mgetN_congr hmem a n).trans hbytes, fun key hkey => (mget_congr hmem key).trans (hothers key hkey), htx.trans hsent,
    himg.trans himage⟩

theorem memberStore_puts (s : State) (m st a : Nat) {n : Nat} {bs : List Byte} (hn : bs.length = n) :
    Puts s (s.memberStore m st a bs) a n bs := by
  unfold State.memberStore
  extract_lets mine t
  have ht : Puts s t a n bs := by
    unfold t
    rw [hn]
    exact memberPut_puts s a hn
  exact each_inv (P := fun u => Puts s u a n bs) ht fun _ h _ => h.upd

section
variable {s : State} {m st : Fin 16} (off : Nat) (hheld : s.ctl.held = false) (hmode : s.mode ≠ mDormant)
  (hformed : s.flag MEL_STAT_FORMED = true) (hother : m.val ≠ s.member)
include hheld hmode hformed hother

/-- A request of another module is answered in a formed hedge. -/
theorem memberRequest_serves : ¬ (s.stewardOff || !s.flag MEL_STAT_FORMED || m.val == s.member) = true := by
  simp [stewardOff_eq_false hheld hmode, hformed, hother]

theorem memberLoad_answers (hok : s.memberRefusal (0x10000000 + off) 4 false = none) :
    exec (.memberAccessRequest m st (.load 0 off 4)) s = .next { s with
      tx := s.tx ++ [.memberAnswer m st (BitVec.ofNat 32 (leNat (s.mgetN (0x10000000 + off) 4))) false none] } := by
  show execMemberAccessRequest m st (.load 0 off 4) s = _
  unfold execMemberAccessRequest
  dsimp only
  rw [if_neg (memberRequest_serves hheld hmode hformed hother), if_pos (show (0 : Fin 2).val = 0 from rfl), hok]
  rfl

theorem memberLr_reserves (hok : s.memberRefusal (0x10000000 + off) 4 false = none) :
    ∃ t, exec (.memberAccessRequest m st (.lr off)) s = .next t ∧ (16 * m.val + st.val, (0x10000000 + off) / 32) ∈ t.remoteResv ∧
      t.mem = s.mem ∧ t.tx = s.tx ++ [.memberAnswer m st (BitVec.ofNat 32 (leNat (s.mgetN (0x10000000 + off) 4))) false none] := by
  refine ⟨{ s with remoteResv := tput s.remoteResv (16 * m.val + st.val) ((0x10000000 + off) / 32),
                   tx := s.tx ++ [.memberAnswer m st (BitVec.ofNat 32 (leNat (s.mgetN (0x10000000 + off) 4))) false none] },
    ?_, mem_tput_self _ _ _, rfl, rfl⟩
  show execMemberAccessRequest m st (.lr off) s = _
  unfold execMemberAccessRequest
  dsimp only
  rw [if_neg (memberRequest_serves hheld hmode hformed hother), hok]
  rfl

theorem memberStore_stores (v : Word) (hok : s.memberRefusal (0x10000000 + off) 4 true = none) :
    ∃ t, exec (.memberAccessRequest m st (.store off 4 v)) s = .next t ∧ t.mgetN (0x10000000 + off) 4 = leBytes 4 v.toNat ∧
      (∀ key, key < 0x10000000 + off ∨ 0x10000000 + off + 4 ≤ key → t.mget key = s.mget key) ∧
      t.tx = s.tx ++ [.memberAnswer m st 0 false none] ∧ t.img = s.img := by
  have hput := memberStore_puts s m st (0x10000000 + off) (leBytes_length 4 v.toNat)
  obtain ⟨u, hu⟩ : ∃ u, s.memberStore m st (0x10000000 + off) (leBytes 4 v.toNat) = u := ⟨_, rfl⟩
  rw [hu] at hput
  obtain ⟨hbytes, hothers, htx, himg⟩ := hput
  refine ⟨u.memberAnswer m st 0 false none, ?_, hbytes, hothers, congrArg (· ++ _) htx, himg⟩
  show execMemberAccessRequest m st (.store off 4 v) s = _
  unfold execMemberAccessRequest
  dsimp only
  rw [if_neg (memberRequest_serves hheld hmode hformed hother), hok, ← hu]

/-- The SC of a strand of another module whose reservation is still held stores. -/
theorem memberSc_stores (v : Word) (hok : s.memberRefusal (0x10000000 + off) 4 true = none)
    (hresv : (16 * m.val + st.val, (0x10000000 + off) / 32) ∈ s.remoteResv) :
    ∃ t, exec (.memberAccessRequest m st (.sc off v)) s = .next t ∧ t.mgetN (0x10000000 + off) 4 = leBytes 4 v.toNat ∧
      (∀ key, key < 0x10000000 + off ∨ 0x10000000 + off + 4 ≤ key → t.mget key = s.mget key) ∧
      t.tx = s.tx ++ [.memberAnswer m st 0 false none] := by
  have hfound : s.remoteResv.any (fun r => r.1 == 16 * m.val + st.val && r.2 == (0x10000000 + off) / 32) = true :=
    List.any_eq_true.mpr ⟨_, hresv, by simp⟩
  obtain ⟨w, hw⟩ : ∃ w : State, { s with remoteResv := tdel s.remoteResv (16 * m.val + st.val) } = w := ⟨_, rfl⟩
  have hput := memberPut_puts w (0x10000000 + off) (leBytes_length 4 v.toNat)
  obtain ⟨u, hu⟩ : ∃ u, (w.msetN (0x10000000 + off) (leBytes 4 v.toNat)).breakResv 16 (0x10000000 + off) 4 = u := ⟨_, rfl⟩
  rw [hu] at hput
  obtain ⟨hbytes, hothers, htx, -⟩ := hput
  refine ⟨u.memberAnswer m st 0 false none, ?_, hbytes, fun key hkey => (hothers key hkey).trans (hw ▸ rfl),
    congrArg (· ++ _) (htx.trans (hw ▸ rfl))⟩
  show execMemberAccessRequest m st (.sc off v) s = _
  unfold execMemberAccessRequest
  dsimp only
  rw [if_neg (memberRequest_serves hheld hmode hformed hother), hok]
  dsimp only
  rw [if_pos hfound, hw, hu]

theorem memberSc_fails (v : Word) (hok : s.memberRefusal (0x10000000 + off) 4 true = none)
    (hresv : (16 * m.val + st.val, (0x10000000 + off) / 32) ∉ s.remoteResv) :
    ∃ t, exec (.memberAccessRequest m st (.sc off v)) s = .next t ∧ t.mem = s.mem ∧ t.tx = s.tx ++ [.memberAnswer m st 0 true none] := by
  have hlost : ¬ s.remoteResv.any (fun r => r.1 == 16 * m.val + st.val && r.2 == (0x10000000 + off) / 32) = true := fun h => by
    obtain ⟨⟨key, g⟩, hmem, heq⟩ := List.any_eq_true.mp h
    simp only [Bool.and_eq_true, beq_iff_eq] at heq
    obtain ⟨rfl, rfl⟩ := heq
    exact hresv hmem
  refine ⟨({ s with remoteResv := tdel s.remoteResv (16 * m.val + st.val) } : State).memberAnswer m st 0 true none, ?_, rfl, rfl⟩
  show execMemberAccessRequest m st (.sc off v) s = _
  unfold execMemberAccessRequest
  dsimp only
  rw [if_neg (memberRequest_serves hheld hmode hformed hother), hok]
  dsimp only
  rw [if_neg hlost]

end

/-- Settles O59: the commands of a hedge beam by what they keep of it, and each answer or request of another module by what it meets. -/
theorem hedgeTraffic : Obligations.HedgeTraffic := by
  unfold Obligations.HedgeTraffic
  refine ⟨fun s k m member cyc off mask val hheld hformed hpkg hact htrial _ => ⟨exports_kept hheld hformed, done_kept hheld hformed member,
      fun at_ hcommit hcyc => release_ends hheld hformed hpkg hact htrial hcommit hcyc m off mask val, release_other_cycle false,
      late_marks k hheld hformed cyc, cutInstant_late k hheld hformed⟩,
    fun s b st v m off failed hheld hmode => ⟨beatMessage_releases hheld, fun hwait => ?_, bankedAccess_absent hheld, fun hwait => ?_,
      fun hformed hother _ => ⟨fun hok => ⟨memberLoad_answers off hheld hmode hformed hother hok,
          memberLr_reserves off hheld hmode hformed hother hok⟩,
        fun hok => ⟨memberStore_stores off hheld hmode hformed hother v hok, memberSc_stores off hheld hmode hformed hother v hok,
          memberSc_fails off hheld hmode hformed hother v hok⟩⟩⟩⟩
  · exact ⟨_, bankedAccess_completes hheld v hwait, answerStrand_answers hwait _⟩
  · obtain ⟨hanswer, -, hothers, hrest⟩ := answerStrand_answers hwait { value := 0, failed := failed }
    exact ⟨_, scAnswer_completes hheld failed hwait, hanswer, hothers, hrest⟩

end Sys2Proof.Machine
end
